-- ==== Sys2Proof/Word.lean ====
section
/-! DEFINITION. The word types of the module. -/

namespace Sys2Proof

/-- One byte of memory. -/
abbrev Byte := BitVec 8

/-- A 64-bit word: a register, a tag, a value, an instruction word. -/
abbrev Word := BitVec 64

/-- A 128-bit value: a wide token value or a flit payload. -/
abbrev Wide := BitVec 128

end Sys2Proof
end

