-- ==== Sys2Proof/Syntax.lean ====
section
/-! DEFINITION. The commands of the IDF-5840 block model: one constructor per row of the opcode table.
A block-code command carries the PE that issues it and the fields of the instruction word (R115);
an event command carries the unit it happens at and what the event itself brings. -/

namespace Sys2Proof

/-- The operand fields of a block-code instruction word (R115): bits 55:50, 49:44, 43:38, 37:32 and 31:0. -/
structure Fields where
  dst : BitVec 6
  sa : BitVec 6
  sb : BitVec 6
  sc : BitVec 6
  imm : BitVec 32
  deriving DecidableEq, Repr

/-- A command frame for the management controller (R454 to R457): the channel (1 Ethernet, 2 UART, 3 JTAG, 4 SMBus, 5 mailbox), for the
mailbox the endpoint of the window that holds the frame, and otherwise CMDSEQ, bytes 8 to 15, the payload and the Ethernet tag; `src` is the
source address of a datagram times 2^16 plus its port, or the 7-bit address that an SMBus write names, and `pec` whether that write's PEC holds. -/
structure McReq where
  ch : Nat
  ep : Nat
  seq : Nat
  zero : List (BitVec 8)
  data : List (BitVec 8)
  tag : BitVec 128
  src : Nat
  pec : Bool
  deriving DecidableEq, Repr

/-- A register as REGISTER_WRITE and RCL_READ name it: its address, and the bits that a hardware event sets in it in the same cycle (R6). -/
structure RegAt where
  a : Nat
  hw : BitVec 64
  deriving DecidableEq, Repr

/-- What LRD_LANDING brings: the PE and what its LACC reads as: clean (0), a single-bit error (1) or uncorrectable (2 and above) (R241, R244). -/
structure LrdRead where
  pe : Nat
  upset : Nat
  deriving DecidableEq, Repr

/-- The end of a microword at a PE's micro-sequencer: the conditions that it samples (R440, R441). -/
structure MicroStep where
  pe : Nat
  conds : BitVec 32
  deriving DecidableEq, Repr

/-- An I-view access at an endpoint, and whether the IWRITE or IREAD that R71 sets against it reached the same word in the same cycle. -/
structure IAccess where
  e : Nat
  same : Bool
  deriving DecidableEq, Repr

/-- A router port that ends its training, and how many of its wires failed (R295). -/
structure Trained where
  p : Nat
  bad : Nat
  deriving DecidableEq, Repr

/-- The commands. Each constructor is one row of the table of operations and events. -/
inductive Instr where
  /-- NOP (R156): Issues an instruction with no effect that occupies one slot. -/
  | nop (pe : Nat) (w : BitVec 64)
  /-- END (R130): Ends the activation; with AW = 1 it takes effect four slots after issue. -/
  | endBlk (pe : Nat) (f : Fields)
  /-- BR (R131): Branches to a body offset after one delay slot. -/
  | br (pe : Nat) (f : Fields)
  /-- BRC (R160): Branches to a body offset after one delay slot when condition m holds for SA. -/
  | brc (pe : Nat) (f : Fields)
  /-- REP_I (R137): Repeats the next instruction n times; preemption may suspend it at iteration boundaries. -/
  | repI (pe : Nat) (f : Fields)
  /-- REP_N (R138): Repeats the next instruction up to 256 times without preemption. -/
  | repN (pe : Nat) (f : Fields)
  /-- FENCE_W (R65): Stops issue until every earlier WRITE, IWRITE and ATOM is globally performed and register writes in flight have landed. -/
  | fenceW (pe : Nat) (f : Fields)
  /-- FENCE_A (R66): Stops issue until every earlier request of the activation is performed. -/
  | fenceA (pe : Nat) (f : Fields)
  /-- RESUME (R152): Sends a message that resumes, skips or abandons a suspended activation held in a save frame. -/
  | resume (pe : Nat) (f : Fields)
  /-- ADD (R161): Integer add that wraps modulo 2^64. -/
  | add (pe : Nat) (f : Fields)
  /-- ADDI (R161): Integer add of a sign-extended immediate. -/
  | addi (pe : Nat) (f : Fields)
  /-- SUB (R161): Integer subtract. -/
  | sub (pe : Nat) (f : Fields)
  /-- AND (R161): Bitwise AND. -/
  | andd (pe : Nat) (f : Fields)
  /-- ANDI (R161): Bitwise AND with a zero-extended immediate. -/
  | andi (pe : Nat) (f : Fields)
  /-- OR (R161): Bitwise OR. -/
  | orr (pe : Nat) (f : Fields)
  /-- ORI (R161): Bitwise OR with an immediate. -/
  | ori (pe : Nat) (f : Fields)
  /-- XOR (R161): Bitwise XOR. -/
  | xor (pe : Nat) (f : Fields)
  /-- XORI (R161): Bitwise XOR with an immediate. -/
  | xori (pe : Nat) (f : Fields)
  /-- SHL (R162): Shifts left by SB[5:0]. -/
  | shl (pe : Nat) (f : Fields)
  /-- SHR (R162): Shifts right logically by SB[5:0]. -/
  | shr (pe : Nat) (f : Fields)
  /-- SAR (R162): Shifts right arithmetically by SB[5:0]. -/
  | sar (pe : Nat) (f : Fields)
  /-- SHLI (R162): Shifts left by an immediate. -/
  | shli (pe : Nat) (f : Fields)
  /-- SHRI (R162): Shifts right logically by an immediate. -/
  | shri (pe : Nat) (f : Fields)
  /-- SARI (R162): Shifts right arithmetically by an immediate. -/
  | sari (pe : Nat) (f : Fields)
  /-- CLZ (R161): Counts leading zeros. -/
  | clz (pe : Nat) (f : Fields)
  /-- CMPEQ (R161): Compares for equality. -/
  | cmpeq (pe : Nat) (f : Fields)
  /-- CMPLT (R161): Compares signed less-than. -/
  | cmplt (pe : Nat) (f : Fields)
  /-- CMPLTU (R161): Compares unsigned less-than. -/
  | cmpltu (pe : Nat) (f : Fields)
  /-- MIN (R161): Takes the signed minimum. -/
  | min (pe : Nat) (f : Fields)
  /-- MAX (R161): Takes the signed maximum. -/
  | max (pe : Nat) (f : Fields)
  /-- MINU (R161): Takes the unsigned minimum. -/
  | minu (pe : Nat) (f : Fields)
  /-- MAXU (R161): Takes the unsigned maximum. -/
  | maxu (pe : Nat) (f : Fields)
  /-- SEL (R162): Selects SA or SB by SC in constant time. -/
  | sel (pe : Nat) (f : Fields)
  /-- MOVI (R161): Moves a sign-extended immediate. -/
  | movi (pe : Nat) (f : Fields)
  /-- MOVHI (R161): Sets the high half from the immediate and the low half from SA. -/
  | movhi (pe : Nat) (f : Fields)
  /-- POPC (R161): Counts one bits. -/
  | popc (pe : Nat) (f : Fields)
  /-- EXTU (R162): Extracts an unsigned bit field. -/
  | extu (pe : Nat) (f : Fields)
  /-- ADDQ (R163): Q1.63 add with saturation or wrap. -/
  | addq (pe : Nat) (f : Fields)
  /-- SUBQ (R163): Q1.63 subtract. -/
  | subq (pe : Nat) (f : Fields)
  /-- NEGQ (R163): Q1.63 negate. -/
  | negq (pe : Nat) (f : Fields)
  /-- ABSQ (R163): Q1.63 absolute value. -/
  | absq (pe : Nat) (f : Fields)
  /-- ADDQ32 (R164): Q1.31 add. -/
  | addq32 (pe : Nat) (f : Fields)
  /-- SUBQ32 (R164): Q1.31 subtract. -/
  | subq32 (pe : Nat) (f : Fields)
  /-- SHLQ (R164): Q1.63 shift left with range check. -/
  | shlq (pe : Nat) (f : Fields)
  /-- SHRQ (R197): Q1.63 shift right, rounded by FXRM. -/
  | shrq (pe : Nat) (f : Fields)
  /-- ACCQ (R125): Adds a rounded Q1.63 product to a chained guarded accumulator. -/
  | accq (pe : Nat) (f : Fields)
  /-- ACCQN (R197): Subtracts a rounded Q1.63 product from a guarded accumulator. -/
  | accqn (pe : Nat) (f : Fields)
  /-- ACCQ32 (R164): Adds an exact Q1.31 product to a guarded accumulator. -/
  | accq32 (pe : Nat) (f : Fields)
  /-- GAADD (R163): Adds two guarded accumulators. -/
  | gaadd (pe : Nat) (f : Fields)
  /-- MOVS_GA (R163): Narrows a guarded accumulator to Q1.63. -/
  | movsGa (pe : Nat) (f : Fields)
  /-- MOVS_Q31 (R197): Rounds and narrows a guarded accumulator to Q1.31. -/
  | movsQ31 (pe : Nat) (f : Fields)
  /-- MOVTS_GA (R163): Loads a guarded accumulator from a Q1.63 value. -/
  | movtsGa (pe : Nat) (f : Fields)
  /-- GASHR (R197): Shifts a guarded accumulator right, rounded. -/
  | gashr (pe : Nat) (f : Fields)
  /-- MULL (R143): Low 64 bits of a product. -/
  | mull (pe : Nat) (f : Fields)
  /-- MULHS (R143): High 64 bits of a signed product. -/
  | mulhs (pe : Nat) (f : Fields)
  /-- MULHU (R143): High 64 bits of an unsigned product. -/
  | mulhu (pe : Nat) (f : Fields)
  /-- MULQ (R197): Q1.63 multiply rounded by FXRM with range check. -/
  | mulq (pe : Nat) (f : Fields)
  /-- MULQ32 (R197): Q1.31 multiply rounded by FXRM. -/
  | mulq32 (pe : Nat) (f : Fields)
  /-- DIV_S (R165): Sends a signed divide request to the cluster AE. -/
  | divS (pe : Nat) (f : Fields)
  /-- DIV_U (R165): Sends an unsigned divide request to the AE. -/
  | divU (pe : Nat) (f : Fields)
  /-- REM_S (R165): Sends a signed remainder request to the AE. -/
  | remS (pe : Nat) (f : Fields)
  /-- REM_U (R165): Sends an unsigned remainder request to the AE. -/
  | remU (pe : Nat) (f : Fields)
  /-- MUL128_S (R165): Sends a signed 128-bit multiply request to the AE. -/
  | mul128S (pe : Nat) (f : Fields)
  /-- MUL128_U (R165): Sends an unsigned 128-bit multiply request to the AE. -/
  | mul128U (pe : Nat) (f : Fields)
  /-- DIVQ (R204): Sends a Q1.63 divide request to the AE. -/
  | divq (pe : Nat) (f : Fields)
  /-- FDIV_D (R204): Sends a binary64 divide request to the AE. -/
  | fdivD (pe : Nat) (f : Fields)
  /-- FDIV_S (R204): Sends a binary32 divide request to the AE. -/
  | fdivS (pe : Nat) (f : Fields)
  /-- FSQRT_D (R204): Sends a binary64 square-root request to the AE. -/
  | fsqrtD (pe : Nat) (f : Fields)
  /-- FSQRT_S (R204): Sends a binary32 square-root request to the AE. -/
  | fsqrtS (pe : Nat) (f : Fields)
  /-- ISQRT (R193): Sends an integer square-root request to the AE. -/
  | isqrt (pe : Nat) (f : Fields)
  /-- FADD_D (R168): Binary64 add. -/
  | faddD (pe : Nat) (f : Fields)
  /-- FSUB_D (R212): Binary64 subtract. -/
  | fsubD (pe : Nat) (f : Fields)
  /-- FMUL_D (R168): Binary64 multiply. -/
  | fmulD (pe : Nat) (f : Fields)
  /-- FMA_D (R168): Binary64 fused multiply-add with one rounding. -/
  | fmaD (pe : Nat) (f : Fields)
  /-- FMS_D (R212): Binary64 fused multiply-subtract. -/
  | fmsD (pe : Nat) (f : Fields)
  /-- FNMA_D (R212): Binary64 negated fused multiply-add. -/
  | fnmaD (pe : Nat) (f : Fields)
  /-- FMIN_D (R212): Binary64 minimumNumber. -/
  | fminD (pe : Nat) (f : Fields)
  /-- FMAX_D (R212): Binary64 maximumNumber. -/
  | fmaxD (pe : Nat) (f : Fields)
  /-- FCMP_D (R169): Binary64 comparison by relation m. -/
  | fcmpD (pe : Nat) (f : Fields)
  /-- FCVT_D_S (R213): Converts binary32 to binary64 exactly. -/
  | fcvtDS (pe : Nat) (f : Fields)
  /-- FCVT_S_D (R213): Converts binary64 to binary32. -/
  | fcvtSD (pe : Nat) (f : Fields)
  /-- FCVT_D_I (R213): Converts an integer to binary64. -/
  | fcvtDI (pe : Nat) (f : Fields)
  /-- FCVT_I_D (R171): Converts binary64 to a signed integer. -/
  | fcvtID (pe : Nat) (f : Fields)
  /-- FCVT_D_Q (R213): Converts Q1.63 to binary64. -/
  | fcvtDQ (pe : Nat) (f : Fields)
  /-- FCVT_Q_D (R171): Converts binary64 to Q1.63 with forced saturation. -/
  | fcvtQD (pe : Nat) (f : Fields)
  /-- FSGN_D (R170): Binary64 sign operation. -/
  | fsgnD (pe : Nat) (f : Fields)
  /-- FADD_S (R168): Binary32 add. -/
  | faddS (pe : Nat) (f : Fields)
  /-- FSUB_S (R212): Binary32 subtract. -/
  | fsubS (pe : Nat) (f : Fields)
  /-- FMUL_S (R168): Binary32 multiply. -/
  | fmulS (pe : Nat) (f : Fields)
  /-- FMA_S (R168): Binary32 fused multiply-add. -/
  | fmaS (pe : Nat) (f : Fields)
  /-- FMS_S (R212): Binary32 fused multiply-subtract. -/
  | fmsS (pe : Nat) (f : Fields)
  /-- FNMA_S (R212): Binary32 negated fused multiply-add. -/
  | fnmaS (pe : Nat) (f : Fields)
  /-- FMIN_S (R212): Binary32 minimumNumber. -/
  | fminS (pe : Nat) (f : Fields)
  /-- FMAX_S (R212): Binary32 maximumNumber. -/
  | fmaxS (pe : Nat) (f : Fields)
  /-- FCMP_S (R169): Binary32 comparison. -/
  | fcmpS (pe : Nat) (f : Fields)
  /-- FCLASS (R170): Writes the class mask of a float. -/
  | fclass (pe : Nat) (f : Fields)
  /-- FCVT_S_I (R213): Converts an integer to binary32. -/
  | fcvtSI (pe : Nat) (f : Fields)
  /-- FCVT_I_S (R171): Converts binary32 to a signed integer. -/
  | fcvtIS (pe : Nat) (f : Fields)
  /-- FSGN_S (R170): Binary32 sign operation. -/
  | fsgnS (pe : Nat) (f : Fields)
  /-- LDL (R172): Loads from the PE's local store. -/
  | ldl (pe : Nat) (f : Fields)
  /-- STL (R172): Stores to the PE's local store. -/
  | stl (pe : Nat) (f : Fields)
  /-- MOVS (R174): Reads a special register or the high half of an input. -/
  | movs (pe : Nat) (f : Fields)
  /-- MOVTS (R121): Writes a special register, faulting on reserved values. -/
  | movts (pe : Nat) (f : Fields)
  /-- SEND (R30): Sends a token built from the descriptor. -/
  | send (pe : Nat) (f : Fields)
  /-- SENDW (R30): Sends a wide token. -/
  | sendw (pe : Nat) (f : Fields)
  /-- READ (R179): Issues a memory read request. -/
  | read (pe : Nat) (f : Fields)
  /-- WRITE (R179): Issues a memory write request. -/
  | write (pe : Nat) (f : Fields)
  /-- IREAD (R68): Issues an I-structure read request. -/
  | iread (pe : Nat) (f : Fields)
  /-- IWRITE (R68): Issues an I-structure write request. -/
  | iwrite (pe : Nat) (f : Fields)
  /-- ATOM (R181): Issues an atomic request in form m. -/
  | atom (pe : Nat) (f : Fields)
  /-- NEWCTX (R182): Issues a context creation request. -/
  | newctx (pe : Nat) (f : Fields)
  /-- FREECTX (R183): Issues a request to free a context. -/
  | freectx (pe : Nat) (f : Fields)
  /-- FREECTX_I (R50): Issues the iteration-retire form of FREECTX. -/
  | freectxI (pe : Nat) (f : Fields)
  /-- KILLCTX (R55): Issues a request to kill a context. -/
  | killctx (pe : Nat) (f : Fields)
  /-- ACQ (R184): Issues a lock acquire request. -/
  | acq (pe : Nat) (f : Fields)
  /-- REL (R184): Issues a lock release request. -/
  | rel (pe : Nat) (f : Fields)
  /-- EVENT (R185): Records a program event in the event log. -/
  | event (pe : Nat) (f : Fields)
  /-- MUL_S (R187): A-PE signed 128-bit product into MH:ML. -/
  | mulS (pe : Nat) (f : Fields)
  /-- MUL_U (R187): A-PE unsigned 128-bit product into MH:ML. -/
  | mulU (pe : Nat) (f : Fields)
  /-- MAC_X (R231): Adds an exact binary64 product to the selected long accumulator. -/
  | macX (pe : Nat) (f : Fields)
  /-- MAC_XN (R231): Subtracts an exact binary64 product from the selected long accumulator. -/
  | macXn (pe : Nat) (f : Fields)
  /-- MAC_Q (R231): Adds an exact Q2.126 product to the selected long accumulator. -/
  | macQ (pe : Nat) (f : Fields)
  /-- MAC_QN (R231): Subtracts an exact Q2.126 product. -/
  | macQn (pe : Nat) (f : Fields)
  /-- LRD (R236): Starts a readout of the selected long accumulator, rounded once. -/
  | lrd (pe : Nat) (f : Fields)
  /-- LCLR (R230): Clears the selected long accumulator and binds it. -/
  | lclr (pe : Nat) (f : Fields)
  /-- DIVK_S (R252): Starts a K-PE bit-serial signed divide. -/
  | divkS (pe : Nat) (f : Fields)
  /-- DIVK_U (R252): Starts a K-PE unsigned divide. -/
  | divkU (pe : Nat) (f : Fields)
  /-- REMK_S (R252): Starts a K-PE signed remainder. -/
  | remkS (pe : Nat) (f : Fields)
  /-- REMK_U (R252): Starts a K-PE unsigned remainder. -/
  | remkU (pe : Nat) (f : Fields)
  /-- KZERO (R190): Zeroes a K-PE local-store range. -/
  | kzero (pe : Nat) (f : Fields)
  /-- SAFEW (R250): Sets the pair's safe-state land requests and restarts its watchdog. -/
  | safew (pe : Nat) (f : Fields)
  /-- ACTIVATION_DISPATCH (R102): Dispatches the chosen ready entry and checks its BLK header. -/
  | activationDispatch (pe : Nat)
  /-- PREEMPTION (R104): Saves a running REP.I activation at an iteration boundary for a higher-priority entry. -/
  | preemption (pe : Nat)
  /-- PRECISE_TRAP (R135): Suspends the activation at the write-back point of an enabled FP exception. -/
  | preciseTrap (pe : Nat)
  /-- RESIDUE_MISMATCH (R219): Suppresses a checked result and re-executes or faults ARITH_CHECK. -/
  | residueMismatch (pe slot : Nat)
  /-- DIVK_LANDING (R252): Lands a K-PE divide result 66 slots after issue. -/
  | divkLanding (pe : Nat)
  /-- LRD_LANDING (R238): Writes the readout of a long accumulator to DST. -/
  | lrdLanding (x : LrdRead)
  /-- KEEPER_MISMATCH (R247): Halts a tandem pair when its outputs differ. -/
  | keeperMismatch (p point : Nat)
  /-- TOKEN_MATCH (R80): Accepts a token into a PE's matching stage and places it at a level. -/
  | tokenMatch (pe : Nat)
  /-- DEEP_STORE_LOOKUP_REPLY (R84): Completes a deep-store search or record write from the spill engine. -/
  | deepStoreLookupReply (pe : Nat)
  /-- FILL_COMPLETE (R100): Moves a lower-level READY record's inputs to the fill buffer. -/
  | fillComplete (pe : Nat)
  /-- SHADOW_COPY_COMPLETE (R102): Finishes copying the chosen entry's inputs to the shadow bank. -/
  | shadowCopyComplete (pe : Nat)
  /-- MICRO_TRAP (R444): Takes a pending event at a trap window and runs its service routine. -/
  | microTrap (m : MicroStep)
  /-- UCODE_FAULT (R443): Stops a micro-sequencer on a control-store fault and resets the PE. -/
  | ucodeFault (m : MicroStep) (read : Nat)
  /-- AE_REQUEST_ACCEPT (R167): Accepts an AE request into its 16-entry queue. -/
  | aeRequestAccept (pe : Nat)
  /-- AE_REPLY (R166): Completes an AE operation and sends the wide reply token. -/
  | aeReply (c u : Nat) (mismatch : Bool)
  /-- NI_PACKET_EJECT (R330): Checks CRC and POISON of a packet at its destination NI and commits or rewinds it. -/
  | niPacketEject (e : Nat)
  /-- WINDOW_CACHE_ANSWER (R51): Receives the owner's BASE after a window-cache miss and releases held tokens. -/
  | windowCacheAnswer (e k : Nat)
  /-- WINDOW_ADVANCE (R51): Updates a cached BASE copy and releases held tokens now in the window. -/
  | windowAdvance (e k : Nat)
  /-- CM_NEWCTX_REQUEST (R88): Admits, queues or refuses a NEWCTX request at a context manager. -/
  | cmNewctxRequest (e : Nat)
  /-- SPAWN_QUEUE_ADMIT (R90): Admits the spawn-queue head when ids or credits return and sends its reply. -/
  | spawnQueueAdmit (e : Nat)
  /-- CM_FREECTX_REQUEST (R48): Moves a context to KILLING and starts the kill sequence without a reply. -/
  | cmFreectxRequest (e : Nat)
  /-- CM_FREECTX_I_REQUEST (R50): Retires an iteration, advancing BASE, or refuses it. -/
  | cmFreectxIRequest (e : Nat)
  /-- CM_KILLCTX_REQUEST (R54): Commits a kill, sets KILLING and sends KILL to every unit. -/
  | cmKillctxRequest (e : Nat)
  /-- KILL_ARRIVAL (R54): Applies KILL(x) at a unit, cancelling x's work, then acknowledges. -/
  | killArrival (u k : Nat)
  /-- KILL_ACK_ARRIVAL (R54): Counts an acknowledgement; on the last, sets QUARANTINE and replies. -/
  | killAckArrival (e u k : Nat)
  /-- DRAIN_REQ_ARRIVAL (R58): Discards parked tokens of listed contexts and sends DRAIN_MARKs. -/
  | drainReqArrival (e src : Nat)
  /-- DRAIN_MARK_ARRIVAL (R58): Records a drain mark from a source at a destination. -/
  | drainMarkArrival (e : Nat)
  /-- DRAIN_DONE_ARRIVAL (R58): Completes a drain round and frees the covered ids. -/
  | drainDoneArrival (e : Nat)
  /-- CM_RESUME_REQUEST (R152): Checks a save frame at its owning PE and reinserts or frees the activation. -/
  | cmResumeRequest (e : Nat)
  /-- MC_EVENT_REQUEST (R304): Records an EVENT SERVICE packet at the MC mailbox endpoint. -/
  | mcEventRequest
  /-- STALL_EXAMINATION (R95): Examines each LIVE context every 100 µs and raises CTX_STALL at the limit. -/
  | stallExamination (e : Nat)
  /-- CTX_COUNTER_WRITEBACK (R110): Writes context counters back to the context table each millisecond. -/
  | ctxCounterWriteback (e : Nat)
  /-- CTX_VICTIM (R93): Chooses and kills a victim context after the pressure timeout. -/
  | ctxVictim
  /-- TARGET_READ (R68): Performs a READ at its target and replies. -/
  | targetRead (e : Nat)
  /-- TARGET_WRITE (R68): Performs a WRITE at its target and replies. -/
  | targetWrite (e : Nat) (same : Bool)
  /-- TARGET_IREAD (R68): Replies or records a deferral on an I-view word. -/
  | targetIread (x : IAccess)
  /-- TARGET_IWRITE (R68): Fills an I-view word, faulting on a double write. -/
  | targetIwrite (e : Nat) (same : Bool)
  /-- DEFERRED_REPLY_RELEASE (R273): Releases the next deferred reply of a filled word. -/
  | deferredReplyRelease (e : Nat)
  /-- TARGET_ATOM (R181): Performs an atomic form on a word and replies. -/
  | targetAtom (e : Nat)
  /-- TARGET_ICLR (R68): Clears a FULL I-view word. -/
  | targetIclr (x : IAccess)
  /-- LOCK_ACQ_REQUEST (R411): Grants, queues or refuses a lock acquire. -/
  | lockAcqRequest
  /-- LOCK_REL_REQUEST (R414): Releases a lock and grants the next waiter. -/
  | lockRelRequest
  /-- LK_ACQ_READ (R412): An MGT read of LK_ACQ acquires a free lock. -/
  | lkAcqRead (n ep ctx : Nat) (observe : Bool)
  /-- LK_REL_WRITE (R414): An MGT write of LK_REL releases the lock. -/
  | lkRelWrite (n ep ctx : Nat)
  /-- LOCK_LEASE_EXPIRED (R418): Abandons a hold when its lease timer reaches zero. -/
  | lockLeaseExpired (n : Nat)
  /-- BOOST_ARRIVAL (R422): Enters a boost in the NI table and raises the context's priority. -/
  | boostArrival (e : Nat)
  /-- BOOST_END_ARRIVAL (R422): Removes a boost and restores priorities. -/
  | boostEndArrival (e : Nat)
  /-- RESP_ARRIVAL (R306): Frees a response slot and delivers the reply token. -/
  | respArrival (e : Nat)
  /-- NACK_ARRIVAL (R328): Handles a NACK by resending, parking or faulting. -/
  | nackArrival (e : Nat)
  /-- RESPONSE_SLOT_TIMEOUT (R331): Faults a request whose slot has waited its timeout. -/
  | responseSlotTimeout (e k : Nat)
  /-- ROUTER_HOP (R311): Reads the next port code and forwards the head under bubble flow control. -/
  | routerHop (r c vn : Nat)
  /-- FLIT_RECEIVE_CHECK (R329): Corrects or poisons a received flit, resynchronising on misplaced poison. -/
  | flitReceiveCheck (r p : Nat) (flit : BitVec 144)
  /-- BOUNCE_ARRIVAL (R326): Parks a bounced token in the bounce area or overflow. -/
  | bounceArrival (e : Nat)
  /-- HB_SHIFT_GO (R319): Commits a shift and sends SHIFT to every NI. -/
  | hbShiftGo
  /-- SHIFT_ARRIVAL (R319): Swaps route banks per VN at packet boundaries and sends EPOCH_MARKs. -/
  | shiftArrival (e : Nat)
  /-- EPOCH_MARK_ARRIVAL (R319): Acknowledges a mark with MARK_ACK. -/
  | epochMarkArrival (e : Nat)
  /-- MARK_ACK_ARRIVAL (R319): Records an acknowledgement and sends SHIFT_DONE when all are held. -/
  | markAckArrival (e : Nat)
  /-- MARK_RETRANSMIT (R319): Resends an unacknowledged mark after 100 µs. -/
  | markRetransmit (e : Nat)
  /-- SHIFT_DONE_ARRIVAL (R319): Decrements PENDING and completes the shift. -/
  | shiftDoneArrival
  /-- RT_PORT_DIS (R323): Takes a link DOWN at both ends when idle. -/
  | rtPortDis (r p : Nat)
  /-- RT_PORT_EN (R295): Trains a DOWN die-edge port. -/
  | rtPortEn (r p : Nat)
  /-- RT_PORT_RETRAIN (R295): Requests a retrain of a die-edge port. -/
  | rtPortRetrain (r p : Nat)
  /-- LINK_RETRAIN (R295): Retrains a die-edge port once no packet is open, repairing a wire. -/
  | linkRetrain (r p : Nat)
  /-- RETRAIN_POSTPONE_RETRY (R295): Retries a postponed retrain every 100 µs. -/
  | retrainPostponeRetry (r p : Nat)
  /-- LINK_DOWN (R296): Takes a die-edge port DOWN and truncates open packets. -/
  | linkDown (r p : Nat)
  /-- FRAME_RECEIVE (R342): Checks a received Etryn-X frame and takes ack, NAK and credit. -/
  | frameReceive (p : Nat) (stripes : List (List (BitVec 66)))
  /-- REPLAY_TIMEOUT (R345): Replays held frames after 2 µs without acknowledgement. -/
  | replayTimeout (p : Nat)
  /-- REORDER_TIMEOUT (R74): Skips missing sequence numbers when the reorder timer runs out. -/
  | reorderTimeout (p v : Nat)
  /-- OPEN_PACKET_TIMEOUT (R350): Closes a stalled partner packet with a poisoned TAIL. -/
  | openPacketTimeout (p vn : Nat)
  /-- EGRESS_PACKET (R371): Rewrites and sends a packet to a partner, or drops it when not OPEN. -/
  | egressPacket (p vn : Nat)
  /-- EGRESS_CREDIT_TIMEOUT (R372): Discards egress packets after waiting EGTO_US for credit. -/
  | egressCreditTimeout (p vn : Nat)
  /-- PARTNER_INFO_ARRIVAL (R373): Records PARTNER_INFO in PT_PINFO. -/
  | partnerInfoArrival
  /-- PORT_TRAIN_DONE (R352): Completes training and makes the port CLOSED. -/
  | portTrainDone (p : Nat) (rxrev txrev : Bool) (pol : Nat)
  /-- PORT_TRAIN_FAIL (R355): Fails training after 5 ms and takes the port DOWN. -/
  | portTrainFail (p cause : Nat)
  /-- PORT_TRAIN_RETRY (R355): Retries training 100 ms after a failure. -/
  | portTrainRetry (p : Nat)
  /-- BLOCK_LOCK_LOST (R354): Enters RECOVERY after a lane loses block lock for 1 µs. -/
  | blockLockLost (p : Nat)
  /-- NO_VALID_FRAME (R354): Enters RECOVERY after 1 µs without a valid frame. -/
  | noValidFrame (p : Nat)
  /-- PORT_RECOVERY_TIMEOUT (R354): Takes the port DOWN when recovery does not finish in 5 ms. -/
  | portRecoveryTimeout (p : Nat)
  /-- PORT_AUTO_OPEN (R357): Opens an AUTO port at DELAY or on reaching CLOSED. -/
  | portAutoOpen (p : Nat)
  /-- PORT_CMD (R460): MC command writing PT_CTL or PT_OPEN.GO of one port. -/
  | portCmd (r : McReq)
  /-- PT_CTL_TRAIN (R356): Starts training of a DOWN port. -/
  | ptCtlTrain (p : Nat)
  /-- PT_CTL_SUSPEND (R356): Suspends an OPEN port. -/
  | ptCtlSuspend (p : Nat)
  /-- PT_CTL_RESUME (R356): Resumes a SUSPENDED port and returns credit. -/
  | ptCtlResume (p : Nat)
  /-- PT_CTL_RETRAIN (R354): Commands a port into RECOVERY. -/
  | ptCtlRetrain (p : Nat)
  /-- PT_CTL_RESET (R355): Resets a port to DOWN. -/
  | ptCtlReset (p : Nat)
  /-- PT_OPEN_GO (R356): Opens a CLOSED port. -/
  | ptOpenGo (p : Nat)
  /-- PT_MAP_W0_COMMIT (R362): Commits a staged mapping-table entry at a packet boundary. -/
  | ptMapW0Commit (p : Nat) (w : Word)
  /-- DCQ_FLUSH (R392): Empties a DCQ at the next packet boundary. -/
  | dcqFlush (a : Nat)
  /-- DCQ_PTR_MISMATCH (R393): Resets a DCQ by the credit-reset handshake when its pointer copies differ. -/
  | dcqPtrMismatch (a : Nat)
  /-- CREDIT_RESET_DONE (R394): Completes a credit-reset handshake and regrants credits. -/
  | creditResetDone (a : Nat)
  /-- DCQ_STALL (R401): Sees a partner clock stopped after TIMEOUT cycles without a heartbeat. -/
  | dcqStall (mech src dst a : Nat)
  /-- CDC_RESUMED (R401): Resumes a crossing when the partner heartbeat changes again. -/
  | cdcResumed (mech src dst a : Nat)
  /-- CDC_UNSTABLE (R398): Closes an agree-twice window without acceptance. -/
  | cdcUnstable (mech src dst idx : Nat)
  /-- PULSE_CROSSING (R399): Carries a pulse by four-phase handshake with pending count. -/
  | pulseCrossing (src dst idx : Nat) (ends : Bool)
  /-- BEACON_LAUNCH (R404): Launches a timebase beacon every 64 timebase cycles. -/
  | beaconLaunch
  /-- BEACON_ACCEPT (R405): Corrects a local counter from an accepted beacon. -/
  | beaconAccept (d here : Nat)
  /-- COLLECTOR_FORWARD (R427): Forwards a held event record after 2 µs in TIME order. -/
  | collectorForward (k : Nat)
  /-- PROGRESS_MARK (R427): Sends a collector progress mark every 1 µs. -/
  | progressMark (k : Nat)
  /-- EVENT_SEQ_ASSIGN (R428): Assigns the next SEQ to a record once every live collector has passed its TIME. -/
  | eventSeqAssign
  /-- COLLECTOR_SILENT (R428): Marks a collector not live after 100 µs without a mark. -/
  | collectorSilent (k : Nat)
  /-- LOG_PERSIST (R464): Writes queued records to both flash logs. -/
  | logPersist
  /-- MB_DOORBELL (R456): Submits the request frame of a mailbox window. -/
  | mbDoorbell (ep : Nat)
  /-- MAILBOX_WINDOW_RELEASE (R456): Releases a mailbox window idle for 1 s. -/
  | mailboxWindowRelease (ep : Nat)
  /-- GET_INFO (R460): Returns device id, lifecycle, key and image data. -/
  | getInfo (r : McReq)
  /-- GET_SENSORS (R460): Returns every temperature, voltage and aging register. -/
  | getSensors (r : McReq)
  /-- LOG_READ (R465): Returns up to 63 records from a given SEQ. -/
  | logRead (r : McReq)
  /-- REG_READ (R460): Returns up to 254 register values. -/
  | regRead (r : McReq)
  /-- ATTEST (R460): Signs a caller nonce with the device key. -/
  | attest (r : McReq)
  /-- GRAPH_START (R472): Loads and starts the graph image. -/
  | graphStart (r : McReq)
  /-- GRAPH_STOP (R473): Kills every cluster context of the running graph image. -/
  | graphStop (r : McReq)
  /-- KICKSTAND_ENTER (R503): Commands entry to kickstand mode. -/
  | kickstandEnter (r : McReq)
  /-- KICKSTAND_EXIT (R504): Brings the compute dies back and resumes ports. -/
  | kickstandExit (r : McReq)
  /-- KICKSTAND_AUTOEXIT_TEMP (R504): Exits kickstand after hub sensors stay ≤115 °C for 60 s. -/
  | kickstandAutoexitTemp
  /-- WARM_RESET (R508): Resets every cluster and the keepers while keeping the hub. -/
  | warmReset (r : McReq)
  /-- STANDBY_ENTER (R501): Moves the module to STANDBY. -/
  | standbyEnter (r : McReq)
  /-- KEEPER_CTL (R460): MC command writing KP_PAIR_CTL.HALT or RESTART. -/
  | keeperCtl (r : McReq)
  /-- FAULT_CLEAR (R453): Releases FAULT_N when no cause stands. -/
  | faultClear (r : McReq)
  /-- IMG_BEGIN (R474): Starts an update by erasing the target copy. -/
  | imgBegin (r : McReq)
  /-- IMG_DATA (R474): Writes bytes of the target copy. -/
  | imgData (r : McReq)
  /-- IMG_END (R474): Checks the new copy and commits it. -/
  | imgEnd (r : McReq)
  /-- IMG_ABORT (R475): Aborts an update before its commit point. -/
  | imgAbort (r : McReq)
  /-- MINVER_RAISE (R476): Burns fuses to raise MINVER to the SVN in use. -/
  | minverRaise (r : McReq)
  /-- KSECRET_LOAD (R478): Decrypts a secret and delivers it to a keeper pair as tokens. -/
  | ksecretLoad (r : McReq)
  /-- LC_PROVISION (R480): Burns owner fields and moves BLANK to PROVISIONED. -/
  | lcProvision (r : McReq)
  /-- LC_SECURE (R479): Moves PROVISIONED to SECURED under an owner signature. -/
  | lcSecure (r : McReq)
  /-- LC_RETIRE (R481): Zeroises keys and moves the module to RETIRED. -/
  | lcRetire (r : McReq)
  /-- LC_CHALLENGE (R459): Returns a 48-byte lifecycle nonce. -/
  | lcChallenge (r : McReq)
  /-- DBG_CHALLENGE (R484): Returns a 48-byte debug nonce. -/
  | dbgChallenge (r : McReq)
  /-- DBG_OPEN (R484): Opens a debug session after certificate checks. -/
  | dbgOpen (r : McReq)
  /-- DBG_CLOSE (R485): Ends the debug session and resumes halted PEs. -/
  | dbgClose (r : McReq)
  /-- DBG_HALT (R483): Halts a PE at its next instruction boundary. -/
  | dbgHalt (r : McReq)
  /-- DBG_STEP (R460): Issues one instruction of a halted PE. -/
  | dbgStep (r : McReq)
  /-- DBG_RESUME (R460): Resumes a halted PE. -/
  | dbgResume (r : McReq)
  /-- DBG_MEM_READ (R460): Reads memory or registers through the session. -/
  | dbgMemRead (r : McReq)
  /-- DBG_MEM_WRITE (R460): Writes memory or registers through the session. -/
  | dbgMemWrite (r : McReq)
  /-- TRACE_START (R460): Starts streaming assigned event records. -/
  | traceStart (r : McReq)
  /-- TRACE_STOP (R460): Stops the event trace. -/
  | traceStop (r : McReq)
  /-- DEBUG_SESSION_TIMEOUT (R485): Ends a session on idle timeout or OPSEC expiry. -/
  | debugSessionTimeout
  /-- MC_WATCHDOG_RESTART (R461): Restarts the MC when Beynas misses its watchdog for 1 s. -/
  | mcWatchdogRestart
  /-- RNG_RETEST (R478): Retests the random number generator every 1 s after a failure. -/
  | rngRetest (ok : Bool)
  /-- PMBUS_READ_VIN (R452): Returns input voltage over PMBus. -/
  | pmbusReadVin
  /-- PMBUS_READ_IIN (R452): Returns input current over PMBus. -/
  | pmbusReadIin
  /-- PMBUS_READ_TEMPERATURE_1 (R452): Returns temperature over PMBus. -/
  | pmbusReadTemperature1
  /-- PMBUS_READ_PIN (R452): Returns input power over PMBus. -/
  | pmbusReadPin
  /-- PMBUS_STATUS_WORD (R452): Returns the PMBus status word. -/
  | pmbusStatusWord
  /-- JTAG_BYPASS (R453): Selects the TAP bypass register. -/
  | jtagBypass
  /-- JTAG_IDCODE (R453): Returns SEC_IDCODE through the TAP. -/
  | jtagIdcode
  /-- JTAG_SAMPLE_PRELOAD (R453): Samples or preloads the boundary-scan register. -/
  | jtagSamplePreload (v : Nat)
  /-- JTAG_EXTEST (R453): Drives lands from boundary scan in a FACTORY session. -/
  | jtagExtest
  /-- KP_PAIR_HALT (R247): Halts a RUNNING keeper pair by MC command. -/
  | kpPairHalt (p : Nat)
  /-- KP_PAIR_RESTART (R248): Restarts an IDLE or HALTED pair and sends its start token. -/
  | kpPairRestart (p : Nat)
  /-- KEEPER_ZEROISE_DONE (R255): Finishes zeroising a halted pair's secret regions. -/
  | keeperZeroiseDone (p : Nat)
  /-- KEEPER_WDOG (R251): Forces owned lands safe when a pair's watchdog reaches zero. -/
  | keeperWdog (p : Nat)
  /-- PE_LACC_UNBIND (R243): Clears and unbinds an LACC after its MACs land. -/
  | peLaccUnbind (pe m : Nat)
  /-- PE_LACC_INJECT_ARM (R243): Arms corruption of an LACC running residue. -/
  | peLaccInjectArm (pe acc : Nat)
  /-- PE_RES_INJECT_ARM (R222): Arms corruption of one residue bit of the next result of a unit. -/
  | peResInjectArm (pe u : Nat)
  /-- AE_RES_INJECT_ARM (R222): Arms residue corruption in the AE. -/
  | aeResInjectArm (c u : Nat)
  /-- PE_STAT_CTL_CLR (R109): Clears every counter of a PE. -/
  | peStatCtlClr (pe : Nat)
  /-- AE_STAT_CTL_CLR (R221): Clears the AE residue counters. -/
  | aeStatCtlClr (c : Nat)
  /-- SC_CTL_CLR (R266): Clears scratch statistics of a cluster. -/
  | scCtlClr (c : Nat)
  /-- MM_CTL_CLR (R290): Clears the channel counters. -/
  | mmCtlClr (ch : Nat)
  /-- NI_STAT_CTL_CLR (R332): Clears NI counters. -/
  | niStatCtlClr (c : Nat)
  /-- RT_STAT_CTL_CLR (R333): Clears router counters. -/
  | rtStatCtlClr (c : Nat)
  /-- PT_STAT_CTL_CLR (R379): Clears port counters. -/
  | ptStatCtlClr (p : Nat)
  /-- LK_STAT_CTL_CLR (R424): Clears lock-unit counters. -/
  | lkStatCtlClr
  /-- STAT_OVF_CLEAR (R430): Writes 1 to a group OVF bit to re-arm STAT_SAT. -/
  | statOvfClear (a : Nat)
  /-- RCL_READ (R5): Reads an RCL field and clears it in the same access. -/
  | rclRead (r : RegAt)
  /-- LOCK_BIT_SET (R522): Sets a block lock bit, freezing its RWL fields. -/
  | lockBitSet (a : Nat)
  /-- LOCK_BIT_UNLOCK (R522): Clears a block lock bit from the MC. -/
  | lockBitUnlock (a : Nat)
  /-- CM_CTXQ_SEL_WRITE (R110): Selects a context and captures its current counters. -/
  | cmCtxqSelWrite (c lid : Nat)
  /-- HB_PSTAT_SEL_WRITE (R334): Selects a partner endpoint and fetches its statistics. -/
  | hbPstatSelWrite (ep : Nat)
  /-- TB_DOM_SEL_WRITE (R407): Selects a domain and fetches its local-counter error. -/
  | tbDomSelWrite (d : Nat)
  /-- LK_SEL_WRITE (R424): Selects a lock for LK_LEASE and LK_INFO. -/
  | lkSelWrite (n : Nat)
  /-- MC_EVT_CLEAR (R461): Clears MC_EVT.VALID and its count. -/
  | mcEvtClear
  /-- REGISTER_WRITE (R513): Writes a register without behaviour of its own, applying access codes and checks. -/
  | registerWrite (r : RegAt) (v : Word)
  /-- CLUSTER_REQ_ACTIVE (R499): Requests a cluster ACTIVE, waking it from FREEWHEEL or OFF. -/
  | clusterReqActive (c : Nat)
  /-- CLUSTER_REQ_FREEWHEEL (R495): Requests retention power state for a cluster. -/
  | clusterReqFreewheel (c : Nat)
  /-- FREEWHEEL_ENTRY (R495): Enters FREEWHEEL once the cluster is quiescent. -/
  | freewheelEntry (c : Nat)
  /-- FREEWHEEL_WAKE (R495): Wakes a FREEWHEEL cluster for an ejected packet. -/
  | freewheelWake (c : Nat)
  /-- FREEWHEEL_AUTO_RETURN (R494): Returns a woken cluster to FREEWHEEL after FW_IDLE. -/
  | freewheelAutoReturn (c : Nat)
  /-- CLUSTER_REQ_OFF (R497): Starts the drain-and-fence handshake of a cluster. -/
  | clusterReqOff (c : Nat)
  /-- FENCE_DONE (R497): Commits power-down and opens the power gate. -/
  | fenceDone (c : Nat)
  /-- OFF_TOKEN_PARK (R496): Parks a token for an OFF cluster at the spill engine. -/
  | offTokenPark
  /-- CLUSTER_RESET (R508): Resets every PE of a cluster and clears its scratch. -/
  | clusterReset (c : Nat)
  /-- PE_RESET (R508): Resets one PE and discards its matching and ready state. -/
  | peReset (pe : Nat)
  /-- VIN_RISE (R489): Starts power-up when VIN rises through 8.5 V. -/
  | vinRise (a b : Nat)
  /-- VIN_SOFT_START_ABORT (R489): Returns to OFF when VIN falls below 8.5 V before T+4 ms. -/
  | vinSoftStartAbort
  /-- VIN_LOST (R489): Logs loss of one input while VIN stays in range. -/
  | vinLost (i v : Nat)
  /-- VIN_DIP (R489): Enters kickstand after VIN below 9.0 V for 1 ms. -/
  | vinDip (a b : Nat)
  /-- VIN_RECOVER (R489): Exits VIN kickstand after 100 ms at 9.5 V or above. -/
  | vinRecover (a b : Nat)
  /-- VIN_UNDERVOLT (R489): Starts orderly shutdown after VIN below 7.0 V for 100 µs. -/
  | vinUndervolt (a b : Nat)
  /-- HOLDUP_FAIL (R505): Starts orderly shutdown when both inputs fail. -/
  | holdupFail
  /-- VIN_SURGE (R528): Clamps an input surge and logs it. -/
  | vinSurge
  /-- RESET_N_ASSERT (R508): Performs a module reset when RESET_N is held low 1 µs. -/
  | resetNAssert
  /-- DIE_FAULT (R492): Logs a compute-die fault and enters kickstand. -/
  | dieFault (d : Nat)
  /-- SENSOR_SAMPLE (R462): Samples temperature, voltage and aging sensors. -/
  | sensorSample (kind i : Nat) (valid : Bool) (v w : Nat)
  /-- THERMAL_GOVERNOR_TICK (R541): Sets cluster clock ceilings from junction temperature every 1 ms. -/
  | thermalGovernorTick
  /-- THERMAL_KICKSTAND (R543): Enters kickstand when a junction stays above 140 °C at the floor. -/
  | thermalKickstand (d : Nat)
  /-- AGING_GUARDBAND_UPDATE (R546): Adjusts each die's voltage guardband every 60 s. -/
  | agingGuardbandUpdate (lost : List Nat)
  /-- REFCLK_LOST (R530): Switches PLLs to holdover when REFCLK stops. -/
  | refclkLost
  /-- REFCLK_RESTORED (R530): Switches back after REFCLK is stable for 10 ms. -/
  | refclkRestored
  /-- PPS_EDGE (R531): Disciplines the timebase and sends TIME_SYNC on a PPS_IN edge. -/
  | ppsEdge (err : Int)
  /-- PPS_LOCK_LOST (R531): Clears PPS_LOCK when edges go missing or wander. -/
  | ppsLockLost
  /-- REF_LOCK_CHANGE (R531): Sets or clears REF_LOCK from CLK10M_IN. -/
  | refLockChange (on : Bool)
  /-- PATROL_SCRUB (R279): Scrubs memory words and corrects errors. -/
  | patrolScrub (addr upset : Nat)
  /-- BG_TEST_SEGMENT_START (R286): Borrows the next scratch segment for the march test. -/
  | bgTestSegmentStart (c : Nat)
  /-- BG_TEST_RELEASE (R284): Copies a tested segment back and releases it. -/
  | bgTestRelease (c rows : Nat)
  /-- BANK_RETENTION_ENTRY (R274): Places an idle masked bank into retention after IDLE µs. -/
  | bankRetentionEntry (c b : Nat)
  /-- SC_RET_MASK_WRITE (R274): Retains or wakes banks per MASK. -/
  | scRetMaskWrite (c : Nat) (v : Word)
  /-- REFRESH_RATE_CHECK (R278): Reads the device refresh-rate field every 16 ms. -/
  | refreshRateCheck (ch rate : Nat)
  /-- MM_INIT_DONE (R507): Completes module memory initialisation. -/
  | mmInitDone (ch : Nat)
  /-- REPAIR_RECORD_UPDATE (R289): Writes new repair records to the configuration page. -/
  | repairRecordUpdate
  /-- PORT_RECOVERY_DONE (R354): A recovery retrain completes and the port resumes its previous state by replay, or comes up fresh as CLOSED. -/
  | portRecoveryDone (p : Nat) (recov : Bool) (next : Nat)
  /-- DIE_EDGE_TRAINING_DONE (R295): A die-edge or spoke port finishes training or retraining and becomes UP with its wires mapped. -/
  | dieEdgeTrainingDone (r : Nat) (x : Trained)
  /-- SPILL_ENGINE_REQUEST (R86): The spill engine takes a SPILL request from a PE, searches or writes its deep-store bucket, updates region space and
  answers on RSP. -/
  | spillEngineRequest
  /-- WINDOW_QUERY (R51): The owning context manager receives a window-cache miss query from a gate and answers with BASE. -/
  | windowQuery (e k : Nat)
  /-- RNG_FAIL (R478): A continuous health test of the entropy source fails, the generator stops and RNG_FAIL is logged. -/
  | rngFail
  /-- HOLDUP_CHARGED (R490): The HOLDUP capacitor crosses 44 V and PW_STATUS.HOLDUP_OK changes. -/
  | holdupCharged (on : Bool)
  /-- VIN_INPUT_OK (R489): A lost input VIN_A or VIN_B returns to 9.0 V or above and PW_STATUS shows it again. -/
  | vinInputOk (i v : Nat)
  /-- PPS_OUT_EDGE (R531): At each timebase second boundary PPS_OUT rises, and it falls 100 ms later. -/
  | ppsOutEdge (rise : Bool)
  /-- ARP_ICMP_ECHO (R452): The MC receives an ARP or ICMP echo frame on the management Ethernet and answers it. -/
  | arpIcmpEcho (frame : List (BitVec 8))
  deriving DecidableEq, Repr

end Sys2Proof
end

