-- ==== Sys2Proof/Decode.lean ====
section
/-! DEFINITION. Words of block code: their fields (R115) and the command each opcode is (R156); and the table's own words: no row of the
table gives a bit, so decodeTableWord spells no command. -/

namespace Sys2Proof

/-- The command a word spells by the table's bits: the table gives none of its rows bits. -/
def decodeTableWord (_nbits _w : Nat) : Option Instr := none

/-- The instruction word of an opcode and its fields (R115). -/
def packWord (op : Nat) (f : Fields) : Word :=
  BitVec.ofNat 64 (op % 256 * 2 ^ 56 + f.dst.toNat * 2 ^ 50 + f.sa.toNat * 2 ^ 44 + f.sb.toNat * 2 ^ 38 + f.sc.toNat * 2 ^ 32
    + f.imm.toNat)

/-- The fields of a word (R115). -/
def unpackWord (w : Word) : Fields :=
  ⟨BitVec.ofNat 6 (w.toNat >>> 50), BitVec.ofNat 6 (w.toNat >>> 44), BitVec.ofNat 6 (w.toNat >>> 38),
   BitVec.ofNat 6 (w.toNat >>> 32), BitVec.ofNat 32 w.toNat⟩

/-- The fields as numbers. -/
def Fields.d (f : Fields) : Nat := f.dst.toNat
def Fields.a (f : Fields) : Nat := f.sa.toNat
def Fields.b (f : Fields) : Nat := f.sb.toNat
def Fields.c (f : Fields) : Nat := f.sc.toNat
def Fields.i (f : Fields) : Nat := f.imm.toNat

/-- The opcode of a word. -/
def opOf (w : Word) : Nat := w.toNat >>> 56

/-! The opcode map (R156). -/

/-- OP[7:4] = 0x0. -/
def controlOps : List (Nat × (Nat → Fields → Instr)) :=
  [(0x01, .endBlk), (0x02, .br), (0x03, .brc), (0x04, .repI), (0x05, .repN), (0x06, .fenceW), (0x07, .fenceA), (0x08, .resume)]
/-- OP[7:4] = 0x2. -/
def intAOps : List (Nat × (Nat → Fields → Instr)) :=
  [(0x20, .add), (0x21, .addi), (0x22, .sub), (0x23, .andd), (0x24, .andi), (0x25, .orr), (0x26, .ori), (0x27, .xor), (0x28, .xori),
   (0x29, .shl), (0x2A, .shr), (0x2B, .sar), (0x2C, .shli), (0x2D, .shri), (0x2E, .sari), (0x2F, .clz)]
/-- OP[7:4] = 0x3. -/
def intBOps : List (Nat × (Nat → Fields → Instr)) :=
  [(0x30, .cmpeq), (0x31, .cmplt), (0x32, .cmpltu), (0x33, .min), (0x34, .max), (0x35, .minu), (0x36, .maxu), (0x37, .sel),
   (0x38, .movi), (0x39, .movhi), (0x3A, .popc), (0x3B, .extu)]
/-- OP[7:4] = 0x4. -/
def fixedOps : List (Nat × (Nat → Fields → Instr)) :=
  [(0x40, .addq), (0x41, .subq), (0x42, .negq), (0x43, .absq), (0x44, .addq32), (0x45, .subq32), (0x46, .shlq), (0x47, .shrq),
   (0x48, .accq), (0x49, .accqn), (0x4A, .accq32), (0x4B, .gaadd), (0x4C, .movsGa), (0x4D, .movsQ31), (0x4E, .movtsGa),
   (0x4F, .gashr)]
/-- OP[7:4] = 0x6. -/
def longAOps : List (Nat × (Nat → Fields → Instr)) :=
  [(0x60, .mull), (0x61, .mulhs), (0x62, .mulhu), (0x63, .mulq), (0x64, .mulq32), (0x68, .divS), (0x69, .divU), (0x6A, .remS),
   (0x6B, .remU), (0x6C, .mul128S), (0x6D, .mul128U), (0x6E, .divq), (0x6F, .fdivD)]
/-- OP[7:4] = 0x7. -/
def longBOps : List (Nat × (Nat → Fields → Instr)) :=
  [(0x70, .fdivS), (0x71, .fsqrtD), (0x72, .fsqrtS), (0x73, .isqrt)]
/-- OP[7:4] = 0x8. -/
def floatDOps : List (Nat × (Nat → Fields → Instr)) :=
  [(0x80, .faddD), (0x81, .fsubD), (0x82, .fmulD), (0x83, .fmaD), (0x84, .fmsD), (0x85, .fnmaD), (0x86, .fminD), (0x87, .fmaxD),
   (0x88, .fcmpD), (0x89, .fcvtDS), (0x8A, .fcvtSD), (0x8B, .fcvtDI), (0x8C, .fcvtID), (0x8D, .fcvtDQ), (0x8E, .fcvtQD),
   (0x8F, .fsgnD)]
/-- OP[7:4] = 0x9. -/
def floatSOps : List (Nat × (Nat → Fields → Instr)) :=
  [(0x90, .faddS), (0x91, .fsubS), (0x92, .fmulS), (0x93, .fmaS), (0x94, .fmsS), (0x95, .fnmaS), (0x96, .fminS), (0x97, .fmaxS),
   (0x98, .fcmpS), (0x99, .fclass), (0x9A, .fcvtSI), (0x9B, .fcvtIS), (0x9C, .fsgnS)]
/-- OP[7:4] = 0xA. -/
def storeOps : List (Nat × (Nat → Fields → Instr)) :=
  [(0xA0, .ldl), (0xA1, .stl), (0xA2, .movs), (0xA3, .movts)]
/-- OP[7:4] = 0xC. -/
def messageOps : List (Nat × (Nat → Fields → Instr)) :=
  [(0xC0, .send), (0xC1, .sendw), (0xC2, .read), (0xC3, .write), (0xC4, .iread), (0xC5, .iwrite), (0xC6, .atom), (0xC7, .newctx),
   (0xC8, .freectx), (0xC9, .killctx), (0xCA, .acq), (0xCB, .rel), (0xCC, .event)]
/-- OP[7:4] = 0xE. -/
def extAOps : List (Nat × (Nat → Fields → Instr)) :=
  [(0xE0, .mulS), (0xE1, .mulU), (0xE2, .macX), (0xE3, .macXn), (0xE4, .macQ), (0xE5, .macQn), (0xE6, .lrd), (0xE7, .lclr)]
/-- OP[7:4] = 0xF. -/
def extKOps : List (Nat × (Nat → Fields → Instr)) :=
  [(0xF0, .divkS), (0xF1, .divkU), (0xF2, .remkS), (0xF3, .remkU), (0xF4, .kzero), (0xF5, .safew)]
/-- Every assigned opcode but NOP and the header's BLK, with the command its word is. -/
def opMap : List (Nat × (Nat → Fields → Instr)) :=
  controlOps ++ intAOps ++ intBOps ++ fixedOps ++ longAOps ++ longBOps ++ floatDOps ++ floatSOps ++ storeOps ++ messageOps ++ extAOps ++ extKOps
/-- Whether an opcode exists on the kind of PE n: 0x68 to 0x73 not on K-PEs, 0xE0 to 0xE7 on A-PEs only, 0xF0 to 0xF5 on K-PEs only. -/
def opOnPe (op n : Nat) : Bool :=
  if 0x68 ≤ op ∧ op ≤ 0x73 then decide (n < 272) else if 0xE0 ≤ op ∧ op ≤ 0xE7 then decide (256 ≤ n ∧ n < 272)
  else if 0xF0 ≤ op then decide (272 ≤ n) else true
/-- The command that a body word is on PE n: none where its opcode is a hole there. FREECTX with modifier bit 0 is FREECTX.I (R183). -/
def wordInstr (n : Nat) (w : Word) : Option Instr :=
  if opOf w = 0 then some (.nop n w)
  else if opOf w = 0xC8 ∧ (unpackWord w).c % 2 = 1 then some (.freectxI n (unpackWord w))
  else (opMap.find? (fun x => x.1 == opOf w && opOnPe x.1 n)).map (fun x => x.2 n (unpackWord w))

end Sys2Proof
end

