-- ==== Sys2Proof/Config.lean ====
section
/-! DEFINITION. What the manual leaves open: free values, each a constant without a body, applied to the
operands it depends on or to the counter that State carries. -/

namespace Sys2Proof.Config

/-- Extra issue slots that a fence stalls beyond the landing of the results in flight (log 5). -/
opaque fenceStall : Nat → Nat

/-- The words 0x178 to 0x1FF of a save frame, whose layout the manual keeps to the micro-sequencer (log 6). -/
opaque frameMicro : Nat → Word

/-- The numeric code an event record carries for a hardware event (log 7). -/
opaque eventCode : Nat → BitVec 16

/-- DETAIL of an event whose DETAIL the manual does not give (log 11). -/
opaque eventDetail : Nat → Word

/-- What an uncorrectable word reads as, by address and a count (log 12). -/
opaque badRead : Nat → Nat → Word

/-- Head and tail indexes of a deferral list, which stand in the data bits of its word (log 49). -/
opaque listWord : Nat → Word

/-- How many misses of the check-line and presence cache an access to module memory has (log 49). -/
opaque chkMisses : Nat → Nat

/-- Rows of a PE's local store that fail the test at array initialisation, by a count and the PE (log 49). -/
opaque lsTest : Nat → Nat → List Nat

/-- Rows of a PE's instruction memory that fail it, by a count and the PE (log 49). -/
opaque imemTest : Nat → Nat → List Nat

/-- Data wires of a channel that fail start-up training, by a count, the router and the port (log 49). -/
opaque trainFails : Nat → Nat → Nat → Nat

/-- Whether the readback of a keeper section at start-up differs between the copies, by a count (R254, log 49). -/
opaque keeperDiffers : Nat → Bool

/-- kHz that the governor takes off for a memory device above its limit, in one tick (log 49). -/
opaque memDerate : Nat → Nat

/-- The order in which the crypto engine draws nonces and session keys (log 8). -/
opaque randomBytes : Nat → Nat → BitVec 8

/-- SHA-384 of a byte string (log 9). -/
opaque sha384 : List (BitVec 8) → BitVec 384

/-- Whether a P-384 signature over a byte string verifies under a public key (log 9). -/
opaque sigValid : Nat → List (BitVec 8) → Nat → Bool

/-- The device key's signature over a byte string, its public key, and the X coordinate that ECDH with it yields from a public key (log 9). -/
opaque sign : List (BitVec 8) → BitVec 768
opaque devicePub : BitVec 768
opaque ecdhKey : Nat → Nat

/-- The public key, X then Y, under which a P-384 signature over a byte string verifies, if any (log 9). -/
opaque signerOf : List (BitVec 8) → Nat → Option (List (BitVec 8))

/-- HMAC-SHA-384 tag of a byte string under a key, cut to 16 bytes (log 9). -/
opaque macOf : Nat → List (BitVec 8) → BitVec 128

/-- AES-256-GCM plaintext: key (0 is the fused patch key), additional data, IV, tag, ciphertext; nothing when the tag fails (log 9). -/
opaque decrypt : Nat → List (BitVec 8) → List (BitVec 8) → List (BitVec 8) → List (BitVec 8) → Option (List (BitVec 8))

/-- The keys the boot ROM holds: hash of the image-signing key, and the patch-signing key (log 9). -/
opaque romKeyHash : BitVec 384
opaque patchSigKey : Nat

/-- Whether a second load comparison fails (log 13). -/
opaque loadFails : Nat → Bool

/-- What the settings sections whose layout the manual does not give say: port mapping entries (port, virtual endpoint, two words),
rights withdrawn from a channel for a class, ports granted OPERATE, a graph image to start, and the power policy (log 14). -/
opaque mapEntries : List (BitVec 8) → List (Nat × Nat × Word × Word)
opaque withdrawn : List (BitVec 8) → Nat → Nat → Bool
opaque portOperate : List (BitVec 8) → Nat → Bool
opaque startGraph : List (BitVec 8) → Bool
opaque offPolicy : List (BitVec 8) → Nat → Bool

/-- How many queued records a flush programs that HOLDUP may cut short, or that exceeds 512 records (log 14). -/
opaque flushCount : Nat → Nat

/-- PMBus: the LINEAR11 word of a value in thousandths, the temperature reported of the sensors, and the status word (log 15). -/
opaque linear11 : Int → BitVec 16
opaque pmbusTemp : List Word → Int
opaque statusWord : List Word → BitVec 16

/-- The boundary-scan register: what SAMPLE captures of the lands, and the SAFE levels that a preloaded value drives (log 15). -/
opaque boundary : Nat → Nat
opaque boundarySafe : Nat → Nat

/-- The answer to an ARP or ICMP echo frame (log 15). -/
opaque netAnswer : List (BitVec 8) → List (BitVec 8)

/-- The context that the MC's own lock accesses name in their reply tag (log 17). -/
opaque mcLockCtx : Nat

/-- The 7-bit SMBus address that settings section 0x0004 gives; the section's layout is not given (log 14). -/
opaque smbusAddr : List (BitVec 8) → Option Nat

/-- Beacon path latency of a domain, as the MC measures it at start-up (log 16). -/
opaque beaconLatency : Nat → Nat

/-- The control-store ROM of each PE kind, and the micro-address at which a service routine begins there (log 18). -/
opaque ucodeRom : Nat → Nat → BitVec 112
opaque ucodeEntry : Nat → Nat → Nat

/-- ROM revision of each PE kind's control store (log 10). -/
opaque romRev : Nat → BitVec 16

/-- OTP contents fixed at manufacture: device id, manufacturer identity, fresh ring-oscillator counts (log 10). -/
opaque otpByte : Nat → BitVec 8
opaque idManufacturer : BitVec 11
opaque ageBase : Nat → BitVec 16

end Sys2Proof.Config
end

