-- ==== Sys2Proof/Machine/Bits.lean ====
section
/-! DEFINITION. Bit fields, sign extension and byte order (R2, R3): every field of a register, tag, flit or
descriptor is cut out and put in here. -/

namespace Sys2Proof.Machine

/-- Bits hi:lo of a word, as a number (R2: both ends included). -/
def fld {n : Nat} (w : BitVec n) (hi lo : Nat) : Nat := (w.toNat >>> lo) % 2 ^ (hi + 1 - lo)

/-- Bit i of a word. -/
def bitAt {n : Nat} (w : BitVec n) (i : Nat) : Bool := w.toNat.testBit i

/-- A number cut to bits hi:lo and placed there. -/
def put (hi lo v : Nat) : Nat := (v % 2 ^ (hi + 1 - lo)) <<< lo

/-- The word w with bits hi:lo replaced by v. -/
def setFld {n : Nat} (w : BitVec n) (hi lo v : Nat) : BitVec n :=
  BitVec.ofNat n (w.toNat - put hi lo (fld w hi lo) + put hi lo v)

/-- The word w with bit i set to b. -/
def setBit {n : Nat} (w : BitVec n) (i : Nat) (b : Bool) : BitVec n := setFld w i i b.toNat

/-- A mask of bits hi:lo. -/
def maskOf (hi lo : Nat) : Nat := put hi lo (2 ^ (hi + 1 - lo) - 1)

/-- The two's complement value of the low n bits of v. -/
def sextNat (n v : Nat) : Int :=
  let u := v % 2 ^ n
  if u < 2 ^ (n - 1) then (u : Int) else (u : Int) - (2 ^ n : Nat)

/-- The low n bits of v sign-extended to 64 bits. -/
def sext64 (n v : Nat) : Word := BitVec.ofInt 64 (sextNat n v)

/-- The number held by a list of bytes, lowest address first (R3). -/
def leNat : List Byte → Nat
  | [] => 0
  | b :: r => b.toNat + 256 * leNat r

/-- The low k bytes of v, lowest address first (R3). -/
def leBytes : Nat → Nat → List Byte
  | 0, _ => []
  | k + 1, v => BitVec.ofNat 8 v :: leBytes k (v / 256)

/-- Number of 1 bits among the low k bits of v. -/
def popc : Nat → Nat → Nat
  | 0, _ => 0
  | k + 1, v => v % 2 + popc k (v / 2)

/-- The position of the highest 1 bit plus one; 0 for 0. -/
def bitLen (v : Nat) : Nat := if v = 0 then 0 else Nat.log2 v + 1

/-- Saturating increment of a counter of n bits. -/
def satInc (n v : Nat) : Nat := if v + 1 < 2 ^ n then v + 1 else 2 ^ n - 1

/-- Saturating addition to a counter of n bits. -/
def satAdd (n v k : Nat) : Nat := min (v + k) (2 ^ n - 1)

end Sys2Proof.Machine
end

