-- ==== Sys2Proof/Machine/IntAlu.lean ====
section
/-! DEFINITION. Values of the integer group (R161, R162), of the integer multiplies (R187, group 0b011) and of
integer division and square root at every operand pair, edges included (R193, R194). -/

namespace Sys2Proof.Machine

/-- A truth value as a register result. -/
def boolWord (b : Bool) : Word := if b then 1 else 0

def aluAdd (a b : Word) : Word := a + b
def aluSub (a b : Word) : Word := a - b

/-- Shifts by SB[5:0]; bits 63:6 of SB take no part (R162). -/
def aluShl (a b : Word) : Word := a <<< (b.toNat % 64)
def aluShr (a b : Word) : Word := a >>> (b.toNat % 64)
def aluSar (a b : Word) : Word := a.sshiftRight (b.toNat % 64)

/-- Number of leading zeros, 0 to 64. -/
def aluClz (a : Word) : Word := BitVec.ofNat 64 (64 - bitLen a.toNat)

/-- Number of 1 bits. -/
def aluPopc (a : Word) : Word := BitVec.ofNat 64 (popc 64 a.toNat)

def aluMin (a b : Word) : Word := if a.toInt ≤ b.toInt then a else b
def aluMax (a b : Word) : Word := if a.toInt ≤ b.toInt then b else a
def aluMinu (a b : Word) : Word := if a.toNat ≤ b.toNat then a else b
def aluMaxu (a b : Word) : Word := if a.toNat ≤ b.toNat then b else a

/-- MOVHI: the immediate above the low half of SA. -/
def aluMovhi (a : Word) (imm : BitVec 32) : Word := BitVec.ofNat 64 (imm.toNat * 2 ^ 32 + a.toNat % 2 ^ 32)

/-- EXTU: w bits of SA from bit sh; bits above 63 read as zero. -/
def aluExtu (a : Word) (sh w : Nat) : Word := BitVec.ofNat 64 ((a.toNat >>> sh) % 2 ^ w)

/-- The exact products. -/
def mulSigned (a b : Word) : Wide := BitVec.ofInt 128 (a.toInt * b.toInt)
def mulUnsigned (a b : Word) : Wide := BitVec.ofNat 128 (a.toNat * b.toNat)

def hi64 (w : Wide) : Word := BitVec.ofNat 64 (w.toNat >>> 64)
def lo64 (w : Wide) : Word := BitVec.ofNat 64 w.toNat
def mkWide (hi lo : Word) : Wide := BitVec.ofNat 128 (hi.toNat * 2 ^ 64 + lo.toNat)

/-- A result with the flags it raises, in FPS bit order IV DZ OF UF NX from bit 4 (R166). -/
structure Flagged where
  val : Word
  fl : Nat
  deriving DecidableEq, Repr

def flIV : Nat := 16
def flDZ : Nat := 8
def flOF : Nat := 4
def flUF : Nat := 2
def flNX : Nat := 1

/-- Quotient truncated toward zero, with the edges of R193. -/
def divSigned (a b : Word) : Flagged :=
  if b = 0 then ⟨if a.toInt < 0 then 0x8000000000000000 else 0x7FFFFFFFFFFFFFFF, flDZ⟩
  else if a = 0x8000000000000000 ∧ b = -1 then ⟨0x8000000000000000, flOF⟩
  else ⟨BitVec.ofInt 64 (a.toInt.tdiv b.toInt), 0⟩

def divUnsigned (a b : Word) : Flagged :=
  if b = 0 then ⟨0xFFFFFFFFFFFFFFFF, flDZ⟩ else ⟨BitVec.ofNat 64 (a.toNat / b.toNat), 0⟩

/-- SA − q × SB, with the sign of SA (R193). -/
def remSigned (a b : Word) : Flagged :=
  if b = 0 then ⟨a, flDZ⟩ else ⟨BitVec.ofInt 64 (a.toInt.tmod b.toInt), 0⟩

def remUnsigned (a b : Word) : Flagged :=
  if b = 0 then ⟨a, flDZ⟩ else ⟨BitVec.ofNat 64 (a.toNat % b.toNat), 0⟩

/-- The largest r below 2^k × (already found part) with r² ≤ n, found bit by bit from the top. -/
def rootBits (n : Nat) : Nat → Nat → Nat
  | 0, r => r
  | k + 1, r => let t := r + 2 ^ k; rootBits n k (if t * t ≤ n then t else r)

/-- Floor of the square root of n, for n below 2^(2k). -/
def rootOf (k n : Nat) : Nat := rootBits n k 0

/-- ISQRT of the unsigned operand (R193). -/
def isqrtWord (a : Word) : Word := BitVec.ofNat 64 (rootOf 32 a.toNat)

/-- Number of 16-bit chunks of the multiplier operand that the multiplier processes (R199): signed operands. -/
def chunksSigned (b : Word) : Nat :=
  let v := b.toInt
  if -(2 ^ 15) ≤ v ∧ v < 2 ^ 15 then 1
  else if -(2 ^ 31) ≤ v ∧ v < 2 ^ 31 then 2
  else if -(2 ^ 47) ≤ v ∧ v < 2 ^ 47 then 3
  else 4

/-- The same for unsigned forms. -/
def chunksUnsigned (b : Word) : Nat :=
  if b.toNat < 2 ^ 16 then 1 else if b.toNat < 2 ^ 32 then 2 else if b.toNat < 2 ^ 48 then 3 else 4

end Sys2Proof.Machine
end

