-- ==== Sys2Proof/Machine/RegMap.lean ====
section
/-! DEFINITION. The register map (R510 to R522): topology numbers (R12 to R18), where each register stands, its fields with
their access codes (R5) and reset values. Fields not listed are reserved: they read zero and ignore writes (R7). -/

namespace Sys2Proof.Machine

/-! Topology. -/

def clX (c : Nat) : Nat := c % 8
def clY (c : Nat) : Nat := c / 8
/-- The compute die of a cluster (R12). -/
def clDie (c : Nat) : Nat := clX c / 4 + 2 * (clY c / 4)
/-- Whether a cluster holds an A-PE (R14). -/
def hasApe (c : Nat) : Bool := (clX c % 4 == 1 || clX c % 4 == 2) && (clY c % 4 == 1 || clY c % 4 == 2)
/-- Whether a cluster owns a spoke link (R13). -/
def isSpoke (c : Nat) : Bool := 2 ≤ clX c && clX c ≤ 5 && 2 ≤ clY c && clY c ≤ 5
def spokeOf (c : Nat) : Nat := (clY c - 2) * 4 + (clX c - 2)
/-- The cluster of spoke link s (R13). -/
def spokeCluster (s : Nat) : Nat := (2 + s / 4) * 8 + 2 + s % 4
/-- The A-PE clusters in ascending order (R15). -/
def apeClusters : List Nat := [9, 10, 13, 14, 17, 18, 21, 22, 41, 42, 45, 46, 49, 50, 53, 54]
/-- The cluster of an S-PE or A-PE (R15). -/
def peCluster (pe : Nat) : Nat := if pe < 256 then pe / 4 else apeClusters.getD (pe - 256) 0
/-- The PE in slot s of cluster c; slot 4 is the A-PE. -/
def slotPe (c s : Nat) : Nat := if s < 4 then 4 * c + s else 256 + (apeClusters.idxOf c)
/-- The PEs of a cluster. -/
def clusterPes (c : Nat) : List Nat := [4 * c, 4 * c + 1, 4 * c + 2, 4 * c + 3] ++ (if hasApe c then [slotPe c 4] else [])
/-- The endpoint that holds a PE (R18). -/
def peEndpoint (pe : Nat) : Nat := if pe < 272 then peCluster pe else 69
/-- A K-PE stands for its tandem pair under the even number (R245). -/
def pairPe (pe : Nat) : Nat := if pe = 273 then 272 else if pe = 275 then 274 else pe

/-! Where registers stand. -/

def regBase : Nat := 0x0F0000000000
def clBlock (c : Nat) : Nat := regBase + c * 0x10000
def hbBlock : Nat := 0x0F0000400000
def spBlock : Nat := 0x0F0000410000
def lkBlock : Nat := 0x0F0000420000
def lkArray : Nat := 0x0F0000430000
def tbBlock : Nat := 0x0F0000440000
def mmBlock : Nat := 0x0F0000450000
def kpBlock : Nat := 0x0F0000460000
def evBlock : Nat := 0x0F0000470000
def ptBlock (p : Nat) : Nat := regBase + 0x500000 + p * 0x10000
def mcBlock : Nat := 0x0F0000600000
def secBlock : Nat := 0x0F0000610000
def pwBlock : Nat := 0x0F0000620000

/-- The eight PE registers of R514 in slot order: a K-PE's stand in the keeper block. -/
def peRegs (pe : Nat) : Nat :=
  if pe < 256 then clBlock (pe / 4) + 0x800 + pe % 4 * 0x100
  else if pe < 272 then clBlock (peCluster pe) + 0xC00
  else kpBlock + 0x800 + (pe - 272) * 0x100
/-- The statistics window of a PE (R516, R518). -/
def peStats (pe : Nat) : Nat :=
  if pe < 256 then clBlock (pe / 4) + 0x1000 + pe % 4 * 0x200
  else if pe < 272 then clBlock (peCluster pe) + 0x1800
  else kpBlock + 0x1000 + (pe - 272) * 0x200

def aMsCfg (pe : Nat) : Nat := peRegs pe
def aPeSaveBase (pe : Nat) : Nat := peRegs pe + 0x08
def aPeResInject (pe : Nat) : Nat := peRegs pe + 0x10
def aPeRqDepth (pe : Nat) : Nat := peRegs pe + 0x18
def aPeStatCtl (pe : Nat) : Nat := peRegs pe + 0x20
def aPeSpillProgress (pe : Nat) : Nat := peRegs pe + 0x28
def aPeUcodeRev (pe : Nat) : Nat := peRegs pe + 0x30
def aPeUcodeSum (pe : Nat) : Nat := peRegs pe + 0x38
def aLaccStat (pe n : Nat) : Nat := clBlock (peCluster pe) + 0xC40 + 8 * n
def aLaccCtl (pe : Nat) : Nat := clBlock (peCluster pe) + 0xC60
def aLaccInject (pe : Nat) : Nat := clBlock (peCluster pe) + 0xC68
def aPeUmatch (pe k : Nat) : Nat :=
  (if pe < 256 then clBlock (pe / 4) + 0x4000 + pe % 4 * 0x100
   else if pe < 272 then clBlock (peCluster pe) + 0x4400
   else kpBlock + 0x4000 + (pe - 272) * 0x100) + 8 * k

/-- PE statistics counters by index in the window of R516. -/
def psMATCH : Nat := 0
def psFIRE : Nat := 1
def psDISPATCH : Nat := 2
def psSPILL : Nat := 3
def psFILL : Nat := 4
def psCANCELLED : Nat := 5
def psBADTOK : Nat := 6
def psPREEMPT : Nat := 7
def psBACKLOG : Nat := 8
def psBUSY : Nat := 9
def psCYCLES : Nat := 10
def psRQAREA : Nat := 11
def psWAIT (b : Nat) : Nat := 12 + b
def psRESRETRY : Nat := 28
def psRESFAULT : Nat := 29
def psUTRAP : Nat := 30
def psMACX : Nat := 32
def psMACQ : Nat := 33
def psLRD : Nat := 34
def psLRDCYC : Nat := 35
def psLACCDENY : Nat := 36
def psLACCERR : Nat := 37

def aPeStat (pe i : Nat) : Nat := peStats pe + 8 * i

/-- NI counters (R332, R516): by index from 0x1A00. -/
def nsTXPKT (v : Nat) : Nat := v
def nsTXBYTE (v : Nat) : Nat := 4 + v
def nsRTT (b : Nat) : Nat := 8 + b
def nsCORRUPT : Nat := 24
def nsTOKLOST : Nat := 25
def nsNACK : Nat := 26
def nsPARK : Nat := 27
def nsRESENT : Nat := 28
def nsTIMEOUT : Nat := 29
def nsLATE : Nat := 30
def nsEPOCHERR : Nat := 31
def nsBADOPC : Nat := 32
def nsOUTBACKLOG : Nat := 33
def nsBOOSTDROP : Nat := 34
def nsBADTAG : Nat := 35
def aNiStat (c i : Nat) : Nat := clBlock c + 0x1A00 + 8 * i
/-- Router counters (R333, R516): by index from 0x1C00. -/
def rsCE (p : Nat) : Nat := p
def rsUE (p : Nat) : Nat := 5 + p
def rsRESYNC (p : Nat) : Nat := 10 + p
def rsFLIT (p : Nat) : Nat := 15 + p
def rsPROMOTE : Nat := 20
def rsBOUNCE : Nat := 21
def rsABSORB : Nat := 22
def aRtStat (r i : Nat) : Nat := clBlock r + 0x1C00 + 8 * i
/-- Scratch counters (R290, R516): by index from 0x1D00. -/
def ssWAKE : Nat := 0
def ssSHADOW : Nat := 1
def ssCE : Nat := 2
def ssUE : Nat := 3
def ssPOISON : Nat := 4
def ssDEFER : Nat := 5
def ssDEFOVF : Nat := 6
def ssNACK : Nat := 7
def ssDENIED : Nat := 8
def aScStat (c i : Nat) : Nat := clBlock c + 0x1D00 + 8 * i
/-- Context-manager counters (R53, R516): STALE, RERETIRE, NOCTX, KILLED. -/
def aCmStat (c i : Nat) : Nat := clBlock c + 0x1E00 + 8 * i
def csSTALE : Nat := 0
def csRERETIRE : Nat := 1
def csNOCTX : Nat := 2
def csKILLED : Nat := 3

def aClLock (c : Nat) : Nat := clBlock c + 0x08
def aOvfSize (c : Nat) : Nat := clBlock c + 0x10
def aPwrCtl (c : Nat) : Nat := clBlock c + 0x18
def aPwrStatus (c : Nat) : Nat := clBlock c + 0x20
def aClReset (c : Nat) : Nat := clBlock c + 0x28
def aDpCollide (c : Nat) : Nat := clBlock c + 0x30
def aTestExclude (c k : Nat) : Nat := clBlock c + 0x40 + 8 * k
def aScCtl (c : Nat) : Nat := clBlock c + 0x100
def aScRet (c : Nat) : Nat := clBlock c + 0x108
def aScTestCtl (c : Nat) : Nat := clBlock c + 0x110
def aScTestStatus (c : Nat) : Nat := clBlock c + 0x118
def aScRepair (c : Nat) : Nat := clBlock c + 0x120
def aScConflict (c m : Nat) : Nat := clBlock c + 0x140 + 8 * m
def aCtxtBase (c : Nat) : Nat := clBlock c + 0x200
def aSnapBase (c : Nat) : Nat := clBlock c + 0x208
def aCredit (c : Nat) : Nat := if c < 64 then clBlock c + 0x210 else kpBlock + 0x50
def aCtxqSel (c : Nat) : Nat := clBlock c + 0x218
def aCtxqVal (c i : Nat) : Nat := clBlock c + 0x220 + 8 * i
def aNiRtCtl (c : Nat) : Nat := if c < 64 then clBlock c + 0x300 else hbBlock + 0x08
def aNiRspCfg (c : Nat) : Nat := clBlock c + 0x308
def aNiStatCtl (c : Nat) : Nat := clBlock c + 0x310
def aNiOff (c b : Nat) : Nat := if c < 64 then clBlock c + 0x320 + 8 * b else hbBlock + 0x10 + 8 * b
def aNiDcq (c i : Nat) : Nat := clBlock c + 0x340 + 8 * i
def aRtStatCtl (r : Nat) : Nat := clBlock r + 0x400
def aPortCtl (r p : Nat) : Nat := clBlock r + 0x408 + 8 * p
def aPortStatus (r p : Nat) : Nat := clBlock r + 0x430 + 8 * p
def aRtDcq (r i : Nat) : Nat := clBlock r + 0x480 + 8 * i
def aAeStatCtl (c : Nat) : Nat := clBlock c + 0x600
def aAeResInject (c : Nat) : Nat := clBlock c + 0x608
def aAeStat (c i : Nat) : Nat := clBlock c + 0x610 + 8 * i
def aNiRt (c b e : Nat) : Nat := clBlock c + 0x2000 + b * 0x1000 + e * 8
def aHbLock : Nat := hbBlock
def aHbShift : Nat := hbBlock + 0x20
def aHbCdcCfg : Nat := hbBlock + 0x28
def aPstatSel : Nat := hbBlock + 0x30
def aPstat (i : Nat) : Nat := hbBlock + 0x40 + 8 * i
def aDieOff : Nat := hbBlock + 0x78
def aHbDcq (i : Nat) : Nat := hbBlock + 0x100 + 8 * i
def aHbRt (b e w : Nat) : Nat := hbBlock + 0x1000 + b * 0x400 + e * 0x10 + w * 8
def aPressCfg : Nat := spBlock
def aPressStatus : Nat := spBlock + 0x08
def aQuota : Nat := spBlock + 0x10
def aParked (d : Nat) : Nat := spBlock + 0x100 + 8 * d
def aLkSel : Nat := lkBlock
def aLkLease : Nat := lkBlock + 0x08
def aLkInfo : Nat := lkBlock + 0x10
def aLkStatCtl : Nat := lkBlock + 0x18
def aLkStat (i : Nat) : Nat := lkBlock + 0x20 + 8 * i
def aLkAcq (n : Nat) : Nat := lkArray + n * 0x10
def aLkRel (n : Nat) : Nat := lkArray + n * 0x10 + 8
def aTbNow : Nat := tbBlock
def aTbStatus : Nat := tbBlock + 0x08
def aDomSel : Nat := tbBlock + 0x10
def aDomErr : Nat := tbBlock + 0x18
def aScrubCtl : Nat := mmBlock
def aMmStatus (ch : Nat) : Nat := mmBlock + 0x100 + ch * 0x100
def aMmInit (ch : Nat) : Nat := aMmStatus ch + 0x08
def aMmCtl (ch : Nat) : Nat := aMmStatus ch + 0x10
def aMmErr (ch : Nat) : Nat := aMmStatus ch + 0x18
def aMmStat (ch i : Nat) : Nat := aMmStatus ch + 0x20 + 8 * i
def aMmDcq (ch i : Nat) : Nat := aMmStatus ch + 0x50 + 8 * i
def aKpLock : Nat := kpBlock
def aPairCtl (p : Nat) : Nat := kpBlock + 0x10 + 8 * p
def aPairStatus (p : Nat) : Nat := kpBlock + 0x20 + 8 * p
def aSafeCfg : Nat := kpBlock + 0x30
def aSafeOut : Nat := kpBlock + 0x38
def aSecret (p : Nat) : Nat := kpBlock + 0x40 + 8 * p
def aBadCtx : Nat := kpBlock + 0x58
def aHaltDrop : Nat := kpBlock + 0x60
def aKpDcq (i : Nat) : Nat := kpBlock + 0x80 + 8 * i
def aUeStorm : Nat := evBlock
def aLogCtl : Nat := evBlock + 0x08
def aLogNewest : Nat := evBlock + 0x10
def aLogOldest : Nat := evBlock + 0x18
def aFlashLost : Nat := evBlock + 0x20
def aPtLock (p : Nat) : Nat := ptBlock p
def aPtCtl (p : Nat) : Nat := ptBlock p + 0x08
def aPtOpen (p : Nat) : Nat := ptBlock p + 0x10
def aPtStatus (p : Nat) : Nat := ptBlock p + 0x18
def aPtCfg (p : Nat) : Nat := ptBlock p + 0x20
def aMapSel (p : Nat) : Nat := ptBlock p + 0x28
def aMapW0 (p : Nat) : Nat := ptBlock p + 0x30
def aMapW1 (p : Nat) : Nat := ptBlock p + 0x38
def aTsAdj (p : Nat) : Nat := ptBlock p + 0x40
def aPinfo (p : Nat) : Nat := ptBlock p + 0x48
def aPtStatCtl (p : Nat) : Nat := ptBlock p + 0x50
def aPtDcq (p i : Nat) : Nat := ptBlock p + 0x80 + 8 * i
/-- Port counters (R379): 0 NOCRED, 1 RXFRM, 2 TXFRM, 3 CRCERR, 4 NAK, 5 REPLAY, 6 BADFRM, 7 DENY, 8 CORRUPT, 9 REFSUP, 10 PKTTO,
11 EGDROP, 12 GAP, 13 LATE, 14 DUP. -/
def aPtStat (p i : Nat) : Nat := ptBlock p + 0x100 + 8 * i
def aMcLock : Nat := mcBlock
def aMcEvt : Nat := mcBlock + 0x08
def aDbgCfg : Nat := mcBlock + 0x10
def aUcodeStatus : Nat := mcBlock + 0x18
def aMcDcq (i : Nat) : Nat := mcBlock + 0x40 + 8 * i
def aMcTemp (i : Nat) : Nat := mcBlock + 0x100 + 8 * i
def aMcVmon (k : Nat) : Nat := mcBlock + 0x200 + 8 * k
def aMcAge (m : Nat) : Nat := mcBlock + 0x400 + 8 * m
def aSecStatus : Nat := secBlock
def aSecIdcode : Nat := secBlock + 0x08
def aPwLock : Nat := pwBlock
def aPwStatus : Nat := pwBlock + 0x08
def aPwState : Nat := pwBlock + 0x10
def aKsCfg : Nat := pwBlock + 0x18
def aKsCause : Nat := pwBlock + 0x20
def aPwSaveBase : Nat := pwBlock + 0x28

/-! Fields. -/

/-- Access codes (R5). -/
inductive Acc where
  | rw | ro | wo | w1c | w1s | rcl | rwl
  deriving DecidableEq, Repr

/-- A register field: bits hi:lo, access, reset value. -/
structure RField where
  hi : Nat
  lo : Nat
  acc : Acc
  rst : Nat
  deriving DecidableEq, Repr

/-- A statistics counter: COUNT in bits 47:0, RO, reset 0 (R109). -/
def fCounter : List RField := [⟨47, 0, .ro, 0⟩]
/-- The CLR and OVF pair of every statistics control register (R109). -/
def fStatCtl : List RField := [⟨1, 1, .w1c, 0⟩, ⟨0, 0, .wo, 0⟩]
/-- A lock register (R522). -/
def fLock : List RField := [⟨1, 1, .wo, 0⟩, ⟨0, 0, .w1s, 0⟩]
/-- A DCQ status register (R396): mode and depth per instance. -/
def fDcq (pkt dlog : Nat) : List RField :=
  [⟨63, 63, .ro, 0⟩, ⟨62, 62, .ro, 0⟩, ⟨61, 61, .ro, pkt⟩, ⟨60, 60, .wo, 0⟩, ⟨59, 56, .ro, dlog⟩, ⟨55, 44, .ro, 0⟩,
   ⟨43, 36, .ro, 0⟩, ⟨35, 24, .ro, 0⟩, ⟨15, 0, .ro, 0⟩]
/-- A route-table entry (R314): written only in the shadow bank. -/
def fRoute : List RField := [⟨63, 63, .rw, 0⟩, ⟨62, 62, .rw, 0⟩, ⟨59, 30, .rw, 0⟩, ⟨29, 0, .rw, 0⟩]
def fRtCtl : List RField := [⟨8, 8, .ro, 0⟩, ⟨7, 4, .rw, 0⟩, ⟨3, 0, .ro, 0⟩]

/-- The eight registers of a PE slot (R514), by index. -/
def fPeSlot (romrev : Nat) : Nat → List RField
  | 0 => [⟨10, 0, .rwl, 0⟩]
  | 1 => [⟨47, 12, .rwl, 0⟩]
  | 2 => [⟨3, 1, .rw, 0⟩, ⟨0, 0, .rw, 0⟩]
  | 3 => [⟨40, 32, .ro, 0⟩, ⟨24, 16, .rcl, 0⟩, ⟨8, 0, .ro, 0⟩]
  | 4 => fStatCtl
  | 5 => [⟨63, 63, .ro, 0⟩, ⟨62, 60, .ro, 0⟩, ⟨43, 32, .ro, 0⟩, ⟨15, 0, .ro, 0⟩]
  | 6 => [⟨63, 63, .ro, 0⟩, ⟨55, 48, .ro, 0⟩, ⟨47, 32, .ro, romrev⟩, ⟨31, 0, .ro, 0⟩]
  | _ => [⟨31, 0, .ro, 0⟩]

/-- CL_ID (R515). -/
def clIdVal (c : Nat) : Nat :=
  (if isSpoke c then put 39 36 (spokeOf c) + put 35 35 1 else 0)
    + (if hasApe c then put 28 28 1 + put 27 24 (slotPe c 4 - 256) else 0)
    + put 17 16 (clDie c) + put 14 12 (clY c) + put 10 8 (clX c) + put 5 0 c

/-- The registers of a cluster block by offset (R514, R516, R517). -/
def clSpec (c o : Nat) : Option (List RField) :=
  let slots := if hasApe c then 5 else 4
  if o = 0x00 then some [⟨63, 0, .ro, clIdVal c⟩]
  else if o = 0x08 then some fLock
  else if o = 0x10 then some [⟨6, 0, .rwl, 0x20⟩]
  else if o = 0x18 then some [⟨63, 32, .rw, 0x64⟩, ⟨3, 3, .rw, 0⟩, ⟨2, 2, .rw, 0⟩, ⟨1, 0, .rw, 0⟩]
  else if o = 0x20 then some [⟨63, 61, .ro, 0⟩, ⟨60, 60, .ro, 0⟩, ⟨31, 16, .ro, 0⟩, ⟨15, 0, .ro, 0⟩]
  else if o = 0x28 then some [⟨5, 5, .wo, 0⟩, ⟨4, 0, .wo, 0⟩]
  else if o = 0x30 then some fCounter
  else if 0x40 ≤ o ∧ o < 0x60 then some [⟨63, 63, .rwl, 0⟩, ⟨24, 16, .rwl, 0⟩, ⟨8, 0, .rwl, 0⟩]
  else if o = 0x100 then some fStatCtl
  else if o = 0x108 then some [⟨47, 32, .ro, 0⟩, ⟨31, 16, .rw, 0x3E8⟩, ⟨15, 0, .rw, 0⟩]
  else if o = 0x110 then some [⟨63, 32, .rwl, 0x15180⟩, ⟨0, 0, .rwl, 1⟩]
  else if o = 0x118 then some [⟨63, 48, .ro, 0⟩, ⟨40, 40, .ro, 0⟩, ⟨36, 34, .ro, 0⟩, ⟨24, 16, .ro, 0⟩, ⟨15, 0, .ro, 0⟩]
  else if o = 0x120 then some [⟨63, 0, .ro, 0⟩]
  else if 0x140 ≤ o ∧ o < 0x180 then some [⟨31, 0, .ro, 0⟩]
  else if o = 0x200 then some [⟨47, 20, .rwl, 0⟩]
  else if o = 0x208 then some [⟨47, 16, .rwl, 0⟩]
  else if o = 0x210 then some [⟨55, 32, .rwl, 229344⟩, ⟨23, 0, .ro, 229344⟩]
  else if o = 0x218 then some [⟨63, 63, .ro, 0⟩, ⟨13, 0, .rw, 0⟩]
  else if 0x220 ≤ o ∧ o < 0x238 then some fCounter
  else if o = 0x300 then some fRtCtl
  else if o = 0x308 then some [⟨38, 32, .ro, 0⟩, ⟨31, 31, .ro, 0⟩, ⟨23, 0, .rwl, 10000⟩]
  else if o = 0x310 then some fStatCtl
  else if 0x320 ≤ o ∧ o < 0x330 then some [⟨63, 0, .rw, 0⟩]
  else if 0x340 ≤ o ∧ o < 0x380 then some (fDcq (if o < 0x360 then 0 else 1) 5)
  else if o = 0x400 then some fStatCtl
  else if 0x408 ≤ o ∧ o < 0x430 then
    if o = 0x428 ∧ !isSpoke c then none
    else some [⟨47, 32, .rw, 0x40⟩, ⟨2, 2, .wo, 0⟩, ⟨1, 1, .wo, 0⟩, ⟨0, 0, .wo, 0⟩]
  else if 0x430 ≤ o ∧ o < 0x458 then
    if o = 0x450 ∧ !isSpoke c then none
    else some [⟨63, 62, .ro, 0⟩, ⟨55, 48, .ro, 0⟩, ⟨47, 32, .ro, 0⟩, ⟨21, 20, .ro, 0⟩, ⟨15, 0, .ro, 0⟩]
  else if 0x480 ≤ o ∧ o < 0x520 then
    if o ≥ 0x500 ∧ !isSpoke c then none else some (fDcq 0 6)
  else if o = 0x600 then some fStatCtl
  else if o = 0x608 then some [⟨3, 1, .rw, 0⟩, ⟨0, 0, .rw, 0⟩]
  else if o = 0x610 ∨ o = 0x618 then some fCounter
  else if 0x800 ≤ o ∧ o < 0x800 + slots * 0x100 ∧ o % 0x100 < 0x40 then
    some (fPeSlot (Config.romRev (if o < 0xC00 then 0 else 1)).toNat (o % 0x100 / 8))
  else if hasApe c ∧ 0xC40 ≤ o ∧ o < 0xC60 then
    some [⟨63, 58, .ro, 0⟩, ⟨39, 20, .ro, 0⟩, ⟨12, 0, .ro, 0x1FFF⟩]
  else if hasApe c ∧ o = 0xC60 then some [⟨3, 0, .wo, 0⟩]
  else if hasApe c ∧ o = 0xC68 then some [⟨2, 1, .rw, 0⟩, ⟨0, 0, .rw, 0⟩]
  else if 0x1000 ≤ o ∧ o < 0x1000 + slots * 0x200 then
    if o % 0x200 < 0xF8 ∨ (o ≥ 0x1800 ∧ 0x100 ≤ o % 0x200 ∧ o % 0x200 < 0x130) then some fCounter else none
  else if 0x1A00 ≤ o ∧ o < 0x1B20 then some fCounter
  else if 0x1C00 ≤ o ∧ o < 0x1CB8 then some fCounter
  else if 0x1D00 ≤ o ∧ o < 0x1D48 then some fCounter
  else if 0x1E00 ≤ o ∧ o < 0x1E20 then some fCounter
  else if 0x2000 ≤ o ∧ o < 0x4000 ∧ o % 0x1000 < 272 * 8 then some fRoute
  else if 0x4000 ≤ o ∧ o < 0x4000 + slots * 0x100 then some [⟨31, 31, .ro, 0⟩, ⟨24, 16, .ro, 0⟩, ⟨12, 0, .ro, 0⟩]
  else none

/-- The hub-die blocks (R518), by offset from 0x0F00_0040_0000. -/
def hubSpec (o : Nat) : Option (List RField) :=
  let b := o / 0x10000
  let q := o % 0x10000
  if b = 0 then
    if q = 0 then some fLock
    else if q = 0x08 then some fRtCtl
    else if q = 0x10 ∨ q = 0x18 then some [⟨63, 0, .rw, 0⟩]
    else if q = 0x20 then some [⟨23, 16, .ro, 0⟩, ⟨8, 8, .ro, 0⟩, ⟨4, 4, .wo, 0⟩, ⟨3, 0, .rw, 0⟩]
    else if q = 0x28 then some [⟨15, 0, .rwl, 0x400⟩]
    else if q = 0x30 then some [⟨63, 63, .ro, 0⟩, ⟨12, 0, .rw, 0x100⟩]
    else if 0x40 ≤ q ∧ q < 0x70 then some fCounter
    else if q = 0x70 then some [⟨47, 0, .rcl, 0⟩]
    else if q = 0x78 then some fCounter
    else if 0x100 ≤ q ∧ q < 0x300 then some (fDcq 0 6)
    else if 0x1000 ≤ q ∧ q < 0x1800 then if q % 0x10 = 0 then some fRoute else some [⟨7, 4, .rw, 0⟩, ⟨3, 0, .rw, 0⟩]
    else none
  else if b = 1 then
    if q = 0 then some [⟨39, 20, .rwl, 1000⟩, ⟨1, 0, .rwl, 0⟩]
    else if q = 0x08 then some [⟨0, 0, .ro, 0⟩]
    else if q = 0x10 then some [⟨7, 0, .rwl, 0x10⟩]
    else if 0x100 ≤ q ∧ q < 0x300 then some fCounter
    else none
  else if b = 2 then
    if q = 0 then some [⟨63, 63, .ro, 0⟩, ⟨9, 0, .rw, 0⟩]
    else if q = 0x08 then some [⟨19, 0, .rw, 10000⟩]
    else if q = 0x10 then some [⟨63, 24, .ro, 0⟩, ⟨19, 0, .ro, 0⟩]
    else if q = 0x18 then some fStatCtl
    else if 0x20 ≤ q ∧ q < 0x58 then some fCounter
    else none
  else if b = 3 then
    if q < 0x4000 then some [⟨63, 63, .ro, 0⟩, ⟨62, 62, .ro, 0⟩, ⟨47, 32, .ro, 0⟩, ⟨31, 0, .ro, 0⟩] else none
  else if b = 4 then
    if q = 0 then some [⟨63, 32, .ro, 0⟩, ⟨31, 0, .ro, 0⟩]
    else if q = 0x08 then some [⟨63, 63, .ro, 0⟩, ⟨62, 62, .ro, 0⟩]
    else if q = 0x10 then some [⟨63, 63, .ro, 0⟩, ⟨6, 0, .rw, 0⟩]
    else if q = 0x18 then some [⟨63, 63, .ro, 0⟩, ⟨47, 32, .ro, 0⟩, ⟨31, 0, .ro, 0⟩]
    else none
  else if b = 5 then
    if q = 0 then some [⟨16, 1, .rwl, 0x18⟩, ⟨0, 0, .rwl, 1⟩]
    else if 0x100 ≤ q ∧ q < 0x500 then
      let r := q % 0x100
      if r = 0 then some [⟨3, 2, .ro, 0⟩, ⟨1, 1, .ro, 0⟩, ⟨0, 0, .ro, 0⟩]
      else if r = 0x08 then some [⟨63, 63, .ro, 0⟩, ⟨47, 0, .ro, 0⟩]
      else if r = 0x10 then some fStatCtl
      else if r = 0x18 then some [⟨63, 63, .w1c, 0⟩, ⟨62, 62, .ro, 0⟩, ⟨47, 0, .ro, 0⟩]
      else if 0x20 ≤ r ∧ r < 0x50 then some fCounter
      else if r = 0x50 ∨ r = 0x58 then some (fDcq 0 6)
      else none
    else none
  else if b = 6 then
    if q = 0 then some fLock
    else if q = 0x10 ∨ q = 0x18 then some [⟨63, 32, .rwl, 0⟩, ⟨1, 1, .wo, 0⟩, ⟨0, 0, .wo, 0⟩]
    else if q = 0x20 ∨ q = 0x28 then some [⟨63, 62, .ro, 0⟩, ⟨61, 58, .ro, 0⟩, ⟨57, 54, .ro, 0⟩, ⟨15, 0, .ro, 0⟩]
    else if q = 0x30 then some [⟨31, 16, .rwl, 0⟩, ⟨7, 0, .rwl, 0⟩]
    else if q = 0x38 then some [⟨23, 16, .ro, 0⟩, ⟨15, 8, .ro, 0⟩, ⟨7, 0, .ro, 0⟩]
    else if q = 0x40 ∨ q = 0x48 then some [⟨28, 16, .rwl, 0⟩, ⟨14, 3, .rwl, 0⟩]
    else if q = 0x50 then some [⟨55, 32, .rwl, 2048⟩, ⟨23, 0, .ro, 2048⟩]
    else if q = 0x58 ∨ q = 0x60 then some fCounter
    else if 0x80 ≤ q ∧ q < 0xC0 then some (fDcq (if q < 0xA0 then 1 else 0) 5)
    else if 0x800 ≤ q ∧ q < 0xC00 ∧ q % 0x100 < 0x40 then some (fPeSlot (Config.romRev 2).toNat (q % 0x100 / 8))
    else if 0x1000 ≤ q ∧ q < 0x1800 ∧ q % 0x200 < 0xF8 then some fCounter
    else if 0x4000 ≤ q ∧ q < 0x4400 then some [⟨31, 31, .ro, 0⟩, ⟨24, 16, .ro, 0⟩, ⟨12, 0, .ro, 0⟩]
    else none
  else if b = 7 then
    if q = 0 then some [⟨47, 32, .ro, 0⟩, ⟨31, 16, .rwl, 0x3E8⟩, ⟨15, 0, .rwl, 0x10⟩]
    else if q = 0x08 then some [⟨2, 0, .rwl, 2⟩]
    else if q = 0x10 ∨ q = 0x18 then some [⟨63, 0, .ro, 0⟩]
    else if q = 0x20 then some fCounter
    else none
  else none

/-- A port block (R520), by offset. -/
def ptSpec (o : Nat) : Option (List RField) :=
  if o = 0 then some fLock
  else if o = 0x08 then some [⟨3, 0, .wo, 0⟩]
  else if o = 0x10 then some [⟨63, 63, .rwl, 1⟩, ⟨31, 16, .rwl, 0x15E⟩, ⟨0, 0, .wo, 0⟩]
  else if o = 0x18 then some [⟨63, 61, .ro, 0⟩, ⟨60, 57, .ro, 0⟩, ⟨56, 56, .ro, 0⟩, ⟨55, 55, .ro, 0⟩, ⟨54, 51, .ro, 0⟩,
    ⟨21, 16, .ro, 0⟩, ⟨15, 0, .ro, 0⟩]
  else if o = 0x20 then some [⟨63, 48, .rwl, 0x64⟩, ⟨47, 32, .rwl, 0xA⟩, ⟨31, 16, .rwl, 0x64⟩, ⟨7, 7, .rwl, 0⟩, ⟨6, 6, .rwl, 1⟩]
  else if o = 0x28 then some [⟨7, 0, .rw, 0⟩]
  else if o = 0x30 ∨ o = 0x38 then some [⟨63, 0, .rwl, 0⟩]
  else if o = 0x40 then some [⟨15, 0, .rw, 0⟩]
  else if o = 0x48 then some [⟨63, 63, .ro, 0⟩, ⟨47, 0, .ro, 0⟩]
  else if o = 0x50 then some fStatCtl
  else if 0x80 ≤ o ∧ o < 0xA0 then some (fDcq 1 8)
  else if 0xA0 ≤ o ∧ o < 0xC0 then some (fDcq 0 5)
  else if o = 0xC0 then some (fDcq 0 4)
  else if 0x100 ≤ o ∧ o < 0x178 then some fCounter
  else none

/-- The MC, security and power blocks (R520), by offset from 0x0F00_0060_0000. -/
def mcSpec (o : Nat) : Option (List RField) :=
  let b := o / 0x10000
  let q := o % 0x10000
  if b = 0 then
    if q = 0 then some fLock
    else if q = 0x08 then some [⟨63, 63, .w1c, 0⟩, ⟨55, 48, .ro, 0⟩, ⟨47, 0, .ro, 0⟩]
    else if q = 0x10 then some [⟨15, 0, .rwl, 0x258⟩]
    else if q = 0x18 then some [⟨63, 62, .ro, 0⟩, ⟨55, 48, .ro, 7⟩, ⟨47, 40, .ro, 7⟩, ⟨39, 32, .ro, 0⟩, ⟨31, 0, .ro, 0⟩]
    else if 0x40 ≤ q ∧ q < 0x68 then
      some (if q = 0x40 then fDcq 1 7 else if q = 0x48 then fDcq 0 7 else if q = 0x50 then fDcq 1 11 else fDcq 0 2)
    else if 0x100 ≤ q ∧ q < 0x1C0 then some [⟨63, 63, .ro, 0⟩, ⟨31, 16, .rcl, 0x8000⟩, ⟨15, 0, .ro, 0⟩]
    else if 0x200 ≤ q ∧ q < 0x2B0 then some [⟨63, 63, .ro, 0⟩, ⟨47, 32, .ro, 0⟩, ⟨15, 0, .ro, 0⟩]
    else if 0x400 ≤ q ∧ q < 0x640 then
      some [⟨63, 63, .ro, 0⟩, ⟨47, 32, .ro, (Config.ageBase ((q - 0x400) / 8)).toNat⟩, ⟨31, 16, .ro, 0⟩, ⟨15, 0, .ro, 0⟩]
    else none
  else if b = 1 then
    if q = 0 then some [⟨10, 8, .ro, 0⟩, ⟨5, 4, .ro, 0⟩, ⟨1, 0, .ro, 0⟩]
    else if q = 0x08 then some [⟨31, 28, .ro, 1⟩, ⟨27, 12, .ro, 0x5840⟩, ⟨11, 1, .ro, Config.idManufacturer.toNat⟩, ⟨0, 0, .ro, 1⟩]
    else none
  else if b = 2 then
    if q = 0 then some fLock
    else if q = 0x08 then some [⟨7, 7, .ro, 0⟩, ⟨6, 6, .ro, 0⟩, ⟨5, 4, .ro, 0⟩, ⟨3, 3, .ro, 0⟩, ⟨2, 2, .ro, 0⟩]
    else if q = 0x10 then some [⟨63, 62, .ro, 2⟩, ⟨61, 61, .ro, 0⟩, ⟨51, 48, .ro, 0⟩, ⟨39, 32, .ro, 1⟩]
    else if q = 0x18 then some [⟨1, 1, .rwl, 1⟩, ⟨0, 0, .rwl, 1⟩]
    else if q = 0x20 then some [⟨11, 8, .ro, 0⟩, ⟨4, 0, .ro, 0⟩]
    else if q = 0x28 then some [⟨47, 26, .rwl, 0⟩]
    else none
  else none

/-- The fields of the register at an address; none where no register stands (R513). -/
def regSpec (a : Nat) : Option (List RField) :=
  if a < regBase ∨ a % 8 ≠ 0 then none else
  let o := a - regBase
  if o < 0x400000 then clSpec (o / 0x10000) (o % 0x10000)
  else if o < 0x480000 then hubSpec (o - 0x400000)
  else if 0x500000 ≤ o ∧ o < 0x600000 then ptSpec (o % 0x10000)
  else if 0x600000 ≤ o ∧ o < 0x630000 then mcSpec (o - 0x600000)
  else none

/-- Whether an address lies in a block of register space (R512). -/
def inRegBlock (a : Nat) : Bool :=
  decide (regBase ≤ a) && (let o := a - regBase
    decide (o < 0x430000) || (decide (0x430000 ≤ o) && decide (o < 0x434000)) || (decide (0x440000 ≤ o) && decide (o < 0x480000))
      || (decide (0x500000 ≤ o) && decide (o < 0x630000)))

/-- The block of a register address, by its 64 KiB frame. -/
def regBlock (a : Nat) : Nat := (a - regBase) / 0x10000

/-- The owner endpoint of a register block (R512). -/
def regOwner (a : Nat) : Nat :=
  let b := regBlock a
  if b < 64 then b
  else if b = 0x41 then 66
  else if b = 0x42 ∨ b = 0x43 then 65
  else if b = 0x45 then 64
  else if b = 0x46 then 69
  else 68

/-- Whether a register of a cluster block lies in the cluster clock domain (R514). -/
def clusterSide (a : Nat) : Bool :=
  let o := (a - regBase) % 0x10000
  decide (regBase ≤ a ∧ a < hbBlock) && (o == 0x10 || o == 0x30 || decide (0x40 ≤ o ∧ o < 0x200) || decide (0x600 ≤ o ∧ o < 0x1A00)
    || decide (0x1D00 ≤ o ∧ o < 0x1E00) || decide (0x4000 ≤ o ∧ o < 0x5000))

/-- The lock register that governs a block; none for the lock array and the security block (R512). -/
def blockLock (a : Nat) : Option Nat :=
  let b := regBlock a
  if b < 64 then some (aClLock b)
  else if b = 0x43 then none
  else if b = 0x46 then some aKpLock
  else if b < 0x48 then some aHbLock
  else if 0x50 ≤ b ∧ b < 0x60 then some (aPtLock (b - 0x50))
  else if b = 0x60 then some aMcLock
  else if b = 0x62 then some aPwLock
  else none

/-- The reset value of a register: its fields' reset values. -/
def resetOf (fs : List RField) : Nat := fs.foldl (fun v f => v + put f.hi f.lo f.rst) 0

/-- What a register reads as before anything has changed it. -/
def regReset (a : Nat) : Word :=
  match regSpec a with
  | some fs => BitVec.ofNat 64 (resetOf fs)
  | none => 0

end Sys2Proof.Machine
end

