-- ==== Sys2Proof/Machine/Types.lean ====
section
/-! DEFINITION. The data the block's units hold: tokens, packets, messages, records, activations, contexts and
event records, each as its chapter lays it out. -/

namespace Sys2Proof.Machine

/-- The three PE kinds (R21). -/
inductive PeKind where
  | s | a | k
  deriving DecidableEq, Repr

/-- Fault codes (R146). -/
inductive FaultCode where
  | illegalOpcode | illegalField | illegalSequence | fpTrap | arithCheck | lsUncorrectable | imemUncorrectable
  | routeMiss | tokenCorrupt | iDoubleWrite | addressFault | accessDenied | ctxStall | noCapacity | lockViolation
  | ctxKilled
  deriving DecidableEq, Repr

/-- Packet opcodes (R302). -/
inductive Opc where
  | token | read | write | iread | iwrite | atom | service | lock | spill | resp | nack | bounce | mgtacc | control
  | epochMark | drainMark
  deriving DecidableEq, Repr

/-- Event severities (R426). -/
inductive Sev where
  | info | corrected | deferred | fatalContext | fatalModule
  deriving DecidableEq, Repr

/-- The hardware events the rules name; `program` is an EVENT instruction's own code (R185). -/
inductive Ev where
  | badTag | keeperBadCtx | freeNonempty | tokenNoContext | streamGap | msKeyLost | tokenPressure | tokenPressureEnd
  | ctxVictim | ctxStall | faultLost | doubleFault | faultNoHandler | arithRetry | arithCheck | laccCorrupt
  | laccCorrected | keeperMismatch | keeperWdog | badOpcode | linkDown | linkRetrain | linkRepair | epochOrder | shiftDone | tokenLost
  | dcqStall | cdcResumed | timeStep | cdcUnstable | pulseLost | nocredDrop | partnerInfo | lockViolation
  | lockAbandoned | lockExpired | collectorSilent | statSat | logPersistGap | logTruncated | cfgReject | mcRestart
  | authFail | imgInvalid | ucodeFault | ucodeLoadFail | ucodeNoPatch | rngFail | graphStart | graphStop | dieFault
  | vinLost | vinSurge | deferLost | memCe | memUe | ueStorm | lsCe | lsUe | scCe | scUe | imemUe | tempSensorLost
  | agingLimit | ageMonitorLost | refclkLost | refclkRestored | ppsLockLost | partnerStall | evCmdDenied
  | dcqPtrMismatch | dcqOversize | ucodeCe | portTrainFail | graphNoImage | graphStartLost | portRecovery | flitUe | linkResync | responseLost
  | dieOffDrop | boostDropped | scPresenceLost | mmOvertemp | lsMergePoison | configSectionUnknown | scRowRepair
  | scNoSpare | bounceLost | repairTableFull | repairRecordBad | keeperHalted | keeperNoProgram | secretRead | cdcTimeout
  | program (code : Nat)
  deriving DecidableEq, Repr

/-- Presence state of an I-view word (R67); `lost` is a state that reads 0b11 or uncorrectable (R269). -/
inductive Presence where
  | empty | full | deferred | lost
  deriving DecidableEq, Repr

/-- What the check field of a stored 64-bit word says when it is read (R279, R281). -/
inductive Ecc where
  | ok | ce | ue | poison
  deriving DecidableEq, Repr

/-- A token: tag, value (the low half alone when not wide), the NEWCTXR mark of the packet that carried it (R25, R302), its
source, and whether it is a FAULT token (R145). -/
structure Token where
  tag : Word
  val : Wide
  newctxr : Bool
  src : Nat
  fault : Bool
  deriving DecidableEq, Repr

/-- A fabric packet: the fields of the head flit (R300), its virtual network, the flits after the head, and the positions of
flits whose POISON is set. `fault` marks a FAULT token. `note` is the originator's own record of what the packet is about: for
a RESP, the NACKs it has had; for a NACK, what was absorbed. -/
structure Packet where
  vn : Nat
  opc : Opc
  route : BitVec 30
  dest : Nat
  src : Nat
  pri : Nat
  seq : Nat
  epoch : Nat
  spec : Nat
  crc : Nat
  bad : List Nat
  body : List Wide
  fault : Bool
  note : Nat
  deriving DecidableEq, Repr

/-- The AE operations (R165). -/
inductive AeOp where
  | divS | divU | remS | remU | mul128S | mul128U | divq | fdivD | fdivS | fsqrtD | fsqrtS | isqrt
  deriving DecidableEq, Repr

/-- A request to an arithmetic engine: operands and the modes read at issue (R165). -/
structure AeReq where
  op : AeOp
  a : Word
  b : Word
  poison : Bool
  rm : Nat
  fxrm : Nat
  sat : Bool
  ten : Nat
  cad : Bool
  tag : Word
  reply : Word
  pe : Nat
  rerun : Bool
  deriving DecidableEq, Repr

/-- What a fence waits for: a WRITE, IWRITE or ATOM; another request R66 covers; a message no fence names. -/
inductive FenceClass where
  | w | a | none
  deriving DecidableEq, Repr

/-- A message waiting to leave a PE or a unit (R186). `act` names the activation that issued it. -/
structure Msg where
  dest : Nat
  opc : Opc
  pri : Nat
  spec : Nat
  body : List Wide
  act : Nat
  cls : FenceClass
  ae : Option AeReq
  fault : Bool := false
  seq : Option Nat := none
  note : Nat := 0
  deriving DecidableEq, Repr

/-- Which fence stalls issue (R65, R66). -/
inductive FenceKind where
  | w | a
  deriving DecidableEq, Repr

/-- A long-accumulator operation waiting to take effect (R231). -/
inductive MacOp where
  | x (neg : Bool) (a b : Word)
  | q (neg : Bool) (a b : Word)
  deriving DecidableEq, Repr

/-- An active repeat (R137 to R141). -/
structure Rep where
  interruptible : Bool
  n : Nat
  done : Nat
  deriving DecidableEq, Repr

/-- What an issued instruction does when it lands. -/
inductive Effect where
  | reg (r : Nat) (v : BitVec 80) (poison : Bool)
  | flags (fps fxs : Nat)
  | special (r : Nat) (v : Word)
  | product (v : Wide)
  | mac (acc : Nat) (op : MacOp)
  | lclr (acc : Nat)
  | store (addr size : Nat) (v : Word) (poison : Bool)
  | scrub (addr : Nat)
  | zero (addr size : Nat)
  | send (m : Msg)
  | safew (imm : Nat)
  | trap (dst : Nat) (opa opb opc result : Word) (exc : Nat) (delay : Option (Option Nat)) (rep : Option Rep) (rc : BitVec 16)
  | check (unit : Nat)
  deriving DecidableEq, Repr

/-- An effect in flight: the slot it issued in, the slot it lands in, and the offset of its instruction (R124). -/
structure Flight where
  issue : Nat
  land : Nat
  offset : Nat
  word : Word
  divk : Bool
  eff : Effect
  deriving DecidableEq, Repr

/-- An LRD running in the micro-sequencer (R188, R238). -/
structure LrdRun where
  dst : Nat
  acc : Nat
  lsel : Word
  rm : Nat
  fxrm : Nat
  sat : Bool
  issue : Nat
  offset : Nat
  word : Word
  deriving DecidableEq, Repr

/-- A running activation: the register file of R117, the body position, and what is in flight. -/
structure Act where
  serial : Nat
  tag : Word
  stamp : Nat
  hdr : Word
  base : Nat
  ins : List Token
  gp : BitVec 24
  g : Vector Word 16
  ga : Vector (BitVec 80) 4
  rc : BitVec 16
  fps : Word
  fxs : Word
  ctl : Word
  mh : Word
  ml : Word
  lsel : Word
  off : Nat
  slot : Nat
  delay : Option (Option Nat)
  rep : Option Rep
  flights : List Flight
  mulFree : Nat
  divUntil : Nat
  lrd : Option LrdRun
  fence : Option FenceKind
  handles : Option Nat
  visible : Bool
  retried : Bool
  resumed : Bool
  deriving DecidableEq, Repr

/-- Where a ready entry's inputs stand (R100): in the entry (arity 1), in a matching record, or in a save frame. -/
inductive RSrc where
  | one (t : Token)
  | record (key : Word)
  | frame (f : Nat)
  deriving DecidableEq, Repr

/-- A ready-list entry (R99). -/
structure ReadyE where
  pri : Nat
  base : Nat
  stamp : Nat
  wait : Nat
  key : Word
  src : RSrc
  deriving DecidableEq, Repr

/-- The level a matching record stands at (R77). -/
inductive Level where
  | store | overflow | deep | fill
  deriving DecidableEq, Repr

/-- A matching record (R77): key, arity, the tokens present by port, whether a value slot or the header word reads uncorrectable
(R79), when its first token arrived, its level and set. -/
structure MRec where
  key : Word
  arity : Nat
  toks : Tbl Token
  ready : Bool
  poison : Bool
  keyBad : Bool
  arrived : Nat
  level : Level
  set : Nat
  deriving DecidableEq, Repr

/-- What the micro-sequencer keeps of a save frame beside the 512 bytes in module memory (R150): the copies that
RESUME checks and the writes in flight. -/
structure Frame where
  preempt : Bool
  act : Act
  status : Word
  result : Word
  dst : Nat
  exc : Nat
  pri : Nat
  inReady : Bool
  deriving DecidableEq, Repr

/-- A token of a set whose lower level is still being searched or written (R83). -/
structure Lookup where
  tok : Token
  set : Nat
  asked : Bool
  answered : Bool
  deriving DecidableEq, Repr

/-- A long accumulator (R228): value, wrap mark, special marks, owner, corruption, and whether one of its words has come to hold a single-bit
error (1) or an uncorrectable one (2) that no read has met yet (R241). -/
structure Lacc where
  val : BitVec 4288
  bound : Bool
  owner : Nat
  corrupt : Bool
  ovf : Bool
  nan : Bool
  pinf : Bool
  ninf : Bool
  residueBad : Bool
  err : Nat
  deriving DecidableEq, Repr

/-- The routines of a micro-sequencer that run over several commands (R438, R445, R446): a bulk spill, the two sweeps of a kill, a deferral
release, and the service routines of a debug halt and of a fill or shadow copy. -/
inductive LongKind where
  | bulkSpill | killSweep (k : Nat) | overflowSweep (k : Nat) | release | halt | fill
  deriving DecidableEq, Repr

/-- A routine that runs, the set or bucket it processes next, and the records, replies or entries it has moved or cancelled (R446). -/
structure Routine where
  kind : LongKind
  set : Nat
  records : Nat
  deriving DecidableEq, Repr

/-- A save slot of a micro-sequencer (R444): micro-PC, MR0 to MR7 and the routine that a micro-trap interrupted. -/
structure SaveSlot where
  mpc : BitVec 14
  mr : Vector Word 8
  routine : Option Routine
  deriving DecidableEq, Repr

/-- Micro-sequencer state of a PE (R439 to R446): the patch RAM, the micro-address fetched last, MR0 to MR7, the routine that runs, the save
slots in use, newest first, and the kill and debug halt that wait for a trap window. -/
structure Useq where
  patch : Tbl (BitVec 112)
  mpc : BitVec 14
  mr : Vector Word 8
  running : Option Routine
  slots : List SaveSlot
  killTrap : Option Nat
  haltTrap : Bool
  deriving DecidableEq, Repr

/-- Debug halt state of a PE (R483). -/
inductive Halt where
  | run | requested | halted | step
  deriving DecidableEq, Repr

/-- One PE. The two K-PEs of a tandem pair share one entry, kept under the even number (R22, R245). `laccSaved` is what an OFF cluster
keeps of the long accumulators in its auxiliary bucket (R242). -/
structure Pe where
  clk : Nat
  inbox : List Token
  lookups : List Lookup
  recs : List MRec
  fillBuf : List Word
  ready : List ReadyE
  backlog : List ReadyE
  shadow : Option RSrc
  act : Option Act
  frames : Tbl (Option Frame)
  outQ : List Msg
  outBack : List Msg
  killFilter : List Nat
  killStage : List Nat
  boosts : List (Nat × Nat)
  halt : Halt
  laccs : Tbl Lacc
  laccSaved : List Lacc
  useq : Useq
  imemBad : List Nat
  keyLost : Nat
  deriving DecidableEq, Repr

/-- Context states (R43). -/
inductive CtxState where
  | free | live | killing | quarantine
  deriving DecidableEq, Repr

/-- A context: the descriptor of R41, the owner's retired mask (R50) and stall run (R95), the gates that hold a copy of its BASE (R51), and whether
STAT_SAT was raised for its counters (R430). -/
structure Ctx where
  state : CtxState
  pri : Nat
  cad : Bool
  itw : Nat
  base : Nat
  hpe : Nat
  hip : Nat
  hv : Bool
  stallLimit : Nat
  creator : Nat
  credits : Nat
  fires : Nat
  stallTime : Nat
  born : Nat
  retired : List Nat
  stallRun : Nat
  fired : Bool
  copies : List Nat
  satNoted : Bool
  deriving DecidableEq, Repr

/-- A unit that receives KILL, DRAIN_REQ and marks (R54, R58). -/
inductive UnitId where
  | pe (n : Nat)
  | cm (c : Nat)
  | ni (c : Nat)
  | port (p : Nat)
  | spill
  | hub
  deriving DecidableEq, Repr

/-- A kill in progress (R54): the units KILL has not reached, those that have not acknowledged, and whom to answer. -/
structure Kill where
  ctx : Nat
  toReach : List UnitId
  toAck : List UnitId
  reply : Option Packet
  deriving DecidableEq, Repr

/-- A drain round of one owner (R58): the number its marks carry, the contexts it covers, the sources DRAIN_REQ has not reached,
all sources and destinations by endpoint, and the marks received as (source, destination). -/
structure Drain where
  number : Nat
  ctxs : List Nat
  toReq : List Nat
  sources : List Nat
  dests : List Nat
  seen : List (Nat × Nat)
  deriving DecidableEq, Repr

/-- A waiter of a lock (R420): its identity (R410), acquiring PE, priority and reply tag. -/
structure Waiter where
  ep : Nat
  ctx : Nat
  pe : Nat
  pri : Nat
  tag : Word
  deriving DecidableEq, Repr

/-- A lock (R409 to R424): its holder, generation, ABANDONED flag and what the current grant showed of it, the LK_LEASE setting,
when the running lease began and its length, the waiters in order of arrival, the boost level in force, and the holder whose boost ended last
(R422). -/
structure Lock where
  holder : Option Waiter
  gen : Nat
  abandoned : Bool
  leaseUs : Nat
  since : Nat
  span : Nat
  waiters : List Waiter
  boost : Option Nat
  ended : Option Waiter
  deriving DecidableEq, Repr

/-- A response slot (R305): the copy of the request, the activation that issued it and its fence class, when the slot opened,
the NACKs it has seen (R328), and whether it waits for a new epoch. -/
structure RSlot where
  pkt : Packet
  act : Nat
  cls : FenceClass
  opened : Nat
  downs : Nat
  corrupts : Nat
  waitEpoch : Bool
  deriving DecidableEq, Repr

/-- A token or response parked at an NI or at the hub after a bounce or a NACK (R326, R328, R314): the packet with the epoch it
travelled under, whether it lies in the bounce overflow, the NACKs of a response, and its record in the bounce area. -/
structure Parked where
  pkt : Packet
  overflow : Bool
  tries : Nat
  slot : Nat
  deriving DecidableEq, Repr

/-- The network interface of a cluster, of the keeper block or of a hub unit (R305, R314, R318 to R331): messages of its units,
marks already formed over the old bank with their crossbar output,
response slots (from 128 on, requests on the local path of R265), injection counts per VN, parked packets, marks sent and not
yet acknowledged as (destination, VN, epoch), the newest mark received per source and VN, the open drain rounds (owner, contexts)
and the boost table as (context, lock, level) (R422). -/
structure Ni where
  outQ : List Msg
  formed : List (Packet × Nat)
  slots : Tbl (Option RSlot)
  seqs : List Nat
  parked : List Parked
  shifting : Bool
  marks : List (Nat × Nat × Nat)
  lastEpoch : Tbl Nat
  drains : List (Nat × List Nat)
  boosts : List (Nat × Nat × Nat)
  deriving DecidableEq, Repr

/-- A packet waiting at a router or crossbar input (R307, R309): since when its head waits at the front of its queue, when it arrived, and
at the crossbar the output it was formed for. -/
structure Hop where
  pkt : Packet
  time : Nat
  arrived : Nat
  out : Nat
  deriving DecidableEq, Repr

/-- A packet whose flits are still arriving at an input or an ejection queue (R299, R329): the flits that its LEN still owes, when its head arrived,
and whether OVERSIZE has cut it, so that the rest is absorbed (R390). -/
structure OpenPkt where
  pkt : Packet
  owed : Nat
  since : Nat
  skip : Bool
  deriving DecidableEq, Repr

/-- A router port beyond its registers (R295): a retrain pending by choice of the port is postponed or running; the times of the corrections
per logical wire in the last 10 ms, the wires that reached the threshold, and the spare wires in use at the hub's end of a spoke, which no
register shows. -/
structure Link where
  postponed : Bool
  running : Bool
  wires : Tbl (List Nat)
  worn : List Nat
  spares : Nat
  deriving DecidableEq, Repr

/-- A route shift (R318, R319): the sources SHIFT has not reached and those that owe SHIFT_DONE. -/
structure Shift where
  busy : Bool
  epoch : Nat
  toReach : List Nat
  pending : List Nat
  deriving DecidableEq, Repr

/-- A deferred reply (R271): the reply tag, the endpoint that asked, its level, whether a kill voided it, its entry in that level, and whether an
entry outside the pool, in a hidden region, reads uncorrectable (R280). -/
structure Defer where
  tag : Word
  ep : Nat
  ovf : Bool
  void : Bool
  slot : Nat
  bad : Bool
  deriving DecidableEq, Repr

/-- Deferred replies still to be released by an IWRITE (R273), how many have left, and the PE whose micro-sequencer releases them, for
scratch. -/
structure Release where
  addr : Nat
  val : Word
  poison : Bool
  list : List Defer
  sent : Nat
  pe : Option Nat
  deriving DecidableEq, Repr

/-- An arithmetic engine (R167): waiting requests, the two recurrence units and the multiplier pipeline. -/
structure Ae where
  queue : List AeReq
  unit0 : Option AeReq
  unit1 : Option AeReq
  pipe : List AeReq
  deriving DecidableEq, Repr

/-- A token held at a window gate (R52). -/
structure Held where
  tok : Token
  spilled : Bool
  deriving DecidableEq, Repr

/-- A context manager (R38, R51, R52, R90, R97): the gate queue, the window cache (BASE + 1 by context), the misses asked for, the
answers and WINDOW_ADVANCEs on their way to it, the spawn queue, the snapshot slot, the selected counters and the kills it owns. -/
structure Cm where
  gate : List Held
  cache : Tbl Nat
  asked : List Nat
  answers : List (Nat × Nat)
  advances : List (Nat × Nat)
  spawn : List Packet
  snapIdx : Nat
  snapSeq : Nat
  selCtx : Nat
  selVals : List Nat
  kills : List Kill
  drain : Option Drain
  drainRound : Nat
  deriving DecidableEq, Repr

/-- An event record (R426): when its collector received it and in which order (R427), TIME, and its other fields. -/
structure EvRec where
  time : Nat
  lseq : Nat
  tb : Nat
  sev : Sev
  code : Ev
  src : Nat
  pe : Option Nat
  ctx : Option Nat
  psn : Bool
  detail : Word
  deriving DecidableEq, Repr

/-- The background test of a cluster's scratch (R284 to R288): the borrowed segment, the next segment in order, segments moved to the
front, segments tested in this pass, words with one correctable error in this patrol pass, and segments that live on a spare. -/
structure ScTest where
  borrow : Option Nat
  next : Nat
  front : List Nat
  tested : List Nat
  ceSeen : List Nat
  homes : List Nat
  deriving DecidableEq, Repr

/-- Arbitration at a scratch bank (R264): the S-PE served last, and for each master how many accesses of others it has waited for. -/
structure Bank where
  last : Nat
  held : Tbl Nat
  deriving DecidableEq, Repr

/-- A partner packet whose flits are arriving (R350, R364, R368): its LEN, flits still owed, ingress stamp, time of its last flit. -/
structure RxPkt where
  pkt : Packet
  len : Nat
  owed : Nat
  stamp : Word
  last : Nat
  deriving DecidableEq, Repr

/-- A reorder window (R73, R74, R370): the expected number, held tokens, when the timer began, and the last 64 numbers passed. -/
structure Window where
  expected : Option Nat
  held : List (Nat × Packet)
  since : Nat
  recent : List Nat
  deriving DecidableEq, Repr

/-- What a port's receiver has found while it trains (R352, R353): valid sync headers in a row on each lane, how many stripes of TS2 blocks have
come with unchanged fields and what the latest said, stripes of TS2 sent, whether the lane order is known, and whether valid TS blocks of a
partner and of another module have come. -/
structure Training where
  locks : List Nat
  same : Nat
  last : Word
  sent : Nat
  found : Bool
  partner : Bool
  peer : Bool
  deriving DecidableEq, Repr

/-- An Etryn-X port beyond its registers (R343 to R378): the state before RECOVERY, receive and transmit sequence, when a NAK was sent,
frames held for replay, replays of the oldest, credit granted, used by the partner, freed while SUSPENDED, credit received and
used per VC, open packets and VCs whose flits are discarded, egress VCs that discard (R372), whether credit has come since, reorder
windows by virtual endpoint, times of refusal notices, the mapping table with its staged word and the commits that wait for the end of an
open packet (virtual endpoint and two words, R362),
PORT_NOTICEs still to be sent, whether the next frame carries NOCRED and the latest received one did (R340, R348), the scramblers of the four
lanes in both directions (R337), frames since the last ALIGN stripe (R338), the stripes sent last, by lane, the requests
that wait for a partner's RESP as (source endpoint, RSLOT, partner endpoint, SEQ, time of egress) (R334), and what training has found. -/
structure Port where
  prev : Nat
  rxNext : Nat
  txNext : Nat
  nakAt : Option Nat
  held : List (Nat × List (BitVec 144))
  replays : Nat
  grant : List Nat
  used : List Nat
  owedCr : List Nat
  crIn : List Nat
  sent : List Nat
  opens : Tbl (Option RxPkt)
  skip : List Nat
  stalled : List Nat
  windows : Tbl Window
  notices : Tbl Nat
  map0 : Tbl Word
  map1 : Tbl Word
  stage : Word
  mapDue : List (Nat × Word × Word)
  due : List Nat
  nocred : Bool
  peerNocred : Bool
  txScr : List (BitVec 58)
  rxScr : List (BitVec 58)
  frames : Nat
  lanes : List (List (BitVec 66))
  asked : List (Nat × Nat × Nat × Nat × Nat)
  train : Training
  deriving DecidableEq, Repr

/-- The local counter of a clock domain (R404 to R407): its value at the beacon it followed last, when that was, the error that its increment
removes over 16 beacons from then on, steps, the latest error, and whether the latest beacon was not accepted; `held` while it stands still,
`loaded` once it counts. -/
structure Dom where
  val : Word
  since : Nat
  corr : Int
  held : Bool
  steps : Nat
  err : Int
  unstable : Bool
  loaded : Bool
  deriving DecidableEq, Repr

/-- A pulse crossing (R399): a handshake open, pulses pending, and the sticky PULSE_LOST. -/
structure Pulse where
  busy : Bool
  pending : Nat
  lost : Bool
  delivered : Nat
  deriving DecidableEq, Repr

/-- A record on its way to the merge (R427, R428): its collector and local sequence number. -/
structure FwdRec where
  coll : Nat
  ev : EvRec
  deriving DecidableEq, Repr

/-- A record of the event log (R426, R463). -/
structure LogRec where
  seq : Nat
  late : Bool
  ev : EvRec
  deriving DecidableEq, Repr

/-- The event path (R427 to R428, R463 to R466): local sequence numbers, forwarded records, the time of each progress mark, collectors
not live, the next SEQ, the key assigned last, the ring, the persist queue, the flash logs,
whether records were lost before they reached them, and when the UE window began. -/
structure EvPath where
  lseqs : Tbl Nat
  merge : List FwdRec
  marks : Tbl Nat
  silent : List Nat
  seq : Nat
  top : Nat × Nat × Nat
  ring : List LogRec
  persist : List LogRec
  flash : List LogRec
  cut : Bool
  stormAt : Nat
  deriving DecidableEq, Repr

/-- A mailbox window (R456). -/
structure MbWin where
  ep : Nat
  req : Tbl Byte
  resp : List Byte
  busy : Bool
  done : Bool
  status : Nat
  last : Nat
  deriving DecidableEq, Repr

/-- A debug session (R482 to R487). -/
structure Session where
  level : Nat
  ch : Nat
  opsecMax : Option Nat
  used : Nat
  halted : List Nat
  deriving DecidableEq, Repr

/-- An image update (R474): its type, target copy, total length, the ranges written, and whether it has committed. -/
structure Update where
  type : Nat
  copy : Nat
  total : Nat
  ranges : List (Nat × Nat)
  done : Bool
  deriving DecidableEq, Repr

/-- Who asked the MC for something: channel, endpoint of a mailbox window, opcode and CMDSEQ of the frame (R454, R456, R457), and the source address
of a datagram (R455). -/
structure McAsk where
  ch : Nat
  ep : Nat
  op : Nat
  seq : Nat
  src : Nat
  deriving DecidableEq, Repr

/-- The graph image (R471 to R473): its USED masks and IMAGE_ID, whether GRAPH_START waits for clusters to reach their power states,
whether GRAPH_STOP waits for its drain rounds, and who is to be answered. -/
structure Graph where
  used : Nat
  ape : Nat
  id : Word
  starting : Bool
  stopping : Bool
  ask : McAsk
  deriving DecidableEq, Repr

/-- A tandem pair beyond its registers (R247 to R249, R251): zeroising runs, a restart waits for it, the watchdog stands at zero, and
whether the pair has done a SAFEW since power-on. -/
structure KPair where
  zero : Bool
  again : Bool
  wdogOut : Bool
  wrote : Bool
  deriving DecidableEq, Repr

/-- The management controller (R452 to R488): `unrecorded` are repair records not yet written to flash (R289), `reroute` says that links
have changed since the routes were made (R317), `respTo` holds OPCODE and CMDSEQ of the latest response on channels 1 to 4 and the address it
goes to (R455, R457), and `smbus` the 7-bit SMBus address (R452). -/
structure Mc where
  up : Bool
  lcProv : Nat
  lcSec : Nat
  lcRet : Nat
  life : Nat
  imgHash : BitVec 384
  dbgHash : BitVec 384
  ethKey : BitVec 256
  keysGone : Bool
  minver : List Nat
  flash : Tbl Byte
  inUse : Tbl Nat
  update : Option Update
  graph : Option Graph
  lcNonce : Option (BitVec 384 × Nat)
  dbgNonce : Option (BitVec 384 × Nat)
  session : Option Session
  ethSeq : Nat
  opsec : Nat
  rngOk : Bool
  windows : List MbWin
  resp : Nat × List Byte
  trace : Option (Nat × Nat)
  kept : Nat × Nat × Tbl Nat
  clean : Bool
  causes : List Nat
  faultN : Bool
  kickN : Bool
  pwrGood : Bool
  ucode : List (BitVec 8)
  settings : List (BitVec 8)
  refill : List (Nat × Nat × Nat)
  repairs : List Word
  unrecorded : List Word
  reroute : Bool
  respTo : Nat × Nat × Nat
  smbus : Nat
  pmbus : Nat
  tap : Nat
  scan : Nat
  deriving DecidableEq, Repr

/-- Power, clocks and thermal control (R489 to R509, R528 to R547): input voltages in mV, soft start before T+4 ms, REFCLK present and
holdover in use, PPS edges in a row and the time of the last, PPS_OUT, clock ceilings in kHz and guardbands in µV by cluster and die,
10 MHz steps taken off for aging and AGING_LIMIT events logged, monitors and dies without readings, what each cluster's wake or
power-down aims at, the dies that faulted before RUN, and T+0 of the latest start-up (R357, R506). -/
structure Pow where
  vinA : Nat
  vinB : Nat
  soft : Bool
  refOk : Bool
  holdover : Bool
  ppsRun : Nat
  ppsAt : Nat
  ppsOut : Bool
  drop : Tbl Nat
  guard : Tbl Nat
  ageSteps : Tbl Nat
  ageSeen : Tbl Nat
  ageLost : List Nat
  tempLost : List Nat
  goal : Tbl Nat
  late : List Nat
  begun : Nat
  deriving DecidableEq, Repr

end Sys2Proof.Machine
end

