-- ==== Sys2Proof/Machine/State.lean ====
section
/-! DEFINITION. The machine state: plain data, one home for every register, queue, buffer, table and mode the manual names.
Sparse parts are tables in canonical form (Tbl.wf). -/

namespace Sys2Proof.Machine

/-- Why the block stops with a fault. -/
inductive Fault where
  /-- Raised by no command of this model: every behaviour the manual describes continues (safe). -/
  | unreachable
  deriving DecidableEq, Repr

/-- Why a command has no meaning. -/
inductive Refusal where
  /-- An arm without a meaning yet, by its mnemonic (safe). -/
  | notModelled (mnemonic : String)
  /-- A command naming a unit the module does not have, raised by every command that takes a unit number (safe). -/
  | noSuchUnit (what : String)
  deriving DecidableEq, Repr

def Useq.init : Useq := { patch := [], mpc := 0, mr := Vector.replicate 8 0, running := none, slots := [], killTrap := none, haltTrap := false }

def Pe.init : Pe :=
  { clk := 0, inbox := [], lookups := [], recs := [], fillBuf := [], ready := [], backlog := [], shadow := none, act := none,
    frames := [], outQ := [], outBack := [], killFilter := [], killStage := [], boosts := [], halt := .run, laccs := [], laccSaved := [],
    useq := Useq.init, imemBad := [], keyLost := 0 }

def Lacc.init : Lacc :=
  { val := 0, bound := false, owner := 0, corrupt := false, ovf := false, nan := false, pinf := false, ninf := false,
    residueBad := false, err := 0 }

def Ctx.init : Ctx :=
  { state := .free, pri := 0, cad := false, itw := 0, base := 0, hpe := 0, hip := 0, hv := false, stallLimit := 0, creator := 0,
    credits := 0, fires := 0, stallTime := 0, born := 0, retired := [], stallRun := 0, fired := false, copies := [], satNoted := false }

def Ni.init : Ni :=
  { outQ := [], formed := [], slots := [], seqs := [0, 0, 0, 0], parked := [], shifting := false, marks := [], lastEpoch := [], drains := [],
    boosts := [] }

def Ae.init : Ae := { queue := [], unit0 := none, unit1 := none, pipe := [] }

def Link.init : Link := { postponed := false, running := false, wires := [], worn := [], spares := 0 }

def Shift.init : Shift := { busy := false, epoch := 0, toReach := [], pending := [] }

def Cm.init : Cm :=
  { gate := [], cache := [], asked := [], answers := [], advances := [], spawn := [], snapIdx := 0, snapSeq := 0, selCtx := 0, selVals := [], kills := [],
    drain := none, drainRound := 0 }

def Lock.init : Lock :=
  { holder := none, gen := 0, abandoned := false, leaseUs := 10000, since := 0, span := 0, waiters := [], boost := none, ended := none }

def ScTest.init : ScTest := { borrow := none, next := 0, front := [], tested := [], ceSeen := [], homes := [] }

def Bank.init : Bank := { last := 3, held := [] }

def Training.init : Training := { locks := [0, 0, 0, 0], same := 0, last := 0, sent := 0, found := false, partner := false, peer := false }

def Port.init : Port :=
  { prev := 0, rxNext := 0, txNext := 0, nakAt := none, held := [], replays := 0, grant := [0, 0, 0, 0], used := [0, 0, 0, 0],
    owedCr := [0, 0, 0, 0], crIn := [0, 0, 0, 0], sent := [0, 0, 0, 0], opens := [], skip := [], stalled := [], windows := [],
    notices := [], map0 := [], map1 := [], stage := 0, mapDue := [], due := [], nocred := false, peerNocred := false, txScr := [0, 0, 0, 0], rxScr := [0, 0, 0, 0],
    frames := 0, lanes := [], asked := [], train := Training.init }

def Window.init : Window := { expected := none, held := [], since := 0, recent := [] }

def Dom.init : Dom := { val := 0, since := 0, corr := 0, held := false, steps := 0, err := 0, unstable := false, loaded := false }

def Pulse.init : Pulse := { busy := false, pending := 0, lost := false, delivered := 0 }

def KPair.init : KPair := { zero := false, again := false, wdogOut := false, wrote := false }

def EvPath.init : EvPath :=
  { lseqs := [], merge := [], marks := [], silent := [0, 1, 2, 3], seq := 0, top := (0, 0, 0), ring := [], persist := [], flash := [], cut := false, stormAt := 0 }

def Mc.init : Mc :=
  { up := false, lcProv := 0, lcSec := 0, lcRet := 0, life := 0, imgHash := 0, dbgHash := 0, ethKey := 0, keysGone := false,
    minver := [0, 0, 0, 0, 0], flash := [], inUse := [], update := none, graph := none, lcNonce := none, dbgNonce := none,
    session := none, ethSeq := 0, opsec := 0, rngOk := true, windows := [], resp := (0, []), trace := none, kept := (0, 0, []), clean := true, causes := [],
    faultN := false, kickN := false, pwrGood := false, ucode := [], settings := [], refill := [], repairs := [], unrecorded := [], reroute := false, respTo := (0, 0, 0),
    smbus := 0x3A, pmbus := 0,
    tap := 0, scan := 0 }

def Pow.init : Pow :=
  { vinA := 0, vinB := 0, soft := false, refOk := true, holdover := false, ppsRun := 0, ppsAt := 0, ppsOut := false, drop := [],
    guard := [], ageSteps := [], ageSeen := [], ageLost := [], tempLost := [], goal := [], late := [], begun := 0 }

/-- The state of the block. `free` counts the free values taken so far (the model's own); `sat` holds the groups of counters without a control
register whose OVF is set (R430), `flushes` the status registers of DCQs whose flush waits for the packet being written (R392), and `stopped` the
value and pulse crossings whose partner clock is seen stopped (R401). -/
structure State where
  pending : List Instr
  free : Nat
  serial : Nat
  now : Nat
  regs : Tbl Word
  mem : List Host.Cell
  ecc : Tbl Ecc
  pres : Tbl Presence
  imem : Tbl Word
  pes : Tbl Pe
  ctxs : Tbl Ctx
  nis : Tbl Ni
  cms : Tbl Cm
  reqs : Tbl (List Packet)
  coll : Tbl (List EvRec)
  vcs : Tbl (List Hop)
  openPkts : Tbl (Option OpenPkt)
  linkUse : Tbl Nat
  links : Tbl Link
  flitUeAt : Tbl Nat
  oversizeAt : Tbl Nat
  eject : Tbl (List Packet)
  defers : Tbl (List Defer)
  rels : Tbl (List Release)
  aes : Tbl Ae
  shift : Shift
  locks : Tbl Lock
  rdata : List Word
  parked : Tbl (List Packet)
  tests : Tbl ScTest
  rr : Tbl Nat
  banks : Tbl Bank
  lsRows : Tbl (List Nat)
  ports : Tbl Port
  pstat : Tbl Nat
  sat : List Nat
  doms : Tbl Dom
  flushes : List Nat
  stopped : List Nat
  beacon : Word
  pulses : Tbl Pulse
  pairs : Tbl KPair
  ev : EvPath
  mc : Mc
  pw : Pow
  deriving DecidableEq, Repr

def State.reset : State :=
  { pending := [], free := 0, serial := 0, now := 0, regs := [], mem := [], ecc := [], pres := [], imem := [],
    pes := [], ctxs := [], nis := [], cms := [], reqs := [], coll := [],
    vcs := [], openPkts := [], linkUse := [], links := [], flitUeAt := [], oversizeAt := [], eject := [], defers := [], rels := [], aes := [], shift := Shift.init, locks := [], rdata := [], parked := [], tests := [], rr := [], banks := [], lsRows := [], ports := [], pstat := [], sat := [], doms := [], flushes := [], stopped := [], beacon := 0,
    pulses := [], pairs := [], ev := EvPath.init, mc := Mc.init, pw := Pow.init }

/-- The outcome type of a meaning. -/
abbrev Out := Host.Outcome State Fault Refusal

end Sys2Proof.Machine
end

