-- ==== Sys2Proof/Machine/Ops.lean ====
section
/-! DEFINITION. The named operations over registers, memory, units, events and messages that every meaning uses. -/

namespace Sys2Proof.Machine

/-! Registers. -/

/-- The value a register holds. -/
def State.reg (s : State) (a : Nat) : Word := Tbl.get (regReset a) s.regs a
/-- Store a register's value; a value equal to its reset value is not listed. -/
def State.setReg (s : State) (a : Nat) (v : Word) : State := { s with regs := Tbl.set (regReset a) s.regs a v }
/-- A field of a register. -/
def State.rfld (s : State) (a hi lo : Nat) : Nat := fld (s.reg a) hi lo
/-- Hardware update of one field. -/
def State.setRfld (s : State) (a hi lo v : Nat) : State := s.setReg a (setFld (s.reg a) hi lo v)

/-! Free values. -/

/-- Take the next number of the free-value counter. -/
def State.draw (s : State) : Nat × State := (s.free, { s with free := s.free + 1 })

/-- The timebase value: seconds in 63:32, the fraction below (R404, R548). `now` counts timebase cycles of 1 ns since VIN rose. -/
def State.tb (s : State) : Word := BitVec.ofNat 64 (s.now * 2 ^ 32 / 10 ^ 9)

/-! Local counters (R404 to R407, R548). -/

def State.dom (s : State) (d : Nat) : Dom := Tbl.get Dom.init s.doms d
def State.setDom (s : State) (d : Nat) (x : Dom) : State := { s with doms := Tbl.set Dom.init s.doms d x }
/-- The clock domains that satisfy a test stop: each counter loads the first beacon that it accepts when it comes up again; its STEPS since power-on
stay (R407, R548). -/
def State.domsDown (s : State) (f : Nat → Bool) : State :=
  { s with doms := (s.doms.map (·.1)).foldl (fun t d => if f d then Tbl.set Dom.init t d { Tbl.get Dom.init t d with loaded := false, held := false } else t) s.doms }
/-- k ns in units of 2^-32 s. -/
def lsbOf (k : Nat) : Nat := k * 2 ^ 32 / 10 ^ 9
/-- What the local counter of domain d reads: it stands while it is held, and otherwise has run since the beacon it followed last, at an increment
that removes the error of that beacon over 16 beacons, 1,024 ns (R405). A domain that has loaded no beacon takes its time from the
always-on domain (DESIGN CHOICE, log 53), as the JTAG domain does (R404). -/
def State.localTime (s : State) (d : Nat) : Nat :=
  let read (x : Dom) : Nat :=
    if x.held then x.val.toNat else
      let k := s.now - x.since
      ((x.val.toNat + lsbOf k : Nat) + x.corr * (k : Int) / 1024).toNat % 2 ^ 64
  let x := s.dom d
  if x.loaded then read x else if (s.dom 91).loaded then read (s.dom 91) else s.tb.toNat

/-- The routine that a micro-trap interrupted goes on from its save slot; without one, no routine runs (R444). -/
def Useq.restore (u : Useq) : Useq :=
  match u.slots with
  | x :: r => { u with mpc := x.mpc, mr := x.mr, running := x.routine, slots := r }
  | [] => { u with running := none }
/-- A debug halt ends: the routine that it interrupted goes on, at once or after the routines that trapped the halt (R445). -/
def Useq.endHalt (u : Useq) : Useq :=
  let held (r : Option Routine) : Bool := r.any (fun r => r.kind == .halt)
  let u := if held u.running then u.restore else { u with slots := u.slots.filter (fun x => !held x.routine) }
  { u with haltTrap := false }
/-- Contexts whose KILL a micro-sequencer has not served yet. -/
def Useq.kills (u : Useq) : List Nat :=
  u.killTrap.toList ++ (u.running.toList ++ u.slots.filterMap (·.routine)).filterMap (fun r => match r.kind with
    | .killSweep k | .overflowSweep k => some k
    | _ => none)
/-- Neither a routine nor a trap holds the micro-sequencer. -/
def Useq.calm (u : Useq) : Bool := u.killTrap.isNone && !u.haltTrap && u.slots.isEmpty
/-- What a reset leaves of a micro-sequencer: its patches and a debug halt that waits; the save slots are discarded (R451, R508). -/
def Useq.discard (u : Useq) : Useq := { u with mpc := 0, running := none, slots := [], killTrap := none }

/-- One of a list, where the manual does not say which: a free value decides. -/
def State.freeOf {α : Type} (s : State) (l : List α) : Option α × State :=
  if l.length ≤ 1 then (l.head?, s) else let d := s.draw; (l[(Config.eventDetail d.1).toNat % l.length]?, d.2)

/-! Units. -/

def State.pe (s : State) (n : Nat) : Pe := Tbl.get Pe.init s.pes (pairPe n)
def State.setPe (s : State) (n : Nat) (p : Pe) : State := { s with pes := Tbl.set Pe.init s.pes (pairPe n) p }
def State.updPe (s : State) (n : Nat) (f : Pe → Pe) : State := s.setPe n (f (s.pe n))
def State.ni (s : State) (e : Nat) : Ni := Tbl.get Ni.init s.nis e
def State.setNi (s : State) (e : Nat) (v : Ni) : State := { s with nis := Tbl.set Ni.init s.nis e v }
def State.updNi (s : State) (e : Nat) (f : Ni → Ni) : State := s.setNi e (f (s.ni e))
def State.cm (s : State) (c : Nat) : Cm := Tbl.get Cm.init s.cms c
def State.setCm (s : State) (c : Nat) (v : Cm) : State := { s with cms := Tbl.set Cm.init s.cms c v }
def State.updCm (s : State) (c : Nat) (f : Cm → Cm) : State := s.setCm c (f (s.cm c))

/-- Contexts are keyed by id; keeper contexts follow the 2^20 cluster ids (R37). -/
def ctxKey (ks : Bool) (id : Nat) : Nat := if ks then 2 ^ 20 + id else id
/-- The key of the CTX field of a tag bound for PE n (R37). -/
def tagCtxKey (n ctx : Nat) : Nat := ctxKey (decide (272 ≤ n)) ctx
/-- The context id within its space. -/
def ctxId (k : Nat) : Nat := k % 2 ^ 20
/-- The context manager that owns a key: a cluster, or 69 for the keeper block (R37). -/
def ctxOwner (k : Nat) : Nat := if k ≥ 2 ^ 20 then 69 else k / 16384
/-- Root contexts are local id 0 of each owner (R39). -/
def isRoot (k : Nat) : Bool := if k ≥ 2 ^ 20 then k == 2 ^ 20 else k % 16384 == 0
def State.ctx (s : State) (k : Nat) : Ctx := Tbl.get Ctx.init s.ctxs k
def State.setCtx (s : State) (k : Nat) (v : Ctx) : State := { s with ctxs := Tbl.set Ctx.init s.ctxs k v }
def State.updCtx (s : State) (k : Nat) (f : Ctx → Ctx) : State := s.setCtx k (f (s.ctx k))
def State.reqAt (s : State) (e : Nat) : List Packet := Tbl.get [] s.reqs e
def State.setReqs (s : State) (e : Nat) (l : List Packet) : State := { s with reqs := Tbl.set [] s.reqs e l }
def State.pushReq (s : State) (e : Nat) (p : Packet) : State := s.setReqs e (s.reqAt e ++ [p])

def peKind (n : Nat) : PeKind := if n < 256 then .s else if n < 272 then .a else .k
/-- Instruction-memory words of a PE (R21). -/
def imemWords (n : Nat) : Nat := if peKind n = .a then 16384 else 8192
/-- Local-store bytes of a PE (R21). -/
def lsBytes (n : Nat) : Nat := if peKind n = .a then 262144 else 32768
def lsBase (n : Nat) : Nat := 0x002000000000 + n * 0x100000
def imemBase (n : Nat) : Nat := 0x003000000000 + n * 0x100000
def scrBase (c : Nat) : Nat := 0x001000000000 + c * 0x100000
/-- Word w of a PE's instruction memory. -/
def State.imemAt (s : State) (n w : Nat) : Word := Tbl.get 0 s.imem (pairPe n * 16384 + w)
def State.setImem (s : State) (n w : Nat) (v : Word) : State :=
  { s with imem := Tbl.set 0 s.imem (pairPe n * 16384 + w) v }

/-! Memory: bytes at global addresses; an unlisted byte reads zero (R68, R507). -/

def State.byte (s : State) (a : Nat) : Byte := Tbl.get 0 s.mem a
def State.setByte (s : State) (a : Nat) (v : Byte) : State := { s with mem := Tbl.set 0 s.mem a v }
def memBytes (m : List Host.Cell) (a : Nat) : Nat → List Byte
  | 0 => []
  | k + 1 => Tbl.get 0 m a :: memBytes m (a + 1) k
def memWrite (m : List Host.Cell) (a : Nat) : List Byte → List Host.Cell
  | [] => m
  | b :: r => memWrite (Tbl.set 0 m a b) (a + 1) r
/-- The k-byte little-endian number at an address (R3). -/
def State.load (s : State) (a k : Nat) : Nat := leNat (memBytes s.mem a k)
/-- Store the low k bytes of v at an address. -/
def State.store (s : State) (a k v : Nat) : State := { s with mem := memWrite s.mem a (leBytes k v) }
def State.word (s : State) (a : Nat) : Word := BitVec.ofNat 64 (s.load a 8)
/-- The check state of the 64-bit word that holds an address. -/
def State.eccAt (s : State) (a : Nat) : Ecc := Tbl.get .ok s.ecc (a / 8 * 8)
def State.setEcc (s : State) (a : Nat) (e : Ecc) : State := { s with ecc := Tbl.set .ok s.ecc (a / 8 * 8) e }
def State.presAt (s : State) (a : Nat) : Presence := Tbl.get .empty s.pres (a / 8 * 8)
def State.setPres (s : State) (a : Nat) (p : Presence) : State := { s with pres := Tbl.set .empty s.pres (a / 8 * 8) p }
/-- Whether a stored word reads as uncorrectable: a real error or stored poison (R281). -/
def Ecc.bad : Ecc → Bool
  | .ue | .poison => true
  | _ => false

/-- The check state of a word after a store of k bytes: stored poison for poisoned data, and for a merge into a word that reads as
uncorrectable (R259, R281). -/
def State.mergedEcc (s : State) (a k : Nat) (p : Bool) : Ecc := if p ∨ (k < 8 ∧ (s.eccAt a).bad) then .poison else .ok

/-! Events and counters. -/

/-- How `log` names a source by its domain number and its unit in that domain (R426): below 2^20 it names an endpoint. -/
def srcOf (d unit : Nat) : Nat := 2 ^ 20 + d * 512 + unit
/-- Port p, as an event source: its link logic in the hub fabric, or (`rx`) its receive domain; the unit is its virtual endpoint (R381, R426). Which of
the two an event names is the model's (DESIGN CHOICE, log 53). -/
def portSrc (rx : Bool) (p : Nat) : Nat := srcOf (if rx then 70 + p else 68) (256 + p)
/-- The domain of a source (R381): a PE's cluster, the keeper, the fabric of a cluster's die, always-on for the MC, otherwise the hub. -/
def evDom (e : Nat) (pe : Option Nat) : Nat :=
  match pe with
  | some n => if n < 272 then peCluster n else 69
  | none => if 2 ^ 20 ≤ e then (e - 2 ^ 20) / 512 else if e < 64 then 64 + clDie e else if e = 67 then 91 else if e = 69 then 69 else 68
/-- The collector of a source: its die, the MC, or the hub (R427). -/
def collectorOf (e : Nat) : Nat :=
  let d := evDom e none
  if d < 64 then clDie d else if d < 68 then d - 64 else if d = 91 ∨ 93 ≤ d then 5 else 4
/-- The local sequence number of the next record that collector k receives (R427): it follows that of the record received last, which may have left
before an earlier one. -/
def State.nextLseq (s : State) (k : Nat) : Nat :=
  let n := Tbl.get 0 s.ev.lseqs k
  match (Tbl.get [] s.coll k).getLast? with
  | some r => if (r.lseq + 2 ^ 32 - n) % 2 ^ 32 < 2 ^ 31 then (r.lseq + 1) % 2 ^ 32 else n
  | none => n
/-- Record an event of source e at its collector, stamped with the local counter of the source's domain (R426, R427). A FATAL-MODULE event
asserts FAULT_N (R453). -/
def State.log (s : State) (e : Nat) (ev : Ev) (sev : Sev) (detail : Word) (pe ctx : Option Nat := none) (psn : Bool := false) :
    State :=
  let k := collectorOf e
  let s := if sev = .fatalModule then { s with mc := { s.mc with faultN := true, clean := false } } else s
  { s with coll := Tbl.set [] s.coll k (Tbl.get [] s.coll k ++ [⟨s.now, s.nextLseq k, s.localTime (evDom e pe), sev, ev, e, pe, ctx, psn, detail⟩]) }
/-- Record an event whose DETAIL the manual does not give: a free value. -/
def State.logFree (s : State) (e : Nat) (ev : Ev) (sev : Sev) (pe ctx : Option Nat := none) : State :=
  let d := s.draw
  d.2.log e ev sev (Config.eventDetail d.1) pe ctx
/-- The statistics control register whose OVF bit a counter belongs to (R430). -/
def statCtlOf (a : Nat) : Option Nat :=
  let o := a - regBase
  let c := o / 0x10000
  let q := o % 0x10000
  if c < 64 then
    if 0x1000 ≤ q ∧ q < 0x1A00 then some (aPeStatCtl (slotPe c ((q - 0x1000) / 0x200)))
    else if 0x1A00 ≤ q ∧ q < 0x1C00 then some (aNiStatCtl c)
    else if 0x1C00 ≤ q ∧ q < 0x1D00 then some (aRtStatCtl c)
    else if 0x1D00 ≤ q ∧ q < 0x1E00 ∨ q = 0x30 ∨ (0x140 ≤ q ∧ q < 0x180) then some (aScCtl c)
    else if q = 0x610 ∨ q = 0x618 then some (aAeStatCtl c)
    else none
  else if c = 0x42 then some aLkStatCtl
  else if c = 0x45 then some (aMmCtl (q / 0x100 - 1))
  else if c = 0x46 ∧ 0x1000 ≤ q then some (aPeStatCtl (272 + (q - 0x1000) / 0x200))
  else if 0x50 ≤ c ∧ c < 0x60 then some (aPtStatCtl (c - 0x50))
  else none
/-- The counter at a has reached its limit: while its group's OVF is 0, OVF is set and STAT_SAT raised (R109, R430). A group without a control
register, named by its 256-byte page, keeps OVF in `sat`, where nothing clears it (DESIGN CHOICE, log 53). -/
def State.noteFull (s : State) (a : Nat) : State :=
  let note (s : State) : State := s.log (regOwner a) .statSat .info (BitVec.ofNat 64 a)
  (statCtlOf a).elim (if s.sat.contains (a / 256) then s else note { s with sat := s.sat ++ [a / 256] })
    (fun ctl => if s.rfld ctl 1 1 = 1 then s else note (s.setRfld ctl 1 1 1))
/-- Add k to a statistics counter (R109, R430). -/
def State.bump (s : State) (a : Nat) (k : Nat := 1) : State :=
  let v := s.rfld a 47 0
  let s := s.setRfld a 47 0 (satAdd 48 v k)
  if v + k < 2 ^ 48 - 1 then s else s.noteFull a
def State.bumpPe (s : State) (n i : Nat) (k : Nat := 1) : State := s.bump (aPeStat (pairPe n) i) k
def State.bumpNi (s : State) (e i : Nat) (k : Nat := 1) : State := if e < 64 then s.bump (aNiStat e i) k else s
/-- A counter of context k that has reached its limit raises STAT_SAT, once in the context's lifetime (R430). -/
def State.noteSat (s : State) (k : Nat) : State :=
  let c := s.ctx k
  if c.satNoted ∨ (c.fires < 2 ^ 48 - 1 ∧ c.stallTime < 2 ^ 48 - 1) then s
  else (s.setCtx k { c with satNoted := true }).log (ctxOwner k) .statSat .info (BitVec.ofNat 64 (ctxId k))
/-- A rejected configuration write: MC_EVT holds the address and counts (R461). -/
def State.cfgReject (s : State) (a : Nat) : State :=
  let v := s.reg aMcEvt
  let n := if bitAt v 63 then satInc 8 (fld v 55 48) else 1
  (s.setReg aMcEvt (setFld (setFld (setFld v 63 63 1) 55 48 n) 47 0 a)).log 68 .cfgReject .info (BitVec.ofNat 64 a)

/-! Tags and codes. -/

def tPri (t : Word) : Nat := fld t 63 61
def tCad (t : Word) : Bool := bitAt t 60
def tPoison (t : Word) : Bool := bitAt t 59
def tWide (t : Word) : Bool := bitAt t 58
def tSeqd (t : Word) : Bool := bitAt t 57
def tCtx (t : Word) : Nat := fld t 55 36
def tIter (t : Word) : Nat := fld t 35 24
def tPe (t : Word) : Nat := fld t 23 15
def tIp (t : Word) : Nat := fld t 14 2
def tPort (t : Word) : Nat := fld t 1 0
/-- Build a tag (R26). -/
def mkTag (pri : Nat) (cad poison wide : Bool) (ctx iter pe ip port : Nat) : Word :=
  BitVec.ofNat 64 (put 63 61 pri + put 60 60 cad.toNat + put 59 59 poison.toNat + put 58 58 wide.toNat + put 55 36 ctx
    + put 35 24 iter + put 23 15 pe + put 14 2 ip + put 1 0 port)
/-- The match key of a tag: CTX, ITER, PE and IP (R28). -/
def matchKey (t : Word) : Word := mkTag 0 false false false (tCtx t) (tIter t) (tPe t) (tIp t) 0
/-- The context key of a tag (R37). -/
def tKey (t : Word) : Nat := tagCtxKey (tPe t) (tCtx t)

def FaultCode.code : FaultCode → Nat
  | .illegalOpcode => 1
  | .illegalField => 2
  | .illegalSequence => 3
  | .fpTrap => 4
  | .arithCheck => 5
  | .lsUncorrectable => 6
  | .imemUncorrectable => 7
  | .routeMiss => 8
  | .tokenCorrupt => 9
  | .iDoubleWrite => 10
  | .addressFault => 11
  | .accessDenied => 12
  | .ctxStall => 13
  | .noCapacity => 14
  | .lockViolation => 15
  | .ctxKilled => 16

def Opc.code : Opc → Nat
  | .token => 0
  | .read => 1
  | .write => 2
  | .iread => 3
  | .iwrite => 4
  | .atom => 5
  | .service => 6
  | .lock => 7
  | .spill => 8
  | .resp => 9
  | .nack => 10
  | .bounce => 11
  | .mgtacc => 12
  | .control => 13
  | .epochMark => 14
  | .drainMark => 15

def Opc.ofCode : Nat → Opc
  | 0 => .token
  | 1 => .read
  | 2 => .write
  | 3 => .iread
  | 4 => .iwrite
  | 5 => .atom
  | 6 => .service
  | 7 => .lock
  | 8 => .spill
  | 9 => .resp
  | 10 => .nack
  | 11 => .bounce
  | 12 => .mgtacc
  | 13 => .control
  | 14 => .epochMark
  | _ => .drainMark

/-- The virtual network of an opcode's request form (R302). -/
def Opc.vn : Opc → Nat
  | .token | .drainMark => 0
  | .read | .write | .iread | .iwrite | .atom | .service | .lock | .spill => 1
  | .resp | .nack | .bounce => 2
  | .mgtacc | .control | .epochMark => 3

/-- The value of a FAULT token (R146). -/
def faultValue (ftag : Word) (unit : Bool) (code off detail : Nat) : Wide :=
  BitVec.ofNat 128 (put 127 121 (fld ftag 63 57) + put 120 120 unit.toNat + put 119 64 (fld ftag 55 0)
    + put 63 56 code + put 55 48 (if unit then 0 else off) + put 47 0 detail)

/-- The flits after the head of a TOKEN packet: tag and low value, then the high value when wide (R302). -/
def tokenBody (tag : Word) (val : Wide) : List Wide :=
  mkWide tag (lo64 val) :: (if tWide tag then [mkWide 0 (hi64 val)] else [])
/-- A token as a message to an endpoint. The sending NI clears bit 56 and SEQD (R27). -/
def tokenMsg (dest : Nat) (tag : Word) (val : Wide) (act : Nat) (cls : FenceClass) (newctxr : Bool := false) (fault : Bool := false) :
    Msg :=
  { dest := dest, opc := .token, pri := tPri tag, spec := newctxr.toNat, body := tokenBody (setFld (setBit tag 56 false) 57 57 0) val,
    act := act, cls := cls, ae := none, fault := fault }

/-- Queue a message at an endpoint's NI for a unit that is not a PE. -/
def State.unitSend (s : State) (e : Nat) (m : Msg) : State := s.updNi e (fun n => { n with outQ := n.outQ ++ [m] })

/-! Waiting tokens (R41, R87). -/

def MRec.key1 (r : MRec) (n : Nat) : Nat := tagCtxKey n (tCtx r.key)
/-- Tokens of context k waiting in the matching, gate and spill levels. -/
def State.waiting (s : State) (k : Nat) : Nat :=
  s.pes.foldl (fun n p =>
      n + (p.2.recs.filter (fun r => !r.ready && r.key1 p.1 == k)).foldl (fun m r => m + r.toks.length) 0
        + (p.2.lookups.filter (fun l => tKey l.tok.tag == k)).length) 0
    + s.cms.foldl (fun n c => n + (c.2.gate.filter (fun h => tKey h.tok.tag == k)).length) 0

/-- Write a whole word, with its check byte (R276). -/
def State.putWord (s : State) (a : Nat) (v : Word) : State := (s.store a 8 v.toNat).setEcc a .ok
/-- Store consecutive words. -/
def State.storeWords (s : State) (addr : Nat) : List Word → State
  | [] => s
  | w :: r => (s.putWord addr w).storeWords (addr + 8) r

/-! Descriptors in module memory (R41, R42). -/

def CtxState.code : CtxState → Nat
  | .free => 0
  | .live => 1
  | .killing => 2
  | .quarantine => 3
/-- The words of a descriptor (R41). -/
def State.descWords (s : State) (k : Nat) : List Word :=
  let c := s.ctx k
  [BitVec.ofNat 64 (put 63 62 c.state.code + put 61 59 c.pri + put 58 58 c.cad.toNat + put 57 54 c.itw + put 53 42 c.base + put 41 33 c.hpe
     + put 32 20 c.hip + put 19 19 c.hv.toNat),
   BitVec.ofNat 64 (put 63 40 c.stallLimit + put 39 20 (ctxId c.creator) + put 19 0 c.credits),
   BitVec.ofNat 64 (min c.fires (2 ^ 48 - 1)), BitVec.ofNat 64 (s.waiting k), BitVec.ofNat 64 (min c.stallTime (2 ^ 48 - 1)),
   BitVec.ofNat 64 c.born, 0, 0]
/-- Write the descriptor of a cluster context to its context table; a keeper's stays in keeper SRAM (R41). -/
def State.writeDesc (s : State) (k : Nat) : State :=
  if k ≥ 2 ^ 20 then s
  else s.storeWords (s.rfld (aCtxtBase (k / 16384)) 47 20 * 2 ^ 20 + k % 16384 * 64) (s.descWords k)

/-! Killing a context, from the module's own decisions (R43, R54). -/

/-- Every unit that KILL is sent to (R54): the PEs, the context managers, the spill engine and the ports. -/
def killUnits : List UnitId :=
  (List.range 273).map .pe ++ [.pe 274] ++ (List.range 64).map .cm ++ [.cm 69, .spill] ++ (List.range 16).map .port

/-- The commit point of a kill (R54 step 1, 2): STATE becomes KILLING and KILL goes to every unit. A root context is never
killed here (R39), and neither is a context that is not LIVE (R43). -/
def State.startKill (s : State) (k : Nat) (reply : Option Packet) : State :=
  let c := s.ctx k
  if c.state = .live ∧ ¬ isRoot k then
    ((s.setCtx k { c with state := .killing }).writeDesc k).updCm (ctxOwner k)
      (fun m => { m with kills := m.kills ++ [⟨k, killUnits, [], reply⟩] })
  else s

/-! Delivering faults (R144 to R149, R550). -/

/-- Deliver a fault to the handler of context k with faulting tag ftag, from unit e or from PE pe (R144). A context without a handler
gets the event and is killed (R149); `handles` is the fault code a faulting handler activation was dispatched to handle. -/
def State.deliverTo (s : State) (k e : Nat) (pe : Option Nat) (ftag : Word) (unit : Bool) (fc : FaultCode) (off detail : Nat)
    (handles : Option Nat := none) : State :=
  let c := s.ctx k
  let v := faultValue ftag unit fc.code off detail
  match handles with
  | some old =>
    let d := BitVec.ofNat 64 (put 63 56 fc.code + put 55 48 off + put 47 40 old + put 39 0 detail)
    (s.log e .doubleFault .fatalContext d pe (some (tCtx ftag))).startKill k none
  | none =>
    if c.hv ∧ c.state ≠ .free then
      let tag := mkTag (tPri ftag) (tCad ftag) false true (tCtx ftag) (tIter ftag) c.hpe c.hip 0
      let m := tokenMsg (peEndpoint c.hpe) tag v 0 .none false true
      match pe with
      | some n => s.updPe n (fun p => { p with outQ := p.outQ ++ [m] })
      | none => s.unitSend e m
    else
      (s.log e (if fc = .ctxStall then .ctxStall else .faultNoHandler) .fatalContext (lo64 v) pe (some (tCtx ftag))).startKill k none

/-- Deliver a fault to the handler of the context that ftag names (R37, R145). -/
def State.deliver (s : State) (e : Nat) (pe : Option Nat) (ftag : Word) (unit : Bool) (fc : FaultCode) (off detail : Nat)
    (handles : Option Nat := none) : State := s.deliverTo (tKey ftag) e pe ftag unit fc off detail handles

/-- The faulting tag of a fault raised against a context (R145): PRI, CAD and BASE from its descriptor, its id, zero elsewhere. -/
def State.ctxTag (s : State) (k : Nat) : Word :=
  let c := s.ctx k
  mkTag c.pri c.cad false false (ctxId k) c.base 0 0 0

/-! Outcomes. -/

/-- Run f; the queue of waiting commands is not a meaning's to change. -/
def onModule (s : State) (f : State → State) : Out := .next { f s with pending := s.pending }
/-- Run f when unit number n exists (n below lim); otherwise the command names no unit of the module. -/
def onUnit (what : String) (n lim : Nat) (s : State) (f : State → State) : Out :=
  if n < lim then onModule s f else .refused (.noSuchUnit what)

def onPe (n : Nat) (s : State) (f : State → State) : Out := onUnit "PE" n 276 s f
def onCluster (n : Nat) (s : State) (f : State → State) : Out := onUnit "cluster" n 64 s f
def onPort (n : Nat) (s : State) (f : State → State) : Out := onUnit "port" n 16 s f

end Sys2Proof.Machine
end

