-- ==== Sys2Proof/Machine/Safe.lean ====
section
/-! DEFINITION. The safe-state lands and the requests of the keeper pairs (R249 to R251). -/

namespace Sys2Proof.Machine

/-- The pair of a K-PE. -/
def pairOf (n : Nat) : Nat := (pairPe n - 272) / 2
/-- Whether pair p owns land k. -/
def State.owns (s : State) (p k : Nat) : Bool := bitAt (s.reg aSafeCfg) (16 + 2 * k + p)
/-- The level land k drives (R249). -/
def State.landLevel (s : State) (k : Nat) : Bool :=
  let safe := bitAt (s.reg aSafeCfg) k
  let own0 := s.owns 0 k
  let own1 := s.owns 1 k
  let run0 := s.rfld (aPairStatus 0) 63 62 == 1
  let run1 := s.rfld (aPairStatus 1) 63 62 == 1
  let req0 := bitAt (s.reg aSafeOut) k
  let req1 := bitAt (s.reg aSafeOut) (8 + k)
  let standby := s.rfld aPwState 63 62 == 2
  let forced := standby || (!own0 && !own1) || (own0 && (!run0 || req0 == safe)) || (own1 && (!run1 || req1 == safe))
  if forced then safe else !safe
/-- Drive every land to the level its owners and their requests give it, unless EXTEST drives the lands (R453). -/
def State.driveLands (s : State) : State :=
  if s.mc.tap = 3 then s
  else s.setRfld aSafeOut 23 16 ((List.range 8).foldl (fun v k => v + (if s.landLevel k then 2 ^ k else 0)) 0)
/-- The requests of pair p, as a byte. -/
def State.safeReq (s : State) (p : Nat) : Nat := s.rfld aSafeOut (8 * p + 7) (8 * p)
def State.setSafeReq (s : State) (p v : Nat) : State := (s.setRfld aSafeOut (8 * p + 7) (8 * p) v).driveLands
def State.pairSt (s : State) (p : Nat) : KPair := Tbl.get KPair.init s.pairs p
def State.updPair (s : State) (p : Nat) (f : KPair → KPair) : State := { s with pairs := Tbl.upd KPair.init s.pairs p f }
/-- SAFEW: masked requests become IMM[7:0], and the watchdog starts again (R250, R251). -/
def State.safeWrite (s : State) (p imm : Nat) : State :=
  let m := imm / 256 % 256
  let v := imm % 256
  (s.updPair p (fun x => { x with wdogOut := false, wrote := true })).setSafeReq p ((List.range 8).foldl (fun r k => r + (if (if m.testBit k then v.testBit k else (s.safeReq p).testBit k) then 2 ^ k else 0)) 0)
/-- Until its first SAFEW since power-on a pair requests SAFEVAL for every land (R249). -/
def State.safeRest (s : State) : State :=
  [0, 1].foldl (fun s p => if (s.pairSt p).wrote then s else s.setSafeReq p (s.rfld aSafeCfg 7 0)) s.driveLands
/-- Whether the mask names a land that pair p does not own (R250). -/
def State.safeUnowned (s : State) (p imm : Nat) : Bool :=
  (List.range 8).any (fun k => (imm / 256).testBit k && !s.owns p k)

end Sys2Proof.Machine
end

