-- ==== Sys2Proof/Machine/Gate.lean ====
section
/-! DEFINITION. Space in the deep store and token pressure (R86, R91, R92, R94), and the window gate that every token passes before
its PE (R27, R37, R49 to R53, R147, R248). -/

namespace Sys2Proof.Machine

/-! The deep store (R86). -/

/-- Size of a region in 64 KiB chunks: seven eighths of the quota for matching, one eighth auxiliary. -/
def State.matchChunks (s : State) : Nat := s.rfld aQuota 7 0 * 1024 * 7 / 8
def State.auxChunks (s : State) : Nat := s.rfld aQuota 7 0 * 1024 / 8

/-- Whether a record holds a wide token, and so takes two units (R78). -/
def MRec.wide (r : MRec) : Bool := r.toks.any (fun t => tWide t.2.tag)
def MRec.units (r : MRec) : Nat := if r.wide then 2 else 1
/-- Units of 64 bytes that the records of a PE take at a level. -/
def Pe.unitsAt (p : Pe) (l : Level) : Nat := (p.recs.filter (fun r => r.level = l)).foldl (fun n r => n + r.units) 0
/-- The PEs that share a bucket: those of a cluster, or the two pairs. -/
def bucketPes (c : Nat) : List Nat := if c < 64 then clusterPes c else [272, 274]
def State.deepUnits (s : State) (c : Nat) : Nat := (bucketPes c).foldl (fun n p => n + (s.pe p).unitsAt .deep) 0
/-- The kinds of auxiliary buckets of an endpoint (R86, R242): the gate's spilled tokens, the bounce overflow with the tokens parked for
an OFF cluster, the spawn-queue overflow, and what the PEs put there: ready and outbound backlogs, and the LACCs of an OFF cluster. -/
inductive AuxKind where
  | gate | bounce | spawn | pes
  deriving DecidableEq, Repr
/-- What a parked packet takes in the bounce overflow: the record of a token (R326); a response and a CONTROL packet take their flits, for
which the manual gives no layout (DESIGN CHOICE, log 49). -/
def parkBytes (p : Packet) : Nat := if p.opc = .token then 32 else 16 * (p.body.length + 1)
/-- Bytes of a bucket of endpoint c: 32 for a bounced token (R326), 544 for a saved LACC (R242). The manual gives no size for the other
entries: DESIGN CHOICE 64 bytes each (log 47). -/
def State.auxBytes (s : State) (c : Nat) : AuxKind → Nat
  | .gate => 64 * ((s.cm c).gate.filter (·.spilled)).length
  | .bounce => (((s.ni c).parked.filter (·.overflow)).map (fun x => parkBytes x.pkt)).sum + 32 * (Tbl.get [] s.parked c).length
  | .spawn => 64 * ((s.cm c).spawn.length - 64)
  | .pes => (bucketPes c).foldl (fun n p => n + 64 * ((s.pe p).backlog.length + (s.pe p).outBack.length) + 544 * (s.pe p).laccSaved.length) 0
/-- Each bucket takes whole chunks of 64 KiB. -/
def chunksFor (bytes : Nat) : Nat := (bytes + 65535) / 65536
def chunksOf (u : Nat) : Nat := chunksFor (64 * u)
def allOwners : List Nat := List.range 64 ++ [69]
def State.matchUsed (s : State) : Nat := allOwners.foldl (fun n c => n + chunksOf (s.deepUnits c)) 0
def State.auxUsed (s : State) : Nat :=
  (allOwners ++ [64, 65, 66, 67, 68]).foldl (fun n c =>
    [AuxKind.gate, .bounce, .spawn, .pes].foldl (fun n k => n + chunksFor (s.auxBytes c k)) n) 0
/-- Whether the bucket of cluster c can take k more units. -/
def State.matchRoom (s : State) (c k : Nat) : Bool :=
  decide (s.matchUsed - chunksOf (s.deepUnits c) + chunksOf (s.deepUnits c + k) ≤ s.matchChunks)
/-- Whether an auxiliary bucket of c can take some more bytes. -/
def State.auxRoom (s : State) (c : Nat) (k : AuxKind) (bytes : Nat) : Bool :=
  decide (s.auxUsed - chunksFor (s.auxBytes c k) + chunksFor (s.auxBytes c k + bytes) ≤ s.auxChunks)
def State.pressure (s : State) : Bool := bitAt (s.reg aPressStatus) 0

/-! The gate. -/

inductive GateDec where
  | accept | hold | ask | stale (base : Nat) | dead | free
  deriving DecidableEq, Repr

/-- Distance of an iteration from a base (R49). -/
def winDist (iter base : Nat) : Nat := (iter + 4096 - base % 4096) % 4096
/-- The stale range of R49. -/
def staleAt (w d : Nat) : Bool := decide (w ≤ 2048) && decide (4096 - w ≤ d)

/-- BASE as the context manager at endpoint e knows it (R51). -/
def State.baseAt (s : State) (e k : Nat) : Option Nat :=
  if ctxOwner k = e then some (s.ctx k).base
  else match Tbl.get 0 (s.cm e).cache k with
    | 0 => none
    | b + 1 => some b

/-- What the gate at endpoint e decides for a token (R49, R53, R92, R147). -/
def State.gateDec (s : State) (e : Nat) (t : Token) : GateDec :=
  let k := tKey t.tag
  let c := s.ctx k
  match c.state with
  | .free => .free
  | .killing | .quarantine => .dead
  | .live =>
    if t.fault then .accept
    else match s.baseAt e k with
      | none => .ask
      | some b =>
        let d := winDist (tIter t.tag) b
        if s.pressure then (if d = 0 then .accept else .hold)
        else if d < 2 ^ c.itw then .accept
        else if staleAt (2 ^ c.itw) d then .stale b
        else .hold

/-- The NI's own FREECTX for a discarded NEWCTX reply (R59). -/
def State.orphanFree (s : State) (e : Nat) (t : Token) : State :=
  let v := lo64 t.val
  if t.newctxr ∧ fld v 63 56 = 0 then
    let ks := bitAt v 55
    let id := fld v 19 0
    s.unitSend e
      { dest := if ks then 69 else id / 16384, opc := .service, pri := tPri t.tag, spec := put 12 9 1,
        body := [mkWide t.tag (setBit (BitVec.ofNat 64 id) 63 ks)], act := 0, cls := .none, ae := none }
  else s

def State.bumpCm (s : State) (e i : Nat) : State := if e < 64 then s.bump (aCmStat e i) else s

/-- A token as its gate sees it: one for a pair's odd number is rewritten to the even one (R245). -/
def Token.forPair (t : Token) : Token := { t with tag := setFld t.tag 23 15 (pairPe (tPe t.tag)) }
/-- Whether PE n takes tokens: a K-PE does while its pair is RUNNING (R247, R248). -/
def State.pairRuns (s : State) (n : Nat) : Bool := decide (n < 272) || s.rfld (aPairStatus (pairOf n)) 63 62 == 1
/-- Pass a token to its PE; a pair that does not run discards it (R248). -/
def State.admitToken (s : State) (t : Token) : State :=
  if s.pairRuns (tPe t.tag) then s.updPe (tPe t.forPair.tag) (fun p => { p with inbox := p.inbox ++ [t.forPair] }) else s.bump aHaltDrop

/-- Apply a gate decision other than holding. -/
def State.gateDrop (s : State) (e : Nat) (t : Token) (d : GateDec) : State :=
  match d with
  | .free =>
    ((s.bumpCm e csNOCTX).logFree e .tokenNoContext .deferred none (some (tCtx t.tag))).orphanFree e t
  | .dead => (s.bumpCm e csKILLED).orphanFree e t
  | .stale b => (s.bumpCm e csSTALE).deliver e none t.forPair.tag true .illegalSequence 0 b
  | .accept => s.admitToken t
  | .hold | .ask => s

/-- Decide again the held tokens of context k at endpoint e, in their order of arrival (R52). -/
def State.gateRelease (s : State) (e k : Nat) : State :=
  let l := (s.cm e).gate
  let out (h : Held) : Bool := tKey h.tok.tag == k && (match s.gateDec e h.tok with
    | .hold | .ask => false
    | _ => true)
  let s1 := s.updCm e (fun m => { m with gate := l.filter (fun h => !out h) })
  (l.filter out).foldl (fun t h => t.gateDrop e h.tok (s.gateDec e h.tok)) s1

/-- The contexts with tokens held at a gate. -/
def Cm.heldCtxs (m : Cm) : List Nat := (m.gate.map (fun h => tKey h.tok.tag)).dedup
/-- Release at every gate, when token pressure ends. -/
def State.releaseAll (s : State) : State :=
  allOwners.foldl (fun s e => ((s.cm e).heldCtxs).foldl (fun s k => s.gateRelease e k) s) s

/-- Token pressure starts below 1/64 of free space in a region and ends at 1/32 in both (R91, R92). Free space is the chunks that no
bucket has taken: the manual does not say how the unused part of a taken chunk counts (DESIGN CHOICE, log 47). -/
def State.pressureCheck (s : State) : State :=
  let mf := s.matchChunks - s.matchUsed
  let af := s.auxChunks - s.auxUsed
  if s.pressure then
    if s.matchChunks ≤ 32 * mf ∧ s.auxChunks ≤ 32 * af then
      ((s.setRfld aPressStatus 0 0 0).logFree 66 .tokenPressureEnd .info).releaseAll
    else s
  else if 64 * mf < s.matchChunks ∨ 64 * af < s.auxChunks then
    (s.setRfld aPressStatus 0 0 1).logFree 66 .tokenPressure .deferred
  else s

/-- Hold a token at the gate of e; the queue spills beyond 256 tokens (R52). Nothing when the auxiliary region is full (R94). -/
def State.holdToken (s : State) (e : Nat) (t : Token) : Option State :=
  let spill := decide (256 ≤ ((s.cm e).gate.filter (fun h => !h.spilled)).length)
  let held := s.updCm e (fun m => { m with gate := m.gate ++ [⟨t, spill⟩] })
  if !spill then some held else if s.auxRoom e .gate 64 then some held.pressureCheck else none

/-- A token reaches the gate of endpoint e; nothing when the gate must hold it and has no space (R94). -/
def State.tokenIn (s : State) (e : Nat) (t : Token) : Option State :=
  if bitAt t.tag 56 then
    some ((s.bumpNi e nsBADTAG).log e .badTag .deferred (BitVec.ofNat 64 t.src) none (some (tCtx t.tag)))
  else if e = 69 ∧ 255 < tCtx t.tag then
    some ((s.bump aBadCtx).log 69 .keeperBadCtx .deferred (BitVec.ofNat 64 (tCtx t.tag + t.src * 2 ^ 32)))
  else if e = 69 ∧ !s.pairRuns (tPe t.tag) then some (s.bump aHaltDrop)
  else if 275 < tPe t.tag ∨ peEndpoint (tPe t.tag) ≠ e then some (s.bumpNi e nsBADTAG)
  else
    let k := tKey t.tag
    match s.gateDec e t with
    | .hold => s.holdToken e t
    | .ask => (s.holdToken e t).map (fun s => s.updCm e (fun m => if m.asked.contains k then m else { m with asked := m.asked ++ [k] }))
    | d => some (s.gateDrop e t d)

end Sys2Proof.Machine
end

