-- ==== Sys2Proof/Machine/Packets.lean ====
section
/-! DEFINITION. Packets and flits (R297 to R302): the head, the end-to-end CRC, the fields requests carry, the SEC-DED code of a
flit, and the queues of the routers and the hub crossbar. -/

namespace Sys2Proof.Machine

/-! Packets. -/

def Packet.len (p : Packet) : Nat := p.body.length
def Packet.flits (p : Packet) : Nat := p.body.length + 1

/-- The payload of the head flit (R300). -/
def Packet.head (p : Packet) : Wide :=
  BitVec.ofNat 128 (put 127 98 p.route.toNat + put 97 85 p.dest + put 84 72 p.src + put 71 69 p.pri + put 68 65 p.len
    + put 64 61 p.opc.code + put 60 45 p.crc + put 44 29 p.seq + put 28 25 p.epoch + put 24 0 p.spec)

/-- The head fields of a payload (R300), on virtual network vn. -/
def Packet.ofHead (w : Wide) (vn : Nat) (body : List Wide) : Packet :=
  { vn := vn, opc := Opc.ofCode (fld w 64 61), route := BitVec.ofNat 30 (fld w 127 98), dest := fld w 97 85, src := fld w 84 72,
    pri := fld w 71 69, seq := fld w 44 29, epoch := fld w 28 25, spec := fld w 24 0, crc := fld w 60 45, bad := [], body := body,
    fault := false, note := 0 }

/-- One bit of the CRC with polynomial 0x1021. -/
def crcBit (c : Nat) (b : Bool) : Nat :=
  let x := c * 2 % 65536
  if (c.testBit 15) != b then x ^^^ 0x1021 else x
/-- The CRC over bits k−1 to 0 of v, bit k−1 first. -/
def crcBits (v : Nat) : Nat → Nat → Nat
  | 0, c => c
  | k + 1, c => crcBits v k (crcBit c (v.testBit k))
def crcWide (c : Nat) (w : Wide) : Nat := crcBits w.toNat 128 c
/-- The end-to-end CRC of a packet, with ROUTE and CRC as zero (R301). -/
def Packet.calcCrc (p : Packet) : Nat := ({ p with route := 0, crc := 0 }.head :: p.body).foldl crcWide 0xFFFF
def Packet.sealed (p : Packet) : Packet := { p with crc := p.calcCrc }

/-- The token a TOKEN packet carries (R302). -/
def Packet.token (p : Packet) : Token :=
  let f1 := (p.body[0]?).getD 0
  let f2 := (p.body[1]?).getD 0
  let tag := hi64 f1
  { tag := tag, val := if tWide tag then mkWide (lo64 f2) (lo64 f1) else mkWide 0 (lo64 f1), newctxr := bitAt (BitVec.ofNat 25 p.spec) 0,
    src := p.src, fault := p.fault }
def Packet.rslot (p : Packet) : Nat := p.spec % 128
def Packet.nr (p : Packet) : Bool := p.spec.testBit 7
def Packet.dpsn (p : Packet) : Bool := p.spec.testBit 8
/-- The reply tag of a request, and the low half of its first flit. -/
def Packet.rtag (p : Packet) : Word := hi64 ((p.body[0]?).getD 0)
def Packet.argA (p : Packet) : Word := lo64 ((p.body[0]?).getD 0)
def Packet.argB (p : Packet) : Word := lo64 ((p.body[1]?).getD 0)
def Packet.argC (p : Packet) : Word := hi64 ((p.body[1]?).getD 0)
/-- A packet for an endpoint of the module: its tag is the module's own (R378). -/
def Packet.toModule (p : Packet) : Bool := decide (p.dest < 256)
def Packet.addr (p : Packet) : Nat := fld p.argA 47 0
/-- A memory request. -/
def Opc.isMem : Opc → Bool
  | .read | .write | .iread | .iwrite | .atom => true
  | _ => false

/-- A request of endpoint e that came by the local path (R265). -/
def localReq (e : Nat) (p : Packet) : Bool := p.opc.isMem && p.src == e && decide (e < 64)

/-- A CONTROL message (R302). -/
def controlMsg (dest sub : Nat) (body : List Wide) : Msg :=
  { dest := dest, opc := .control, pri := 7, spec := put 24 20 sub, body := body, act := 0, cls := .none, ae := none }
/-! Queues of a router or crossbar input. -/

def vcKey (r i vn : Nat) : Nat := (r * 64 + i) * 4 + vn
def State.vc (s : State) (r i vn : Nat) : List Hop := Tbl.get [] s.vcs (vcKey r i vn)
def State.setVc (s : State) (r i vn : Nat) (l : List Hop) : State := { s with vcs := Tbl.set [] s.vcs (vcKey r i vn) l }
/-- REWINDS of a DCQ counts a packet whose check fails (R389, R396). -/
def State.rewound (s : State) (a : Nat) : State := s.setRfld a 15 0 (satInc 16 (s.rfld a 15 0))
def hopFlits (l : List Hop) : Nat := l.foldl (fun n h => n + h.pkt.flits) 0
def State.pushVc (s : State) (r i : Nat) (p : Packet) (out : Nat) : State :=
  s.setVc r i p.vn (s.vc r i p.vn ++ [⟨p, s.now, s.now, out⟩])
/-! Flits (R297 to R299, R329). -/

abbrev Flit := BitVec 144
/-- Codeword positions of the data bits (R298). -/
def dataPos : List Nat := (List.range 144).filter (fun p => 3 ≤ p ∧ ¬ [4, 8, 16, 32, 64, 128].contains p)
/-- Flit bit of data bit j. -/
def dataBit (j : Nat) : Nat := if j < 128 then j else j + 9
/-- The position and flit bit of every codeword bit but the overall parity. -/
def codeBits : List (Nat × Nat) :=
  (List.range 135).map (fun j => ((dataPos[j]?).getD 0, dataBit j)) ++ (List.range 8).map (fun k => (2 ^ k, 128 + k))
/-- The syndrome and the parity of a received flit. -/
def syndrome (f : Flit) : Nat := codeBits.foldl (fun s x => if bitAt f x.2 then s ^^^ x.1 else s) 0
def parity (f : Flit) : Nat := popc 144 f.toNat % 2
/-- The check bits of a flit's other bits. -/
def withCheck (f : Flit) : Flit :=
  let g := setFld f 136 128 0
  let h := setFld g 135 128 (syndrome g)
  setFld h 136 136 (parity h)
/-- What the receiver makes of a flit: the flit corrected, with the bit corrected, or nothing when it is uncorrectable. -/
def decodeFlit (f : Flit) : Option (Flit × Option Nat) :=
  let s := syndrome f
  let fixed : Option (Flit × Option Nat) :=
    if s = 0 ∧ parity f = 0 then some (f, none)
    else if parity f = 1 then
      if s = 0 then some (setBit f 136 (!bitAt f 136), some 136)
      else match codeBits.find? (fun x => x.1 = s) with
        | some x => some (setBit f x.2 (!bitAt f x.2), some x.2)
        | none => none
    else none
  match fixed with
  | some (g, b) => if fld g 138 137 = 0 then some (g, b) else none
  | none => none

end Sys2Proof.Machine
end

