-- ==== Sys2Proof/Machine/Link.lean ====
section
/-! DEFINITION. The transmit side of an Etryn-X port (R336 to R351, R356, R371, R373): its states, lanes, blocks and their scramblers, the
frames that packets leave in, credit, and the control packets the module sends to a partner. -/

namespace Sys2Proof.Machine

def State.port (s : State) (p : Nat) : Port := Tbl.get Port.init s.ports p
def State.setPort (s : State) (p : Nat) (x : Port) : State := { s with ports := Tbl.set Port.init s.ports p x }
def State.updPort (s : State) (p : Nat) (f : Port → Port) : State := s.setPort p (f (s.port p))

/-- PT_STATUS.STATE (R356). -/
def psDOWN : Nat := 0
def psTRAINING : Nat := 1
def psCLOSED : Nat := 2
def psOPEN : Nat := 3
def psSUSPENDED : Nat := 4
def psRECOVERY : Nat := 5
def State.ptState (s : State) (p : Nat) : Nat := s.rfld (aPtStatus p) 63 61
def State.setPtState (s : State) (p v : Nat) : State := s.setRfld (aPtStatus p) 63 61 v
/-- Whether frames pass on the link. -/
def State.linkUp (s : State) (p : Nat) : Bool := decide (2 ≤ s.ptState p ∧ s.ptState p ≤ 4)
/-- A partner endpoint's port and virtual endpoint (R17). -/
def epPort (e : Nat) : Nat := (e - 256) / 256 % 16
def epVirt (e : Nat) : Nat := e % 256
def portEp (p v : Nat) : Nat := 256 + 256 * p + v
/-- The egress queue of port p on a VN: the crossbar fills it. -/
def State.egressQ (s : State) (p vn : Nat) : List Hop := s.vc (96 + p) 0 vn
def State.setEgress (s : State) (p vn : Nat) (l : List Hop) : State := s.setVc (96 + p) 0 vn l
def State.bumpPt (s : State) (p i : Nat) (k : Nat := 1) : State := s.bump (aPtStat p i) k
/-- Statistics of partner endpoint e (R334): RXPKT, RXBYTE, TXPKT, TXBYTE, LATCNT, LATSUM, LATMAX. -/
def State.bumpPstat (s : State) (e i k : Nat) : State :=
  let v := Tbl.get 0 s.pstat (e * 8 + i)
  let s := { s with pstat := Tbl.set 0 s.pstat (e * 8 + i) (satAdd 48 v k) }
  if v + k < 2 ^ 48 - 1 then s else s.noteFull (aPstat i)
/-- A packet of some flits towards partner endpoint e. -/
def State.countPartner (s : State) (e flits : Nat) : State := (s.bumpPstat e 2 1).bumpPstat e 3 (16 * flits)

/-! Lanes and blocks (R336 to R338, R351). -/

/-- A block: a sync header, 0b01 for data and 0b10 for control, and 64 payload bits. -/
abbrev Block := BitVec 66
def mkBlock (sync : Nat) (w : Word) : Block := BitVec.ofNat 66 (sync + 4 * w.toNat)
def Block.sync (b : Block) : Nat := b.toNat % 4
def Block.payload (b : Block) : Word := BitVec.ofNat 64 (b.toNat / 4)
/-- k bits of v through the scrambler x^58 + x^39 + 1, bit 0 first: what comes out and the register afterwards. The register takes the line
bits, which are what comes out when sending and what goes in when receiving (R337). -/
def scrBits (tx : Bool) : Nat → Nat → BitVec 58 → Nat × BitVec 58
  | 0, _, st => (0, st)
  | k + 1, v, st =>
    let b := v.testBit 0
    let o := b ^^ (st.getLsbD 38 ^^ st.getLsbD 57)
    let r := scrBits tx k (v / 2) (BitVec.ofNat 58 (2 * st.toNat + (if tx then o else b).toNat))
    (o.toNat + 2 * r.1, r.2)
/-- One word on each lane through the lanes' scramblers. -/
def scrLanes (tx : Bool) : List Word → List (BitVec 58) → List Word × List (BitVec 58)
  | w :: ws, st :: sts =>
    let r := scrBits tx 64 w.toNat st
    let x := scrLanes tx ws sts
    (BitVec.ofNat 64 r.1 :: x.1, r.2 :: x.2)
  | _, sts => ([], sts)
/-- The ALIGN block of a lane (R338). -/
def alignWord (l : Nat) : Word := BitVec.ofNat 64 (put 7 0 0x4B + put 9 8 l)
/-- A TS1 (0x1E) or TS2 (0x2D) block as the module sends it on a lane of port p (R351). -/
def tsWord (type l p next : Nat) (rxrev recov : Bool) : Word :=
  BitVec.ofNat 64 (put 7 0 type + put 9 8 l + put 10 10 rxrev.toNat + put 15 12 p + put 23 16 1 + put 31 24 1 + put 43 32 next + put 44 44 recov.toNat)
/-- A valid TS1 or TS2 block (R353). -/
def tsValid (w : Word) : Bool :=
  (fld w 7 0 == 0x1E || fld w 7 0 == 0x2D) && (fld w 23 16 == 1 || fld w 23 16 == 2) && fld w 31 24 == 1 && fld w 63 45 == 0
/-- One block on every lane, in reversed lane order when the partner asked for it (R352). -/
def State.sendStripe (s : State) (p : Nat) (bs : List Block) : State :=
  s.updPort p (fun x => { x with lanes := x.lanes ++ [if bitAt (s.reg (aPtStatus p)) 55 then bs.reverse else bs] })
/-- A stripe of control blocks: not scrambled, and the scramblers stand still. -/
def State.sendControl (s : State) (p : Nat) (f : Nat → Word) : State := s.sendStripe p ((List.range 4).map (fun l => mkBlock 2 (f l)))
/-- A stripe of data blocks: the next four words, one a lane. -/
def State.sendData (s : State) (p : Nat) (ws : List Word) : State :=
  let r := scrLanes true ws (s.port p).txScr
  (s.updPort p (fun x => { x with txScr := r.2 })).sendStripe p (r.1.map (mkBlock 1))
/-- TS blocks on all lanes while the port trains (R351, R352). -/
def State.sendTs (s : State) (p type : Nat) : State :=
  let recov := s.ptState p == psRECOVERY
  s.sendControl p (fun l => tsWord type l p (if recov then (s.port p).rxNext else 0) (bitAt (s.reg (aPtStatus p)) 56) recov)
/-- A training attempt begins: TS1 on all lanes, and nothing is known of what arrives (R352). -/
def State.beginTraining (s : State) (p st : Nat) : State :=
  ((s.setPtState p st).updPort p (fun x => { x with train := Training.init })).sendTs p 0x1E

/-! Frames (R339 to R341). -/

/-- k 64-bit words of a number, lowest first, and the number of a list of words. -/
def wordsOf : Nat → Nat → List Word
  | 0, _ => []
  | k + 1, n => BitVec.ofNat 64 n :: wordsOf k (n / 2 ^ 64)
def ofWords : List Word → Nat
  | [] => 0
  | w :: r => w.toNat + 2 ^ 64 * ofWords r
/-- One step of the frame check's polynomial (R341). -/
def fcrcBit (c : Nat) (b : Bool) : Nat :=
  let x := c * 2 % 65536
  if (c.testBit 15) != b then x ^^^ 0x8BB7 else x
def fcrcBits (v : Nat) : Nat → Nat → Nat
  | 0, c => c
  | k + 1, c => fcrcBits v k (fcrcBit c (v.testBit k))
/-- The frame check over frame bits 1,279 to 1,168 and 1,151 to 0. -/
def frameCrc (f : BitVec 1280) : Nat :=
  fcrcBits (f.toNat % 2 ^ 1152) 1152 (fcrcBits (f.toNat / 2 ^ 1168) 112 0xFFFF)
/-- The flits of a frame in their slots. -/
def slotBits : List (BitVec 144) → Nat
  | [] => 0
  | f :: r => f.toNat + 2 ^ 144 * slotBits r
/-- FSTATE of a port state (R340). -/
def fstateOf (st : Nat) : Nat := if st = psOPEN then 1 else if st = psSUSPENDED then 3 else 2
/-- The frame that port p would send now with SEQ `seq`, the flits given and NAK as given: the trailer's other fields carry current values, and
the frame check closes it (R339 to R341, R344 to R346). -/
def State.frameBits (s : State) (p seq : Nat) (nak : Bool) (fs : List (BitVec 144)) : BitVec 1280 :=
  let x := s.port p
  let cr (v : Nat) : Nat := (x.grant[v]?).getD 0
  let tr := put 127 124 (fstateOf (s.ptState p)) + put 123 112 seq + put 111 100 ((x.rxNext + 4095) % 4096) + put 99 99 1 + put 98 98 nak.toNat
    + put 97 97 x.nocred.toNat + put 95 88 (2 ^ fs.length - 1) + put 87 78 (cr 3) + put 77 68 (cr 2) + put 67 58 (cr 1) + put 57 48 (cr 0)
  let f := BitVec.ofNat 1280 (slotBits fs + 2 ^ 1152 * tr)
  BitVec.ofNat 1280 (f.toNat + 2 ^ 1152 * frameCrc f)
/-- Send one frame: five stripes of four data blocks, and an ALIGN stripe after every 1,024 frames (R338, R339). NOCRED has been said. -/
def State.sendFrame (s : State) (p seq : Nat) (nak : Bool) (fs : List (BitVec 144)) : State :=
  let ws := wordsOf 20 (s.frameBits p seq nak fs).toNat
  let s := (List.range 5).foldl (fun s i => s.sendData p ((ws.drop (4 * i)).take 4)) s
  let n := (s.port p).frames + 1
  let s := s.updPort p (fun x => { x with nocred := false, frames := n % 1024 })
  if n = 1024 then s.sendControl p alignWord else s
/-- The port sends anew: what it sent under an earlier command has left. -/
def State.sendAnew (s : State) (p : Nat) : State := s.updPort p (fun x => { x with lanes := [] })
/-- An idle frame with the SEQ of the last data frame (R340), while frames pass on the link. -/
def State.sendIdle (s : State) (p : Nat) (nak : Bool := false) : State :=
  if s.linkUp p then s.sendFrame p (((s.port p).txNext + 4095) % 4096) nak [] else s
/-- A command of a port's link: it sends anew. -/
def onLink (p : Nat) (s : State) (f : State → State) : Out := onPort p s (fun s => f (s.sendAnew p))
/-- What a command that concerns several ports does at one of them. -/
def State.atLink (s : State) (p : Nat) (f : State → State) : State := f (s.sendAnew p)

/-! Flits and frames of a packet. -/

/-- One flit: VN, KIND, POISON, payload and CHECK (R297, R298). -/
def mkFlit (vn kind : Nat) (bad : Bool) (w : Wide) : Flit :=
  withCheck (BitVec.ofNat 144 (put 143 142 vn + put 141 140 kind + put 139 139 bad.toNat + w.toNat))
/-- Flits after the head from position i on. -/
def tailFlits (p : Packet) : Nat → List Wide → List Flit
  | _, [] => []
  | i, [w] => [mkFlit p.vn 2 (p.bad.contains i) w]
  | i, w :: r => mkFlit p.vn 0 (p.bad.contains i) w :: tailFlits p (i + 1) r
/-- The flits of a packet (R299). -/
def Packet.toFlits (p : Packet) : List Flit :=
  mkFlit p.vn (if p.body = [] then 3 else 1) (p.bad.contains 0) p.head :: tailFlits p 1 p.body
/-- Frames of up to 8 flits: a packet begins a frame of its own. -/
def framesOf (l : List Flit) : List (List Flit) := if l.length ≤ 8 then [l] else [l.take 8, l.drop 8]
/-- What leaves towards a partner (R371): DEST the virtual endpoint, ROUTE and EPOCH zero, a new CRC. -/
def Packet.outward (p : Packet) : Packet := Packet.sealed { p with dest := epVirt p.dest, route := 0, epoch := 0 }

/-- Credit held on VC v (R347). -/
def Port.credit (x : Port) (v : Nat) : Nat := ((x.crIn[v]?).getD 0 + 1024 - (x.sent[v]?).getD 0 % 1024) % 1024
/-- Give sequence numbers to frames and keep them for replay (R343, R345). -/
def Port.keepFrames (x : Port) : List (List Flit) → Port
  | [] => x
  | f :: r => Port.keepFrames { x with held := x.held ++ [(x.txNext, f)], txNext := (x.txNext + 1) % 4096 } r
def State.showReplayQ (s : State) (p : Nat) : State := s.setRfld (aPtStatus p) 21 16 (s.port p).held.length
/-- Send a packet on the link, when it has credit for every flit and the replay buffer has room (R345, R349); it counts for its partner
endpoint (R334). -/
def State.transmit (s : State) (p : Nat) (q : Packet) : Option State :=
  let x := s.port p
  let fs := framesOf q.toFlits
  if q.flits ≤ x.credit q.vn ∧ x.held.length + fs.length ≤ 32 then
    let seq := x.txNext
    let x := { x.keepFrames fs with sent := x.sent.set q.vn ((x.sent[q.vn]?).getD 0 + q.flits) }
    let t := (((s.setPort p x).bumpPt p 2 fs.length).showReplayQ p).countPartner (portEp p (epVirt q.dest)) q.flits
    some (fs.zipIdx.foldl (fun t f => t.sendFrame p ((seq + f.2) % 4096) false f.1) t)
  else none

/-- A CONTROL packet of the module to virtual endpoint v (R373). -/
def portControl (p v sub : Nat) (w : Wide) : Packet :=
  Packet.outward
    { vn := 3, opc := .control, route := 0, dest := portEp p v, src := 68, pri := 7, seq := 0, epoch := 0, spec := put 24 20 sub, crc := 0,
      bad := [], body := [w], fault := false, note := 0 }
/-- The enabled virtual endpoints of a port (R360). -/
def Port.enabled (x : Port) : List Nat := (x.map0.filter (fun e => bitAt e.2 63)).map (·.1)
/-- Whether a port is OPEN, or will be again without passing CLOSED: what PORT_NOTICE is sent or owed to (R373). -/
def State.wasOpen (s : State) (p : Nat) : Bool :=
  let st := if s.ptState p = psRECOVERY then (s.port p).prev else s.ptState p
  st == psOPEN || st == psSUSPENDED
/-- PORT_NOTICE to every enabled virtual endpoint, now where the link allows it, otherwise when the port is OPEN again (R373). -/
def State.portNotice (s : State) (p code : Nat) : State :=
  (s.port p).enabled.foldl (fun s v =>
    let t := if s.ptState p = psOPEN then s.transmit p (portControl p v 0x0C (mkWide 0 (BitVec.ofNat 64 code))) else none
    match t with
    | some t => t
    | none => s.updPort p (fun x => { x with due := x.due ++ [v * 256 + code] })) s
/-- Send the notices that are due, once the port is OPEN. -/
def State.sendDue (s : State) (p : Nat) : State :=
  let l := (s.port p).due
  l.foldl (fun s d =>
    match s.transmit p (portControl p (d / 256) 0x0C (mkWide 0 (BitVec.ofNat 64 (d % 256)))) with
    | some t => t
    | none => s.updPort p (fun x => { x with due := x.due ++ [d] })) (s.updPort p (fun x => { x with due := [] }))

/-- PORT_NOTICE of an event to every port that is or was OPEN. -/
def State.noticeAll (s : State) (code : Nat) : State :=
  (List.range 16).foldl (fun s p => if s.wasOpen p then s.atLink p (fun s => s.portNotice p code) else s) s
/-- Whether port p is SUSPENDED, or in a RECOVERY that it entered so: it raises no CRv (R356). -/
def State.suspended (s : State) (p : Nat) : Bool :=
  s.ptState p == psSUSPENDED || (s.ptState p == psRECOVERY && (s.port p).prev == psSUSPENDED)
/-- Return credit for flits that left ingress on VC v: at once, or on RESUME while SUSPENDED (R348, R356). -/
def State.returnCredit (s : State) (p v k : Nat) : State :=
  s.updPort p (fun x =>
    if s.suspended p then { x with owedCr := x.owedCr.set v ((x.owedCr[v]?).getD 0 + k) }
    else { x with grant := x.grant.set v (((x.grant[v]?).getD 0 + k) % 1024) })

/-- A frame carries credit that f returned (R339, R348). -/
def State.sayCredit (s : State) (p : Nat) (f : State → State) : State :=
  let t := f s
  if (t.port p).grant = (s.port p).grant then t else t.sendIdle p
/-- The port becomes OPEN: every CR rises by 256 in the first frame (R348), and notices that were due go out. -/
def State.openPort (s : State) (p : Nat) : State :=
  (((s.setPtState p psOPEN).updPort p (fun x => { x with grant := x.grant.map (fun g => (g + 256) % 1024) })).sendIdle p).sendDue p
/-- SUSPEND: the port sends PORT_SUSPENDED (R356). -/
def State.suspendPort (s : State) (p : Nat) : State := (s.setPtState p psSUSPENDED).sendIdle p
/-- The credit freed while SUSPENDED is granted. -/
def Port.payOwed (x : Port) : Port :=
  { x with grant := (x.grant.zip x.owedCr).map (fun g => (g.1 + g.2) % 1024), owedCr := [0, 0, 0, 0] }
/-- RESUME returns every credit freed in the meantime, in the next frame (R356). -/
def State.resumePort (s : State) (p : Nat) : State :=
  (((s.setPtState p psOPEN).updPort p Port.payOwed).sendIdle p).sendDue p

end Sys2Proof.Machine
end

