-- ==== Sys2Proof/Machine/LockUnit.lean ====
section
/-! DEFINITION. What the lock unit holds and how holds begin and end (R409 to R421): grants, the order of waiters, boosts,
abandonment. -/

namespace Sys2Proof.Machine

def State.lock (s : State) (n : Nat) : Lock := Tbl.get Lock.init s.locks n
def State.setLock (s : State) (n : Nat) (l : Lock) : State := { s with locks := Tbl.set Lock.init s.locks n l }
/-- Lock-unit counters (R424). -/
def lsGRANT : Nat := 0
def lsQUEUED : Nat := 1
def lsQFULL : Nat := 2
def lsVIOL : Nat := 3
def lsEXPIRE : Nat := 4
def lsABANDON : Nat := 5
def lsBOOST : Nat := 6
def State.bumpLk (s : State) (i : Nat) : State := s.bump (aLkStat i)

/-- The owner id of a holder (R409). -/
def Waiter.owner (w : Waiter) : Nat := if w.ep < 64 ∨ w.ep = 69 then 2 ^ 15 + w.pe % 512 else w.ep % 2 ^ 13
/-- Whether two identities are equal (R410). -/
def Waiter.same (a b : Waiter) : Bool := a.ep == b.ep && a.ctx == b.ctx
/-- The context key of an identity at a cluster or the keeper block. -/
def Waiter.key (w : Waiter) : Nat := ctxKey (w.ep == 69) w.ctx
def Waiter.inModule (w : Waiter) : Bool := decide (w.ep < 64) || w.ep == 69
/-- The lock word (R409). -/
def Lock.word (l : Lock) (granted : Bool) : Word :=
  BitVec.ofNat 64 (put 63 63 granted.toNat + put 62 62 l.abandoned.toNat + put 47 32 ((l.holder.map Waiter.owner).getD 0) + put 31 0 l.gen)
/-- The word a read of LK_REL returns (R413). -/
def Lock.status (l : Lock) : Word := l.word l.holder.isSome
/-- Lease remaining in µs (R424). -/
def Lock.left (l : Lock) (now : Nat) : Nat := if l.holder.isSome then l.span - (now - l.since) / 1000 else 0
/-- The first waiter in the order of R420. -/
def firstWaiter : List Waiter → Option Waiter
  | [] => none
  | w :: r => match firstWaiter r with
    | none => some w
    | some v => if v.pri ≤ w.pri then some w else some v

/-! Boosts (R421). -/

/-- CONTROL BOOST or BOOST_END for lock n: CTX, lock and level. -/
def boostMsg (n : Nat) (w : Waiter) (level : Option Nat) : Msg :=
  controlMsg w.ep (if level.isSome then 8 else 9) [mkWide 0 (BitVec.ofNat 64 (put 19 0 w.ctx + put 29 20 n + put 34 32 (level.getD 0)))]
/-- Send it; nothing goes to a partner or the MC. -/
def State.sendBoost (s : State) (n : Nat) (w : Waiter) (level : Option Nat) : State :=
  if w.inModule then
    let s := s.unitSend 65 (boostMsg n w level)
    if level.isSome then s.bumpLk lsBOOST else s
  else s
/-- The boost level in force: the highest waiter PRI when it exceeds the holder's priority. -/
def Lock.level (l : Lock) : Option Nat :=
  match l.holder, firstWaiter l.waiters with
  | some h, some w => if h.pri < w.pri then some w.pri else none
  | _, _ => none
/-- Send each change of the boost level. -/
def State.boostUpdate (s : State) (n : Nat) : State :=
  let l := s.lock n
  match l.holder with
  | none => s
  | some h =>
    let ended := if l.level.isNone then some h else if l.ended.any (fun w => w.same h) then none else l.ended
    if l.level = l.boost then s else (s.setLock n { l with boost := l.level, ended := ended }).sendBoost n h l.level

/-! Grants and ends of holds. -/

/-- Grant lock n: the lock word of the grant, after which ABANDONED is clear (R411, R417, R419). -/
def State.grantLock (s : State) (n : Nat) (w : Waiter) : Word × State :=
  let l := { s.lock n with holder := some w, gen := ((s.lock n).gen + 1) % 2 ^ 32, since := s.now, span := (s.lock n).leaseUs,
                           boost := none }
  (l.word true, (s.setLock n { l with abandoned := false }).bumpLk lsGRANT)

/-- Grant to the first waiter under R420, whose word travels as a TOKEN to its reply tag, or leave the lock free. -/
def State.nextHolder (s : State) (n : Nat) : State :=
  let l := s.lock n
  match firstWaiter l.waiters with
  | none => s
  | some w =>
    let s := s.setLock n { l with waiters := l.waiters.erase w }
    let r := s.grantLock n w
    (r.2.unitSend 65 (tokenMsg (if 256 ≤ w.ep then w.ep else peEndpoint (tPe w.tag)) w.tag (mkWide 0 r.1) 0 .none)).boostUpdate n

/-- End the hold of lock n: BOOST_END when a boost is in force, then the next holder. -/
def State.endHold (s : State) (n : Nat) (abandoned : Bool) : State :=
  let l := s.lock n
  match l.holder with
  | none => s
  | some h =>
    let s := if l.boost.isSome then s.sendBoost n h none else s
    (s.setLock n { l with holder := none, boost := none, ended := if l.boost.isSome then some h else l.ended, abandoned := abandoned }).nextHolder n

/-- A hold ends by abandonment (R418). DETAIL of LOCK_LEASE_EXPIRED holds the lock number and the owner id where that of LOCK_VIOLATION has them
(DEDUCED from R415, log 53). -/
def State.abandon (s : State) (n : Nat) (expired : Bool) : State :=
  match (s.lock n).holder with
  | none => s
  | some h =>
    let s := if expired then s.log 65 .lockExpired .deferred (BitVec.ofNat 64 (put 9 0 n + put 47 32 h.owner)) none (some h.ctx) else s.logFree 65 .lockAbandoned .info none (some h.ctx)
    (s.bumpLk lsABANDON).endHold n true

/-- Remove the waiters of lock n that satisfy a test. -/
def State.cutWaiters (s : State) (n : Nat) (f : Waiter → Bool) : State :=
  s.setLock n { s.lock n with waiters := (s.lock n).waiters.filter (fun w => !f w) }

/-- Abandon the holds, and remove the waiters, that satisfy a test: a kill, a PE reset, a port that goes DOWN (R418, R420). -/
def State.dropHolders (s : State) (holds waits : Waiter → Bool) : State :=
  s.locks.foldl (fun s x =>
    let s := s.cutWaiters x.1 waits
    if ((s.lock x.1).holder.map holds).getD false then s.abandon x.1 false else s.boostUpdate x.1) s

/-- KILL(x) at the lock unit. -/
def State.lockKill (s : State) (k : Nat) : State :=
  let f (w : Waiter) : Bool := w.inModule && w.key == k
  s.dropHolders f f
/-- Reset of the acquiring PE. -/
def State.lockPeReset (s : State) (n : Nat) : State := s.dropHolders (fun w => w.inModule && w.pe == pairPe n) (fun _ => false)
/-- The holder's port goes DOWN or is reset. -/
def State.lockPortDown (s : State) (p : Nat) : State :=
  let f (w : Waiter) : Bool := decide (256 ≤ w.ep) && (w.ep - 256) / 256 == p
  s.dropHolders f f

end Sys2Proof.Machine
end

