-- ==== Sys2Proof/Machine/Scratch.lean ====
section
/-! DEFINITION. Cluster scratch: its areas, banks and segments (R262, R263), what every access to it does (R264, R274, R282, R285), the count
of uncorrectable errors (R283), and the entries that micro-sequencers keep in it: overflow records, deferred replies and bounced tokens (R77,
R85, R271, R280, R326). -/

namespace Sys2Proof.Machine

/-! Areas and banks. -/

/-- The bounce area, the deferral pool and the overflow area of cluster c, by plain-view offset. -/
def State.reservedArea (s : State) (c o : Nat) : Bool :=
  decide (0x4000 ≤ o ∧ o < 0x10000) || decide (0x80000 ≤ o + s.rfld (aOvfSize c) 6 0 * 4096)
def bankOf (o : Nat) : Nat := o / 0x8000
def segOf (o : Nat) : Nat := o / 0x400
def State.test (s : State) (c : Nat) : ScTest := Tbl.get ScTest.init s.tests c
def State.setTest (s : State) (c : Nat) (x : ScTest) : State := { s with tests := Tbl.set ScTest.init s.tests c x }
def State.updTest (s : State) (c : Nat) (f : ScTest → ScTest) : State := s.setTest c (f (s.test c))
def State.retained (s : State) (c b : Nat) : Bool := bitAt (s.reg (aScRet c)) (32 + b)
def State.setRetained (s : State) (c b : Nat) (v : Bool) : State := s.setReg (aScRet c) (setBit (s.reg (aScRet c)) (32 + b) v)

/-- The power state of a cluster (R494). -/
def State.clState (s : State) (c : Nat) : Nat := s.rfld (aPwrStatus c) 63 61
/-- An access to offset o of cluster c wakes a retained bank, which stays retained while the cluster is in FREEWHEEL (R274), and is served from
the spare of a borrowed segment (R285). -/
def State.touchScratch (s : State) (c o : Nat) : State :=
  let b := bankOf o
  let s := if s.retained c b then (if s.clState c = 2 then s else s.setRetained c b false).bump (aScStat c ssWAKE) else s
  if (s.test c).borrow = some (segOf o) then s.bump (aScStat c ssSHADOW) else s
/-- A correctable error of a scratch word, the second in one patrol pass, puts its segment first in the background test (R282). -/
def State.noteCe (s : State) (c a : Nat) : State :=
  s.updTest c (fun t =>
    let g := segOf (a % 0x80000)
    if t.ceSeen.contains a then { t with front := if t.front.contains g then t.front else t.front ++ [g] }
    else { t with ceSeen := t.ceSeen ++ [a] })

/-! Arbitration at a bank (R264 to R267). -/

/-- The master of a bank that a request comes from: its PE's slot on the local path, else NI-in (R264, R265). -/
def masterOf (e : Nat) (p : Packet) : Nat := if localReq e p then p.note else 5
/-- A request of NI-in that uses port B of the mailbox, and waits for no one (R267). -/
def portB (e : Nat) (p : Packet) : Bool := decide (e < 64) && !localReq e p && p.opc != .atom && decide (p.addr % 0x80000 < 0x4000)
def Packet.bank (p : Packet) : Nat := bankOf (p.addr % 0x80000)
def State.bank (s : State) (c b : Nat) : Bank := Tbl.get Bank.init s.banks (c * 16 + b)
/-- One more cycle in which master m of cluster c was held (R266, R430). -/
def State.countHeld (s : State) (c m : Nat) : State :=
  let a := aScConflict c m
  let v := s.rfld a 31 0
  let s := s.setRfld a 31 0 (satInc 32 v)
  if v + 1 < 2 ^ 32 - 1 then s else s.noteFull a
/-- Bank b of cluster c has served master m: every other master with a request at it was held for one cycle (R264, R266). -/
def State.serveBank (s : State) (c b m : Nat) : State :=
  let x := s.bank c b
  let waits (k : Nat) : Bool := k != m && (s.reqAt c).any (fun q => q.opc.isMem && !portB c q && q.bank == b && masterOf c q == k)
  let held := (List.range 6).foldl (fun t k => Tbl.set 0 t k (if waits k then Tbl.get 0 x.held k + 1 else 0)) x.held
  let s := { s with banks := Tbl.set Bank.init s.banks (c * 16 + b) { last := if m < 4 then m else x.last, held := held } }
  ((List.range 6).filter waits).foldl (fun s k => s.countHeld c k) s
/-- An access of a micro-sequencer of cluster c, master 6, to offset o. -/
def State.microTouch (s : State) (c o : Nat) : State := (s.serveBank c (bankOf o) 6).touchScratch c o
/-- A micro-sequencer of cluster c writes the word at plain-view address a. -/
def State.microPut (s : State) (c a : Nat) (v : Word) : State := (s.microTouch c (a % 0x80000)).putWord a v

/-! Uncorrectable errors (R283). -/

/-- Count an uncorrectable error; the window that began with an earlier one has run out after WINDOW ms. -/
def State.tallyUe (s : State) : State :=
  let fresh := decide (s.ev.stormAt + s.rfld aUeStorm 31 16 * 1000000 ≤ s.now) || s.rfld aUeStorm 47 32 == 0
  let n := if fresh then 1 else satInc 16 (s.rfld aUeStorm 47 32)
  let s := if fresh then { s with ev := { s.ev with stormAt := s.now } } else s
  let old := if fresh then 0 else s.rfld aUeStorm 47 32
  let s := s.setRfld aUeStorm 47 32 n
  if old < s.rfld aUeStorm 15 0 ∧ s.rfld aUeStorm 15 0 ≤ n then s.logFree 67 .ueStorm .fatalModule else s
/-- Whether the count of t, which comes after s, has reached THRESH where that of s had not. -/
def State.stormIn (s t : State) : Bool :=
  decide (t.rfld aUeStorm 15 0 ≤ t.rfld aUeStorm 47 32)
    && (decide (s.rfld aUeStorm 47 32 < s.rfld aUeStorm 15 0) || s.ev.stormAt != t.ev.stormAt)

/-- The source of an event about a word of scratch: its cluster, and the bank as the unit (DESIGN CHOICE, log 53). -/
def bankSrc (c a : Nat) : Nat := srcOf c (bankOf (a % 0x80000))

/-! Micro-sequencer accesses. -/

/-- A micro-sequencer of cluster c reads the word at plain-view address a: whether it can be read (R279, R280). -/
def State.microRead (s : State) (c a : Nat) : Bool × State :=
  let s := s.microTouch c (a % 0x80000)
  match s.eccAt a with
  | .ok => (true, s)
  | .ce => (true, (((s.setEcc a .ok).noteCe c a).bump (aScStat c ssCE)).log (bankSrc c a) .scCe .corrected (BitVec.ofNat 64 a))
  | .ue => (false, (s.bump (aScStat c ssUE)).tallyUe)
  | .poison => (false, s.bump (aScStat c ssPOISON))
/-- The same for the words at a, a + 8, …: whether all can be read. -/
def State.microReads (s : State) (c a : Nat) : Nat → Bool × State
  | 0 => (true, s)
  | k + 1 =>
    let r := s.microRead c a
    let t := r.2.microReads c (a + 8) k
    (r.1 && t.1, t.2)

/-- The lowest number that a list does not hold. -/
def firstFree (l : List Nat) : Nat := ((List.range (l.length + 1)).find? (fun k => !l.contains k)).getD 0

/-- Entry k of the deferral pool of cluster c (R262, R271). -/
def poolAt (c k : Nat) : Nat := scrBase c + 0x8000 + 8 * k
/-- Record k of the bounce area of cluster c (R262, R326). -/
def bounceAt (c k : Nat) : Nat := scrBase c + 0x4000 + 32 * k
/-- A token parked in record k of the bounce area: tag, value, and DEST with the original EPOCH (R326). -/
def State.storeBounce (s : State) (c k : Nat) (tag : Word) (val : Wide) (dest epoch : Nat) : State :=
  let a := bounceAt c k
  (((s.microPut c a tag).microPut c (a + 8) (lo64 val)).microPut c (a + 16) (hi64 val)).microPut c (a + 24)
    (BitVec.ofNat 64 (put 12 0 dest + put 19 16 epoch))

/-- Where bucket b of the overflow area of cluster c stands in scratch (R85, R262). -/
def State.bucketAt (s : State) (c b : Nat) : Nat := 0x80000 - s.rfld (aOvfSize c) 6 0 * 4096 + b * 256

end Sys2Proof.Machine
end

