-- ==== Sys2Proof/Machine/Kick.lean ====
section
/-! DEFINITION. Kickstand entry (R502, R503), the end of a debug session (R485, R487), and the count of uncorrectable errors that can
cause the entry (R283). -/

namespace Sys2Proof.Machine

def State.setMc (s : State) (f : Mc → Mc) : State := { s with mc := f s.mc }
def State.setPw (s : State) (f : Pow → Pow) : State := { s with pw := f s.pw }
/-- PW_STATE.STATE (R501): 0 RUN, 1 KICKSTAND, 2 STANDBY. -/
def State.power (s : State) : Nat := s.rfld aPwState 63 62

/-- The MC answers a command frame (channel 0 stands for the start options, which nobody answers): the response
is the latest on its channel, and a mailbox window shows it (R456, R457). It echoes OPCODE and CMDSEQ, and on Ethernet goes to the source of the
request (R455). -/
def State.respond (s : State) (q : McAsk) (st : Nat) (pl : List Byte) : State :=
  if q.ch = 0 then s
  else
  let frame := leBytes 2 q.op ++ leBytes 2 pl.length ++ leBytes 4 q.seq ++ leBytes 1 st ++ leBytes 7 0 ++ pl
  s.setMc (fun m => { m with
    resp := (st, pl)
    respTo := if q.ch < 5 then (q.op, q.seq, q.src) else m.respTo
    windows := m.windows.map (fun w =>
      if q.ch = 5 ∧ w.ep = q.ep then { w with resp := frame, busy := false, done := true, status := st, last := s.now } else w) })

/-! Debug sessions. -/

/-- SEC_STATUS of the open session (R485). -/
def State.showSession (s : State) : State :=
  match s.mc.session with
  | some x => (s.setRfld aSecStatus 5 4 x.level).setRfld aSecStatus 10 8 x.ch
  | none => (s.setRfld aSecStatus 5 4 0).setRfld aSecStatus 10 8 0
/-- The session ends: every PE that it halted resumes (R485). -/
def State.endSession (s : State) : State :=
  match s.mc.session with
  | none => s
  | some x =>
    let s := x.halted.foldl (fun s n => s.updPe n (fun p => { p with halt := .run, useq := p.useq.endHalt })) s
    let s := if s.mc.tap = 3 then (s.setMc (fun m => { m with tap := 0 })).driveLands else s
    (s.setMc (fun m => { m with session := none, trace := none })).showSession

/-! Losing the compute dies. -/

/-- Whether a byte address lies in a cluster's scratch or in the local store of an S-PE or A-PE. -/
def dieAddr (a : Nat) : Bool :=
  decide (scrBase 0 ≤ a ∧ a < scrBase 64) || decide (lsBase 0 ≤ a ∧ a < lsBase 272)
/-- A register of a cluster block. -/
def dieReg (a : Nat) : Bool := decide (regBase ≤ a ∧ a < regBase + 0x400000)
/-- A unit on a compute die. -/
def UnitId.onDie : UnitId → Bool
  | .pe n => decide (n < 272)
  | .cm c => decide (c < 64)
  | .ni c => decide (c < 64)
  | _ => false
/-- Registers of which a reset keeps those that satisfy a test; of a statistics control register OVF always stays (R430). -/
def keepOvf (keep : Nat → Bool) (t : Tbl Word) : Tbl Word :=
  (t.filter (fun x => keep x.1 || (regSpec x.1 == some fStatCtl && bitAt x.2 1))).map (fun x => if keep x.1 then x else (x.1, 2))
/-- Everything that the compute dies hold, and what waits to cross to them, is lost (R503): contexts, PEs, memories, registers, queues.
Shifts and kills no longer wait for their units. -/
def State.loseDies (s : State) : State :=
  let near {α : Type} (t : Tbl α) : Tbl α := t.filter (fun x => decide (64 ≤ x.1))
  let hub (x : Nat) : Bool := decide (64 * 64 * 4 ≤ x)
  { s.domsDown (fun d => decide (d < 68)) with
    regs := keepOvf (fun a => !dieReg a) s.regs
    mem := s.mem.filter (fun x => !dieAddr x.1)
    ecc := s.ecc.filter (fun x => !dieAddr x.1)
    pres := s.pres.filter (fun x => !dieAddr x.1)
    imem := s.imem.filter (fun x => decide (272 * 16384 ≤ x.1))
    pes := s.pes.filter (fun x => decide (272 ≤ x.1))
    ctxs := s.ctxs.filter (fun x => decide (2 ^ 20 ≤ x.1))
    nis := near s.nis
    cms := (near s.cms).map (fun x => (x.1, { x.2 with
      kills := x.2.kills.map (fun k => { k with toReach := k.toReach.filter (fun u => !u.onDie), toAck := k.toAck.filter (fun u => !u.onDie) })
      drain := x.2.drain.map (fun d => { d with toReq := d.toReq.filter (64 ≤ ·), sources := d.sources.filter (64 ≤ ·),
                                                dests := d.dests.filter (64 ≤ ·) }) }))
    reqs := near s.reqs
    eject := near s.eject
    vcs := s.vcs.filter (fun x => hub x.1 && !decide (x.1 < vcKey 64 16 0))
    openPkts := s.openPkts.filter (fun x => hub x.1)
    linkUse := []
    links := []
    rr := s.rr.filter (fun x => hub x.1)
    banks := []
    lsRows := s.lsRows.filter (fun x => decide (272 ≤ x.1))
    flitUeAt := []
    oversizeAt := s.oversizeAt.filter (fun x => !dieReg x.1)
    defers := s.defers.filter (fun x => !dieAddr x.1)
    rels := s.rels.map (fun x => (x.1, x.2.filter (fun r => !dieAddr r.addr)))
    aes := near s.aes
    parked := []
    tests := []
    pw := { s.pw with goal := [], drop := [] }
    shift := { s.shift with toReach := s.shift.toReach.filter (64 ≤ ·), pending := s.shift.pending.filter (64 ≤ ·) } }

/-- Locks held by, and waiters of, cluster PEs go (R418, R503). -/
def State.dropClusterLocks (s : State) : State :=
  s.dropHolders (fun w => decide (w.ep < 64)) (fun w => decide (w.ep < 64))

/-- What kickstand entry does to an open session (R486, R487): it ends where the cell reads X; otherwise halts on the dies are gone. -/
def State.sessionKick (s : State) : State :=
  match s.mc.session with
  | none => s
  | some x =>
    if s.mc.life = 2 ∧ 2 ≤ x.level then s.endSession
    else s.setMc (fun m => { m with session := some { x with halted := x.halted.filter (272 ≤ ·) } })

/-- Steps 2 to 4 of R503: the graph image ends, the session shrinks or ends, and the compute dies go off. -/
def State.diesOff (s : State) : State :=
  let s := s.sessionKick
  let s := (s.dropClusterLocks.loseDies).setMc (fun m => { m with graph := none })
  s.setRfld aPwState 51 48 0

/-- A port in RECOVERY that would return to state `a` returns to `b` (R355, R358). -/
def State.heldPort (s : State) (p a b : Nat) : State :=
  if s.ptState p = psRECOVERY ∧ (s.port p).prev = a then s.updPort p (fun x => { x with prev := b }) else s
/-- Kickstand entry from RUN with its cause bits (R502, R503); in any other state nothing. -/
def State.kickstandEntry (s : State) (cause die : Nat) : State :=
  if s.power ≠ 0 ∨ s.rfld aPwState 61 61 = 1 then s
  else
    let s := s.setReg aKsCause (BitVec.ofNat 64 (put 11 8 die + put 4 0 cause))
    let s := s.setMc (fun m => { m with kickN := true, pwrGood := false })
    let s := s.noticeAll 1
    let s := ((List.range 16).filter (2 ≤ ·)).foldl (fun s p => if s.ptState p = psOPEN then s.suspendPort p else s.heldPort p psOPEN psSUSPENDED) s
    s.diesOff.setRfld aPwState 63 62 1

/-! Uncorrectable errors (R283). -/

/-- What the uncorrectable errors between s and t bring about: at THRESH the module enters KICKSTAND (R283, R502). -/
def State.afterUe (s t : State) : State := if s.stormIn t then t.kickstandEntry 4 0 else t
/-- Count an uncorrectable error. -/
def State.countUe (s : State) : State := s.afterUe s.tallyUe

/-- A local-store or instruction-memory word read uncorrectable: a DEFERRED event with the address, and the count (R279, R283). -/
def State.peUe (s : State) (e pe addr : Nat) (imem : Bool) : State :=
  (s.log e (if imem then .imemUe else .lsUe) .deferred (BitVec.ofNat 64 addr) (some pe)).countUe

end Sys2Proof.Machine
end

