-- ==== Sys2Proof/Machine/Fixed.lean ====
section
/-! DEFINITION. Fixed point: rounding by FXRM (R196), the range check with SAT (R198), and the values of the fixed-point
and guarded-accumulator group (R163, R197) and of DIVQ (R204). -/

namespace Sys2Proof.Machine

/-- A fixed-point result with the FXS flags it sets: bit 1 OV, bit 0 SAT. -/
structure FxRes (n : Nat) where
  val : BitVec n
  fxs : Nat
  deriving DecidableEq, Repr

/-- Round x / 2^k to an integer by FXRM (R196). -/
def fxRound (rm k : Nat) (x : Int) : Int :=
  if k = 0 then x else
  let d : Int := 2 ^ k
  let f := x.fdiv d
  let r := x.fmod d
  if r = 0 then f
  else if rm = 0 then f
  else if rm = 1 then (if x < 0 then f + 1 else f)
  else if rm = 2 then (if 2 * r ≥ d then f + 1 else f)
  else if 2 * r > d then f + 1
  else if 2 * r < d then f
  else if f % 2 = 0 then f else f + 1

/-- The range check of R198 for a format of n bits: saturate and set SAT, or wrap and set OV. -/
def fxRange (n : Nat) (sat : Bool) (v : Int) : FxRes n :=
  if v < -(2 ^ (n - 1)) then
    if sat then ⟨BitVec.ofInt n (-(2 ^ (n - 1))), 1⟩ else ⟨BitVec.ofInt n v, 2⟩
  else if 2 ^ (n - 1) ≤ v then
    if sat then ⟨BitVec.ofInt n (2 ^ (n - 1) - 1), 1⟩ else ⟨BitVec.ofInt n v, 2⟩
  else ⟨BitVec.ofInt n v, 0⟩

/-- A Q1.31 result, sign-extended to 64 bits after its check (R198). -/
def fxSext32 (r : FxRes 32) : FxRes 64 := ⟨BitVec.ofInt 64 r.val.toInt, r.fxs⟩

/-- The Q1.31 operand in bits 31:0 of a register (R164). -/
def q31 (a : Word) : Int := sextNat 32 a.toNat

def fxAdd (sat : Bool) (a b : Word) : FxRes 64 := fxRange 64 sat (a.toInt + b.toInt)
def fxSub (sat : Bool) (a b : Word) : FxRes 64 := fxRange 64 sat (a.toInt - b.toInt)
def fxNeg (sat : Bool) (a : Word) : FxRes 64 := fxRange 64 sat (-a.toInt)
def fxAbs (sat : Bool) (a : Word) : FxRes 64 := fxRange 64 sat (a.toInt.natAbs)
def fxAdd32 (sat : Bool) (a b : Word) : FxRes 64 := fxSext32 (fxRange 32 sat (q31 a + q31 b))
def fxSub32 (sat : Bool) (a b : Word) : FxRes 64 := fxSext32 (fxRange 32 sat (q31 a - q31 b))
def fxShl (sat : Bool) (a : Word) (k : Nat) : FxRes 64 := fxRange 64 sat (a.toInt * 2 ^ k)
def fxShr (rm : Nat) (a : Word) (k : Nat) : FxRes 64 := ⟨BitVec.ofInt 64 (fxRound rm k a.toInt), 0⟩

/-- MULQ: the Q2.126 product rounded to 63 fraction bits, then checked. -/
def fxMul (rm : Nat) (sat : Bool) (a b : Word) : FxRes 64 := fxRange 64 sat (fxRound rm 63 (a.toInt * b.toInt))
/-- MULQ32: the Q2.62 product rounded to 31 fraction bits, then checked. -/
def fxMul32 (rm : Nat) (sat : Bool) (a b : Word) : FxRes 64 :=
  fxSext32 (fxRange 32 sat (fxRound rm 31 (q31 a * q31 b)))

/-- ACCQ and ACCQN: the product is rounded, then added or subtracted (R197). -/
def gaAcc (rm : Nat) (sat neg : Bool) (g : BitVec 80) (a b : Word) : FxRes 80 :=
  let p := fxRound rm 63 (a.toInt * b.toInt)
  fxRange 80 sat (if neg then g.toInt - p else g.toInt + p)
/-- ACCQ32: the exact Q2.62 product, one fraction bit short of Q17.63. -/
def gaAcc32 (sat : Bool) (g : BitVec 80) (a b : Word) : FxRes 80 := fxRange 80 sat (g.toInt + 2 * (q31 a * q31 b))
def gaAdd (sat : Bool) (a b : BitVec 80) : FxRes 80 := fxRange 80 sat (a.toInt + b.toInt)
def gaShr (rm : Nat) (a : BitVec 80) (k : Nat) : FxRes 80 := ⟨BitVec.ofInt 80 (fxRound rm k a.toInt), 0⟩
/-- MOVS.GA: narrowed to Q1.63; both have 63 fraction bits, so only the range is checked. -/
def gaToQ63 (sat : Bool) (a : BitVec 80) : FxRes 64 := fxRange 64 sat a.toInt
/-- MOVS.Q31: rounded to 31 fraction bits before the range check. -/
def gaToQ31 (rm : Nat) (sat : Bool) (a : BitVec 80) : FxRes 64 := fxSext32 (fxRange 32 sat (fxRound rm 32 a.toInt))
/-- MOVTS.GA: a Q1.63 value extended to Q17.63. -/
def gaFromQ63 (a : Word) : BitVec 80 := BitVec.ofInt 80 a.toInt

/-- Round the quotient a / b to an integer by FXRM, and whether a remainder was discarded. -/
def fxDivRound (rm : Nat) (a b : Int) : Int × Bool :=
  let n := if b < 0 then -a else a
  let d := if b < 0 then -b else b
  let f := n.fdiv d
  let r := n.fmod d
  if r = 0 then (f, false)
  else if rm = 0 then (f, true)
  else if rm = 1 then (if n < 0 then f + 1 else f, true)
  else if rm = 2 then (if 2 * r ≥ d then f + 1 else f, true)
  else if 2 * r > d then (f + 1, true)
  else if 2 * r < d then (f, true)
  else (if f % 2 = 0 then f else f + 1, true)

/-- DIVQ (R204): the exact quotient rounded by the request's FXRM and checked with its SAT. -/
def divQ (rm : Nat) (sat : Bool) (a b : Word) : Flagged :=
  if b = 0 then
    if a = 0 then ⟨0, flIV⟩
    else if a.toInt < 0 then ⟨0x8000000000000000, flDZ⟩ else ⟨0x7FFFFFFFFFFFFFFF, flDZ⟩
  else
    let q := fxDivRound rm (a.toInt * 2 ^ 63) b.toInt
    let r := fxRange 64 sat q.1
    ⟨r.val, (if r.fxs = 0 then 0 else flOF) + (if q.2 then flNX else 0)⟩

end Sys2Proof.Machine
end

