-- ==== Sys2Proof/Machine/Float.lean ====
section
/-! DEFINITION. Binary floating point (R205 to R214): operands are read exactly, results are computed exactly and
rounded once. A format is its precision p and the exponent of its smallest subnormal. -/

namespace Sys2Proof.Machine

/-- A binary format: total width, precision and the exponent of the last place of a subnormal. -/
structure Fmt where
  width : Nat
  prec : Nat
  lsb : Int
  deriving DecidableEq, Repr

def fmtD : Fmt := ⟨64, 53, -1074⟩
def fmtS : Fmt := ⟨32, 24, -149⟩

/-- Number of exponent bits. -/
def Fmt.ebits (f : Fmt) : Nat := f.width - f.prec
/-- The all-ones exponent field. -/
def Fmt.emask (f : Fmt) : Nat := 2 ^ f.ebits - 1
/-- The exponent one past the largest: every finite value is below 2 to this power. -/
def Fmt.top (f : Fmt) : Int := f.lsb + (f.emask : Int) - 2 + (f.prec : Int)
/-- The smallest normal magnitude is 2 to this power. -/
def Fmt.emin (f : Fmt) : Int := f.lsb + (f.prec : Int) - 1

/-- An operand as its exact value: sign, magnitude m × 2^e. -/
inductive FVal where
  | nan (neg quiet : Bool) (payload : Nat)
  | inf (neg : Bool)
  | fin (neg : Bool) (m : Nat) (e : Int)
  deriving DecidableEq, Repr

/-- Read the encoding x in format f. -/
def Fmt.read (f : Fmt) (x : Nat) : FVal :=
  let neg := x.testBit (f.width - 1)
  let frac := x % 2 ^ (f.prec - 1)
  let ex := (x >>> (f.prec - 1)) % 2 ^ f.ebits
  if ex = f.emask then
    if frac = 0 then .inf neg else .nan neg (frac.testBit (f.prec - 2)) frac
  else if ex = 0 then .fin neg frac f.lsb
  else .fin neg (frac + 2 ^ (f.prec - 1)) (f.lsb + (ex : Int) - 1)

/-- A result: encoding, flags raised, and whether it is tiny, nonzero and exact (R207). -/
structure FRes where
  bits : Nat
  fl : Nat
  tiny : Bool
  deriving DecidableEq, Repr

def Fmt.sgn (f : Fmt) (neg : Bool) : Nat := if neg then 2 ^ (f.width - 1) else 0
def Fmt.infBits (f : Fmt) (neg : Bool) : Nat := f.sgn neg + f.emask * 2 ^ (f.prec - 1)
def Fmt.zeroBits (f : Fmt) (neg : Bool) : Nat := f.sgn neg
/-- The default NaN (R209). -/
def Fmt.defNan (f : Fmt) : Nat := f.emask * 2 ^ (f.prec - 1) + 2 ^ (f.prec - 2)
def Fmt.maxBits (f : Fmt) (neg : Bool) : Nat := f.infBits neg - 1
/-- A NaN with its sign and payload kept and its quiet bit set (R210). -/
def Fmt.quieted (f : Fmt) (neg : Bool) (payload : Nat) : Nat :=
  f.sgn neg + f.emask * 2 ^ (f.prec - 1) + (payload ||| 2 ^ (f.prec - 2))

/-- Whether to round a magnitude up: rem is what is cut off, in units where one last place is d; sticky adds a little more. -/
def roundUp (rm : Nat) (neg odd : Bool) (rem d : Nat) (sticky : Bool) : Bool :=
  let inexact := rem ≠ 0 ∨ sticky
  let gt := 2 * rem > d ∨ (2 * rem = d ∧ sticky)
  let eq := 2 * rem = d ∧ ¬ sticky
  match rm with
  | 0 => decide (gt ∨ (eq ∧ odd))
  | 1 => false
  | 2 => decide (inexact ∧ ¬ neg)
  | 3 => decide (inexact ∧ neg)
  | _ => decide (gt ∨ eq)

/-- Round m × 2^e (plus a little when sticky) to a multiple of 2^t: the multiple, and whether it is inexact. -/
def roundAt (rm : Nat) (neg : Bool) (m : Nat) (e t : Int) (sticky : Bool) : Nat × Bool :=
  if t ≤ e then (m <<< (e - t).toNat, sticky)
  else
    let k := (t - e).toNat
    let q := m >>> k
    let r := m % 2 ^ k
    (if roundUp rm neg (q % 2 = 1) r (2 ^ k) sticky then q + 1 else q, decide (r ≠ 0 ∨ sticky))

/-- Round a nonzero magnitude to format f, with overflow (R208) and tininess after rounding (R207). -/
def Fmt.round (f : Fmt) (rm : Nat) (neg : Bool) (m : Nat) (e : Int) (sticky : Bool) : FRes :=
  let len : Int := bitLen m
  let tU := e + len - (f.prec : Int)
  let u := roundAt rm neg m e tU sticky
  let tiny := decide ((bitLen u.1 : Int) + tU ≤ f.emin)
  let t := max tU f.lsb
  let r := roundAt rm neg m e t sticky
  if (bitLen r.1 : Int) + t > f.top then
    let away := match rm with
      | 0 => true
      | 1 => false
      | 2 => !neg
      | 3 => neg
      | _ => true
    ⟨if away then f.infBits neg else f.maxBits neg, flOF + flNX, false⟩
  else
    ⟨f.sgn neg + (t - f.lsb).toNat * 2 ^ (f.prec - 1) + r.1,
     if r.2 then (if tiny then flUF + flNX else flNX) else 0, tiny && !r.2⟩

/-- The exact signed value of a finite operand at exponent e0 ≤ e. -/
def atExp (neg : Bool) (m : Nat) (e e0 : Int) : Int :=
  let v : Int := (m <<< (e - e0).toNat : Nat)
  if neg then -v else v

/-- The exact sum of two finite values, rounded once, with the zero signs of R211. -/
def Fmt.addFin (f : Fmt) (rm : Nat) (n1 : Bool) (m1 : Nat) (e1 : Int) (n2 : Bool) (m2 : Nat) (e2 : Int) : FRes :=
  let e0 := min e1 e2
  let v := atExp n1 m1 e1 e0 + atExp n2 m2 e2 e0
  if v = 0 then
    if m1 = 0 ∧ m2 = 0 ∧ n1 = n2 then ⟨f.zeroBits n1, 0, false⟩
    else ⟨f.zeroBits (rm = 3), 0, false⟩
  else f.round rm (v < 0) v.natAbs e0 false

def FVal.isNan : FVal → Bool
  | .nan _ _ _ => true
  | _ => false
def FVal.isSig : FVal → Bool
  | .nan _ q _ => !q
  | _ => false
def FVal.negate : FVal → FVal
  | .nan n q p => .nan n q p
  | .inf n => .inf (!n)
  | .fin n m e => .fin (!n) m e

/-- The first NaN among the operands in order (R210); the default NaN when there is none. -/
def Fmt.firstNan (f : Fmt) : List FVal → Nat
  | [] => f.defNan
  | .nan n _ p :: _ => f.quieted n p
  | _ :: r => f.firstNan r

/-- The NaN result of an operation with a NaN operand: IV when one is signalling. -/
def Fmt.nanRes (f : Fmt) (l : List FVal) : FRes := ⟨f.firstNan l, if l.any FVal.isSig then flIV else 0, false⟩
def Fmt.invalid (f : Fmt) : FRes := ⟨f.defNan, flIV, false⟩

def Fmt.add (f : Fmt) (rm : Nat) (a b : FVal) : FRes :=
  match a, b with
  | .nan _ _ _, _ | _, .nan _ _ _ => f.nanRes [a, b]
  | .inf n1, .inf n2 => if n1 = n2 then ⟨f.infBits n1, 0, false⟩ else f.invalid
  | .inf n, _ => ⟨f.infBits n, 0, false⟩
  | _, .inf n => ⟨f.infBits n, 0, false⟩
  | .fin n1 m1 e1, .fin n2 m2 e2 => f.addFin rm n1 m1 e1 n2 m2 e2

def Fmt.mul (f : Fmt) (rm : Nat) (a b : FVal) : FRes :=
  match a, b with
  | .nan _ _ _, _ | _, .nan _ _ _ => f.nanRes [a, b]
  | .inf n1, .inf n2 => ⟨f.infBits (n1 != n2), 0, false⟩
  | .inf n1, .fin n2 m _ => if m = 0 then f.invalid else ⟨f.infBits (n1 != n2), 0, false⟩
  | .fin n1 m _, .inf n2 => if m = 0 then f.invalid else ⟨f.infBits (n1 != n2), 0, false⟩
  | .fin n1 m1 e1, .fin n2 m2 e2 =>
    if m1 * m2 = 0 then ⟨f.zeroBits (n1 != n2), 0, false⟩
    else f.round rm (n1 != n2) (m1 * m2) (e1 + e2) false

/-- a × b + c with one rounding (R209, R211). -/
def Fmt.fma (f : Fmt) (rm : Nat) (a b c : FVal) : FRes :=
  let zeroInf := match a, b with
    | .inf _, .fin _ 0 _ => true
    | .fin _ 0 _, .inf _ => true
    | _, _ => false
  if zeroInf then
    match c with
    | .nan _ _ _ => ⟨f.firstNan [c], flIV, false⟩
    | _ => f.invalid
  else if a.isNan || b.isNan || c.isNan then f.nanRes [a, b, c]
  else match a, b, c with
    | .fin n1 m1 e1, .fin n2 m2 e2, .fin n3 m3 e3 => f.addFin rm (n1 != n2) (m1 * m2) (e1 + e2) n3 m3 e3
    | .fin _ _ _, .fin _ _ _, c => f.add rm (.fin false 0 0) c
    | .inf n1, .fin n2 _ _, c | .fin n2 _ _, .inf n1, c | .inf n1, .inf n2, c => f.add rm (.inf (n1 != n2)) c
    | _, _, _ => f.invalid

/-- Correctly rounded quotient; DZ for a finite nonzero value over zero (R209). -/
def Fmt.div (f : Fmt) (rm : Nat) (a b : FVal) : FRes :=
  match a, b with
  | .nan _ _ _, _ | _, .nan _ _ _ => f.nanRes [a, b]
  | .inf _, .inf _ => f.invalid
  | .inf n1, .fin n2 _ _ => ⟨f.infBits (n1 != n2), 0, false⟩
  | .fin n1 _ _, .inf n2 => ⟨f.zeroBits (n1 != n2), 0, false⟩
  | .fin n1 m1 e1, .fin n2 m2 e2 =>
    if m2 = 0 then (if m1 = 0 then f.invalid else ⟨f.infBits (n1 != n2), flDZ, false⟩)
    else if m1 = 0 then ⟨f.zeroBits (n1 != n2), 0, false⟩
    else
      let k := f.prec + 3 + bitLen m2 - bitLen m1
      let num := m1 <<< k
      f.round rm (n1 != n2) (num / m2) (e1 - e2 - (k : Int)) (num % m2 ≠ 0)

/-- Correctly rounded square root; the root of −0 is −0 (R211). -/
def Fmt.sqrt (f : Fmt) (rm : Nat) (a : FVal) : FRes :=
  match a with
  | .nan _ _ _ => f.nanRes [a]
  | .inf n => if n then f.invalid else ⟨f.infBits false, 0, false⟩
  | .fin n m e =>
    if m = 0 then ⟨f.zeroBits n, 0, false⟩
    else if n then f.invalid
    else
      let odd : Nat := if e % 2 = 0 then 0 else 1
      let m' := m <<< (2 * (f.prec + 3) + odd)
      let e' := (e - (odd : Int)) / 2 - ((f.prec + 3 : Nat) : Int)
      let r := rootOf (2 * f.prec + 4) m'
      f.round rm false r e' (r * r ≠ m')

/-- Order of two operands that are not NaNs: −1, 0 or 1; zeros are equal. -/
def fcmp (a b : FVal) : Int :=
  let key : FVal → Int × Int := fun x => match x with
    | .inf n => (if n then -1 else 1, 0)
    | _ => (0, 0)
  match a, b with
  | .fin n1 m1 e1, .fin n2 m2 e2 =>
    let e0 := min e1 e2
    let d := atExp n1 m1 e1 e0 - atExp n2 m2 e2 e0
    if d < 0 then -1 else if d = 0 then 0 else 1
  | a, b => if (key a).1 < (key b).1 then -1 else if (key a).1 = (key b).1 then 0 else 1

def FVal.neg : FVal → Bool
  | .nan n _ _ | .inf n | .fin n _ _ => n

/-- minimumNumber and maximumNumber of IEEE 754-2019, −0 below +0 (R212). x and y are the encodings of a and b. -/
def Fmt.minmax (f : Fmt) (mx : Bool) (a b : FVal) (x y : Nat) : FRes :=
  let fl := if a.isSig || b.isSig then flIV else 0
  if a.isNan && b.isNan then ⟨f.firstNan [a, b], fl, false⟩
  else if a.isNan then ⟨y, fl, false⟩
  else if b.isNan then ⟨x, fl, false⟩
  else
    let c := fcmp a b
    let aLess := if c = 0 then a.neg && !b.neg else decide (c < 0)
    ⟨if c = 0 && a.neg == b.neg then x else if aLess == mx then y else x, fl, false⟩

/-- FCMP by modifier (R169): 0 EQ, 1 LT, 2 LE, 3 UN. -/
def fcmpRel (m : Nat) (a b : FVal) : Flagged :=
  let un := a.isNan || b.isNan
  let sig := a.isSig || b.isSig
  let fl := if m = 1 ∨ m = 2 then (if un then flIV else 0) else (if sig then flIV else 0)
  let c := fcmp a b
  let v := match m with
    | 0 => !un && c == 0
    | 1 => !un && decide (c < 0)
    | 2 => !un && decide (c ≤ 0)
    | _ => un
  ⟨boolWord v, fl⟩

/-- FCLASS (R170): exactly one bit of the mask is set. -/
def Fmt.classify (f : Fmt) (a : FVal) : Nat :=
  match a with
  | .nan _ q _ => if q then 2 ^ 9 else 2 ^ 8
  | .inf n => if n then 1 else 2 ^ 7
  | .fin n m _ =>
    if m = 0 then (if n then 2 ^ 3 else 2 ^ 4)
    else if m < 2 ^ (f.prec - 1) then (if n then 2 ^ 2 else 2 ^ 5)
    else (if n then 2 ^ 1 else 2 ^ 6)

/-- FSGN (R170): 0 ABS, 1 NEG, 2 the sign of b, 3 its inverse. -/
def Fmt.fsgn (f : Fmt) (m x y : Nat) : Nat :=
  let mag := x % 2 ^ (f.width - 1)
  let sx := x.testBit (f.width - 1)
  let sy := y.testBit (f.width - 1)
  let s := match m with
    | 0 => false
    | 1 => !sx
    | 2 => sy
    | _ => !sy
  f.sgn s + mag

/-- An exact integer times 2^e converted to format f. -/
def Fmt.ofInt (f : Fmt) (rm : Nat) (v : Int) (e : Int) : FRes :=
  if v = 0 then ⟨0, 0, false⟩ else f.round rm (v < 0) v.natAbs e false

/-- A finite value rounded to a multiple of 2^t, as a signed integer count, and whether inexact. -/
def roundInt (rm : Nat) (neg : Bool) (m : Nat) (e t : Int) : Int × Bool :=
  let r := roundAt rm neg m e t false
  (if neg then -(r.1 : Int) else (r.1 : Int), r.2)

/-- Conversion to signed 64-bit: the integer (t = 0), or Q1.63 (t = −63) with zero for a NaN (R171). -/
def toInt64 (rm : Nat) (t : Int) (nanVal : Word) (a : FVal) : Flagged :=
  match a with
  | .nan _ _ _ => ⟨nanVal, flIV⟩
  | .inf n => ⟨if n then 0x8000000000000000 else 0x7FFFFFFFFFFFFFFF, flIV⟩
  | .fin n m e =>
    let r := roundInt rm n m e t
    if r.1 < -(2 ^ 63) then ⟨0x8000000000000000, flIV⟩
    else if 2 ^ 63 ≤ r.1 then ⟨0x7FFFFFFFFFFFFFFF, flIV⟩
    else ⟨BitVec.ofInt 64 r.1, if r.2 then flNX else 0⟩

/-- Conversion between formats; a NaN keeps its sign and its top payload bits and is quieted (R213). -/
def cvtFmt (src dst : Fmt) (rm : Nat) (a : FVal) : FRes :=
  match a with
  | .nan n q p =>
    let p' := if dst.prec ≤ src.prec then p >>> (src.prec - dst.prec) else p <<< (dst.prec - src.prec)
    ⟨dst.quieted n p', if q then 0 else flIV, false⟩
  | .inf n => ⟨dst.infBits n, 0, false⟩
  | .fin n m e => if m = 0 then ⟨dst.zeroBits n, 0, false⟩ else dst.round rm n m e false

end Sys2Proof.Machine
end

