-- ==== Sys2Proof/Machine/Accum.lean ====
section
/-! DEFINITION. Long accumulators (R228 to R241): exact accumulation, special state, readout. -/

namespace Sys2Proof.Machine

/-- The LACC word that holds the sum: 4,288 bits in units of 2^−2148 (R228). -/
def Lacc.clear (l : Lacc) : Lacc :=
  { l with val := 0, ovf := false, corrupt := false, nan := false, pinf := false, ninf := false, residueBad := false, err := 0 }

/-- Add an exact amount; leaving the range wraps and sets OVF (R229). -/
def Lacc.addInt (l : Lacc) (v : Int) : Lacc :=
  let t := l.val.toInt + v
  { l with val := BitVec.ofInt 4288 t, ovf := l.ovf || decide (t < -(2 ^ 4287)) || decide (2 ^ 4287 ≤ t) }

/-- The exact product of two binary64 operands in units of 2^−2148, and the special marks it sets: NAN, PINF, NINF, and IV (R231, R232). -/
structure MacX where
  amount : Int
  nan : Bool
  inf : Option Bool
  iv : Bool
  deriving DecidableEq, Repr

def macProduct (x y : Word) : MacX :=
  let a := fmtD.read x.toNat
  let b := fmtD.read y.toNat
  let sig := a.isSig || b.isSig
  match a, b with
  | .nan _ _ _, _ | _, .nan _ _ _ => ⟨0, true, none, sig⟩
  | .inf n1, .inf n2 => ⟨0, false, some (n1 != n2), false⟩
  | .inf n1, .fin n2 m _ | .fin n2 m _, .inf n1 => if m = 0 then ⟨0, true, none, true⟩ else ⟨0, false, some (n1 != n2), false⟩
  | .fin n1 m1 e1, .fin n2 m2 e2 => ⟨atExp (n1 != n2) (m1 * m2) (e1 + e2) (-2148), false, none, false⟩

/-- The effect of one accumulation on an LACC (R231, R232). -/
def Lacc.mac (l : Lacc) : MacOp → Lacc
  | .x neg x y =>
    let p := macProduct x y
    let l := l.addInt (if neg then -p.amount else p.amount)
    { l with
      nan := l.nan || p.nan
      pinf := l.pinf || (p.inf == some neg)
      ninf := l.ninf || (p.inf == some (!neg)) }
  | .q neg x y =>
    let p := x.toInt * y.toInt * 2 ^ 2022
    l.addInt (if neg then -p else p)

/-- Index of the most significant bit that differs from the sign; none for zero (R238, R243). A value of −1 has no such bit
either, so its lead counts as bit 0's word. -/
def Lacc.lead (l : Lacc) : Option Nat :=
  let v := l.val.toInt
  if v = 0 then none
  else
    let m := if v < 0 then (-v - 1).toNat else v.toNat
    some (bitLen m - 1)

/-- Readout cycles (R238). -/
def Lacc.cycles (l : Lacc) (cad : Bool) : Nat :=
  if cad then 70
  else if l.corrupt || l.ovf || l.nan || l.pinf || l.ninf then 12
  else match l.lead with
    | none => 70
    | some i => 12 + (58 - i / 64)

/-- A readout: result, FPS flags, FXS flags; none when the LACC is CORRUPT (R236, R237). -/
def Lacc.readout (l : Lacc) (lsel : Word) (fpsRm fxrm : Nat) (sat : Bool) : Option (Word × Nat × Nat) :=
  let fmt := fld lsel 4 2
  let rm := if bitAt lsel 11 then fld lsel 10 8 else fpsRm
  let ieee := decide (fmt < 2)
  let f := if fmt = 0 then fmtD else fmtS
  let scale := sextNat 12 (fld lsel 23 12)
  let ext (neg : Bool) : Word := match fmt with
    | 3 => if neg then 0xFFFFFFFF80000000 else 0x7FFFFFFF
    | _ => if neg then 0x8000000000000000 else 0x7FFFFFFFFFFFFFFF
  if l.corrupt then none
  else if l.ovf then some (if ieee then (BitVec.ofNat 64 f.defNan, flIV, 0) else (0, 0, 2))
  else if l.nan || (l.pinf && l.ninf) then
    some (if ieee then (BitVec.ofNat 64 f.defNan, if l.nan then 0 else flIV, 0) else (0, 0, 2))
  else if l.pinf then some (if ieee then (BitVec.ofNat 64 (f.infBits false), 0, 0) else (ext false, 0, 1))
  else if l.ninf then some (if ieee then (BitVec.ofNat 64 (f.infBits true), 0, 0) else (ext true, 0, 1))
  else
    let v := l.val.toInt
    if ieee then
      let r := f.ofInt rm v (scale - 2148)
      some (BitVec.ofNat 64 r.bits, r.fl, 0)
    else
      let frac : Int := match fmt with
        | 2 => 63
        | 3 => 31
        | _ => 0
      let e := scale - 2148 + frac
      let q := if e < 0 then fxRound fxrm (-e).toNat v else v * 2 ^ e.toNat
      if fmt = 3 then let r := fxSext32 (fxRange 32 sat q); some (r.val, 0, r.fxs)
      else let r := fxRange 64 sat q; some (r.val, 0, r.fxs)

end Sys2Proof.Machine
end

