-- ==== Sys2Proof/Machine/Operands.lean ====
section
/-! DEFINITION. Operand forms of block code: which registers an instruction accepts (R117, R118, R157), how they are read, and
which fields must be zero (R116). -/

namespace Sys2Proof.Machine

/-- A register an instruction accepts as a general source: G0–G15, I0–I3 or RC (R118). -/
def isSrc (r : Nat) : Bool := r < 20 || r == 25
/-- A general destination: G0–G15. -/
def isDst (r : Nat) : Bool := r < 16
/-- A guarded accumulator. -/
def isGa (r : Nat) : Bool := 20 ≤ r && r < 24

/-- The value of a general source as it stands. -/
def Act.src (a : Act) (r : Nat) : Word :=
  if r < 16 then (a.g[r]?).getD 0
  else if r < 20 then lo64 ((a.ins[r - 16]?).map (·.val) |>.getD 0)
  else if r = 25 then a.rc.setWidth 64
  else 0
/-- The value of a guarded accumulator. -/
def Act.gaAt (a : Act) (r : Nat) : BitVec 80 := (a.ga[r - 20]?).getD 0
/-- The poison-bit position of a register: G0–G15, GA0–GA3, I0–I3 (R150). -/
def poisonBit (r : Nat) : Option Nat :=
  if r < 16 then some r else if r < 20 then some (r + 4) else if r < 24 then some (r - 4) else none
/-- Whether a register is poisoned (R122). -/
def Act.poisoned (a : Act) (r : Nat) : Bool :=
  match poisonBit r with
  | some b => bitAt a.gp b
  | none => false
/-- The value a chained read sees: the latest write to the accumulator in issue order, landed or not (R125). -/
def Act.chained (a : Act) (r : Nat) : BitVec 80 × Bool :=
  a.flights.foldl (fun v f => match f.eff with
    | .reg r' w p => if r' = r then (w, p) else v
    | _ => v) (a.gaAt r, a.poisoned r)

/-- Which fields an instruction uses (R157), and the sources it reads unchained. -/
structure Uses where
  d : Bool
  a : Bool
  b : Bool
  c : Bool
  i : Bool
  deriving DecidableEq, Repr

/-- Every field not used must be zero (R116, R157). -/
def Uses.ok (u : Uses) (f : Fields) : Bool :=
  (u.d || f.dst == 0) && (u.a || f.sa == 0) && (u.b || f.sb == 0) && (u.c || f.sc == 0) && (u.i || f.imm == 0)

/-- Control modes read at issue (R127). -/
def Act.rm (a : Act) : Nat := fld a.fps 10 8
def Act.fxrm (a : Act) : Nat := fld a.ctl 2 1
def Act.sat (a : Act) : Bool := bitAt a.ctl 0
def Act.psn (a : Act) : Bool := bitAt a.ctl 4
def Act.cad (a : Act) : Bool := bitAt a.ctl 3
def Act.ten (a : Act) : Nat := fld a.ctl 12 8
/-- Aligned write-back (R133), from the header. -/
def Act.aw (a : Act) : Bool := bitAt a.hdr 45
/-- Number of body instructions (R112). -/
def Act.len (a : Act) : Nat := fld a.hdr 55 48
/-- The context key of the activation. -/
def Act.key (a : Act) : Nat := tKey a.tag

/-- What an issuing instruction does next (R131, R137, R130, R128). -/
inductive Flow where
  | next
  | branch (t : Option Nat)
  | rep (interruptible : Bool) (n : Nat)
  | fence (k : FenceKind)
  | finish
  | lrd (r : LrdRun)
  deriving DecidableEq, Repr

/-- An effect with its distance in a block with AW = 0 (R124). -/
structure Timed where
  dist : Nat
  eff : Effect
  deriving DecidableEq, Repr

/-- What decoding and reading an instruction yields: a fault (R116), or its effects. -/
inductive Issued where
  | bad (fc : FaultCode) (detail : Nat) (count : Option Nat)
  | ok (effs : List Timed) (flow : Flow) (visible : Bool) (chk : Option Nat) (mulBusy : Nat)
  deriving DecidableEq, Repr

/-- DETAIL of a fault about the word itself: bits 63:16 of the word (R146). -/
def wordDetail (w : Word) : Nat := w.toNat >>> 16

/-- TOKEN_CORRUPT for a poisoned register use: bit 46 and the specifier (R146). -/
def poisonDetail (r : Nat) : Nat := 2 ^ 46 + r

/-- Registers in flight: the slots at which writes to r land after slot t. -/
def Act.landsOf (a : Act) (r : Nat) : List Nat :=
  a.flights.filterMap (fun f => match f.eff with
    | .reg r' _ _ => if r' = r then some f.land else none
    | .special r' _ => if r' = r then some f.land else none
    | .flags p x => if (r = 26 ∧ p ≠ 0) ∨ (r = 27 ∧ x ≠ 0) then some f.land else none
    | .product _ => if r = 29 ∨ r = 30 then some f.land else none
    | _ => none)

end Sys2Proof.Machine
end

