-- ==== Sys2Proof/Machine/Issue.lean ====
section
/-! DEFINITION. The issue engine of a PE: slots and landings (R124 to R130, R133, R134, R142, R143), branches and repeats
(R131, R132, R137 to R141), faults (R144, R549), precise traps (R135, R150) and residue decisions (R154, R219). -/

namespace Sys2Proof.Machine

/-! The dispatch state of an activation (R120, R36). -/

def Act.fresh (serial : Nat) (tag hdr : Word) (stamp base : Nat) (ins : List Token) (handles : Option Nat) : Act :=
  { serial := serial, tag := tag, stamp := stamp, hdr := hdr, base := base, ins := ins, gp := 0, g := Vector.replicate 16 0,
    ga := Vector.replicate 4 0, rc := 0, fps := 0, fxs := 0,
    ctl := BitVec.ofNat 64 (put 13 13 (fld hdr 45 45) + put 12 8 (fld hdr 43 39) + put 3 3 (tCad tag).toNat + put 2 1 3 + 1),
    mh := 0, ml := 0, lsel := 0, off := 1, slot := 0, delay := none, rep := none, flights := [], mulFree := 0, divUntil := 0,
    lrd := none, fence := none, handles := handles, visible := false, retried := false, resumed := false }

def State.act (s : State) (n : Nat) : Option Act := (s.pe n).act
def State.setAct (s : State) (n : Nat) (a : Option Act) : State := s.updPe n (fun p => { p with act := a })
def State.lacc (s : State) (n k : Nat) : Lacc := Tbl.get Lacc.init (s.pe n).laccs k
def State.setLacc (s : State) (n k : Nat) (l : Lacc) : State :=
  s.updPe n (fun p => { p with laccs := Tbl.set Lacc.init p.laccs k l })

/-! The outbound queue (R186). -/

/-- Put a message in the outbound queue; a full queue first moves its 32 oldest entries to the backlog. -/
def State.pushOut (s : State) (n : Nat) (m : Msg) : State :=
  let p := s.pe n
  if p.outQ.length < 64 then s.setPe n { p with outQ := p.outQ ++ [m] }
  else ((s.setPe n { p with outQ := p.outQ.drop 32 ++ [m], outBack := p.outBack ++ p.outQ.take 32 }).bumpNi (peEndpoint n) nsOUTBACKLOG 32).pressureCheck

/-! What outlives its activation (R130, R144, R231, R240): stores, messages and accumulations already issued. -/

/-- Whether an effect in flight belongs to memory, an LACC or a message and not to the activation's registers. -/
def Effect.persists : Effect → Bool
  | .mac _ _ | .lclr _ | .store _ _ _ _ | .scrub _ | .zero _ _ | .send _ | .safew _ => true
  | _ => false

def Effect.isSafew : Effect → Bool
  | .safew _ => true
  | _ => false

/-- The flight that lands first: least landing slot, then issue order. -/
def firstFlight : List Flight → Option Flight
  | [] => none
  | f :: r => match firstFlight r with
    | none => some f
    | some g => if f.land ≤ g.land then some f else some g

/-- An access to LACC k meets what its words hold (R241): a single-bit error is corrected, an uncorrectable one makes it CORRUPT. -/
def State.laccWords (s : State) (n k : Nat) : State :=
  let l := s.lacc n k
  let e := peEndpoint n
  let note (s : State) (ev : Ev) (sev : Sev) : State := (s.bumpPe n psLACCERR).logFree e ev sev (some (pairPe n)) (some l.owner)
  if l.err = 0 then s
  else if l.err = 1 then note (s.setLacc n k { l with err := 0 }) .laccCorrected .corrected
  else
    let s := s.setLacc n k { l with err := 0, corrupt := true }
    if l.corrupt then s else note s .laccCorrupt .deferred
/-- Land an effect that belongs to memory, an LACC or a message. The residue that PE_LACC_INJECT arms goes wrong at the next landing of a
MAC into the LACC that ACC names, and two such marks do not cancel (R243; DESIGN CHOICE, log 53). -/
def State.applyKept (s : State) (n : Nat) (a : Act) (e : Effect) : State :=
  match e with
  | .mac k op =>
    let s := s.laccWords n k
    let l := s.lacc n k
    let armed := bitAt (s.reg (aLaccInject n)) 0 && s.rfld (aLaccInject n) 2 1 == k
    let s := s.setLacc n k { l.mac op with residueBad := l.residueBad || armed }
    let s := if armed then s.setRfld (aLaccInject n) 0 0 0 else s
    s.bumpPe n (match op with
      | .x _ _ _ => psMACX
      | .q _ _ _ => psMACQ)
  | .lclr k => s.setLacc n k { (s.lacc n k).clear with bound := true, owner := tCtx a.tag }
  | .store addr size v p =>
    let x := s.eccAt addr
    let s := if size < 8 ∧ x.bad then s.log (peEndpoint n) .lsMergePoison .deferred (BitVec.ofNat 64 addr) (some (pairPe n))
      else if size < 8 ∧ x = .ce then s.log (peEndpoint n) .lsCe .corrected (BitVec.ofNat 64 addr) (some (pairPe n)) else s
    let s := (s.store addr size v.toNat).setEcc addr (s.mergedEcc addr size p)
    if size < 8 ∧ x = .ue then s.countUe else s
  | .scrub addr =>
    if s.eccAt addr = .ce then (s.setEcc addr .ok).log (peEndpoint n) .lsCe .corrected (BitVec.ofNat 64 addr) (some (pairPe n))
    else if s.eccAt addr = .ue then s.peUe (peEndpoint n) (pairPe n) addr false
    else s
  | .zero addr size => (List.range (size / 8)).foldl (fun s k => (s.store (addr + 8 * k) 8 0).setEcc (addr + 8 * k) .ok) s
  | .send m => s.pushOut n m
  | .safew imm => if s.safeUnowned (pairOf n) imm then s else s.safeWrite (pairOf n) imm
  | _ => s

/-- Land flights that outlive their activation, in the order they land. Fuel is their number. -/
def landKept (n : Nat) (a : Act) : Nat → List Flight → State → State
  | 0, _, s => s
  | k + 1, l, s => match firstFlight l with
    | none => s
    | some f => landKept n a k (l.erase f) (s.applyKept n a f.eff)

/-- What is in flight when an activation leaves its PE: register results are lost, the rest lands. -/
def State.leave (s : State) (n : Nat) (a : Act) (l : List Flight) : State :=
  let l := l.filter (fun f => f.eff.persists)
  landKept n a l.length l (s.setAct n none)

/-- Take a running activation off its PE and deliver its fault (R144). In an AW block the instructions issued later have no
effect (R549). -/
def State.raiseFault (s : State) (n : Nat) (a : Act) (fc : FaultCode) (off detail : Nat) : State :=
  (s.leave n a (if a.aw then [] else a.flights)).deliver (peEndpoint n) (some (pairPe n)) a.tag false fc off detail a.handles

/-- Priority at which an activation runs: its own, raised by a boost of its context (R31, R106). -/
def actPri (p : Pe) (a : Act) : Nat :=
  (p.boosts.filter (fun b => b.1 = a.key)).foldl (fun m b => max m b.2) (tPri a.tag)

/-! Save frames (R150). -/

def kindBits (preempt : Bool) : Nat := if preempt then 1 else 2
/-- STATUS of a frame. -/
def frameStatus (preempt : Bool) (a : Act) : Word :=
  let d := match a.delay with
    | some (some t) => put 45 45 1 + put 44 37 t
    | _ => 0
  let r := match a.rep with
    | some r => put 36 36 1 + put 35 35 r.interruptible.toNat
    | none => 0
  BitVec.ofNat 64 (put 63 62 (kindBits preempt) + put 61 54 (if preempt then 0 else FaultCode.fpTrap.code) + put 53 46 a.off + d + r)

/-- The words 0x000 to 0x170 of a frame. -/
def frameWords (a : Act) (status opa opb opc result : Word) (exc : Nat) : List Word :=
  a.g.toList ++ (a.ga.toList.flatMap (fun x => [BitVec.ofNat 64 x.toNat, BitVec.ofNat 64 (x.toNat >>> 64)]))
    ++ ((List.range 4).flatMap (fun k => let v := (a.ins[k]?).map (·.val) |>.getD 0; [lo64 v, hi64 v]))
    ++ [a.tag, a.rc.setWidth 64, a.fps, a.fxs, a.ctl, a.mh, a.ml, a.lsel, status, a.gp.setWidth 64, opa, opb, opc, result,
        BitVec.ofNat 64 exc]

/-- The micro-sequencer's own words of a frame: their layout is not given. -/
def State.storeMicro (s : State) (addr : Nat) : Nat → State
  | 0 => s
  | k + 1 =>
    let d := s.draw
    (d.2.putWord addr (Config.frameMicro d.1)).storeMicro (addr + 8) k

/-- Address of save frame f of a PE (R105). -/
def State.frameAddr (s : State) (n f : Nat) : Nat := s.rfld (aPeSaveBase (pairPe n)) 47 12 * 4096 + f * 512

/-- The STATUS word of a frame in module memory gets KIND free (R150). -/
def State.clearKind (s : State) (n f : Nat) : State :=
  let a := s.frameAddr n f + 0x140
  s.putWord a (setFld (s.word a) 63 62 0)

def Pe.frame (p : Pe) (f : Nat) : Option Frame := Tbl.get none p.frames f
def Pe.setFrame (p : Pe) (f : Nat) (x : Option Frame) : Pe := { p with frames := Tbl.set none p.frames f x }
/-- The first free frame: 0 and 1 serve preemption, 2 to 7 precise traps (R105). -/
def Pe.freeFrame (p : Pe) (preempt : Bool) : Option Nat :=
  (if preempt then [0, 1] else [2, 3, 4, 5, 6, 7]).find? (fun f => (p.frame f).isNone)

/-- A frame becomes free (R105, R108). -/
def State.freeFrame (s : State) (n f : Nat) : State := (s.clearKind n f).updPe n (fun p => p.setFrame f none)

/-- Write a frame to module memory and keep the micro-sequencer's copies. -/
def State.saveFrame (s : State) (n f : Nat) (preempt : Bool) (a : Act) (opa opb opc result : Word) (dst exc : Nat) : State :=
  let st := frameStatus preempt a
  let s := (s.storeWords (s.frameAddr n f) (frameWords a st opa opb opc result exc)).storeMicro (s.frameAddr n f + 0x178) 17
  s.updPe n (fun p => p.setFrame f (some ⟨preempt, a, st, result, dst, exc, tPri a.tag, false⟩))

/-- The divides in flight that issued before a slot end, as a precise trap waits for them (R135). -/
def Act.endDivides (a : Act) (issue : Nat) : Act :=
  a.flights.foldl (fun a x => if x.divk && decide (x.issue < issue) then
      (match x.eff with
       | .reg r v p =>
         if r < 16 then { a with g := a.g.setIfInBounds r (BitVec.ofNat 64 v.toNat), gp := setBit a.gp r p, slot := max a.slot x.land } else a
       | _ => a) else a) a

/-- A precise trap (R135): earlier divides land, what issued later is undone, the activation is suspended, and the FAULT token is
resumable when a frame was free (R105). A context without a handler abandons the activation (R149). The event that stands for the token there,
or for that of a handler activation, takes no frame, and its DETAIL has RES = 0 and no frame address: R550 does not say (DESIGN CHOICE, log 53). -/
def State.takeTrap (s : State) (n : Nat) (a : Act) (f : Flight) (dst : Nat) (opa opb opc result : Word) (exc : Nat) : State :=
  let a := { a.endDivides f.issue with flights := [], off := f.offset, divUntil := 0, mulFree := 0, lrd := none }
  let c := s.ctx a.key
  let s := s.setAct n none
  match (if c.hv ∧ c.state ≠ .free then (s.pe n).freeFrame false else none), a.handles with
  | some fr, none =>
    let s := s.saveFrame n fr false a opa opb opc result dst exc
    s.deliver (peEndpoint n) (some (pairPe n)) a.tag false .fpTrap f.offset (s.frameAddr n fr / 512 * 512 + 2 * exc + 1)
  | _, _ => s.deliver (peEndpoint n) (some (pairPe n)) a.tag false .fpTrap f.offset (2 * exc) a.handles

/-- The decision on a residue mismatch of the effect f (R219): re-execute once when nothing visible has issued, else ARITH_CHECK. -/
def State.residueDecide (s : State) (n : Nat) (a : Act) (f : Flight) : State :=
  if !a.visible && !a.retried && !a.resumed then
    ((s.setAct n (some { Act.fresh a.serial a.tag a.hdr a.stamp a.base a.ins a.handles with retried := true })).bumpPe n psRESRETRY).logFree
      (peEndpoint n) .arithRetry .corrected (some (pairPe n)) (some (tCtx a.tag))
  else
    ((s.bumpPe n psRESFAULT).logFree (peEndpoint n) .arithCheck .deferred (some (pairPe n)) (some (tCtx a.tag))).raiseFault n
      { a with flights := a.flights.filter (fun g => g.issue != f.issue) } .arithCheck f.offset a.retried.toNat

/-! Landing. -/

/-- A MOVTS landing: RO bits stay, CTL.CAD only sets (R121). -/
def Act.landSpecial (a : Act) (r : Nat) (v : Word) : Act :=
  if r = 25 then { a with rc := v.setWidth 16 }
  else if r = 26 then { a with fps := v }
  else if r = 27 then { a with fxs := v }
  else if r = 28 then { a with ctl := setBit v 3 (bitAt v 3 || bitAt a.ctl 3) }
  else { a with lsel := v }

/-- Apply one effect at its landing. -/
def State.applyEff (s : State) (n : Nat) (a : Act) (f : Flight) : State :=
  match f.eff with
  | .reg r v p =>
    if r < 16 then s.setAct n (some { a with g := a.g.setIfInBounds r (BitVec.ofNat 64 v.toNat), gp := setBit a.gp r p })
    else s.setAct n (some { a with ga := a.ga.setIfInBounds (r - 20) v, gp := setBit a.gp (r - 4) p })
  | .flags p x => s.setAct n (some { a with fps := a.fps ||| BitVec.ofNat 64 p, fxs := a.fxs ||| BitVec.ofNat 64 x })
  | .special r v => s.setAct n (some (a.landSpecial r v))
  | .product v => s.setAct n (some { a with mh := hi64 v, ml := lo64 v })
  | .safew imm =>
    if s.safeUnowned (pairOf n) imm then s.raiseFault n a .accessDenied f.offset (imm % 65536)
    else s.safeWrite (pairOf n) imm
  | .trap dst opa opb opc result exc delay rep rc =>
    s.takeTrap n { a with delay := delay, rep := rep, rc := rc } f dst opa opb opc result exc
  | .check _ => s.residueDecide n a f
  | e => s.applyKept n a e

/-- Land everything due by slot t, oldest first (R124, R126). Fuel is the number of flights. -/
def State.landFuel (n t : Nat) : Nat → State → State
  | 0, s => s
  | k + 1, s =>
    match s.act n with
    | none => s
    | some a =>
      match firstFlight a.flights with
      | none => s
      | some f =>
        if f.land ≤ t then
          State.landFuel n t k (State.applyEff (s.setAct n (some { a with flights := a.flights.erase f })) n
            { a with flights := a.flights.erase f } f)
        else s

def State.landTo (s : State) (n t : Nat) : State :=
  match s.act n with
  | none => s
  | some a => State.landFuel n t a.flights.length s

/-- The last slot at which anything but a divide lands. -/
def Act.lastLand (a : Act) : Nat := (a.flights.filter (fun f => !f.divk)).foldl (fun m f => max m f.land) a.slot

/-- Whether the activation on a PE is still the one that was there, not re-executed meanwhile. -/
def State.sameAct (s : State) (n : Nat) (a : Act) : Bool :=
  match s.act n with
  | some b => b.serial == a.serial && b.retried == a.retried
  | none => false

/-- The event and the count of an uncorrectable word that stopped an instruction (R279, R283); stored poison raises none (R281). -/
def State.noteUe (s : State) (n : Nat) (fc : FaultCode) (detail : Nat) : State :=
  match fc with
  | .lsUncorrectable =>
    let a := lsBase (pairPe n) + detail
    if s.eccAt a = .ue then s.peUe (peEndpoint n) (pairPe n) a false else s
  | .imemUncorrectable => s.peUe (peEndpoint n) (pairPe n) (imemBase (pairPe n) + 8 * detail) true
  | _ => s

/-- A fault raised at issue: at once with AW = 0; after every earlier write-back with AW = 1 (R549). `cnt` is its counter, if it has one,
which counts when the fault is delivered. -/
def State.faultAt (s : State) (n : Nat) (a : Act) (off : Nat) (fc : FaultCode) (detail : Nat) (cnt : Option Nat := none) : State :=
  let s := s.noteUe n fc detail
  let count (s : State) : State := match cnt with
    | some i => s.bumpPe n i
    | none => s
  if a.aw then
    let s' := s.landTo n a.lastLand
    match s'.act n with
    | some b => if s'.sameAct n a then (count s').raiseFault n b fc off detail else s'
    | none => s'
  else (count s).raiseFault n a fc off detail

/-- The fall past offset LEN without END (R132). -/
def State.checkEnd (s : State) (n : Nat) (w : Word) (off : Nat) : State :=
  match s.act n with
  | some a =>
    if a.off > a.len then
      s.faultAt n a a.len .illegalSequence (wordDetail (if off = a.len then w else s.imemAt n (a.base + a.len)))
    else s
  | none => s

/-- Record the busy slots from the activation's last slot to t (R109). -/
def State.countSlots (s : State) (n from_ t : Nat) : State :=
  let d := t - from_
  ((s.bumpPe n psBUSY d).bumpPe n psCYCLES d).bumpPe n psRQAREA (d * (s.pe n).ready.length) |>.updPe n (fun p => { p with clk := p.clk + d })

/-! Fences (R64 to R66, R128). -/

/-- Whether a message or request of the activation still holds a fence. -/
def fenceHeld (k : FenceKind) (c : FenceClass) : Bool :=
  match k, c with
  | _, .w => true
  | .a, .a => true
  | _, _ => false

def State.outstanding (s : State) (n serial : Nat) (k : FenceKind) : Bool :=
  let p := s.pe n
  (p.outQ ++ p.outBack).any (fun m => m.act == serial && fenceHeld k m.cls)
    || (s.ni (peEndpoint n)).slots.any (fun x => match x.2 with
      | some r => r.act == serial && fenceHeld k r.cls
      | none => false)

/-- The word of a fence. -/
def FenceKind.word (k : FenceKind) : Word := packWord (match k with
  | .w => 0x06
  | .a => 0x07) (unpackWord 0)
/-- End a fence whose conditions hold: results land, stalled slots pass, issue goes on, past offset LEN to the fault of R132. -/
def State.tryFence (s : State) (n : Nat) : State :=
  match s.act n with
  | some a =>
    match a.fence with
    | some k =>
      if s.outstanding n a.serial k || a.lrd.isSome then s
      else
        let d := s.draw
        let t := a.slot + Config.fenceStall d.1
        let s := (d.2.countSlots n a.slot t).landTo n t
        if s.sameAct n a then
          (s.updPe n (fun p => { p with act := p.act.map (fun b => { b with fence := none, slot := t }) })).checkEnd n k.word a.len
        else s
    | none => s
  | none => s

/-- A fence issued in the activation's current slot: what is in flight lands (but a divide), then it waits. -/
def State.startFence (s : State) (n : Nat) (k : FenceKind) : State :=
  match s.act n with
  | none => s
  | some a =>
    let s' := (s.countSlots n a.slot a.lastLand).landTo n a.lastLand
    if s'.sameAct n a then
      (s'.updPe n (fun p => { p with act := p.act.map (fun b => { b with fence := some k, slot := max b.slot a.lastLand }) })).tryFence n
    else s'

/-! Issue. -/

/-- What the issue engine needs to know of an instruction beside its fields. -/
structure Op where
  code : Nat
  uses : Uses
  srcs : Fields → List Nat
  usesMul : Bool
  kinds : List PeKind

def opREPI : Nat := 0x04
def opREPN : Nat := 0x05

/-- Opcodes that a delay slot may not hold (R132). -/
def barredInDelay (op : Nat) : Bool := op == 0x01 || op == 0x02 || op == 0x03 || op == 0x04 || op == 0x05
/-- Whether an opcode accumulates into, reads out or clears the selected LACC. -/
def isLaccOp (op : Nat) : Bool := 0xE2 ≤ op && op ≤ 0xE7

/-- Issue waits for a running readout (R188, R239). LCLR of the LACC being read waits too, and so does a second LRD: R188 names only readers of
DST and accumulations (DESIGN CHOICE, log 53). -/
def lrdBlocks (a : Act) (op : Nat) (srcs : List Nat) : Bool :=
  match a.lrd with
  | some r => a.aw || srcs.contains r.dst || op == 0xE6 || (isLaccOp op && fld a.lsel 1 0 == r.acc)
  | none => false
/-- Whether the activation that would issue waits for a running readout, what is due in its slot having landed. -/
def State.lrdHolds (s : State) (n : Nat) (a : Act) (op : Nat) (srcs : List Nat) : Bool :=
  match s.act n with
  | some b => s.sameAct n a && lrdBlocks b op srcs
  | none => false
/-- Whether an effect sends a message. -/
def Effect.isSend : Effect → Bool
  | .send _ => true
  | _ => false
/-- Whether a message finds no place: the outbound queue, with the sends in flight, is full and its backlog has no space (R94, R186). -/
def State.outHeld (s : State) (n : Nat) (a : Act) : Bool :=
  decide (64 ≤ (s.pe n).outQ.length + (a.flights.filter (fun f => f.eff.isSend)).length) && !s.auxRoom (peEndpoint n) .pes 2048

/-- LSEL as slot t reads it: the last MOVTS to it that has landed. -/
def Act.lselAt (a : Act) (t : Nat) : Word :=
  a.flights.foldl (fun v f => match f.eff with
    | .special 31 w => if f.land ≤ t then w else v
    | _ => v) a.lsel
/-- The first slot from t on in which every MAC and LCLR into the LACC that LSEL selects in that slot has landed (R239). Each round passes
a landing, so the number of flights bounds the rounds. -/
def Act.laccSlot (a : Act) : Nat → Nat → Nat
  | 0, t => t
  | k + 1, t =>
    let acc := fld (a.lselAt t) 1 0
    let u := a.flights.foldl (fun t x => match x.eff with
      | .mac k _ => if k = acc then max t x.land else t
      | .lclr k => if k = acc then max t x.land else t
      | _ => t) t
    if u = t then t else a.laccSlot k u

/-- The slot an instruction issues in: the next one, or on an A-PE the first in which its sources have landed, the
multiplier is free, a product it reads has landed, and the MACs a readout follows have landed (R142, R143, R233, R239). A MOVS of FPS,
FXS, CTL, LSEL or RC does not wait: R142 interlocks the general registers and R143 calls MH and ML the only stall on a special register
(log 47). -/
def issueSlot (n : Nat) (o : Op) (a : Act) (f : Fields) : Nat :=
  let t := a.slot + 1
  if peKind n = .a then
    let regs := (o.srcs f).filter (fun r => r < 16 || isGa r || r == 29 || r == 30)
    let t := (regs.flatMap a.landsOf).foldl max t
    let t := if o.usesMul then max t a.mulFree else t
    if o.code = 0xE6 then a.laccSlot a.flights.length t else t
  else t

/-- Whether an AW block reads a register within the distance of a write in flight (R133); the LACC instructions read LSEL. -/
def readsEarly (n : Nat) (o : Op) (a : Act) (f : Fields) : Bool :=
  let regs : List Nat := o.srcs f ++ (if isLaccOp o.code then [31] else [])
  a.aw && (regs.filter (fun r => !(peKind n = .a && (r < 16 || isGa r || r == 29 || r == 30)))).any (fun r => !(a.landsOf r).isEmpty)

/-- Whether the instruction after REP may not be repeated (R139). -/
def repBarred (w : Word) : Bool :=
  let op := opOf w
  op == 0x04 || op == 0x05 || op == 0x10 || op == 0x01 || op == 0x02 || op == 0x03 || (op == 0xA3 && fld w 55 50 == 25)

/-- Turn timed effects into flights of slot t. With AW = 1 every effect lands at distance 4, a divide at 66 (R133). -/
def toFlights (aw : Bool) (t off : Nat) (w : Word) (l : List Timed) : List Flight :=
  l.map (fun e => ⟨t, t + (if aw && e.dist != 66 then 4 else e.dist), off, w, e.dist == 66, e.eff⟩)

/-- Whether the injection register of the PE is armed for a unit (R222). -/
def State.resArmed (s : State) (n u : Nat) : Bool :=
  bitAt (s.reg (aPeResInject (pairPe n))) 0 && s.rfld (aPeResInject (pairPe n)) 3 1 == u

/-- The position after an instruction that neither branches nor repeats. -/
def Act.advance (a : Act) (off : Nat) : Act :=
  match a.delay with
  | some (some t) => { a with off := t, delay := none }
  | some none => { a with off := off + 1, delay := none }
  | none =>
    match a.rep with
    | some r => if r.done + 1 < r.n then { a with rep := some { r with done := r.done + 1 } }
                else { a with rep := none, off := off + 1 }
    | none => { a with off := off + 1 }

/-- The end of an activation (R130, R134): register results in flight are discarded. -/
def State.endAct (s : State) (n : Nat) : State :=
  match s.act n with
  | some a => s.leave n a a.flights
  | none => s

/-- Act on an instruction's flow once its effects are recorded. A fence, and with AW = 1 a readout, holds the slot after it, and with it the fall
past offset LEN. -/
def State.flowOn (s : State) (n : Nat) (a : Act) (w : Word) (off : Nat) (fl : Flow) : State :=
  match fl with
  | .next => (s.setAct n (some (a.advance off))).checkEnd n w off
  | .branch t => (s.setAct n (some { a with off := off + 1, delay := some t })).checkEnd n w off
  | .rep i k =>
    if k = 0 then (s.setAct n (some { a with off := off + 2 })).checkEnd n w off
    else s.setAct n (some { a with off := off + 1, rep := some ⟨i, k, 0⟩ })
  | .fence k => (s.setAct n (some (a.advance off))).startFence n k
  | .finish =>
    let s := s.setAct n (some a)
    if a.aw then
      let s' := s.landTo n (a.slot + 4)
      if s'.sameAct n a then s'.endAct n else s'
    else s.endAct n
  | .lrd r =>
    let s := s.setAct n (some { a.advance off with lrd := some r })
    if a.aw then s else s.checkEnd n w off

/-- Decode, read and issue one instruction in slot t, everything due by t having landed. An instruction that meets several conditions of
R116 takes ILLEGAL_OPCODE, then ILLEGAL_FIELD, then ILLEGAL_SEQUENCE, then the fault of its own rule: the manual orders them only for
messages (DESIGN CHOICE, log 47). `back` is the state before the slot, in which a message waits while it finds no place. -/
def State.issueIn (s back : State) (n t : Nat) (o : Op) (f : Fields) (sem : State → Nat → Act → Fields → Issued) (a : Act) : State :=
  let w := packWord o.code f
  let off := a.off
  let a := { a with slot := t, rc := match a.rep with
    | some r => BitVec.ofNat 16 (r.n - (r.done + 1))
    | none => a.rc }
  let s := s.setAct n (some a)
  if (s.pe n).imemBad.contains (a.base + off) then s.faultAt n a off .imemUncorrectable (a.base + off)
  else if !o.kinds.contains (peKind n) then s.faultAt n a off .illegalOpcode (wordDetail w)
  else if !o.uses.ok f then s.faultAt n a off .illegalField (wordDetail w)
  else
    match sem s n a f with
    | .bad .illegalField d c => s.faultAt n a off .illegalField d c
    | r =>
      if (a.delay.isSome && barredInDelay o.code) || readsEarly n o a f then s.faultAt n a off .illegalSequence (wordDetail w)
      else match r with
      | .bad fc d c => s.faultAt n a off fc d c
      | .ok effs fl vis chk busy =>
        if effs.any (fun e => e.dist == 0 && e.eff.isSend) && s.outHeld n a then back else
        let bad := match chk with
          | some u => s.resArmed n u
          | none => false
        let s := if bad then s.setRfld (aPeResInject (pairPe n)) 0 0 0 else s
        let effs := (if bad then [⟨(effs.head?.map (·.dist)).getD 2, .check (chk.getD 0)⟩] else []) ++ effs
        let a := { a with flights := a.flights ++ toFlights a.aw t off w effs, visible := a.visible || vis,
                          mulFree := if o.usesMul then t + busy else a.mulFree,
                          divUntil := if effs.any (fun e => e.dist == 66) then t + 66 else a.divUntil }
        let s := (s.setAct n (some a)).landTo n t
        match s.act n with
        | some b => if s.sameAct n a then s.flowOn n b w off fl else s
        | none => s

/-- Whether a PE may issue now: an activation runs, no fence stalls it, debug does not hold it, microcode runs. -/
def State.mayIssue (s : State) (n : Nat) : Bool :=
  let p := s.pe n
  (match p.act with
   | some a => a.fence.isNone
   | none => false) && (p.halt == .run || p.halt == .step)

/-- Issue one instruction on PE n: land what is due, then decode and issue. A PE that cannot issue does nothing. -/
def State.issue (s : State) (n : Nat) (o : Op) (f : Fields) (sem : State → Nat → Act → Fields → Issued) : State :=
  let s := s.tryFence n
  let back := s
  if !s.mayIssue n then s else
  match s.act n with
  | none => s
  | some a =>
    let t := issueSlot n o a f
    let u := (s.countSlots n a.slot t).landTo n t
    if u.lrdHolds n a o.code (o.srcs f) then s else
    let s := u.updPe n (fun p => { p with halt := if p.halt = .step then .halted else p.halt })
    match s.act n with
    | some b => if s.sameAct n a then s.issueIn back n t o f sem b else s
    | none => s

end Sys2Proof.Machine
end

