-- ==== Sys2Proof/Machine/Flags.lean ====
section
/-! DEFINITION. How results and flags of block code are formed: register results with their poison (R122, R123), fixed-point
flags (R163, R198) and floating-point exceptions, sticky or trapping (R135, R214). -/

namespace Sys2Proof.Machine

/-- Every PE kind. -/
def allKinds : List PeKind := [.s, .a, .k]

/-- A fault about the instruction word. -/
def badWord (o : Nat) (f : Fields) : Issued := .bad .illegalField (wordDetail (packWord o f)) none

/-- One result to register d at distance D. -/
def regResult (d dist : Nat) (v : Word) (poison : Bool) (unit : Nat) : Issued :=
  .ok [⟨dist, .reg d (v.setWidth 80) poison⟩] .next false (some unit) 0

/-- A fixed-point result with the FXS flags it sets, to a G or GA register. -/
def fxResult {n : Nat} (d dist : Nat) (r : FxRes n) (poison : Bool) (unit busy : Nat) : Issued :=
  .ok (⟨dist, .reg d (BitVec.ofNat 80 r.val.toNat) poison⟩ :: (if r.fxs = 0 then [] else [⟨dist, .flags 0 r.fxs⟩])) .next false
    (some unit) busy

/-- The exceptions of an FP result that trap: those enabled in TEN, with an exact tiny result counted as underflow when
underflow is enabled (R207, R214). -/
def trapExc (a : Act) (fl : Nat) (tiny : Bool) : Option Nat :=
  if !a.aw then none
  else
    let exc := if tiny && bitAt a.ctl 9 then fl ||| flUF else fl
    if exc &&& a.ten = 0 then none else some exc

/-- RC as a precise trap of the instruction that issues now leaves it: the count of the repeat, or with none the value that every earlier
MOVTS has given it (R135, R141). -/
def Act.rcDue (a : Act) : BitVec 16 :=
  if a.rep.isSome then a.rc else a.flights.foldl (fun v f => match f.eff with
    | .special 25 w => w.setWidth 16
    | _ => v) a.rc
/-- An FP result: a precise trap when an enabled exception is raised (R135), else the result and its sticky flags. -/
def fpResult (a : Act) (d : Nat) (opa opb opc v : Word) (fl : Nat) (tiny poison : Bool) (unit : Nat) : Issued :=
  match trapExc a fl tiny with
  | some exc => .ok [⟨4, .trap d opa opb opc v exc a.delay a.rep a.rcDue⟩] .next false (some unit) 0
  | none => .ok (⟨4, .reg d (v.setWidth 80) poison⟩ :: (if fl = 0 then [] else [⟨4, .flags fl 0⟩])) .next false (some unit) 0

/-- Residue units (R222). -/
def uInt : Nat := 0
def uFix : Nat := 1
def uMul : Nat := 2
def uFadd : Nat := 3
def uFmul : Nat := 4
def uDup : Nat := 5

/-! Instruction shapes. -/

def usesDAB : Uses := ⟨true, true, true, false, false⟩
def usesDA : Uses := ⟨true, true, false, false, false⟩
def usesDAI : Uses := ⟨true, true, false, false, true⟩
def usesDABC : Uses := ⟨true, true, true, true, false⟩
def usesDI : Uses := ⟨true, false, false, false, true⟩
def usesNone : Uses := ⟨false, false, false, false, false⟩

def opDAB (code : Nat) : Op := ⟨code, usesDAB, fun f => [f.a, f.b], false, allKinds⟩
def opDA (code : Nat) : Op := ⟨code, usesDA, fun f => [f.a], false, allKinds⟩
def opDAI (code : Nat) : Op := ⟨code, usesDAI, fun f => [f.a], false, allKinds⟩

/-- An instruction with two general sources and a G destination. -/
def semAB (code : Nat) (k : Act → Word → Word → Bool → Nat → Issued) : State → Nat → Act → Fields → Issued :=
  fun _ _ a f =>
    if isDst f.d && isSrc f.a && isSrc f.b then k a (a.src f.a) (a.src f.b) (a.poisoned f.a || a.poisoned f.b) f.d
    else badWord code f

/-- An instruction with one general source and a G destination. -/
def semA (code : Nat) (k : Act → Word → Bool → Nat → Issued) : State → Nat → Act → Fields → Issued :=
  fun _ _ a f =>
    if isDst f.d && isSrc f.a then k a (a.src f.a) (a.poisoned f.a) f.d else badWord code f

/-- An instruction with a general source, an immediate in the range `ok`, and a G destination. -/
def semAI (code : Nat) (ok : Nat → Bool) (k : Act → Word → Nat → Bool → Nat → Issued) : State → Nat → Act → Fields → Issued :=
  fun _ _ a f =>
    if isDst f.d && isSrc f.a && ok f.i then k a (a.src f.a) f.i (a.poisoned f.a) f.d else badWord code f

/-- A plain integer result at distance 2 (R161). -/
def intAB (code unit : Nat) (op : Word → Word → Word) := semAB code (fun _ x y p d => regResult d 2 (op x y) p unit)
def intA (code unit : Nat) (op : Word → Word) := semA code (fun _ x p d => regResult d 2 (op x) p unit)
def intAI (code unit : Nat) (ok : Nat → Bool) (op : Word → Nat → Word) :=
  semAI code ok (fun _ x i p d => regResult d 2 (op x i) p unit)

/-- Issue an instruction on PE n. -/
def runOp (n : Nat) (o : Op) (f : Fields) (sem : State → Nat → Act → Fields → Issued) (s : State) : Out :=
  onPe n s (fun s => s.issue n o f sem)

end Sys2Proof.Machine
end

