-- ==== Sys2Proof/Machine/Control.lean ====
section
/-! DEFINITION. The control group (R130 to R141, R151, R159, R160). -/

namespace Sys2Proof.Machine

/-- Issue with no effect. -/
def nothing : Issued := .ok [] .next false none 0

/-- NOP, or any word whose opcode is a hole on the PE (R156): a hole raises ILLEGAL_OPCODE, and a NOP word with a nonzero
field ILLEGAL_FIELD (R116). A word that is another command is issued by that command, and nothing happens here (log 49). -/
def execNop (pe : Nat) (w : BitVec 64) (s : State) : Out :=
  if opOf w ≠ 0 ∧ (wordInstr (pairPe pe) w).isSome then onPe pe s id
  else runOp pe ⟨opOf w, usesNone, fun _ => [], false, if opOf w = 0 then allKinds else []⟩ (unpackWord w) (fun _ _ _ _ => nothing) s

def execEndBlk (pe : Nat) (f : Fields) (s : State) : Out :=
  runOp pe ⟨0x01, usesNone, fun _ => [], false, allKinds⟩ f (fun _ _ _ _ => .ok [] .finish false none 0) s

/-- A branch target: IMM[31:8] zero, 1 to LEN (R131, R159). -/
def branchOk (a : Act) (f : Fields) : Bool := decide (1 ≤ f.i) && decide (f.i ≤ a.len)

def execBr (pe : Nat) (f : Fields) (s : State) : Out :=
  runOp pe ⟨0x02, ⟨false, false, false, false, true⟩, fun _ => [], false, allKinds⟩ f
    (fun _ _ a f => if branchOk a f then .ok [] (.branch (some f.i)) false none 0 else badWord 0x02 f) s

/-- The condition of BRC (R160). -/
def brcTaken (m : Nat) (v : Word) : Bool :=
  match m with
  | 0 => v == 0
  | 1 => v != 0
  | 2 => decide (v.toInt < 0)
  | 3 => decide (0 ≤ v.toInt)
  | 4 => decide (0 < v.toInt)
  | 5 => decide (v.toInt ≤ 0)
  | 6 => bitAt v 0
  | _ => !bitAt v 0

def execBrc (pe : Nat) (f : Fields) (s : State) : Out :=
  runOp pe ⟨0x03, ⟨false, true, false, true, true⟩, fun f => [f.a], false, allKinds⟩ f
    (fun _ _ a f =>
      if isSrc f.a && decide (f.c < 8) && branchOk a f then
        if a.poisoned f.a then .bad .tokenCorrupt (poisonDetail f.a) none
        else .ok [] (.branch (if brcTaken f.c (a.src f.a) then some f.i else none)) false none 0
      else badWord 0x03 f) s

/-- REP.I and REP.N (R137 to R139); a register count may be any general source, I0–I3 and RC too (R118). -/
def semRep (code : Nat) (interruptible : Bool) : State → Nat → Act → Fields → Issued :=
  fun s n a f =>
    let byReg := decide (65536 ≤ f.i)
    let cnt := if byReg then (a.src f.a).toNat else f.i % 65536
    if decide (2 ^ 17 ≤ f.i) || (byReg && (!isSrc f.a || decide (f.i ≠ 65536))) || (!byReg && f.a != 0) then badWord code f
    else if byReg && a.poisoned f.a then .bad .tokenCorrupt (poisonDetail f.a) none
    else if (!byReg && cnt == 0) || decide (65535 < cnt) || (!interruptible && decide (256 < cnt)) then badWord code f
    else if decide (a.len < a.off + 1) || repBarred (s.imemAt n (a.base + a.off + 1)) then
      .bad .illegalSequence (wordDetail (packWord code f)) none
    else .ok [] (.rep interruptible cnt) false none 0

def opRep (code : Nat) : Op :=
  ⟨code, ⟨false, true, false, false, true⟩, fun f => if 65536 ≤ f.i then [f.a] else [], false, allKinds⟩

def execRepI (pe : Nat) (f : Fields) (s : State) : Out := runOp pe (opRep 0x04) f (semRep 0x04 true) s
def execRepN (pe : Nat) (f : Fields) (s : State) : Out := runOp pe (opRep 0x05) f (semRep 0x05 false) s

def execFenceW (pe : Nat) (f : Fields) (s : State) : Out :=
  runOp pe ⟨0x06, usesNone, fun _ => [], false, allKinds⟩ f (fun _ _ _ _ => .ok [] (.fence .w) false none 0) s
def execFenceA (pe : Nat) (f : Fields) (s : State) : Out :=
  runOp pe ⟨0x07, usesNone, fun _ => [], false, allKinds⟩ f (fun _ _ _ _ => .ok [] (.fence .a) false none 0) s

/-- A SERVICE packet as a message (R302, R304): SUB in SPEC bits 12:9, arguments A and B. -/
def serviceMsg (dest sub pri : Nat) (dpsn : Bool) (rtag argA argB : Word) (two : Bool) (act : Nat) (cls : FenceClass) : Msg :=
  { dest := dest, opc := .service, pri := pri, spec := put 12 9 sub + put 8 8 dpsn.toNat,
    body := mkWide rtag argA :: (if two then [mkWide 0 argB] else []), act := act, cls := cls, ae := none }

/-- RESUME (R151, R152): a message to the PE that SA, any general source (R118), names. -/
def execResume (pe : Nat) (f : Fields) (s : State) : Out :=
  runOp pe ⟨0x08, ⟨false, true, false, true, false⟩, fun f => [f.a], false, allKinds⟩ f
    (fun _ _ a f =>
      let v := a.src f.a
      let owner := fld v 56 48
      if !isSrc f.a || decide (2 < f.c) then badWord 0x08 f
      else if a.poisoned f.a then .bad .tokenCorrupt (poisonDetail f.a) none
      else if decide (fld v 63 57 ≠ 0) || decide (275 < owner) then badWord 0x08 f
      else if decide (v.toNat % 512 ≠ 0) then .bad .addressFault (fld v 47 0) none
      else
        .ok [⟨0, .send (serviceMsg (peEndpoint owner) 4 (tPri a.tag) false a.tag v (BitVec.ofNat 64 f.c) true a.serial .a)⟩]
          .next true none 0) s

end Sys2Proof.Machine
end

