-- ==== Sys2Proof/Machine/Messages.lean ====
section
/-! DEFINITION. Message instructions and requests to the arithmetic engine (R165, R175 to R186). -/

namespace Sys2Proof.Machine

/-! Destination descriptors (R175, R176). -/

def dPri (i : Nat) : Nat := i / 2 ^ 29 % 8
def dPv (i : Nat) : Bool := i.testBit 28
def dCd (i : Nat) : Bool := i.testBit 27
def dXt (i : Nat) : Bool := i.testBit 26
def dEpm (i : Nat) : Bool := i.testBit 25
def dNr (i : Nat) : Bool := i.testBit 24
def dDest (i : Nat) : Nat := i % 2 ^ 24
def dPe (i : Nat) : Nat := dDest i / 2 ^ 15

/-- What an instruction's descriptor may use. -/
inductive DescForm where
  | token | reply | replyNr
  deriving DecidableEq, Repr

/-- The decode rules of a descriptor and of the SC field it governs (R175, R176). -/
def descOk (k : DescForm) (f : Fields) : Bool :=
  let i := f.i
  let send := decide (k = .token)
  (dPv i || decide (dPri i = 0)) && (send || (!dXt i && !dEpm i)) && (decide (k = .replyNr) || !dNr i)
    && (!dNr i || decide (i = 2 ^ 24)) && (!dEpm i || (dXt i && decide (dDest i < 2 ^ 13) && decide (70 ≤ dDest i)))
    && (if send then (if dXt i then isSrc f.c else f.c == 0) else true)

/-- A reserved endpoint id (R19). -/
def reservedEp (e : Nat) : Bool := decide (70 ≤ e ∧ e < 256) || decide (4352 ≤ e)

/-- Endpoint of the unit that issues messages for PE n. -/
def ownEp (n : Nat) : Nat := peEndpoint n

/-- The active route-table entry of a sender for an endpoint: a cluster's NI_RT, or the hub's HB_RT word 0 for a cluster (R314,
R316). The hub reaches its own units and ports without a table. -/
def State.routeEntry (s : State) (src dest : Nat) : Option Word :=
  if src < 64 then
    some (s.reg (aNiRt src (s.rfld (aNiRtCtl src) 8 8) (if dest < 256 then dest else 256 + (dest - 256) / 256)))
  else if dest < 64 then some (s.reg (aHbRt (s.rfld (aNiRtCtl 64) 8 8) dest 0))
  else none

/-- Whether a packet from src to dest has no valid forward route (R314). -/
def State.noRoute (s : State) (src dest : Nat) : Bool :=
  src != dest && (match s.routeEntry src dest with
    | some w => !bitAt w 63
    | none => false)

/-- The ROUTE_MISS of a destination, with its DETAIL (R18, R19, R146, R314). -/
def State.routeMiss (s : State) (n dest : Nat) (pe : Option Nat) : Option Issued :=
  match pe with
  | some p =>
    if 275 < p then some (.bad .routeMiss (2 ^ 47 + p) none)
    else if reservedEp dest || s.noRoute (ownEp n) dest then some (.bad .routeMiss dest none) else none
  | none => if reservedEp dest || s.noRoute (ownEp n) dest then some (.bad .routeMiss dest none) else none

/-- The tag an outgoing token or reply carries (R30). -/
def outTag (_s : State) (_n : Nat) (a : Act) (f : Fields) (wide poison : Bool) : Word :=
  let i := f.i
  let x := a.src f.c
  let ctx := if dXt i then fld x 55 36 else tCtx a.tag
  let iter := if dXt i then fld x 35 24 else tIter a.tag
  let low := if dEpm i then fld x 23 0 else dDest i
  mkTag (if dPv i then dPri i else tPri a.tag) (a.cad || dCd i) poison wide ctx iter (low / 2 ^ 15) (low / 4) low

/-- The reply tag of a request: XT and EPM never apply, SC takes no part. -/
def replyTag (s : State) (n : Nat) (a : Act) (f : Fields) (wide : Bool) : Word :=
  outTag s n a { f with sc := 0 } wide false

/-- One message, at distance 0. -/
def oneMsg (m : Msg) (visible : Bool := true) : Issued := .ok [⟨0, .send m⟩] .next visible none 0

/-- Issue a message, or the ROUTE_MISS of its destination; `rpe` is the PE its descriptor names. -/
def sendOr (s : State) (n : Nat) (rpe : Option Nat) (m : Msg) : Issued :=
  match s.routeMiss n m.dest rpe with
  | some e => e
  | none => oneMsg m

/-! SEND and SENDW (R30). -/

def semSend (code : Nat) (wide : Bool) : State → Nat → Act → Fields → Issued :=
  fun s n a f =>
    if !(isSrc f.a && (!wide || isSrc f.b) && descOk .token f) then badWord code f
    else if dXt f.i && a.poisoned f.c then .bad .tokenCorrupt (poisonDetail f.c) none
    else
      let poison := a.poisoned f.a || (wide && a.poisoned f.b)
      let tag := outTag s n a f wide poison
      let dest := if dEpm f.i then dDest f.i else peEndpoint (dPe f.i)
      sendOr s n (if dEpm f.i then none else some (dPe f.i))
        (tokenMsg dest tag (mkWide (if wide then a.src f.b else 0) (a.src f.a)) a.serial .a)

def opSend (code : Nat) (wide : Bool) : Op :=
  ⟨code, ⟨false, true, wide, true, true⟩, fun f => [f.a] ++ (if wide then [f.b] else []) ++ (if dXt f.i then [f.c] else []), false, allKinds⟩

def execSend (pe : Nat) (f : Fields) (s : State) : Out := runOp pe (opSend 0xC0 false) f (semSend 0xC0 false) s
def execSendw (pe : Nat) (f : Fields) (s : State) : Out := runOp pe (opSend 0xC1 true) f (semSend 0xC1 true) s

/-! Address classes (R177). -/

/-- Bottom of the deep store (R277). -/
def State.deepBase (s : State) : Nat := 28 * 2 ^ 30 - s.rfld aQuota 7 0 * 2 ^ 26

/-- The class of a global address. -/
inductive AClass where
  | mem | memI | scr (c : Nat) | scrI (c : Nat) | tbNow | barred | none
  deriving DecidableEq, Repr

def State.classify (s : State) (a : Nat) : AClass :=
  if a < 28 * 2 ^ 30 then if a < s.deepBase then .mem else .barred
  else if 0x000800000000 ≤ a ∧ a < 0x000900000000 then .memI
  else if 0x001000000000 ≤ a ∧ a < 0x001000000000 + 64 * 0x100000 then
    let c := (a - 0x001000000000) / 0x100000
    if a % 0x100000 < 0x80000 then .scr c else .scrI c
  else if 0x002000000000 ≤ a ∧ a < 0x002000000000 + 276 * 0x100000 then
    if a % 0x100000 < lsBytes ((a - 0x002000000000) / 0x100000) then .barred else .none
  else if 0x003000000000 ≤ a ∧ a < 0x003000000000 + 276 * 0x100000 then
    if a % 0x100000 < 8 * imemWords ((a - 0x003000000000) / 0x100000) then .barred else .none
  else if aTbNow ≤ a ∧ a < aTbNow + 8 then .tbNow
  else if regBase ≤ a ∧ a < regBase + 0x630000 then .barred
  else .none

/-- The plain-view address of a byte seen through either view. -/
def plainOf (a : Nat) : Nat :=
  if 0x000800000000 ≤ a ∧ a < 0x000900000000 then a - 0x000800000000
  else if 0x001000000000 ≤ a ∧ a < 0x001000000000 + 64 * 0x100000 then a / 0x100000 * 0x100000 + a % 0x80000
  else a

/-- The target of a message address, or its fault code: `iview` for IREAD, IWRITE and ICLR; `read8` for an 8-byte READ. A misaligned 8-byte READ at
TB_NOW + 4, which R177 names under two codes, is ACCESS_DENIED (DESIGN CHOICE, log 53). -/
def State.target (s : State) (iview read8 : Bool) (v : Word) (size : Nat) : FaultCode ⊕ Nat :=
  let a := v.toNat
  let c := if a < 2 ^ 48 then s.classify a else .none
  match c with
  | .barred => .inl .accessDenied
  | .none => .inl .addressFault
  | .tbNow => if read8 && a == aTbNow then .inr 68 else .inl .accessDenied
  | .mem => if iview || a % size != 0 then .inl .addressFault else .inr 64
  | .memI => if !iview || a % size != 0 then .inl .addressFault else .inr 64
  | .scr c => if iview || a % size != 0 then .inl .addressFault else .inr c
  | .scrI c => if !iview || a % size != 0 then .inl .addressFault else .inr c

/-! Memory requests (R179 to R181). -/

/-- Access size of a READ or WRITE modifier (R179). -/
def sizeOf : Nat → Nat
  | 0 => 8
  | 1 => 4
  | 2 => 2
  | 3 => 1
  | _ => 16

/-- A request to an address: the fault order of R178 from step 5 on. -/
def requestTo (s : State) (n : Nat) (a : Act) (f : Fields) (iview read8 : Bool) (v : Word) (size : Nat) (opc : Opc) (spec : Nat)
    (wide : Bool) (more : List Wide) (cls : FenceClass) : Issued :=
  match s.target iview read8 v size with
  | .inl fc => .bad fc (fld v 47 0) none
  | .inr dest =>
    let nr := dNr f.i
    sendOr s n (if nr then none else some (dPe f.i))
      { dest := dest, opc := opc, pri := tPri a.tag, spec := spec + put 7 7 nr.toNat,
        body := mkWide (if nr then outTag s n a { f with sc := 0, imm := 0 } false false else replyTag s n a f wide)
          (BitVec.ofNat 64 (fld v 47 0)) :: more,
        act := a.serial, cls := cls, ae := none }

/-- A poisoned address register (R123, R178 step 3). -/
def poisonedAt (a : Act) (r : Nat) : Option Issued :=
  if a.poisoned r then some (.bad .tokenCorrupt (poisonDetail r) none) else none

def opMsg (code : Nat) (u : Uses) (k : Fields → List Nat) : Op := ⟨code, u, k, false, allKinds⟩

def execRead (pe : Nat) (f : Fields) (s : State) : Out :=
  runOp pe (opMsg 0xC2 ⟨false, true, false, true, true⟩ (fun f => [f.a])) f
    (fun s n a f =>
      if !(isSrc f.a && decide (f.c ≤ 4) && descOk .reply f) then badWord 0xC2 f
      else match poisonedAt a f.a with
        | some e => e
        | none => requestTo s n a f false (f.c == 0) (a.src f.a) (sizeOf f.c) .read (put 11 9 f.c) (f.c == 4) [] .a) s

def execWrite (pe : Nat) (f : Fields) (s : State) : Out :=
  runOp pe (opMsg 0xC3 ⟨false, true, true, true, true⟩ (fun f => [f.a, f.b])) f
    (fun s n a f =>
      if !(isSrc f.a && isSrc f.b && decide (f.c ≤ 3) && descOk .replyNr f) then badWord 0xC3 f
      else match poisonedAt a f.a with
        | some e => e
        | none => requestTo s n a f false false (a.src f.a) (sizeOf f.c) .write (put 11 9 f.c + put 8 8 (a.poisoned f.b).toNat) false
            [mkWide 0 (a.src f.b)] .w) s

def execIread (pe : Nat) (f : Fields) (s : State) : Out :=
  runOp pe (opMsg 0xC4 ⟨false, true, false, false, true⟩ (fun f => [f.a])) f
    (fun s n a f =>
      if !(isSrc f.a && descOk .reply f) then badWord 0xC4 f
      else match poisonedAt a f.a with
        | some e => e
        | none => requestTo s n a f true false (a.src f.a) 8 .iread 0 false [] .a) s

def execIwrite (pe : Nat) (f : Fields) (s : State) : Out :=
  runOp pe (opMsg 0xC5 ⟨false, true, true, false, true⟩ (fun f => [f.a, f.b])) f
    (fun s n a f =>
      if !(isSrc f.a && isSrc f.b && descOk .replyNr f) then badWord 0xC5 f
      else match poisonedAt a f.a with
        | some e => e
        | none => requestTo s n a f true false (a.src f.a) 8 .iwrite (put 8 8 (a.poisoned f.b).toNat) false [mkWide 0 (a.src f.b)] .w) s

/-- ATOM: DST is the comparand of CAS; ICLR reads no SB (R181). -/
def execAtom (pe : Nat) (f : Fields) (s : State) : Out :=
  runOp pe (opMsg 0xC6 ⟨true, true, true, true, true⟩ (fun f => [f.a] ++ (if f.c = 1 then [f.d] else []) ++ (if f.c = 10 then [] else [f.b]))) f
    (fun s n a f =>
      let cas := f.c == 1
      let iclr := f.c == 10
      if !(isSrc f.a && decide (f.c ≤ 10) && (if cas then isSrc f.d else f.d == 0) && (if iclr then f.b == 0 else isSrc f.b)
          && descOk .reply f) then badWord 0xC6 f
      else match poisonedAt a f.a, (if cas then poisonedAt a f.d else none) with
        | some e, _ => e
        | none, some e => e
        | none, none =>
          requestTo s n a f iclr false (a.src f.a) 8 .atom (put 12 9 f.c + put 8 8 (!iclr && a.poisoned f.b).toNat) false
            [mkWide (if cas then a.src f.d else 0) (if iclr then 0 else a.src f.b)] .w) s

/-! Context services (R182, R183). -/

def execNewctx (pe : Nat) (f : Fields) (s : State) : Out :=
  runOp pe (opMsg 0xC7 ⟨false, true, true, false, true⟩ (fun f => [f.a, f.b])) f
    (fun s n a f =>
      let x := a.src f.a
      let y := a.src f.b
      let tgt := fld y 31 24
      let k := decide (peKind n = .k)
      if !(isSrc f.a && isSrc f.b && descOk .reply f) then badWord 0xC7 f
      else match poisonedAt a f.a, poisonedAt a f.b with
        | some e, _ => e
        | none, some e => e
        | none, none =>
          if fld x 32 20 ≠ 0 ∨ fld y 63 32 ≠ 0 ∨ 0x41 < tgt ∨ (tgt = 0x40 ∧ k) ∨ 12 < fld x 59 56 then badWord 0xC7 f
          else if tgt = 0x41 ∧ ¬ k then .bad .accessDenied tgt none
          else
            let dest := if tgt = 0x40 then ownEp n else if tgt = 0x41 then 69 else tgt
            let b := if tgt = 0x40 then setFld y 31 24 dest else y
            sendOr s n (some (dPe f.i)) (serviceMsg dest 0 (tPri a.tag) false (replyTag s n a f false) x b true a.serial .none)) s

/-- The checks that FREECTX, FREECTX.I and KILLCTX share (R39, R40, R183): the context, and where its owner is. -/
def ctxTarget (s : State) (n : Nat) (v : Word) (ks rootOk : Bool) (code : Nat) (f : Fields) : Issued ⊕ (Nat × Word) :=
  if fld v 63 20 ≠ 0 ∨ (ks ∧ 255 < v.toNat) then .inl (badWord code f)
  else if ks ∧ peKind n ≠ .k then .inl (.bad .accessDenied (fld v 19 0) none)
  else if !rootOk ∧ isRoot (ctxKey ks v.toNat) then .inl (.bad .accessDenied (fld v 19 0) none)
  else
    let dest := if ks then 69 else v.toNat / 16384
    match s.routeMiss n dest none with
    | some e => .inl e
    | none => .inr (dest, setBit v 63 ks)

/-- FREECTX and its iteration-retire form, told apart by modifier bit 0 of the word (R183). -/
def semFreectx : State → Nat → Act → Fields → Issued :=
  fun s n a f =>
    let i := decide (f.c % 2 = 1)
    let ks := decide (f.c / 2 % 2 = 1)
    if !(isSrc f.a && decide (f.c < 4) && (if i then isSrc f.b else f.b == 0)) then badWord 0xC8 f
    else match poisonedAt a f.a, (if i then poisonedAt a f.b else none) with
      | some e, _ => e
      | none, some e => e
      | none, none =>
        if i ∧ fld (a.src f.b) 63 12 ≠ 0 then badWord 0xC8 f
        else match ctxTarget s n (a.src f.a) ks i 0xC8 f with
          | .inl e => e
          | .inr (dest, arg) =>
            oneMsg (serviceMsg dest (if i then 2 else 1) (tPri a.tag) false a.tag arg (if i then a.src f.b else 0) i a.serial .none)

def opFreectx : Op := opMsg 0xC8 ⟨false, true, true, true, false⟩ (fun f => [f.a] ++ (if f.c % 2 = 1 then [f.b] else []))

def execFreectx (pe : Nat) (f : Fields) (s : State) : Out := runOp pe opFreectx f semFreectx s
def execFreectxI (pe : Nat) (f : Fields) (s : State) : Out := runOp pe opFreectx f semFreectx s

def execKillctx (pe : Nat) (f : Fields) (s : State) : Out :=
  runOp pe (opMsg 0xC9 ⟨false, true, false, true, true⟩ (fun f => [f.a])) f
    (fun s n a f =>
      if !(isSrc f.a && (f.c == 0 || f.c == 2) && descOk .reply f) then badWord 0xC9 f
      else match poisonedAt a f.a with
        | some e => e
        | none => match ctxTarget s n (a.src f.a) (f.c == 2) false 0xC9 f with
          | .inl e => e
          | .inr (dest, arg) =>
            sendOr s n (some (dPe f.i)) (serviceMsg dest 3 (tPri a.tag) false (replyTag s n a f false) arg 0 false a.serial .none)) s

/-! Locks and events (R184, R185). -/

def semLock (code : Nat) (rel : Bool) : State → Nat → Act → Fields → Issued :=
  fun s n a f =>
    let v := a.src f.a
    if !(isSrc f.a && descOk (if rel then .replyNr else .reply) f) then badWord code f
    else match poisonedAt a f.a with
      | some e => e
      | none =>
        if 1023 < v.toNat then badWord code f
        else
          let nr := dNr f.i
          sendOr s n (if nr then none else some (dPe f.i))
            { dest := 65, opc := .lock, pri := tPri a.tag, spec := put 7 7 nr.toNat + put 9 9 rel.toNat + put 19 10 v.toNat,
              body := [mkWide (if nr then outTag s n a { f with sc := 0, imm := 0 } false false else replyTag s n a f false) 0],
              act := a.serial, cls := .a, ae := none }

def opLock (code : Nat) : Op := opMsg code ⟨false, true, false, false, true⟩ (fun f => [f.a])

def execAcq (pe : Nat) (f : Fields) (s : State) : Out := runOp pe (opLock 0xCA) f (semLock 0xCA false) s
def execRel (pe : Nat) (f : Fields) (s : State) : Out := runOp pe (opLock 0xCB) f (semLock 0xCB true) s

def execEvent (pe : Nat) (f : Fields) (s : State) : Out :=
  runOp pe (opMsg 0xCC ⟨false, true, false, false, true⟩ (fun f => [f.a])) f
    (fun s n a f =>
      let sev := f.i / 65536
      if !(isSrc f.a && (sev == 0 || sev == 2)) then badWord 0xCC f
      else sendOr s n none (serviceMsg 67 5 (tPri a.tag) (a.poisoned f.a) a.tag (a.src f.a) (BitVec.ofNat 64 f.i) true a.serial .none)) s

/-! Requests to the arithmetic engine (R165). They are not among the visible effects of R219. -/

def semAe (code : Nat) (op : AeOp) (two : Bool) : State → Nat → Act → Fields → Issued :=
  fun s n a f =>
    if !(isSrc f.a && (!two || isSrc f.b) && descOk .reply f) then badWord code f
    else
      let p := a.poisoned f.a || (two && a.poisoned f.b)
      let req : AeReq :=
        { op := op, a := a.src f.a, b := if two then a.src f.b else 0, poison := p, rm := a.rm, fxrm := a.fxrm, sat := a.sat, ten := a.ten,
          cad := a.cad, tag := a.tag, reply := setFld (replyTag s n a f true) 59 59 p.toNat, pe := pairPe n, rerun := false }
      if 275 < dPe f.i then .bad .routeMiss (2 ^ 47 + dPe f.i) none
      else oneMsg { dest := ownEp n, opc := .control, pri := tPri a.tag, spec := 0, body := [], act := a.serial, cls := .a, ae := some req } false

def opAe (code : Nat) (two : Bool) : Op :=
  ⟨code, ⟨false, true, two, false, true⟩, fun f => [f.a] ++ (if two then [f.b] else []), false, [.s, .a]⟩

def execDivS (pe : Nat) (f : Fields) (s : State) : Out := runOp pe (opAe 0x68 true) f (semAe 0x68 .divS true) s
def execDivU (pe : Nat) (f : Fields) (s : State) : Out := runOp pe (opAe 0x69 true) f (semAe 0x69 .divU true) s
def execRemS (pe : Nat) (f : Fields) (s : State) : Out := runOp pe (opAe 0x6A true) f (semAe 0x6A .remS true) s
def execRemU (pe : Nat) (f : Fields) (s : State) : Out := runOp pe (opAe 0x6B true) f (semAe 0x6B .remU true) s
def execMul128S (pe : Nat) (f : Fields) (s : State) : Out := runOp pe (opAe 0x6C true) f (semAe 0x6C .mul128S true) s
def execMul128U (pe : Nat) (f : Fields) (s : State) : Out := runOp pe (opAe 0x6D true) f (semAe 0x6D .mul128U true) s
def execDivq (pe : Nat) (f : Fields) (s : State) : Out := runOp pe (opAe 0x6E true) f (semAe 0x6E .divq true) s
def execFdivD (pe : Nat) (f : Fields) (s : State) : Out := runOp pe (opAe 0x6F true) f (semAe 0x6F .fdivD true) s
def execFdivS (pe : Nat) (f : Fields) (s : State) : Out := runOp pe (opAe 0x70 true) f (semAe 0x70 .fdivS true) s
def execFsqrtD (pe : Nat) (f : Fields) (s : State) : Out := runOp pe (opAe 0x71 false) f (semAe 0x71 .fsqrtD false) s
def execFsqrtS (pe : Nat) (f : Fields) (s : State) : Out := runOp pe (opAe 0x72 false) f (semAe 0x72 .fsqrtS false) s
def execIsqrt (pe : Nat) (f : Fields) (s : State) : Out := runOp pe (opAe 0x73 false) f (semAe 0x73 .isqrt false) s

end Sys2Proof.Machine
end

