-- ==== Sys2Proof/Machine/Fabric.lean ====
section
/-! DEFINITION. The fabric: packets and their CRC (R300, R301), routes (R311 to R316), response slots (R305), injection,
hops under bubble flow control (R307 to R311), bounces and NACKs (R322, R325), and the delivery of replies (R306). -/

namespace Sys2Proof.Machine

/-! Routes. -/

/-- n copies of a port code, from slot k on. -/
def codes (c n k : Nat) : Nat := (List.range n).foldl (fun v i => v + c * 8 ^ (k + i)) 0
/-- The route from one cluster to another in the shorter direction, X first or Y first (R315). -/
def routeTo (s d : Nat) (yFirst : Bool) : BitVec 30 :=
  let dx := (clX d + 8 - clX s) % 8
  let dy := (clY d + 8 - clY s) % 8
  let nx := if dx ≤ 4 then dx else 8 - dx
  let ny := if dy ≤ 4 then dy else 8 - dy
  let cx := if dx ≤ 4 then 1 else 2
  let cy := if dy ≤ 4 then 3 else 4
  BitVec.ofNat 30 (if yFirst then codes cy ny 0 + codes cx nx ny else codes cx nx 0 + codes cy ny nx)
def routeLen (s d : Nat) : Nat :=
  let dx := (clX d + 8 - clX s) % 8
  let dy := (clY d + 8 - clY s) % 8
  (if dx ≤ 4 then dx else 8 - dx) + (if dy ≤ 4 then dy else 8 - dy)
/-- The spoke cluster S(s) of a cluster (R315). -/
def spokeFor (s : Nat) : Nat := min (max (clY s) 2) 5 * 8 + min (max (clX s) 2) 5
/-- The route from a cluster to the hub: to S(s), then the spoke code. -/
def routeHub (s : Nat) (yFirst : Bool) : BitVec 30 :=
  routeTo s (spokeFor s) yFirst + BitVec.ofNat 30 (5 * 8 ^ routeLen s (spokeFor s))
/-- The route from router r's coordinates to an endpoint (R322). -/
def routeBack (r dest : Nat) (yFirst : Bool) : BitVec 30 := if dest < 64 then routeTo r dest yFirst else routeHub r yFirst

/-- Port codes of a route, up to the first zero. -/
def routeCodes (w : Nat) : Nat → List Nat
  | 0 => []
  | k + 1 => if w % 8 = 0 then [] else w % 8 :: routeCodes (w / 8) k
def isXcode (c : Nat) : Bool := c == 1 || c == 2
def isYcode (c : Nat) : Bool := c == 3 || c == 4
def allSame : List Nat → Bool
  | [] => true
  | a :: r => r.all (· == a)
/-- Legality of a list of moves (R312): one dimension then the other, one direction in each. -/
def movesLegal (yFirst : Bool) (l : List Nat) : Bool :=
  let first := if yFirst then isYcode else isXcode
  let a := l.takeWhile first
  let b := l.dropWhile first
  b.all (if yFirst then isXcode else isYcode) && allSame a && allSame b
/-- Where a list of moves leads. -/
def moveTo (c : Nat) : Nat → Nat
  | 1 => clY c * 8 + (clX c + 1) % 8
  | 2 => clY c * 8 + (clX c + 7) % 8
  | 3 => (clY c + 1) % 8 * 8 + clX c
  | 4 => (clY c + 7) % 8 * 8 + clX c
  | _ => c
def endOf (c : Nat) (l : List Nat) : Nat := l.foldl moveTo c
/-- A legal route from cluster c to endpoint e (R312, R314): a route to a hub endpoint or a port ends with 0b101 at a spoke cluster, a route
to a cluster has no 0b101. -/
def routeLegal (c e w : Nat) (rsp : Bool) : Bool :=
  let l := routeCodes w 10
  let wellPacked := decide (w / 8 ^ l.length = 0)
  if e < 64 then wellPacked && movesLegal rsp l
  else
    let m := l.dropLast
    wellPacked && l.getLast? == some 5 && movesLegal rsp m && isSpoke (endOf c m)

/-! Routes around links that are DOWN (R317). -/

/-- k moves of one code from cluster c: where they end and whether every link on the way passes packets. -/
def State.walk (s : State) (c code : Nat) : Nat → Nat × Bool
  | 0 => (c, true)
  | k + 1 =>
    let r := s.walk c code k
    (moveTo r.1 code, r.2 && decide (2 ≤ s.rfld (aPortStatus r.1 (code - 1)) 63 62))
/-- The direction in one dimension from cluster c, d steps up: the shorter one that passes, the + one of equals. -/
def State.pickDir (s : State) (c d plus minus : Nat) : Option (Nat × Nat) :=
  let short : Nat × Nat := if d ≤ 4 then (plus, d) else (minus, 8 - d)
  let long : Nat × Nat := if d ≤ 4 then (minus, 8 - d) else (plus, d)
  if d = 0 then some (plus, 0) else if (s.walk c short.1 short.2).2 then some short else if (s.walk c long.1 long.2).2 then some long else none
/-- A route of at most `lim` moves from cluster a to cluster d around the links that are DOWN, X first or Y first; with its length. -/
def State.detour (s : State) (a d lim : Nat) (yFirst : Bool) : Option (Nat × Nat) :=
  let dx := (clX d + 8 - clX a) % 8
  let dy := (clY d + 8 - clY a) % 8
  let mid := if yFirst then clY d * 8 + clX a else clY a * 8 + clX d
  let first := if yFirst then s.pickDir a dy 3 4 else s.pickDir a dx 1 2
  let second := if yFirst then s.pickDir mid dx 1 2 else s.pickDir mid dy 3 4
  match first, second with
  | some x, some y => if x.2 + y.2 ≤ lim then some (codes x.1 x.2 0 + codes y.1 y.2 x.2, x.2 + y.2) else none
  | _, _ => none
/-- The spoke clusters whose spoke passes packets, the usual one of cluster c first, and others by number. -/
def State.spokesFor (s : State) (c : Nat) : List Nat :=
  (spokeFor c :: ((List.range 16).map spokeCluster).filter (· ≠ spokeFor c)).filter (fun r => decide (2 ≤ s.rfld (aPortStatus r 4) 63 62))
/-- A route from cluster c to the hub: over the usual spoke, or over the first other one that has a route. -/
def State.detourHub (s : State) (c : Nat) (yFirst : Bool) : Option Nat :=
  (s.spokesFor c).findSome? (fun r => (s.detour c r 9 yFirst).map (fun x => x.1 + 5 * 8 ^ x.2))
/-- A route from the hub to cluster d, with its spoke link. -/
def State.detourFrom (s : State) (d : Nat) (yFirst : Bool) : Option (Nat × Nat) :=
  (s.spokesFor d).findSome? (fun r => (s.detour r d 10 yFirst).map (fun x => (x.1, spokeOf r)))
/-- An entry of a route table: a destination without a route is marked invalid, and keeps its epoch-0 route. -/
def routeEntryOf (f r : Option Nat) (f0 r0 : BitVec 30) : Word :=
  BitVec.ofNat 64 (put 63 63 f.isSome.toNat + put 62 62 r.isSome.toNat + put 59 30 (r.getD r0.toNat) + put 29 0 (f.getD f0.toNat))

/-! Banks. -/

/-- The active bank of an NI or of the hub. -/
def State.activeBank (s : State) (e : Nat) : Nat := s.rfld (aNiRtCtl e) 8 8
def State.activeEpoch (s : State) (e : Nat) : Nat := s.rfld (aNiRtCtl e) 3 0
/-- The route and hub spoke from an endpoint to another for a VN, when its entry is valid (R314, R316). -/
def State.routeOf (s : State) (e dest vn : Nat) : Option (Nat × Nat) :=
  match s.routeEntry e dest with
  | some w =>
    let rsp := decide (vn = 2)
    if bitAt w (if rsp then 62 else 63) then
      let w1 := s.reg (aHbRt (s.activeBank 64) dest 1)
      some (if rsp then fld w 59 30 else fld w 29 0, if e < 64 then 0 else if rsp then fld w1 7 4 else fld w1 3 0)
    else none
  | none => some (0, 0)
/-- The crossbar output of a destination: a spoke link, a port, or a hub endpoint. -/
def crossOut (dest spoke : Nat) : Nat :=
  if dest < 64 then spoke else if 256 ≤ dest then 16 + (dest - 256) / 256 % 16 else 32 + (dest - 64) % 6

/-! Queues. -/

/-- The router beyond port p (R292). -/
def nbrOf (r p : Nat) : Nat := moveTo r (p + 1)
def oppPort (p : Nat) : Nat := if p % 2 = 0 then p + 1 else p - 1
/-- Whether port p of router r lies at a die edge (R295). -/
def dieEdge (r p : Nat) : Bool := p == 4 || clDie (nbrOf r p) != clDie r
/-- Buffer depth in flits of an input per VC (R307, R395): crossbar inputs are spokes, ports and hub endpoints, among them the keeper's egress and
the MC's mailbox, whose one queue holds every VN. -/
def vcDepth (r i : Nat) : Nat :=
  if r < 64 then (if i = 5 then 36 else if dieEdge r i then 64 else 36)
  else if i < 16 then 64 else if i < 32 then 256 else if i = 35 then 128 else if i = 37 then 32 else 64
/-- The status register of the DCQ that an input stands behind (R395, R396). -/
def vcDcq (r i vn : Nat) : Option Nat :=
  if r < 64 then (if i < 5 then (if dieEdge r i then some (aRtDcq r (4 * i + vn)) else none) else some (aNiDcq r vn))
  else if i < 16 then some (aHbDcq (4 * i + vn)) else if i = 35 then some (aMcDcq 1) else if i = 37 then some (aKpDcq (4 + vn)) else none
/-- Whether a credit-reset handshake runs at a DCQ: its producer has no credit, and nothing enters or leaves (R394). -/
def State.resetting (s : State) (a : Option Nat) : Bool := a.any (fun a => bitAt (s.reg a) 62)
/-- Flits that an input holds, against its depth. -/
def State.vcHeld (s : State) (r i vn : Nat) : Nat :=
  if r = 64 ∧ i = 35 then hopFlits ((List.range 4).flatMap (fun v => s.vc r i v)) else hopFlits (s.vc r i vn)
/-- What a producer may still send to an input: its free room, which stands for the credit it holds (R307, R386). -/
def State.vcFree (s : State) (r i vn : Nat) : Nat := if s.resetting (vcDcq r i vn) then 0 else vcDepth r i - s.vcHeld r i vn
def State.ejectQ (s : State) (e : Nat) : List Packet := Tbl.get [] s.eject e
def State.setEject (s : State) (e : Nat) (l : List Packet) : State := { s with eject := Tbl.set [] s.eject e l }
/-- Depth of the ejection DCQ of an endpoint (R395). -/
def ejectDepth (e : Nat) : Nat := if e < 64 ∨ e = 69 then 32 else if e = 67 then 128 else 64
/-- The NI_DCQ, KP_DCQ or MC_DCQ register of an ejection queue (R395). -/
def ejectDcq (e vn : Nat) : Option Nat :=
  if e < 64 then some (aNiDcq e (4 + vn)) else if e = 69 then some (aKpDcq vn) else if e = 67 then some (aMcDcq 0) else none
/-- The source of an event of an ejection queue's write side, its domain and the queue's index in its block (R381, R426), and its DETAIL (R403). -/
def crossUnit (e vn : Nat) : Nat := if e < 64 then srcOf (64 + clDie e) (4 + vn) else srcOf 68 (if e = 69 then vn else 0)
def ejectDetail (e vn : Nat) : Word :=
  BitVec.ofNat 64 (if e < 64 then put 6 0 (64 + clDie e) + put 14 8 e + put 31 24 (4 + vn)
    else if e = 69 then put 6 0 68 + put 14 8 69 + put 31 24 vn else put 6 0 68 + put 14 8 91)
def State.ejectRoom (s : State) (e : Nat) (p : Packet) : Bool :=
  let held := ((s.ejectQ e).filter (fun q => q.vn = p.vn || e == 67)).foldl (fun n q => n + q.flits) 0
  !s.resetting (ejectDcq e p.vn) && (decide (held + p.flits ≤ ejectDepth e) || (decide (ejectDepth e < p.flits) && held == 0))
def State.pushEject (s : State) (e : Nat) (p : Packet) : State := s.setEject e (s.ejectQ e ++ [p])

/-- OVERSIZE at a packet-mode DCQ whose status register stands at a (R390): counted, and logged at most once a millisecond. -/
def State.oversize (s : State) (a ep : Nat) (detail : Word) : State :=
  let s := s.setRfld a 35 24 (satInc 12 (s.rfld a 35 24))
  let last := Tbl.get 0 s.oversizeAt a
  if last = 0 ∨ last + 1000000 ≤ s.now + 1 then
    ({ s with oversizeAt := Tbl.set 0 s.oversizeAt a (s.now + 1) }).log ep .dcqOversize .deferred detail
  else s

/-! Slots (R305). -/

def Ni.slot (n : Ni) (k : Nat) : Option RSlot := Tbl.get none n.slots k
def Ni.setSlot (n : Ni) (k : Nat) (v : Option RSlot) : Ni := { n with slots := Tbl.set none n.slots k v }
def Ni.freeSlot (n : Ni) : Option Nat := (List.range 128).find? (fun k => (n.slot k).isNone)
/-- The first unused number of the local request path, from 128 on (R265). -/
def Ni.localSlot (n : Ni) : Nat := n.slots.foldl (fun m x => max m (x.1 + 1)) 128
def Ni.inUse (n : Ni) : Nat := (n.slots.filter (fun x => decide (x.1 < 128))).length

/-! Injection. -/

/-- Bytes a memory request touches. -/
def reqBytes (opc : Opc) (spec : Nat) : Nat :=
  match opc with
  | .read | .write => sizeOf (spec / 512 % 8)
  | _ => 8
def Packet.bytes (p : Packet) : Nat := reqBytes p.opc p.spec
/-- Two memory requests that touch a common byte through one view (R63). -/
def Packet.overlaps (p q : Packet) : Bool :=
  p.opc.isMem && q.opc.isMem && decide (q.addr < p.addr + p.bytes ∧ p.addr < q.addr + q.bytes)
/-- Whether a message is a memory request that meets bytes of an open request of its activation: it waits for that one's answer, since the
other may yet be sent again after a NACK (R63, R328; DESIGN CHOICE, log 53). -/
def Ni.holdsBack (n : Ni) (m : Msg) : Bool :=
  let a := fld (lo64 ((m.body[0]?).getD 0)) 47 0
  m.opc.isMem && n.slots.any (fun x => decide (x.1 < 128) && x.2.any (fun r =>
    r.act == m.act && r.pkt.opc.isMem && decide (r.pkt.addr < a + reqBytes m.opc m.spec ∧ a < r.pkt.addr + r.pkt.bytes)))

/-- The die of a cluster is powered (R501). -/
def State.dieOn (s : State) (c : Nat) : Bool := bitAt (s.reg aPwState) (48 + clDie c)
/-- A source redirects its tokens for cluster d to the spill engine (R496, R498). -/
def State.redirect (s : State) (e d : Nat) (opc : Opc) : Bool :=
  opc == .token && decide (d < 64) && (if d = e then s.clState d == 3 else bitAt (s.reg (aNiOff e (s.activeBank e))) d)

/-- The packet a message becomes at endpoint e (R300 to R302, R318); `slot` is its RSLOT. -/
def State.makePacket (s : State) (e : Nat) (m : Msg) (vn route slot : Nat) : Packet :=
  let n := s.ni e
  let spec := if vn = 1 then m.spec / 128 * 128 + slot % 128 else m.spec
  Packet.sealed
    { vn := vn, opc := m.opc, route := BitVec.ofNat 30 route, dest := m.dest, src := e, pri := m.pri,
      seq := (match m.seq with
        | some q => q
        | none => (n.seqs[vn]?).getD 0),
      epoch := s.activeEpoch e, spec := spec, crc := 0, bad := [], body := m.body, fault := m.fault, note := m.note }

/-- Count a packet injected on its VN and advance the SEQ of that VN (R300, R332). -/
def State.countTx (s : State) (e : Nat) (p : Packet) : State :=
  ((s.bumpNi e (nsTXPKT p.vn)).bumpNi e (nsTXBYTE p.vn) (16 * p.flits)).updNi e
    (fun n => { n with seqs := n.seqs.set p.vn (((n.seqs[p.vn]?).getD 0 + 1) % 65536) })

/-- The crossbar input of an endpoint from 64 on: a hub endpoint's or a port's. -/
def crossIn (e : Nat) : Nat := if 256 ≤ e then 16 + (e - 256) / 256 % 16 else 32 + (e - 64) % 6
/-- Put a formed packet on its way from endpoint e: to the router's local input, to the crossbar, or to its own ejection queue. -/
def State.launch (s : State) (e : Nat) (p : Packet) (own : Bool) (out : Nat) : Option State :=
  if own then (if s.ejectRoom e p then some ((s.pushEject e p).countTx e p) else none)
  else if e < 64 then (if p.flits ≤ s.vcFree e 5 p.vn then some ((s.pushVc e 5 p 0).countTx e p) else none)
  else if p.flits ≤ s.vcFree 64 (crossIn e) p.vn then some ((s.pushVc 64 (crossIn e) p out).countTx e p) else none

/-- The virtual network of a message: a SPILL answer travels on RSP, a NACK carrying a response on MGT (R302, R322). -/
def Msg.vn (m : Msg) : Nat :=
  if m.opc = .spill ∧ m.dest ≠ 66 then 2 else if m.opc = .nack ∧ m.body ≠ [] then 3 else if m.opc = .epochMark then m.spec % 4 else m.opc.vn

/-- A request leaves endpoint e. The keeper block hands its SPILL requests to the spill engine beside it: as packets R303 would have them
discarded there (DESIGN CHOICE, log 49). -/
def State.launchReq (s : State) (e : Nat) (p : Packet) (own : Bool) (out : Nat) : Option State :=
  if e = 69 ∧ p.opc = .spill then some ((s.pushReq 66 p).countTx e p) else s.launch e p own out
/-- Send one message from endpoint e; nothing while it must wait (for a slot, for a route, for credit, for the AE). -/
def State.sendMsg (s : State) (e : Nat) (m : Msg) : Option State :=
  if m.ae.isSome then none
  else if m.opc = .token ∧ m.dest = e ∧ !s.redirect e e .token then
    s.tokenIn e (s.makePacket e m 0 0 0).token
  else if m.opc.isMem ∧ m.dest = e ∧ e < 64 then
    let k := (s.ni e).localSlot
    let p := { s.makePacket e m 1 0 0 with seq := k }
    some ((s.updNi e (fun n => n.setSlot k (some ⟨p, m.act, m.cls, s.now, 0, 0, false⟩))).pushReq e p)
  else
    let vn := m.vn
    let off := s.redirect e m.dest m.opc
    let rd := if off then 66 else m.dest
    match (if rd = e then some (0, 0) else s.routeOf e rd vn) with
    | none => none
    | some (route, spoke) =>
      let m := if m.opc = .epochMark then { m with spec := 0 } else m
      if vn = 1 then
        match (s.ni e).freeSlot with
        | none => none
        | some k =>
          let p := s.makePacket e m vn route k
          let p := if m.opc = .lock then
              Packet.sealed { p with body := [mkWide p.rtag (if e < 64 ∨ e = 69 then p.argA else 0)] } else p
          let t := s.updNi e (fun n => n.setSlot k (some ⟨p, m.act, m.cls, s.now, 0, 0, false⟩))
          t.launchReq e p (rd == e) (crossOut rd spoke)
      else s.launch e (s.makePacket e m vn route 0) (rd == e) (crossOut rd spoke)

/-! Parking (R326). -/

/-- Whether a parked packet's epoch has been left (R326, R321). -/
def State.due (s : State) (e : Nat) (x : Parked) : Bool := x.pkt.epoch != s.activeEpoch e
/-- Park a packet at endpoint e. A token takes a record of the cluster's bounce area while it has one and the cluster is not OFF; otherwise,
and at the hub, the bounce overflow (R326), where a response and a CONTROL packet go too. A token of a context in an open drain round is
discarded (R327). Nothing while the overflow has no space (R94). -/
def State.park (s : State) (e : Nat) (p : Packet) (tries : Nat) : Option State :=
  let tok := p.opc == .token
  let used := ((s.ni e).parked.filter (fun x => !x.overflow)).map (·.slot)
  let hold (k : Nat) (o : Bool) : State :=
    let t := s.updNi e (fun n => { n with parked := n.parked ++ [⟨p, o, tries, k⟩] })
    if tok || p.opc == .resp then t.bumpNi e nsPARK else t
  if tok && p.toModule && (s.ni e).drains.any (fun d => d.2.contains (tKey p.token.tag)) then some s
  else if !tok || decide (64 ≤ e) || s.clState e == 3 || decide (512 ≤ used.length) then
    if s.auxRoom e .bounce (parkBytes p) then some (hold 0 true).pressureCheck else none
  else
    let k := firstFree used
    some ((hold k false).storeBounce e k p.token.tag p.token.val p.dest p.epoch)

/-- A parked packet leaves again over the active bank, a token with a new SEQ (R326, R328); nothing while it must wait. The words of a token's
record in the bounce area are read for it: one that cannot be read is discarded (R280). -/
def State.resendOne (s : State) (e : Nat) (x : Parked) : Option State :=
  let t := s.updNi e (fun n => { n with parked := n.parked.erase x })
  let r := if x.pkt.opc = .token ∧ !x.overflow ∧ e < 64 then t.microReads e (bounceAt e x.slot) 4 else (true, t)
  if t.stormIn r.2 then some (t.afterUe r.2)
  else if !r.1 then some (r.2.log e .bounceLost .deferred (BitVec.ofNat 64 e))
  else
    let p := x.pkt
    let sent : Option State :=
      if p.opc = .token ∧ p.dest = e ∧ !s.redirect e e .token then r.2.tokenIn e p.token
      else
        let rd := if s.redirect e p.dest p.opc then 66 else p.dest
        match (if rd = e then some (0, 0) else s.routeOf e rd p.vn) with
        | none => none
        | some (route, spoke) =>
          r.2.launch e (Packet.sealed
            { p with route := BitVec.ofNat 30 route, epoch := s.activeEpoch e,
                     seq := if p.opc = .token then ((s.ni e).seqs[0]?).getD 0 else p.seq }) (rd == e) (crossOut rd spoke)
    sent.map (fun u => if p.opc = .control then u else u.bumpNi e nsRESENT)
/-- The next parked packet that leaves: the first token that is due, else the first of the others that can go. -/
def State.resendNext (s : State) (e : Nat) : Option State :=
  let l := (s.ni e).parked.filter (s.due e)
  match (l.find? (fun x => x.pkt.opc == .token)).bind (s.resendOne e) with
  | some t => some t
  | none => (l.filter (fun x => x.pkt.opc != .token)).findSome? (s.resendOne e)
/-- The virtual networks whose marks are still to be sent: no other packet of theirs leaves before (R319 step 3). The hub's
endpoints are one source, whose marks its endpoint 68 sends. -/
def State.marked (s : State) (e : Nat) : List Nat :=
  (List.range 4).filter (fun v => (s.ni (if e < 64 then e else 68)).formed.any (fun x => x.1.vn == v))
/-- Parked packets whose epoch the active epoch of e has left go out, as far as they can (R326, R321), behind the marks (R319). -/
def State.resendParked (s : State) (e : Nat) : State :=
  if s.marked e ≠ [] then s else ((s.ni e).parked.filter (s.due e)).foldl (fun s _ => (s.resendNext e).getD s) s

/-! What leaves next. -/

/-- The PEs whose messages leave through endpoint e. -/
def endpointPes (e : Nat) : List Nat := if e < 64 then clusterPes e else if e = 69 then [272, 274] else []
/-- The next message of a PE: the backlog goes before the queue (R186). A LOCK packet gets the PE number (R410), and a request to the
cluster's own scratch the PE's number as a master of the banks (R264). -/
def State.nextOut (s : State) (n : Nat) : Option (Msg × Pe) :=
  let p := s.pe n
  let fix (m : Msg) : Msg := if m.opc = .lock then { m with body := m.body.map (fun w => mkWide (hi64 w) (BitVec.ofNat 64 (pairPe n))) }
    else if m.opc.isMem ∧ m.dest = peEndpoint n ∧ n < 272 then { m with note := if n < 256 then n % 4 else 4 } else m
  match p.outBack, p.outQ with
  | m :: r, _ => some (fix m, { p with outBack := r })
  | [], m :: r => some (fix m, { p with outQ := r })
  | [], [] => none
/-- Send the first message of PE n, when it can go, its virtual network is not among those that must wait, and no open request holds it back. -/
def State.sendPe (s : State) (wait : List Nat) (n : Nat) : Option State :=
  match s.nextOut n with
  | some (m, p) => if wait.contains m.vn || (s.ni (peEndpoint n)).holdsBack m then none else (s.setPe n p).sendMsg (peEndpoint n) m
  | none => none
/-- A response that has no valid route from e (R314). -/
def State.unroutable (s : State) (e : Nat) (m : Msg) : Bool := m.opc == .resp && m.dest != e && (s.routeOf e m.dest 2).isNone
/-- Send the first message of the NI's own queue on a virtual network, when it can go. A response whose route is not valid is parked until
a shift makes it so (R314, R321); while there is no space to park it, it holds back nothing else (R94). -/
def State.sendUnit (s : State) (e vn : Nat) : Option State :=
  let next (m : Msg) : Option State :=
    let t := s.updNi e (fun n => { n with outQ := n.outQ.erase m })
    if s.unroutable e m then t.park e (s.makePacket e m 2 0 0) 0 else t.sendMsg e m
  let l := (s.ni e).outQ.filter (fun m => m.vn == vn)
  ((l.find? (fun m => !s.unroutable e m)).bind next).or ((l.filter (s.unroutable e)).findSome? next)
/-- Send the first formed mark of a virtual network, with the SEQ of its turn (R300, R319). -/
def State.sendFormed (s : State) (e vn : Nat) : Option State :=
  match (s.ni e).formed.find? (fun x => x.1.vn == vn) with
  | some x =>
    let t := s.updNi e (fun n => { n with formed := n.formed.erase x })
    t.launch e (Packet.sealed { x.1 with seq := ((s.ni e).seqs[vn]?).getD 0 }) false x.2
  | none => none

/-- Send a slot's request again, with a new SEQ over the active bank (R328): its round trip begins anew (R332). Nothing while it must wait. -/
def State.resendSlot (s : State) (e k : Nat) (r : RSlot) : Option State :=
  match s.routeOf e r.pkt.dest 1 with
  | none => none
  | some (route, spoke) =>
    let p := Packet.sealed { r.pkt with route := BitVec.ofNat 30 route, epoch := s.activeEpoch e, seq := ((s.ni e).seqs[r.pkt.vn]?).getD 0 }
    ((s.updNi e (fun n => n.setSlot k (some { r with pkt := p, waitEpoch := false, opened := s.now }))).launchReq e p (r.pkt.dest == e)
      (crossOut r.pkt.dest spoke)).map (fun t => t.bumpNi e nsRESENT)
/-- The first request that waits to be sent again and can go. -/
def State.resendWaiting (s : State) (e : Nat) : Option State :=
  (s.ni e).slots.findSome? (fun x => match x.2 with
    | some r => if r.waitEpoch && r.pkt.epoch != s.activeEpoch e then s.resendSlot e x.1 r else none
    | none => none)

/-- Virtual networks on which new messages wait at endpoint e: those with marks to send, and TOK while a parked token is due (R326). -/
def State.waitVns (s : State) (e : Nat) : List Nat :=
  s.marked e ++ (if (s.ni e).parked.any (fun x => x.pkt.opc == .token && s.due e x) then [0] else [])
/-- Inject one message at endpoint e: marks first, then parked packets, waiting requests, the NI's own messages, and the first PE whose head
can go. -/
def State.inject (s : State) (e : Nat) : State :=
  let vns := [0, 1, 2, 3]
  let wait := s.waitVns e
  ((vns.findSome? (s.sendFormed e)).or <|
   (if s.marked e = [] then (s.resendNext e).or (s.resendWaiting e) else none).or <|
   ((vns.filter (fun v => !wait.contains v)).findSome? (s.sendUnit e)).or <|
   (endpointPes e).findSome? (s.sendPe wait)).getD s

/-! Replies (R302, R306). -/

/-- Deliver a reply token at the requester's NI: to the local switch, or out as a TOKEN packet. A token that cannot pass on at once is
parked, as if under an epoch already left: it leaves as soon as it can. -/
def State.replyToken (s : State) (e : Nat) (tag : Word) (val : Wide) (newctxr : Bool) : State :=
  let m := tokenMsg (peEndpoint (tPe tag)) tag val 0 .none newctxr
  let behind := decide (m.dest ≠ e) && ((s.waitVns e).contains 0 || (s.ni e).outQ.any (fun m => m.vn == 0))
  match (if behind then none else s.sendMsg e m) with
  | some t => t
  | none => (s.park e { s.makePacket e m 0 0 0 with epoch := (s.activeEpoch e + 15) % 16 } 0).getD (s.unitSend e m)

/-- RESP STATUS values (R302). -/
def stDONE : Nat := 0
def stCOLLIDED : Nat := 1
def stDEFERRED : Nat := 2
def stFAULTED : Nat := 3
def stDENIED : Nat := 4

/-- A RESP to a request: its status, and a reply token when there is one. -/
def respMsg (req : Packet) (status : Nat) (tok : Option (Word × Wide)) (newctxr : Bool) : Msg :=
  { dest := req.src, opc := .resp, pri := req.pri,
    spec := req.rslot + put 14 7 status + (if tok.isSome then 2 ^ 15 else 0) + (if newctxr then 2 ^ 16 else 0),
    body := (match tok with
      | some (tag, v) => tokenBody tag v
      | none => []),
    act := 0, cls := .none, ae := none, seq := some req.seq }

/-- What a NACK is about: the absorbed packet's opcode, virtual network, destination and epoch; for CONTROL its subcode and payload,
for a mark its number. -/
def aboutOf (p : Packet) : Nat :=
  p.opc.code + 16 * p.vn + 64 * p.dest + 2 ^ 19 * p.epoch
    + 2 ^ 23 * (if p.opc = .control then p.spec / 2 ^ 20 % 32 + 32 * (p.len % 16 + 16 * p.body.foldr (fun w n => w.toNat + 2 ^ 128 * n) 0)
        else p.spec)

/-- NACK reasons (R302). -/
def rsnCORRUPT : Nat := 1
def rsnDOWN : Nat := 2
def rsnBAD : Nat := 3
def rsnOFF : Nat := 4
def rsnNOCAP : Nat := 5
def nackMsg (req : Packet) (reason : Nat) : Msg :=
  { dest := req.src, opc := .nack, pri := req.pri, spec := req.rslot + put 10 7 reason, body := [], act := 0, cls := .none, ae := none,
    seq := some req.seq, note := aboutOf req }

/-- The context that issued a request from endpoint `src` with a reply tag: the keeper block issues for keeper contexts, whichever PE the
tag names (R145). -/
def issuerOf (src : Nat) (tag : Word) : Nat := ctxKey (src == 69) (tCtx tag)
def Packet.issuerKey (p : Packet) : Nat := issuerOf p.src p.rtag

/-- Free a slot of an NI. -/
def State.endSlot (s : State) (e k : Nat) : State := s.updNi e (fun n => n.setSlot k none)

/-- Answer a request at endpoint e (R305). -/
def State.answer (s : State) (e : Nat) (req : Packet) (status : Nat) (tok : Option (Word × Wide)) (newctxr : Bool := false) : State :=
  if localReq e req then
    let s := s.endSlot e req.seq
    match tok with
    | some (tag, v) => s.replyToken e tag v newctxr
    | none => s
  else s.unitSend e (respMsg req status tok newctxr)

/-- The value of a partner's FAULTED answer: the fault code in bits 63:56 and the DETAIL below (R367). -/
def faultedBody (fc : FaultCode) (detail : Nat) : Wide := mkWide 0 (BitVec.ofNat 64 (put 63 56 fc.code + put 47 0 detail))

/-- Refuse a request with a unit fault: to the requester's handler, or to a partner in the RESP (R144, R367). -/
def State.refuse (s : State) (e : Nat) (req : Packet) (fc : FaultCode) (detail : Nat) : State :=
  if 256 ≤ req.src then
    s.unitSend e { respMsg req stFAULTED none false with body := [faultedBody fc detail] }
  else (s.answer e req stFAULTED none).deliverTo req.issuerKey e none req.rtag true fc 0 detail

/-- NACK a request. -/
def State.nack (s : State) (e : Nat) (req : Packet) (reason : Nat) : State := s.unitSend e (nackMsg req reason)

end Sys2Proof.Machine
end

