-- ==== Sys2Proof/Machine/RouterOps.lean ====
section
/-! DEFINITION. Routers and links (R292 to R299, R307 to R313, R322 to R325, R329). -/

namespace Sys2Proof.Machine

def State.link (s : State) (r p : Nat) : Link := Tbl.get Link.init s.links (r * 8 + p)
def State.setLink (s : State) (r p : Nat) (l : Link) : State := { s with links := Tbl.set Link.init s.links (r * 8 + p) l }
/-- STATE of a router port (R296): 0 DOWN, 1 TRAINING, 2 UP, 3 RETRAIN. -/
def State.portState (s : State) (r p : Nat) : Nat := s.rfld (aPortStatus r p) 63 62
def State.setPortState (s : State) (r p v : Nat) : State := s.setRfld (aPortStatus r p) 63 62 v
/-- The port exists on the router (R13). -/
def hasPort (r p : Nat) : Bool := decide (p < 4) || (p == 4 && isSpoke r)
/-- The other end of a link: a neighbour's port, or for a spoke the input at the hub (R292, R307). -/
def farEnd (r p : Nat) : Nat × Nat := if p = 4 then (64, spokeOf r) else (nbrOf r p, oppPort p)
/-- Apply a change at the port of each end of a link; a spoke's other end is in the hub. -/
def State.bothEnds (s : State) (r p : Nat) (f : State → Nat → Nat → State) : State :=
  let s := f s r p
  if p < 4 then f s (nbrOf r p) (oppPort p) else s
/-- Set the state at both ends of a link: no retrain is pending or runs; the correction counts of the wires go on (R436). -/
def State.setLinkState (s : State) (r p v : Nat) : State :=
  s.bothEnds r p (fun s r p => (s.setPortState r p v).setLink r p { s.link r p with postponed := false, running := false, worn := [] })
/-- A flit crosses the link now (R296). -/
def State.usedLink (s : State) (r p : Nat) : State :=
  s.bothEnds r p (fun s r p => { s with linkUse := Tbl.set 0 s.linkUse (r * 8 + p) s.now })
/-- Flits leave on output p, counted there (R333). -/
def State.touchLink (s : State) (r p k : Nat) : State := (s.usedLink r p).bump (aRtStat r (rsFLIT p)) k
/-- Packets of a VC whose head has reached an input, and whose tail has not. -/
def State.partialAt (s : State) (r i v : Nat) : Nat := (Tbl.get none s.openPkts (vcKey r i v)).isSome.toNat
/-- A head that arrives in this cycle for port p of router r: it counts as open (R335). -/
def State.headComes (s : State) (r p : Nat) : Bool :=
  let due (q : Packet) (t : Nat) : Bool := q.route.toNat % 8 == p + 1 && t == s.now
  (List.range 6).any (fun i => (List.range 4).any (fun v =>
    ((s.vc r i v).head?.any (fun h => due h.pkt h.arrived)) || ((Tbl.get none s.openPkts (vcKey r i v)).any (fun o => due o.pkt o.since))))
/-- Packets open on a link as seen at one end (R296): heads received whose tail has not arrived, heads sent whose tail has not been
credited back, which are the packets that the far input holds, and a head that comes in this cycle (R335). -/
def State.openOn (s : State) (r p : Nat) : Nat :=
  let (r2, i2) := farEnd r p
  (s.headComes r p).toNat + (List.range 4).foldl (fun n v => n + s.partialAt r p v + s.partialAt r2 i2 v + (s.vc r2 i2 v).length) 0
/-- No packet is open on the channel in either direction (R295). -/
def State.quiet (s : State) (r p : Nat) : Bool :=
  let (r2, i2) := farEnd r p
  s.openOn r p == 0 && (List.range 4).all (fun v => (s.vc r p v).isEmpty && s.partialAt r2 i2 v == 0)
/-- µs since a flit last crossed the link (R296). -/
def State.idleUs (s : State) (r p : Nat) : Nat := min ((s.now - Tbl.get 0 s.linkUse (r * 8 + p)) / 1000) 0xFFFF

/-! Route errors (R313, R322, R325). -/

/-- Whether a head from input i may not take port code c on its VN (R312, R313). -/
def turnBad (r i vn c : Nat) : Bool :=
  c == 6 || c == 7 || (c == 5 && !isSpoke r)
    || (decide (1 ≤ c ∧ c ≤ 4 ∧ i < 4) && (c == i + 1 || (if vn = 2 then decide (i < 2) && isYcode c else decide (2 ≤ i) && isXcode c)))

/-- Form a router's own packet: to `dest` from router r over its own coordinates; into its own NI when it cannot leave (R322). It waits for
the bubble of its first output as any injection does (R310, R325), and enters by the local input. `bad` are the flits whose POISON is set. -/
def State.routerSend (s : State) (r : Nat) (m : Msg) (bad : List Nat) : Option State :=
  let yf := decide (m.vn = 2)
  let route := routeBack r m.dest yf
  let first := route.toNat % 8
  let blocked := decide (m.dest = r) || (decide (1 ≤ first ∧ first ≤ 5) && (s.portState r (first - 1) == 0 || s.portState r (first - 1) == 1))
  let p := { s.makePacket r m m.vn route.toNat 0 with epoch := s.activeEpoch r }
  let p := if m.opc = .bounce then { p with epoch := m.note / 65536 % 16, seq := m.note % 65536 } else p
  let p := { p.sealed with bad := bad }
  let (r2, i2) := farEnd r (first - 1)
  if blocked then (if s.ejectRoom r p then some (s.pushEject r p) else none)
  else if p.flits ≤ s.vcFree r 5 p.vn ∧ (first = 0 ∨ (if first ≤ 4 then p.flits + 17 else p.flits) ≤ s.vcFree r2 i2 p.vn) then some (s.pushVc r 5 p 0)
  else none

/-- A BOUNCE of a token packet (R325). -/
def bounceMsg (p : Packet) : Msg :=
  { dest := p.src, opc := .bounce, pri := p.pri, spec := 0, body := p.head :: p.body, act := 0, cls := .none, ae := none, fault := p.fault,
    note := p.seq + 65536 * p.epoch }

/-- A response, or a SPILL answer (R302). -/
def Packet.isReply (p : Packet) : Bool := p.opc == .resp || (p.opc == .spill && p.vn == 2)
/-- The flits with POISON of a packet that carries p whole, behind a head of its own. -/
def Packet.badInside (p : Packet) : List Nat := p.bad.map (· + 1)
/-- A NACK for an absorbed packet: with the whole packet on MGT for a response, otherwise on RSP (R322). -/
def absorbMsg (p : Packet) (reason : Nat) : Msg :=
  if p.isReply then
    { dest := p.src, opc := .nack, pri := p.pri, spec := put 10 7 reason, body := p.head :: p.body, act := 0, cls := .none, ae := none,
      seq := some p.seq, fault := p.fault, note := p.note }
  else nackMsg p reason

/-- What router r does with a packet whose next port is not UP or whose route is in error (R322). -/
def State.turnBack (s : State) (r : Nat) (p : Packet) (reason : Nat) : Option State :=
  match p.opc with
  | .token => (s.routerSend r (bounceMsg p) p.badInside).map (fun s => s.bump (aRtStat r rsBOUNCE))
  | .bounce | .nack => if s.ejectRoom r p then some (s.pushEject r p) else none
  | _ => (s.routerSend r (absorbMsg p reason) (if p.isReply then p.badInside else [])).map (fun s => s.bump (aRtStat r rsABSORB))

/-! Arbitration (R309). -/

/-- A head is promoted once it has waited 640 ns. -/
def Hop.promoted (now : Nat) (h : Hop) : Bool := decide (h.time + 640 ≤ now)
/-- Whether h goes before g: promoted first, earliest promoted first; then higher PRI; then earlier arrival. -/
def Hop.before (now : Nat) (h g : Hop) : Bool :=
  if h.promoted now then !g.promoted now || decide (h.time < g.time)
  else !g.promoted now && (decide (g.pkt.pri < h.pkt.pri) || (decide (h.pkt.pri = g.pkt.pri) && decide (h.arrived < g.arrived)))
/-- The winner among (input, head) pairs; of heads that no rule orders, the one whose input comes first from input `start` on. -/
def bestHop (now start : Nat) : List (Nat × Hop) → Option (Nat × Hop)
  | [] => none
  | x :: r => match bestHop now start r with
    | none => some x
    | some y =>
      let turn (i : Nat) : Nat := (i + 64 - start) % 64
      if x.2.before now y.2 || (!y.2.before now x.2 && decide (turn x.1 < turn y.1)) then some x else some y
/-- The head of a VC leaves; the next one waits from now on. -/
def State.popVc (s : State) (r i vn : Nat) : State :=
  s.setVc r i vn (match (s.vc r i vn).tail with
    | h :: l => { h with time := s.now } :: l
    | [] => [])
/-- The inputs whose head on a VC can go, with that head. -/
def State.goers (s : State) (r vn : Nat) (inputs : List Nat) (head : Nat → Hop → Option State) : List (Nat × Hop) :=
  inputs.filterMap (fun i => match s.vc r i vn with
    | h :: _ => if (head i h).isSome then some (i, h) else none
    | [] => none)
/-- Where `rr` holds the VC that an output serves next (R309). -/
def turnKey (r o : Nat) : Nat := 2 ^ 20 + r * 64 + o
/-- Whether it is the turn of VC vn at an output: of the VCs that can go, the round comes to it first (R309; whole packets take turns, DESIGN CHOICE,
log 53). -/
def State.turnOf (s : State) (r o vn : Nat) (inputs : List Nat) (head : Nat → Nat → Hop → Option State) : Bool :=
  let at0 := Tbl.get 0 s.rr (turnKey r o)
  let order := [at0 % 4, (at0 + 1) % 4, (at0 + 2) % 4, (at0 + 3) % 4]
  (order.takeWhile (· ≠ vn)).all (fun v => (s.goers r v inputs (head v)).isEmpty)
/-- Grant an output VC to a head among those that can take it, when it is the turn of the VC, and note whose turn is next. -/
def State.arbitrate (s : State) (r o vn : Nat) (inputs : List Nat) (head : Nat → Nat → Hop → Option State) : State :=
  match bestHop s.now (Tbl.get 0 s.rr (vcKey r o vn)) (s.goers r vn inputs (head vn)) with
  | none => s
  | some (i, h) => match head vn i h with
    | none => s
    | some t =>
      if s.turnOf r o vn inputs head then { t with rr := Tbl.set 0 (Tbl.set 0 t.rr (vcKey r o vn) (i + 1)) (turnKey r o) ((vn + 1) % 4) } else s

/-! One hop. -/

/-- The crossbar output of a packet that comes up a spoke: one for a cluster goes to the spill engine (R496); no output at a router. -/
def outFor (r : Nat) (p : Packet) : Nat := if r < 64 then 0 else if p.dest < 64 then 34 else crossOut p.dest 0
/-- A port passes no heads while its retrain runs or is pending and not postponed (R295). -/
def State.retraining (s : State) (r p : Nat) : Bool := s.portState r p == 3 && !(s.link r p).postponed
/-- What becomes of a head at input i of router r that reads port code c; nothing while it must wait. A ring entry needs the credits of R310. -/
def State.hopHead (s : State) (r c vn i : Nat) (h : Hop) : Option State :=
  let p := h.pkt
  let q := { p with route := BitVec.ofNat 30 (p.route.toNat / 8) }
  let out := s.popVc r i vn
  let go := out.bump (aRtStat r rsPROMOTE) (h.promoted s.now).toNat
  if p.route.toNat % 8 ≠ c then none
  else if turnBad r i vn c then out.turnBack r p rsnBAD
  else if c = 0 then (if s.ejectRoom r p then some (go.pushEject r q) else none)
  else
    let st := s.portState r (c - 1)
    if st = 0 ∨ st = 1 then out.turnBack r p rsnDOWN
    else if s.retraining r (c - 1) then none
    else
      let entry := decide (i = 4 ∨ i = 5) || (decide (i < 2) && isYcode c) || (decide (2 ≤ i ∧ i < 4) && isXcode c)
      let need := if c ≤ 4 ∧ entry then p.flits + 17 else p.flits
      let (r2, i2) := farEnd r (c - 1)
      if s.vcFree r2 i2 vn < need then none
      else some ((go.pushVc r2 i2 q (outFor r2 q)).touchLink r (c - 1) p.flits)
/-- Forward the winning head at router r for port code c. -/
def State.hopRouter (s : State) (r c vn : Nat) : State := s.arbitrate r c vn (List.range 6) (s.hopHead r c)

/-- A packet for a cluster whose die is off (R503): tokens are dropped and counted, requests answered DOMAIN_OFF. -/
def State.dieOffAnswer (s : State) (p : Packet) : State :=
  match p.opc with
  | .token => (s.bump aDieOff).logFree 68 .dieOffDrop .deferred
  | .read | .write | .iread | .iwrite | .atom | .service | .lock | .mgtacc => s.unitSend 68 (nackMsg p rsnOFF)
  | _ => s

/-- A packet leaves a crossbar input: a port returns the credit of its flits (R348), which a frame says, unless they left ingress earlier for a window
or the module sent it. -/
def State.leaveIngress (s : State) (i : Nat) (p : Packet) : State :=
  if 16 ≤ i ∧ i < 32 ∧ p.note = 3 then s.atLink (i - 16) (fun s => s.sayCredit (i - 16) (fun s => s.returnCredit (i - 16) p.vn p.flits)) else s

/-- What becomes of a head at input i of the hub crossbar for output o: 0–15 spokes, 16–31 ports, 32–37 hub endpoints; nothing while it must
wait. At a spoke that is not UP the hub does itself what R322 has a router do. -/
def State.crossHead (s : State) (o vn i : Nat) (h : Hop) : Option State :=
  let p := if 16 ≤ i ∧ i < 32 then { h.pkt with note := if h.pkt.note = 1 ∨ h.pkt.note = 3 then 0 else h.pkt.note } else h.pkt
  let go := (s.popVc 64 i vn).leaveIngress i h.pkt
  let eject (e : Nat) : Option State := if s.ejectRoom e p then some (go.pushEject e p) else none
  if h.out ≠ o then none
  else if o < 16 then
    let r := spokeCluster o
    let st := s.portState r 4
    if p.dest < 64 ∧ !s.dieOn p.dest then some (go.dieOffAnswer p)
    else if st = 0 ∨ st = 1 then
      match p.opc with
      | .token => go.park 68 p 0
      | .bounce | .nack => eject 68
      | _ => if p.isReply then go.park 68 p 1 else some (go.unitSend 68 (nackMsg p rsnDOWN))
    else if s.retraining r 4 ∨ s.vcFree r 4 vn < p.flits then none
    else some ((go.pushVc r 4 p 0).usedLink r 4)
  else if o < 32 then
    if p.opc = .epochMark ∨ p.opc = .bounce then eject 68
    else if 32 < hopFlits (s.vc (80 + o) 0 vn) + p.flits then none
    else some (go.pushVc (80 + o) 0 p 0)
  else eject (32 + o)
/-- Move the winning head at the hub crossbar for output o. -/
def State.hopCross (s : State) (o vn : Nat) : State := s.arbitrate 64 o vn (List.range 38) (s.crossHead o)

/-- The sources at the crossbar: the hub endpoints and the ports. -/
def hubSources : List Nat := [64, 65, 66, 67, 68, 69] ++ (List.range 16).map (fun p => 256 + 256 * p)

/-- ROUTER_HOP (R311): at router r, port code c; router 64 is the hub crossbar with c an output. The NI beside it first injects
one waiting message. -/
def execRouterHop (r c vn : Nat) (s : State) : Out :=
  onUnit "router" r 65 s (fun s =>
    if 4 ≤ vn then s
    else if r < 64 then (if c < 8 then (s.inject r).hopRouter r c vn else s)
    else (hubSources.foldl (fun s e => s.inject e) s).hopCross c vn)

/-! Flits at an input (R329). -/

/-! Inputs that receive flits (R329): 0 to 5 at a router, with 6 for the ejection queue of its NI; at the hub the crossbar inputs, with 40 on for the
ejection queues of its endpoints from 64 on. -/

/-- The endpoint whose ejection queue an input is. -/
def ejectAt (r i : Nat) : Option Nat := if r < 64 then (if i = 6 then some r else none) else if 40 ≤ i ∧ i < 46 then some (24 + i) else none
/-- The status register of the DCQ at an input (R395, R396). -/
def inDcq (r i vn : Nat) : Option Nat := match ejectAt r i with
  | some e => ejectDcq e vn
  | none => vcDcq r i vn
/-- The words that wait at an input on a VC are discarded. -/
def State.clearIn (s : State) (r i vn : Nat) : State := match ejectAt r i with
  | some e => s.setEject e ((s.ejectQ e).filter (fun p => p.vn != vn))
  | none => s.setVc r i vn []
/-- A packet is complete at an input: it waits there, or is discarded when a flush was waiting for it (R392). -/
def State.placeIn (s : State) (r i : Nat) (p : Packet) : State :=
  match inDcq r i p.vn with
  | some a => if s.flushes.contains a then { s with flushes := s.flushes.erase a } else match ejectAt r i with
    | some e => s.pushEject e p
    | none => s.pushVc r i p (outFor r p)
  | none => match ejectAt r i with
    | some e => s.pushEject e p
    | none => s.pushVc r i p (outFor r p)

/-- Close every open packet at an input with a poisoned TAIL. -/
def State.closeOpen (s : State) (r i : Nat) : State :=
  (List.range 4).foldl (fun s v => match Tbl.get none s.openPkts (vcKey r i v) with
    | some o =>
      let p := { o.pkt with body := o.pkt.body ++ [0], bad := o.pkt.bad ++ [o.pkt.body.length + 1] }
      let t : State := { s with openPkts := Tbl.set none s.openPkts (vcKey r i v) none }
      if o.skip then t else t.placeIn r i p
    | none => s) s

/-- A retrain begins on a link: it is shown at both ends and counted where it was asked for (R295, R296). -/
def State.beginRetrain (s : State) (r p : Nat) : State :=
  let a := aPortStatus r p
  ((s.bothEnds r p (fun s r p => (s.setPortState r p 3).setLink r p { s.link r p with postponed := false, running := true })).setRfld a 15 0
    (satInc 16 (s.rfld a 15 0))).logFree r .linkRetrain .corrected
/-- The router port whose channel feeds an input: its own port, or at the hub the spoke port of the cluster. -/
def portOf (r i : Nat) : Nat × Nat := if r = 64 then (spokeCluster i, 4) else (r, i)
/-- The credit-reset handshake at an input (R394): every word waiting there is discarded; on a die-edge or spoke channel it runs as a forced
retrain, which waits for no packet. Credits are what the queue has free. -/
def State.creditHandshake (s : State) (r i : Nat) : State :=
  let s := (List.range 4).foldl (fun s v => s.clearIn r i v) s
  let (r1, p1) := portOf r i
  let mark (s : State) (v : Nat) : State := match inDcq r i v with
    | some a => ({ s with flushes := s.flushes.erase a } : State).setRfld a 62 62 1
    | none => s
  if i < (if r < 64 then 5 else 16) then
    if dieEdge r1 p1 ∧ s.portState r1 p1 ≠ 0 then ((List.range 4).foldl mark s).beginRetrain r1 p1 else s
  else (List.range 4).foldl mark s
/-- Resynchronise an input (R329). The hub has no RT_STAT counters. -/
def State.resync (s : State) (r i : Nat) : State :=
  let s := (s.creditHandshake r i).closeOpen r i
  (if r < 64 ∧ i < 5 then s.bump (aRtStat r (rsRESYNC i)) else s).logFree (if r < 64 then r else 68) .linkResync .deferred

/-- Whether the flit taken ends its packet (R329, R385): a clean one says so by its KIND; a poisoned one is placed by the flits still owed. -/
def OpenPkt.ends (o : OpenPkt) (kind : Nat) (bad : Bool) : Bool := if bad then decide (o.owed ≤ 1) else kind == 2
/-- Take a flit, clean or poisoned, into its VC; none while the queue is being reset (R394). A head is routed as read, poisoned or not (R335); a
poisoned flit that claims a VC without an open packet, or a head where a packet is open, resynchronises the input (R329). In an ejection queue a
packet that fills the queue before its last word is OVERSIZE, and its further words are absorbed (R390). -/
def State.takeFlit (s : State) (r i : Nat) (f : Flit) (bad : Bool) : State :=
  let vn := fld f 143 142
  let kind := fld f 141 140
  let w : Wide := BitVec.ofNat 128 f.toNat
  let key := vcKey r i vn
  let first : Packet := { Packet.ofHead w vn [] with bad := if bad then [0] else [] }
  let put (s : State) (o : Option OpenPkt) : State := { s with openPkts := Tbl.set none s.openPkts key o }
  if s.resetting (inDcq r i vn) then s else
  match Tbl.get none s.openPkts key with
  | none =>
    if kind = 3 then s.placeIn r i first
    else if kind = 1 then put s (some ⟨first, max (fld w 68 65) 1, s.now, false⟩)
    else if bad then s.resync r i
    else s
  | some o =>
    if kind = 1 ∨ kind = 3 then s.resync r i
    else
      let p := { o.pkt with body := o.pkt.body ++ [w], bad := if bad then o.pkt.bad ++ [o.pkt.body.length + 1] else o.pkt.bad }
      let last := o.ends kind bad
      if o.skip then (if last then put s none else s)
      else if last then (put s none).placeIn r i p
      else match ejectAt r i with
        | some e =>
          if p.flits < ejectDepth e then put s (some { o with pkt := p, owed := o.owed - 1 })
          else
            let t := put s (some { o with skip := true })
            match ejectDcq e vn with
            | some a => t.oversize a (crossUnit e vn) (ejectDetail e vn)
            | none => t
        | none => put s (some { o with pkt := p, owed := o.owed - 1 })

/-- A repair retrain of a port comes due: it is pending at both ends (R295). -/
def State.duePort (s : State) (r p : Nat) : State := s.bothEnds r p (fun s r p => s.setPortState r p 3)
/-- Count a corrected bit on the wire of end (r, p), the hub's end of a spoke by r = 64: RTHRESH corrections within 10 ms start a repair retrain of
the channel (R295). -/
def State.countWire (s : State) (r p b : Nat) : State :=
  let (r1, p1) := portOf r p
  if !dieEdge r1 p1 then s else
  let l := s.link r p
  let w := b % 36
  let c := (Tbl.get [] l.wires w).filter (fun t => decide (s.now < t + 10000000)) ++ [s.now]
  let hit := decide (s.rfld (aPortCtl r1 p1) 47 32 ≤ c.length)
  let s := s.setLink r p { l with wires := Tbl.set [] l.wires w c, worn := if hit && !l.worn.contains w then l.worn ++ [w] else l.worn }
  if hit ∧ s.portState r1 p1 = 2 then s.duePort r1 p1 else s

/-- FLIT_RECEIVE_CHECK (R329): a flit arrives at an input. Only the ports of a router have RT_STAT counters. -/
def State.flitReceive (s : State) (r p : Nat) (flit : BitVec 144) : State :=
  if (if r < 64 then decide (6 < p) || (p == 4 && !isSpoke r) else decide (46 ≤ p) || (decide (16 ≤ p ∧ p < 32)) || decide (38 ≤ p ∧ p < 40)) then s else
  let chan := decide (p < if r < 64 then 5 else 16)
  let (r1, p1) := portOf r p
  let s := if chan then s.usedLink r1 p1 else s
  let stat (s : State) (a : Nat) : State := if r < 64 ∧ chan then s.bump a else s
  match decodeFlit flit with
  | some (f, some b) => (let t := stat s (aRtStat r (rsCE p)); if chan then t.countWire r p b else t).takeFlit r p f (bitAt f 139)
  | some (f, none) => s.takeFlit r p f (bitAt f 139)
  | none =>
    let s := stat s (aRtStat r (rsUE p))
    let last := Tbl.get 0 s.flitUeAt r
    let s := if last = 0 ∨ last + 1000000 ≤ s.now + 1 then
        ({ s with flitUeAt := Tbl.set 0 s.flitUeAt r (s.now + 1) }).logFree (if r < 64 then r else 68) .flitUe .deferred else s
    s.takeFlit r p (setBit flit 139 true) true
def execFlitReceiveCheck (r p : Nat) (flit : BitVec 144) (s : State) : Out := onUnit "router" r 65 s (fun s => s.flitReceive r p flit)

/-! Links (R295, R296, R323, R324). -/

/-- Routes no longer fit the links: Beynas computes new ones (R317, R323). -/
def State.routesStale (s : State) : State := { s with mc := { s.mc with reroute := true } }
/-- RT_PORT_DIS: the MC writes DIS; accepted when no packet is open and the link has idled 10 µs (R323, R335). Routes that avoid the link follow
(R317). -/
def State.portDis (s : State) (r p : Nat) : State :=
  if !hasPort r p then s
  else if s.openOn r p = 0 ∧ 10 ≤ s.idleUs r p then (s.setLinkState r p 0).routesStale
  else s.cfgReject (aPortCtl r p)
/-- EN trains a DOWN port; an on-die port has no wires to train and is UP at once. -/
def State.portEn (s : State) (r p : Nat) : State :=
  if hasPort r p ∧ s.portState r p = 0 then
    if dieEdge r p then s.setLinkState r p 1 else (s.setLinkState r p 2).routesStale
  else s
/-- RETRAIN makes a repair retrain pending; ignored on on-die ports. -/
def State.portRetrain (s : State) (r p : Nat) : State :=
  if hasPort r p ∧ dieEdge r p ∧ s.portState r p = 2 then s.duePort r p else s

def execRtPortDis (r p : Nat) (s : State) : Out := onUnit "router" r 64 s (fun s => s.portDis r p)
def execRtPortEn (r p : Nat) (s : State) : Out := onUnit "router" r 64 s (fun s => s.portEn r p)
def execRtPortRetrain (r p : Nat) (s : State) : Out := onUnit "router" r 64 s (fun s => s.portRetrain r p)

/-- The port goes DOWN at both ends; open packets are closed with a poisoned TAIL where they arrive (R296, R324), and Beynas installs routes
that avoid it. -/
def State.linkDown (s : State) (r p : Nat) : State :=
  let (r2, i2) := farEnd r p
  ((((s.setLinkState r p 0).closeOpen r p).closeOpen r2 i2).logFree r .linkDown .deferred).routesStale

/-- k wires of the channel that end (r, p) receives are replaced by spares; with no spare left the port goes DOWN (R295, R296). The hub's end of a
spoke is (64, p). -/
def State.replaceWires (s : State) (r p k : Nat) : State :=
  let a := aPortStatus r p
  let n := if r = 64 then (s.link r p).spares else s.rfld a 21 20
  let note (s : State) : State := (List.range k).foldl (fun s _ => s.logFree (if r = 64 then 68 else r) .linkRepair .corrected) s
  if k = 0 then s
  else if n + k ≤ 2 then note (if r = 64 then s.setLink r p { s.link r p with spares := n + k } else s.setRfld a 21 20 (n + k))
  else s.linkDown (portOf r p).1 (portOf r p).2
/-- Do f at both ends of the channel of port p, where the other end of a spoke is the hub's. -/
def State.eachEnd (s : State) (r p : Nat) (f : State → Nat → Nat → State) : State :=
  let t := f s r p
  f t (farEnd r p).1 (farEnd r p).2
/-- Begin a pending retrain when no packet is open; otherwise it is postponed. A wire at its threshold is replaced by a spare; with
both spares in use the port goes DOWN (R295, R296). -/
def State.tryRetrain (s : State) (r p : Nat) : State :=
  if s.portState r p ≠ 3 ∨ (s.link r p).running then s
  else if !s.quiet r p then s.bothEnds r p (fun s r p => s.setLink r p { s.link r p with postponed := true })
  else
    (s.beginRetrain r p).eachEnd r p (fun s r p =>
      let l := s.link r p
      (s.setLink r p { l with worn := [], wires := l.wires.filter (fun w => !l.worn.contains w.1) }).replaceWires r p l.worn.length)
/-- Training ends with data wires that failed it, `bad % 64` of the channel that port p receives and `bad / 64` of the other one: spares replace
them and the port is UP, or training has failed and it is DOWN (R295, R296). -/
def State.trained (s : State) (r p bad : Nat) : State :=
  let u := s.replaceWires r p (bad % 64)
  let t := if u.portState r p = 0 then u else u.replaceWires (farEnd r p).1 (farEnd r p).2 (bad / 64)
  if t.portState r p = 0 then t
  else if s.portState r p = 1 then (t.setLinkState r p 2).routesStale else t.setLinkState r p 2

def execLinkRetrain (r p : Nat) (s : State) : Out :=
  onUnit "router" r 64 s (fun s => if hasPort r p ∧ dieEdge r p then s.tryRetrain r p else s)
def execRetrainPostponeRetry (r p : Nat) (s : State) : Out :=
  onUnit "router" r 64 s (fun s => if hasPort r p ∧ dieEdge r p ∧ (s.link r p).postponed then s.tryRetrain r p else s)
def execLinkDown (r p : Nat) (s : State) : Out :=
  onUnit "router" r 64 s (fun s => if hasPort r p ∧ dieEdge r p ∧ s.portState r p ≠ 0 then s.linkDown r p else s)
/-- DIE_EDGE_TRAINING_DONE: the port ends its training or its retrain (R295). -/
def execDieEdgeTrainingDone (r : Nat) (x : Trained) (s : State) : Out :=
  onUnit "router" r 64 s (fun s =>
    let st := s.portState r x.p
    if hasPort r x.p ∧ dieEdge r x.p ∧ (st = 1 ∨ (st = 3 ∧ (s.link r x.p).running)) then s.trained r x.p x.bad else s)

end Sys2Proof.Machine
end

