-- ==== Sys2Proof/Machine/FabricOps.lean ====
section
/-! DEFINITION. Arrivals at a network interface (R303, R306, R321, R326 to R331) and route shifts (R318 to R321). -/

namespace Sys2Proof.Machine

/-- The bins of R109: 0, then powers of two, then 16,384 and above. -/
def waitBin (n : Nat) : Nat := min 15 (bitLen n)

/-- Take the first packet at an endpoint that satisfies a test. -/
def State.takeReq (s : State) (e : Nat) (f : Packet → Bool) : Option (Packet × State) :=
  match (s.reqAt e).find? f with
  | some p => some (p, s.setReqs e ((s.reqAt e).erase p))
  | none => none

/-! The checks at ejection (R303, R321, R330). -/

/-- OPC fits VN (R302). -/
def vnOk (p : Packet) : Bool :=
  match p.opc with
  | .spill => p.vn == 1 || p.vn == 2
  | .nack => p.vn == 2 || p.vn == 3
  | .epochMark => true
  | o => p.vn == o.vn
/-- SPEC holds no reserved value (R302). -/
def specOk (p : Packet) : Bool :=
  let s : BitVec 25 := BitVec.ofNat 25 p.spec
  match p.opc with
  | .token => decide (p.spec < 2)
  | .read => decide (fld s 11 9 ≤ 4) && fld s 24 12 == 0
  | .write => decide (fld s 11 9 ≤ 3) && fld s 24 12 == 0
  | .iread | .iwrite => fld s 24 9 == 0
  | .atom => decide (fld s 12 9 ≤ 10) && fld s 24 13 == 0
  | .service => decide (fld s 12 9 ≤ 5) && fld s 24 13 == 0
  | .lock => fld s 24 20 == 0
  | .spill => true
  | .resp => decide (fld s 14 7 ≤ 4) && fld s 24 17 == 0
  | .nack => decide (1 ≤ fld s 10 7) && decide (fld s 10 7 ≤ 5) && fld s 24 11 == 0
  | .bounce | .epochMark => p.spec == 0
  | .mgtacc => decide (1 ≤ fld s 14 10) && decide (fld s 14 10 ≤ 28) && fld s 24 15 == 0
  | .control => fld s 19 0 == 0 && decide (fld s 24 20 ≤ 0x0D)
  | .drainMark => fld s 24 16 == 0
/-- A SPILL packet comes from a cluster NI or the spill engine (R303). -/
def spillOk (p : Packet) : Bool := p.opc != .spill || decide (p.src < 64) || p.src == 66
/-- Serial-number order of epochs (R318, R431): a is older than b. -/
def epochOlder (a b : Nat) : Bool := decide (0 < (b + 16 - a) % 16 ∧ (b + 16 - a) % 16 ≤ 8)

def State.countRewind (s : State) (e vn : Nat) : State :=
  match ejectDcq e vn with
  | some a => s.rewound a
  | none => s

/-- The slot a reply or NACK names, when its SEQ matches (R331). -/
def State.slotFor (s : State) (e : Nat) (p : Packet) : Option RSlot :=
  match (s.ni e).slot p.rslot with
  | some r => if r.pkt.seq = p.seq then some r else none
  | none => none

/-- A packet that fails its CRC or carries POISON is rewound (R330). -/
def State.ejectBad (s : State) (e : Nat) (p : Packet) : State :=
  let s := (s.countRewind e p.vn).bumpNi e nsCORRUPT
  let clean := !p.bad.contains 0 && !p.bad.contains 1
  let lostToken (s : State) : State :=
    let s := s.bumpNi e nsTOKLOST
    if p.bad.contains 0 then s else s.log e .tokenLost .deferred (BitVec.ofNat 64 p.src)
  match p.opc with
  | .token => if clean then s.deliver e none p.rtag true .tokenCorrupt 0 (2 ^ 47) else lostToken s
  | .bounce =>
    if clean then s.deliver e none (hi64 ((p.body[1]?).getD 0)) true .tokenCorrupt 0 (2 ^ 47) else lostToken s
  | .read | .write | .iread | .iwrite | .atom | .service | .lock | .mgtacc =>
    if clean then s.nack e p rsnCORRUPT else s
  | .spill => if p.vn = 1 ∧ clean then s.nack e p rsnCORRUPT else s
  | .resp =>
    if clean then
      match s.slotFor e p with
      | some r => (s.endSlot e p.rslot).deliverTo (issuerOf e r.pkt.rtag) e none r.pkt.rtag true .tokenCorrupt 0 (2 ^ 47)
      | none => s
    else s
  | .nack | .control | .epochMark | .drainMark => s

/-- A request to a cluster's scratch is answered DOMAIN_OFF while the cluster drains, is OFF or wakes (R497, R498). -/
def State.domainOff (s : State) (e : Nat) (p : Packet) : Bool := p.opc.isMem && decide (e < 64) && decide (3 ≤ s.clState e)
/-- A packet for the cluster side waits while the cluster is in FREEWHEEL (R495). -/
def State.heldAsleep (s : State) (e : Nat) (p : Packet) : Bool :=
  decide (e < 64) && s.clState e == 2 && (p.opc == .token || p.opc.isMem || p.opc == .resp || p.opc == .spill || (p.opc == .mgtacc && clusterSide p.addr))

/-- What becomes of a packet that leaves the ejection queue of endpoint e (R303, R321, R330); nothing while it must wait. MGTACC is handed to
`mgt`. -/
def State.ejectPacket (s : State) (e : Nat) (p : Packet) (mgt : State → Packet → State) : Option State :=
  let t := s.setEject e ((s.ejectQ e).erase p)
  if s.heldAsleep e p then none
  else if ejectDepth e < p.flits then
    some (match ejectDcq e p.vn with
      | some a => t.oversize a (crossUnit e p.vn) (ejectDetail e p.vn)
      | none => t)
  else if p.bad ≠ [] ∨ p.calcCrc ≠ p.crc then some (t.ejectBad e p)
  else if !(vnOk p && specOk p && spillOk p) then
    some ((t.bumpNi e nsBADOPC).log e .badOpcode .deferred (BitVec.ofNat 64 p.src))
  else
    let mark := Tbl.get 0 (t.ni e).lastEpoch (p.src * 4 + p.vn)
    let t := if mark ≠ 0 ∧ epochOlder p.epoch (mark - 1) then
        (t.bumpNi e nsEPOCHERR).logFree e .epochOrder .deferred else t
    match p.opc with
    | .token => if e = 66 then some (t.pushReq e p) else t.tokenIn e p.token
    | .mgtacc => some (mgt t p)
    | _ => some (if t.domainOff e p then t.nack e p rsnOFF else t.pushReq e p)
/-- One packet leaves the ejection queue of endpoint e: the oldest one that need not wait. On each virtual network packets keep their order,
and one that waits holds back none of another network (R94, R306). -/
def State.ejectOne (s : State) (e : Nat) (mgt : State → Packet → State) : State :=
  let heads := [0, 1, 2, 3].filterMap (fun v => (s.ejectQ e).find? (fun p => p.vn == v))
  (((s.ejectQ e).filter (fun p => heads.contains p && !s.resetting (ejectDcq e p.vn))).findSome? (fun p => s.ejectPacket e p mgt)).getD s

/-! Responses and NACKs (R306, R328, R331). -/

/-- The reply token in a RESP (R302). -/
def Packet.respTok (p : Packet) : Option (Word × Wide) :=
  if p.spec.testBit 15 then some (p.token.tag, p.token.val) else none

/-- A round trip ends with a RESP or a NACK, and is counted by its length in die fabric cycles (R332). -/
def State.binTrip (s : State) (e : Nat) (r : RSlot) : State := s.bumpNi e (nsRTT (waitBin ((s.now - r.opened) * 8 / 5)))
/-- RESP_ARRIVAL (R306). -/
def State.respArrival (s : State) (e : Nat) : State :=
  match s.takeReq e (fun p => p.opc == .resp) with
  | none => s
  | some (p, s) =>
    match s.slotFor e p with
    | none => s.bumpNi e nsLATE
    | some r =>
      let s := (s.endSlot e p.rslot).binTrip e r
      match p.respTok with
      | some (tag, v) => s.replyToken e tag v (p.spec.testBit 16)
      | none => s

/-- A slot's request is sent again at once where it can go, and otherwise when it can (R328). -/
def State.retrySlot (s : State) (e k : Nat) (r : RSlot) : State :=
  let again := if s.marked e = [] then s.resendSlot e k r else none
  again.getD (s.updNi e (fun n => n.setSlot k (some { r with waitEpoch := true, pkt := { r.pkt with epoch := (s.activeEpoch e + 15) % 16 } })))

/-- What a NACK does to the request it ends or keeps (R328). -/
def State.nackSlot (s : State) (e k reason : Nat) (r : RSlot) : State :=
  let free := s.endSlot e k
  let tag := r.pkt.rtag
  let addr := if r.pkt.opc.isMem then r.pkt.addr else 0
  if reason = rsnDOWN then
    if 2 ≤ r.downs then free.deliverTo (issuerOf e tag) e none tag true .routeMiss 0 r.pkt.dest
    else
      let r := { r with downs := r.downs + 1 }
      if s.activeEpoch e ≠ r.pkt.epoch then s.retrySlot e k r
      else s.updNi e (fun n => n.setSlot k (some { r with waitEpoch := true }))
  else if reason = rsnBAD then free.deliverTo (issuerOf e tag) e none tag true .routeMiss 0 r.pkt.dest
  else if reason = rsnOFF then free.deliverTo (issuerOf e tag) e none tag true .accessDenied 0 addr
  else if reason = rsnNOCAP then free.deliverTo (issuerOf e tag) e none tag true .noCapacity 0 addr
  else if r.corrupts = 0 then s.retrySlot e k { r with corrupts := 1 }
  else free.deliverTo (issuerOf e tag) e none tag true .tokenCorrupt 0 (2 ^ 47)

/-! The course of a shift (R319). -/

/-- The sources of a shift: the NIs of powered dies, and the hub as 68. -/
def State.shiftSources (s : State) : List Nat := (List.range 64).filter s.dieOn ++ [68]
def State.shiftRegs (s : State) : State :=
  (s.setRfld aHbShift 23 16 s.shift.pending.length).setRfld aHbShift 8 8 s.shift.busy.toNat

/-- The hub notes SHIFT_DONE of a source; with the last the shift is over (R319 step 6). -/
def State.shiftDoneOf (s : State) (e : Nat) : State :=
  if s.shift.busy ∧ s.shift.pending.contains e then
    let p := s.shift.pending.erase e
    let s := ({ s with shift := { s.shift with pending := p, busy := !p.isEmpty } }).shiftRegs
    if p.isEmpty then s.log 68 .shiftDone .info (BitVec.ofNat 64 s.shift.epoch) else s
  else s
/-- A source without marks left sends SHIFT_DONE. -/
def State.shiftProgress (s : State) (e : Nat) : State :=
  if (s.ni e).shifting ∧ (s.ni e).marks = [] then
    let s := s.updNi e (fun n => { n with shifting := false })
    if e = 68 then s.shiftDoneOf e else s.unitSend e (controlMsg 68 1 [])
  else s

/-- A DRAIN_MARK of a round (R302). -/
def drainMsg (dest number : Nat) : Msg :=
  { dest := dest, opc := .drainMark, pri := 7, spec := number % 65536, body := [], act := 0, cls := .none, ae := none }
/-- Discard the parked tokens of contexts in an open drain round at endpoint e (R58, R327). -/
def State.drainDiscard (s : State) (e : Nat) : State :=
  s.updNi e (fun n => { n with parked := n.parked.filter (fun x =>
    !(x.pkt.opc == .token && x.pkt.toModule && n.drains.any (fun d => d.2.contains (tKey x.pkt.token.tag)))) })

/-- A NACK that a router ejected into the NI beside it goes on to its DEST over the active bank (R325), behind the marks of its network (R319). -/
def State.forwardNack (s : State) (e : Nat) (p : Packet) : Option State :=
  match (if (s.marked e).contains p.vn then none else s.routeOf e p.dest p.vn) with
  | none => none
  | some (route, spoke) =>
    s.launch e (Packet.sealed { p with route := BitVec.ofNat 30 route, epoch := s.activeEpoch e }) false (crossOut p.dest spoke)
/-- What the originator does with a NACK (R328): an absorbed response is parked and sent again up to three times; a NACK for a mark
acknowledges it; a CONTROL packet is parked and leaves under the newer epoch. Nothing while there is no space to park. -/
def State.takeNack (s : State) (e : Nat) (p : Packet) : Option State :=
  match p.body with
  | h :: rest =>
    let q := { Packet.ofHead h 2 rest with fault := p.fault, note := p.note + 1 }
    if 3 ≤ q.note then some (s.logFree e .responseLost .deferred)
    else (s.park e q q.note).map (fun s => s.resendParked e)
  | [] =>
    let about := p.note % 16
    let vn := p.note / 16 % 4
    let dest := p.note / 64 % 2 ^ 13
    let x := p.note / 2 ^ 23
    let reason := fld (BitVec.ofNat 25 p.spec) 10 7
    if about = Opc.epochMark.code then
      some ((s.updNi e (fun n => { n with marks := n.marks.filter (fun m => !(m.1 == dest && m.2.1 == vn)) })).shiftProgress e)
    else if about = Opc.control.code then
      let m := controlMsg dest (x % 32) ((List.range (x / 32 % 16)).map (fun i => BitVec.ofNat 128 (x / 512 / 2 ^ (128 * i))))
      (s.park e { s.makePacket e m 3 0 0 with epoch := p.note / 2 ^ 19 % 16 } 0).map (fun s => s.resendParked e)
    else if about = Opc.drainMark.code then some ((s.drainDiscard e).unitSend e (drainMsg dest x))
    else match s.slotFor e p with
      | some r => some ((s.binTrip e r).nackSlot e p.rslot reason r)
      | none => some s
/-- NACK_ARRIVAL (R325, R328). -/
def State.nackArrival (s : State) (e : Nat) : State :=
  match s.takeReq e (fun p => p.opc == .nack) with
  | none => s
  | some (p, t) => (if e < 64 ∧ p.dest ≠ e then t.forwardNack e p else (t.bumpNi e nsNACK).takeNack e p).getD s

/-- A RESP for slot k has arrived at endpoint e and is not yet taken. -/
def State.respWaits (s : State) (e k : Nat) : Bool :=
  (s.reqAt e ++ s.ejectQ e).any (fun p => p.opc == .resp && p.rslot == k && (s.slotFor e p).isSome)
/-- RESPONSE_SLOT_TIMEOUT (R331); a RESP that has arrived wins (R335). -/
def State.slotTimeout (s : State) (e k : Nat) : State :=
  match (s.ni e).slot k with
  | some r =>
    if k < 128 ∧ !s.respWaits e k then ((s.endSlot e k).bumpNi e nsTIMEOUT).deliverTo (issuerOf e r.pkt.rtag) e none r.pkt.rtag true .tokenCorrupt 0 (2 ^ 47 + 2 ^ 45) else s
  | none => s

/-- BOUNCE_ARRIVAL (R326): park the bounced token; it leaves again once the active epoch differs from its own. The packet waits while there is
no space to park its token (R94). -/
def State.bounceArrival (s : State) (e : Nat) : State :=
  match s.takeReq e (fun p => p.opc == .bounce) with
  | none => s
  | some (p, t) =>
    match p.body with
    | h :: rest => ((t.park e { Packet.ofHead h 0 rest with fault := p.fault } 0).map (fun t => t.resendParked e)).getD s
    | [] => t

/-- An endpoint with an interface: a cluster or one of the hub endpoints. -/
def onEndpoint (e : Nat) (s : State) (f : State → State) : Out := onUnit "endpoint" e 70 s f

def execRespArrival (e : Nat) (s : State) : Out := onEndpoint e s (fun s => s.respArrival e)
def execResponseSlotTimeout (e k : Nat) (s : State) : Out := onEndpoint e s (fun s => s.slotTimeout e k)
def execBounceArrival (e : Nat) (s : State) : Out := onEndpoint e s (fun s => s.bounceArrival e)

/-! Shifts (R318 to R321). -/

/-- The destinations whose route or validity on a VN differs between the banks of e, with the destination marks are sent to; a
changed off mask changes the TOK route (R496). No marks go to the NIs of a die that is off (R319). -/
def State.affected (s : State) (e vn : Nat) : List Nat :=
  let on (d : Nat) : Bool := decide (64 ≤ d) || s.dieOn d
  let old := s.activeBank e
  let rsp := decide (vn = 2)
  let v := if rsp then 62 else 63
  let diff (w x : Word) : Bool := bitAt w v && (!bitAt x v || (if rsp then fld w 59 30 != fld x 59 30 else fld w 29 0 != fld x 29 0))
  let off (d : Nat) : Bool := decide (vn = 0 ∧ d < 64) && bitAt (s.reg (aNiOff e old)) d != bitAt (s.reg (aNiOff e (1 - old))) d
  if e < 64 then
    ((List.range 70).filter (fun d => d != e && on d && (diff (s.reg (aNiRt e old d)) (s.reg (aNiRt e (1 - old) d)) || (bitAt (s.reg (aNiRt e old d)) v && off d))))
      ++ ((List.range 16).filter (fun p => diff (s.reg (aNiRt e old (256 + p))) (s.reg (aNiRt e (1 - old) (256 + p))))).map (fun p => 256 + 256 * p)
  else
    (List.range 64).filter (fun d => on d && (
      diff (s.reg (aHbRt old d 0)) (s.reg (aHbRt (1 - old) d 0)) || (bitAt (s.reg (aHbRt old d 0)) v &&
        (off d || (if rsp then s.rfld (aHbRt old d 1) 7 4 != s.rfld (aHbRt (1 - old) d 1) 7 4
          else s.rfld (aHbRt old d 1) 3 0 != s.rfld (aHbRt (1 - old) d 1) 3 0)))))

/-- An EPOCH_MARK over bank b of e (R319); it takes its SEQ when it leaves. -/
def State.markPacket (s : State) (e b vn dest epoch : Nat) : Packet × Nat :=
  let w := if e < 64 then s.reg (aNiRt e b (if dest < 256 then dest else 256 + (dest - 256) / 256)) else s.reg (aHbRt b dest 0)
  let w1 := s.reg (aHbRt b dest 1)
  let rsp := decide (vn = 2)
  let p : Packet :=
    { vn := vn, opc := .epochMark, route := BitVec.ofNat 30 (if rsp then fld w 59 30 else fld w 29 0), dest := dest, src := e,
      pri := 7, seq := 0, epoch := epoch, spec := 0, crc := 0, bad := [], body := [], fault := false, note := 0 }
  (p.sealed, crossOut dest (if rsp then fld w1 7 4 else fld w1 3 0))

/-- SUB of a CONTROL packet. -/
def Packet.sub (p : Packet) : Nat := p.spec / 2 ^ 20 % 32

/-- A source swaps its banks: marks go out over the old bank, then parked packets and waiting requests follow the new one. Every packet
enters its network whole, so each VN is at a packet boundary. -/
def State.swapBanks (s : State) (e : Nat) : State :=
  let old := s.activeBank e
  let ea := s.activeEpoch e
  let es := s.shift.epoch
  let ms := (List.range 4).flatMap (fun vn => (s.affected e vn).map (fun d => (d, vn, es)))
  let out := ms.map (fun m => s.markPacket e old m.2.1 m.1 es)
  let s := s.updNi e (fun n => { n with formed := n.formed ++ out, marks := ms, shifting := true })
  let s := ((s.setRfld (aNiRtCtl e) 8 8 (1 - old)).setRfld (aNiRtCtl e) 3 0 es).setRfld (aNiRtCtl e) 7 4 ea
  let s := s.shiftProgress e
  if s.marked e = [] then (if e = 68 then [64, 65, 66, 67, 68, 69] else [e]).foldl (fun s x => s.resendParked x) s else s

/-- HB_SHIFT_GO (R318, R319): refused while a shift runs or an NI's EPOCH_S differs from EPOCH. -/
def State.shiftGo (s : State) : State :=
  let ep := s.rfld aHbShift 3 0
  let src := s.shiftSources
  let nis := src.filter (fun e => e ≠ 68)
  if s.shift.busy ∨ nis.any (fun e => s.rfld (aNiRtCtl e) 7 4 != ep) then s.cfgReject aHbShift
  else
    let s := ({ s with shift := ⟨true, ep, src, src⟩ }).shiftRegs
    let s := nis.foldl (fun s e => s.unitSend 68 (controlMsg e 0 [])) s
    s.swapBanks 68

/-- SHIFT_ARRIVAL (R319 step 3). An NI that has shifted and has no marks left answers a repeated SHIFT with SHIFT_DONE (R330). -/
def State.shiftArrival (s : State) (e : Nat) : State :=
  match s.takeReq e (fun p => p.opc == .control && p.sub == 0) with
  | none => s
  | some (_, s) =>
    if !s.shift.busy ∨ (s.ni e).shifting then s
    else if s.activeEpoch e = s.shift.epoch then s.unitSend e (controlMsg 68 1 [])
    else s.swapBanks e

/-- EPOCH_MARK_ARRIVAL (R319 step 4). -/
def State.markArrival (s : State) (e : Nat) : State :=
  match s.takeReq e (fun p => p.opc == .epochMark) with
  | none => s
  | some (p, s) =>
    (s.updNi e (fun n => { n with lastEpoch := Tbl.set 0 n.lastEpoch (p.src * 4 + p.vn) (p.epoch + 1) })).unitSend e
      (controlMsg p.src 2 [mkWide 0 (BitVec.ofNat 64 (p.vn + 4 * p.dest))])

/-- MARK_ACK_ARRIVAL (R319 step 5). -/
def State.markAckArrival (s : State) (e : Nat) : State :=
  match s.takeReq e (fun p => p.opc == .control && p.sub == 2) with
  | none => s
  | some (p, s) =>
    let a := p.argA.toNat
    (s.updNi e (fun n => { n with marks := n.marks.filter (fun m => !(m.1 == a / 4 && m.2.1 == a % 4)) })).shiftProgress e

/-- MARK_RETRANSMIT: every mark without an acknowledgement is sent again, over the bank it was sent over. The hub sends SHIFT again to every
source that owes SHIFT_DONE, and the lock unit the boosts in force and the latest BOOST_END of each lock, which nothing acknowledges (R330). -/
def State.markRetransmit (s : State) (e : Nat) : State :=
  let b := 1 - s.activeBank e
  let out := (s.ni e).marks.map (fun m => s.markPacket e b m.2.1 m.1 m.2.2)
  let s := s.updNi e (fun n => { n with formed := n.formed ++ out })
  if e = 68 then (s.shift.pending.filter (fun e => e ≠ 68)).foldl (fun s x => s.unitSend 68 (controlMsg x 0 [])) s
  else if e = 65 then s.locks.foldl (fun s x =>
    let s := match x.2.holder, x.2.boost with
      | some w, some l => s.unitSend 65 (boostMsg x.1 w (some l))
      | _, _ => s
    match x.2.ended with
    | some w => if w.inModule then s.unitSend 65 (boostMsg x.1 w none) else s
    | none => s) s
  else s

/-- SHIFT_DONE_ARRIVAL at the hub. -/
def State.shiftDoneArrival (s : State) : State :=
  match s.takeReq 68 (fun p => p.opc == .control && p.sub == 1) with
  | none => s
  | some (p, s) => s.shiftDoneOf p.src

/-! Shifts of the cluster power handshakes (R496, R497, R499). `goal` of a cluster: 1 a drain waits for its shift, 2 its shift was
started, 3 a wake waits for its shift, 4 its shift was started, 5 FREEWHEEL requested, 6 woken from FREEWHEEL. -/

def State.goal (s : State) (c : Nat) : Nat := Tbl.get 0 s.pw.goal c
def State.setGoal (s : State) (c g : Nat) : State := { s with pw := { s.pw with goal := Tbl.set 0 s.pw.goal c g } }
def State.setClState (s : State) (c v : Nat) : State := s.setRfld (aPwrStatus c) 63 61 v
/-- Cluster c enters FREEWHEEL: every bank of its scratch is retained (R274). -/
def State.setFreewheel (s : State) (c : Nat) : State := (s.setClState c 2).setRfld (aScRet c) 47 32 0xFFFF
/-- Cluster c leaves FREEWHEEL: the banks that MASK does not retain are awake. -/
def State.leaveFreewheel (s : State) (c : Nat) : State :=
  (s.setClState c 0).setRfld (aScRet c) 47 32 (s.rfld (aScRet c) 47 32 &&& s.rfld (aScRet c) 15 0)
/-- An access to something of the cluster side wakes cluster c from FREEWHEEL, and FW_WAKES counts it (R495). -/
def State.accessWake (s : State) (c : Nat) : State :=
  let a := aPwrStatus c
  ((s.leaveFreewheel c).setRfld a 15 0 (satInc 16 (s.rfld a 15 0))).setGoal c 6
/-- Copy the routes of the active bank of e into its shadow bank, and its off mask with bit c as given. -/
def State.loadShadow (s : State) (c : Nat) (off : Bool) (e : Nat) : State :=
  let a := s.activeBank e
  let s := if e < 64 then
      (List.range 272).foldl (fun s d => s.setReg (aNiRt e (1 - a) d) (s.reg (aNiRt e a d))) s
    else (List.range 64).foldl (fun s d => (s.setReg (aHbRt (1 - a) d 0) (s.reg (aHbRt a d 0))).setReg (aHbRt (1 - a) d 1) (s.reg (aHbRt a d 1))) s
  s.setReg (aNiOff e (1 - a)) (setBit (s.reg (aNiOff e a)) c off)
/-- The MC writes bit c of every shadow mask and the next epoch, and runs a shift. -/
def State.maskShift (s : State) (c : Nat) (off : Bool) : State :=
  let ep := (s.activeEpoch 68 + 1) % 16
  let s := s.shiftSources.foldl (fun s e => (s.loadShadow c off e).setRfld (aNiRtCtl e) 7 4 ep) s
  (s.setRfld aHbShift 3 0 ep).shiftGo
/-- Beynas writes into the shadow bank of e routes that avoid the links that are DOWN (R317). -/
def State.writeRoutes (s : State) (e : Nat) : State :=
  let b := 1 - s.activeBank e
  if e < 64 then
    let hub := routeEntryOf (s.detourHub e false) (s.detourHub e true) (routeHub e false) (routeHub e true)
    let t := (List.range 64).foldl (fun t d =>
      t.setReg (aNiRt e b d) (routeEntryOf ((s.detour e d 10 false).map (·.1)) ((s.detour e d 10 true).map (·.1)) (routeTo e d false) (routeTo e d true))) s
    ([64, 65, 66, 67, 68, 69] ++ (List.range 16).map (256 + ·)).foldl (fun t d => t.setReg (aNiRt e b d) hub) t
  else
    (List.range 64).foldl (fun t d =>
      let f := s.detourFrom d false
      let r := s.detourFrom d true
      let sp := spokeFor d
      (t.setReg (aHbRt b d 0) (routeEntryOf (f.map (·.1)) (r.map (·.1)) (routeTo sp d false) (routeTo sp d true))).setReg (aHbRt b d 1)
        (BitVec.ofNat 64 (put 7 4 ((r.map (·.2)).getD (spokeOf sp)) + put 3 0 ((f.map (·.2)).getD (spokeOf sp))))) s
/-- The links have changed: new routes in every shadow bank, its mask as before, the next epoch, and a shift (R317, R323, R324). -/
def State.reroute (s : State) : State :=
  let ep := (s.activeEpoch 68 + 1) % 16
  let s := s.shiftSources.foldl (fun s e =>
    ((s.writeRoutes e).setReg (aNiOff e (1 - s.activeBank e)) (s.reg (aNiOff e (s.activeBank e)))).setRfld (aNiRtCtl e) 7 4 ep) s
  (({ s with mc := { s.mc with reroute := false } } : State).setRfld aHbShift 3 0 ep).shiftGo
/-- Beynas does so when the firmware runs, the dies are powered and no shift is under way. -/
def State.rerouteDue (s : State) : Bool := s.mc.reroute && s.mc.up && !s.shift.busy && s.rfld aPwState 63 62 == 0

/-- Step 7 of R499: parked tokens leave for cluster c, which is ACTIVE, or in FREEWHEEL as requested. -/
def State.wakeDone (s : State) (c : Nat) : State :=
  let l := Tbl.get [] s.parked c
  let s := { s with parked := Tbl.set [] s.parked c [] }
  let s := l.foldl (fun s p => s.unitSend 66
    { dest := c, opc := .token, pri := p.pri, spec := p.spec, body := p.body, act := 0, cls := .none, ae := none, fault := p.fault }) s
  let fw := s.rfld (aPwrCtl c) 1 0 == 1
  (if fw then s.setFreewheel c else s.setClState c 0).setGoal c 0
/-- Once no shift runs: wakes whose shift is done end, and the next handshake that waits runs its shift. -/
def State.powerShift (s : State) : State :=
  if s.shift.busy then s
  else
    let s := ((List.range 64).filter (fun c => s.goal c == 4)).foldl (fun s c => s.wakeDone c) s
    match (List.range 64).find? (fun c => s.goal c == 1 || s.goal c == 3) with
    | none => if s.rerouteDue then s.reroute else s
    | some c =>
      if s.goal c = 1 then ((s.setClState c 4).setGoal c 2).maskShift c true
      else (s.setGoal c 4).maskShift c false

def execHbShiftGo (s : State) : Out := onModule s (fun s => s.shiftGo)
def execShiftArrival (e : Nat) (s : State) : Out := onEndpoint e s (fun s => s.shiftArrival e)
def execEpochMarkArrival (e : Nat) (s : State) : Out := onEndpoint e s (fun s => s.markArrival e)

end Sys2Proof.Machine
end

