-- ==== Sys2Proof/Machine/Locks.lean ====
section
/-! DEFINITION. The lock unit (R409 to R425): grants, queues, releases, leases, abandonment and priority inheritance. -/

namespace Sys2Proof.Machine

/-! Requests. -/

def Packet.lockNo (p : Packet) : Nat := p.spec / 2 ^ 10 % 1024
def Packet.isRel (p : Packet) : Bool := p.spec.testBit 9
/-- The identity and priority a LOCK packet carries (R410, R420). -/
def Packet.waiter (p : Packet) : Waiter :=
  { ep := p.src, ctx := tCtx p.rtag, pe := fld p.argA 8 0, pri := p.pri, tag := p.rtag }
def State.waitersInUse (s : State) : Nat := s.locks.foldl (fun n x => n + x.2.waiters.length) 0

/-- LOCK_ACQ_REQUEST (R411). -/
def State.lockAcq (s : State) : State :=
  match s.takeReq 65 (fun p => p.opc == .lock && !p.isRel) with
  | none => s
  | some (p, s) =>
    let n := p.lockNo
    let w := p.waiter
    let l := s.lock n
    match l.holder with
    | none =>
      let r := s.grantLock n w
      (r.2.answer 65 p stDONE (some (p.rtag, mkWide 0 r.1))).boostUpdate n
    | some h =>
      if h.same w then
        let l := { l with since := s.now, span := l.leaseUs }
        (s.setLock n l).answer 65 p stDONE (some (p.rtag, mkWide 0 (l.word true)))
      else if l.waiters.length < 8 ∧ s.waitersInUse < 4096 ∧ !l.waiters.any (fun v => v.same w) then
        ((((s.setLock n { l with waiters := l.waiters ++ [w] }).answer 65 p stDEFERRED none).bumpLk lsQUEUED)).boostUpdate n
      else (s.answer 65 p stDONE (some (p.rtag, mkWide 0 (l.word false)))).bumpLk lsQFULL

/-- A release by an identity that does not hold the lock (R415). -/
def State.lockViolation (s : State) (n : Nat) (w : Waiter) : State :=
  let owner := ((s.lock n).holder.map Waiter.owner).getD 0
  (s.bumpLk lsVIOL).log 65 .lockViolation .deferred (BitVec.ofNat 64 (put 9 0 n + put 28 16 w.ep + put 47 32 owner)) none (some w.ctx)

/-- LOCK_REL_REQUEST (R414, R415). -/
def State.lockRel (s : State) : State :=
  match s.takeReq 65 (fun p => p.opc == .lock && p.isRel) with
  | none => s
  | some (p, s) =>
    let n := p.lockNo
    if ((s.lock n).holder.map (fun h => h.same p.waiter)).getD false then
      let s := s.endHold n false
      s.answer 65 p stDONE (if p.nr then none else some (p.rtag, mkWide 0 (s.lock n).status))
    else (s.lockViolation n p.waiter).refuse 65 p .lockViolation n

/-- An MGT read of LK_ACQ[n] by endpoint ep in context ctx (R412); an observer only reads the status word. -/
def State.lkAcqRead (s : State) (n ep ctx : Nat) (observe : Bool) : Word × State :=
  let l := s.lock n
  let w : Waiter := { ep := ep, ctx := ctx, pe := 0x1FF, pri := 7, tag := 0 }
  if observe then (l.status, s)
  else match l.holder with
    | none => s.grantLock n w
    | some h =>
      if h.same w then
        let l := { l with since := s.now, span := l.leaseUs }
        (l.word true, s.setLock n l)
      else (l.word false, s)

/-- An MGT write of LK_REL[n] (R414, R415): whether it was performed. -/
def State.lkRelWrite (s : State) (n ep ctx : Nat) : Bool × State :=
  let w : Waiter := { ep := ep, ctx := ctx, pe := 0x1FF, pri := 7, tag := 0 }
  if ((s.lock n).holder.map (fun h => h.same w)).getD false then (true, s.endHold n false)
  else (false, s.lockViolation n w)

/-- An MGT write with the STATUS of its RESP in `rdata` (R415). -/
def relAnswered (r : Bool × State) : State := { r.2 with rdata := [if r.1 then 0 else BitVec.ofNat 64 stDENIED] }
/-- Run f when the lock exists (R409). -/
def onLock (n : Nat) (s : State) (f : State → State) : Out := onUnit "lock" n 1024 s f

def execLockAcqRequest (s : State) : Out := onModule s (fun s => s.lockAcq)
def execLockRelRequest (s : State) : Out := onModule s (fun s => s.lockRel)
/-- LK_ACQ_READ: the word read stands in `rdata`. -/
def execLkAcqRead (n ep ctx : Nat) (observe : Bool) (s : State) : Out :=
  onLock n s (fun s => let r := s.lkAcqRead n ep ctx observe; { r.2 with rdata := [r.1] })
/-- LK_REL_WRITE: the STATUS of its RESP stands in `rdata`, DENIED for a wrong identity (R415). -/
def execLkRelWrite (n ep ctx : Nat) (s : State) : Out := onLock n s (fun s => relAnswered (s.lkRelWrite n ep ctx))
/-- LOCK_LEASE_EXPIRED (R418): the lease timer of a held lock reaches zero. -/
def execLockLeaseExpired (n : Nat) (s : State) : Out :=
  onLock n s (fun s => if (s.lock n).holder.isSome then (s.bumpLk lsEXPIRE).abandon n true else s)

/-! Boosts at the holder (R106, R422). -/

/-- The boost level of a context at endpoint e. -/
def Ni.boostOf (n : Ni) (k : Nat) : Nat := (n.boosts.filter (fun b => b.1 == k)).foldl (fun m b => max m b.2.2) 0
/-- Pass a context's boost level to the PEs of endpoint e: their ready entries move with their original stamps. -/
def State.passBoost (s : State) (e k : Nat) : State :=
  let lvl := (s.ni e).boostOf k
  (endpointPes e).foldl (fun s n => s.updPe n (fun p =>
    let move (l : List ReadyE) : List ReadyE := l.map (fun r => if tagCtxKey n (tCtx r.key) = k then { r with pri := max r.base lvl } else r)
    { p with boosts := p.boosts.filter (fun b => b.1 ≠ k) ++ (if lvl = 0 then [] else [(k, lvl)]), ready := move p.ready,
             backlog := move p.backlog })) s

/-- BOOST_ARRIVAL: a change of level enters the 64-entry table; a full table drops a new entry. -/
def State.boostArrival (s : State) (e : Nat) : State :=
  match s.takeReq e (fun p => p.opc == .control && p.sub == 8) with
  | none => s
  | some (p, s) =>
    let k := ctxKey (e == 69) (fld p.argA 19 0)
    let n := fld p.argA 29 20
    let lvl := fld p.argA 34 32
    let tbl := (s.ni e).boosts
    if tbl.any (fun b => b.1 == k && b.2.1 == n) then
      (s.updNi e (fun x => { x with boosts := tbl.map (fun b => if b.1 = k ∧ b.2.1 = n then (k, n, lvl) else b) })).passBoost e k
    else if tbl.length < 64 then (s.updNi e (fun x => { x with boosts := tbl ++ [(k, n, lvl)] })).passBoost e k
    else (s.bumpNi e nsBOOSTDROP).logFree e .boostDropped .deferred none (some (ctxId k))
/-- BOOST_END_ARRIVAL: an entry the table does not hold is ignored. -/
def State.boostEndArrival (s : State) (e : Nat) : State :=
  match s.takeReq e (fun p => p.opc == .control && p.sub == 9) with
  | none => s
  | some (p, s) =>
    let k := ctxKey (e == 69) (fld p.argA 19 0)
    let n := fld p.argA 29 20
    (s.updNi e (fun x => { x with boosts := x.boosts.filter (fun b => !(b.1 == k && b.2.1 == n)) })).passBoost e k

def execBoostArrival (e : Nat) (s : State) : Out := onEndpoint e s (fun s => s.boostArrival e)
def execBoostEndArrival (e : Nat) (s : State) : Out := onEndpoint e s (fun s => s.boostEndArrival e)

end Sys2Proof.Machine
end

