-- ==== Sys2Proof/Machine/Contexts.lean ====
section
/-! DEFINITION. Context managers: creation, ends, windows, kills, drain rounds, stall examination, victims (R38 to R61, R87 to
R98, R110). -/

namespace Sys2Proof.Machine

/-- Contexts of the owner at endpoint e, with their keys. -/
def State.ownCtxs (s : State) (e : Nat) : List (Nat × Ctx) := s.ctxs.filter (fun x => ctxOwner x.1 == e)
/-- Key of local id i of the owner at endpoint e. -/
def ownKey (e i : Nat) : Nat := if e = 69 then 2 ^ 20 + i else e * 16384 + i
def ownIds (e : Nat) : Nat := if e = 69 then 256 else 16384

/-! SERVICE requests (R304). -/

def Packet.svc (p : Packet) : Nat := p.spec / 512 % 16
/-- Take the first SERVICE request with a subcode at endpoint e. -/
def State.takeSvc (s : State) (e sub : Nat) : Option (Packet × State) := s.takeReq e (fun p => p.opc == .service && p.svc == sub)
/-- Refuse a request whose arguments fail their check: ILLEGAL_FIELD, whose DETAIL the manual does not give here. -/
def State.refuseArgs (s : State) (e : Nat) (p : Packet) : State :=
  let d := s.draw
  d.2.refuse e p .illegalField (fld (Config.eventDetail d.1) 47 0)
/-- A reply value with a status in bits 63:56 (R45, R55). -/
def statusVal (st : Nat) (low : Nat) : Wide := mkWide 0 (BitVec.ofNat 64 (put 63 56 st + low))

/-- The context a FREECTX, FREECTX.I or KILLCTX names, when the arguments are well formed and e owns it (R183, R304). -/
def Packet.ctxArg (p : Packet) (e : Nat) : Option Nat :=
  let a := p.argA
  let ks := bitAt a 63
  let id := fld a 19 0
  if fld a 62 20 ≠ 0 then none
  else if ks then (if e = 69 ∧ id < 256 then some (2 ^ 20 + id) else none)
  else if id / 16384 = e then some id else none

/-! Creation (R45, R46, R87, R88, R90, R92). -/

/-- What a NEWCTX request asks for (R182). -/
def Packet.newCtx (p : Packet) (creator : Nat) (born : Word) : Ctx :=
  let a := p.argA
  { Ctx.init with state := .live, pri := fld a 63 61, cad := bitAt a 60, itw := fld a 59 56, hv := bitAt a 55, hpe := fld a 54 46,
                  hip := fld a 45 33, credits := fld a 19 0, stallLimit := fld p.argB 23 0, creator := creator, born := born.toNat }
/-- The creator to record: the requester's context, or for a partner the owner's root context (R41, R304). -/
def Packet.creator (p : Packet) (e : Nat) : Nat :=
  if 256 ≤ p.src then ownKey e 0 else ctxKey (p.src == 69) (tCtx p.rtag)
/-- The arguments of NEWCTX (R182, R304). -/
def Packet.newOk (p : Packet) (e : Nat) : Bool :=
  let a := p.argA
  let b := p.argB
  fld a 32 20 == 0 && fld b 63 32 == 0 && decide (fld a 59 56 ≤ 12) && p.len == 2
    && (if e = 69 then fld b 31 24 == 0x41 else fld b 31 24 == e)
def State.avail (s : State) (e : Nat) : Nat := s.rfld (aCredit e) 23 0
/-- The lowest free local id (R44). Fuel bounds the search. -/
def State.lowestFree (s : State) (e : Nat) : Nat → Nat → Option Nat
  | 0, _ => none
  | n + 1, i => if i < ownIds e then (if (s.ctx (ownKey e i)).state = .free then some i else s.lowestFree e n (i + 1)) else none
def State.freeId (s : State) (e : Nat) : Option Nat := s.lowestFree e ((s.ownCtxs e).length + 1) 0
/-- Create the context of request p and return the reply value (R43 to R45). -/
def State.createCtx (s : State) (e : Nat) (p : Packet) (i : Nat) : Wide × State :=
  let k := ownKey e i
  let c := p.newCtx (p.creator e) s.tb
  let s := ((s.setCtx k c).setRfld (aCredit e) 23 0 (s.avail e - c.credits)).writeDesc k
  (statusVal 0 (put 55 55 (decide (e = 69)).toNat + ctxId k), s)
/-- Whether request p can be admitted now, and the id it would get. -/
def State.admitId (s : State) (e : Nat) (p : Packet) : Option Nat :=
  if fld p.argA 19 0 ≤ s.avail e then s.freeId e else none
/-- The spawn-queue head: highest requested priority, then arrival (R90). -/
def spawnHead : List Packet → Option Packet
  | [] => none
  | p :: r => match spawnHead r with
    | none => some p
    | some q => if fld q.argA 63 61 ≤ fld p.argA 63 61 then some p else some q

/-- CM_NEWCTX_REQUEST. A request that would stand at the head and fits is admitted at once; any other waits in the spawn queue, or at the
interface while the queue's overflow finds no space (R94). -/
def State.cmNew (s0 : State) (e : Nat) : State :=
  match s0.takeSvc e 0 with
  | none => s0
  | some (p, s) =>
    if !p.newOk e then s.refuseArgs e p
    else if s.rfld (aCredit e) 55 32 < fld p.argA 19 0 then s.refuseArgs e p
    else if s.pressure then s.answer e p stDONE (some (p.rtag, statusVal 14 0)) true
    else
      let first := (s.cm e).spawn.all (fun q => decide (fld q.argA 63 61 < fld p.argA 63 61))
      match (if first then s.admitId e p else none) with
      | some i => let r := s.createCtx e p i; r.2.answer e p stDONE (some (p.rtag, r.1)) true
      | none =>
        if 64 ≤ (s.cm e).spawn.length ∧ !s.auxRoom e .spawn 64 then s0
        else ((s.updCm e (fun m => { m with spawn := m.spawn ++ [p] })).answer e p stDEFERRED none).pressureCheck

/-- A deferred NEWCTX reply as a TOKEN packet with NEWCTXR set (R90). -/
def newReply (p : Packet) (v : Wide) : Msg :=
  tokenMsg (if 256 ≤ p.src then p.src else peEndpoint (tPe p.rtag)) p.rtag v 0 .none true
/-- SPAWN_QUEUE_ADMIT: the head is answered NO_CAPACITY under pressure, or admitted when it fits. -/
def State.spawnAdmit (s : State) (e : Nat) : State :=
  match spawnHead (s.cm e).spawn with
  | none => s
  | some p =>
    let out := s.updCm e (fun m => { m with spawn := m.spawn.erase p })
    if s.pressure then (out.unitSend e (newReply p (statusVal 14 0))).pressureCheck
    else match s.admitId e p with
      | some i => let r := out.createCtx e p i; (r.2.unitSend e (newReply p r.1)).pressureCheck
      | none => s

/-! Ends (R48, R55). -/

/-- CM_FREECTX_REQUEST: a context that is not LIVE is left as it is. -/
def State.cmFree (s : State) (e : Nat) : State :=
  match s.takeSvc e 1 with
  | none => s
  | some (p, s) => match p.ctxArg e with
    | none => s.refuseArgs e p
    | some k =>
      if isRoot k then s.refuse e p .accessDenied (ctxId k)
      else
        let s := s.answer e p stDONE none
        if (s.ctx k).state = .live then
          let w := s.waiting k
          let s := if w ≠ 0 then s.log e .freeNonempty .info (BitVec.ofNat 64 w) none (some (ctxId k)) else s
          s.startKill k none
        else s
/-- CM_KILLCTX_REQUEST: the reply to a committed kill follows its last acknowledgement. -/
def State.cmKill (s : State) (e : Nat) : State :=
  match s.takeSvc e 3 with
  | none => s
  | some (p, s) => match p.ctxArg e with
    | none => s.refuseArgs e p
    | some k =>
      if isRoot k then s.refuse e p .accessDenied (ctxId k)
      else if (s.ctx k).state = .live then s.startKill k (some p)
      else s.answer e p stDONE (some (p.rtag, statusVal 1 0))

/-! Windows (R49 to R52). -/

/-- BASE past every retired iteration. Fuel is the number of retired iterations. -/
def advanceBase (base : Nat) (l : List Nat) : Nat → Nat × List Nat
  | 0 => (base, l)
  | n + 1 => if l.contains base then advanceBase ((base + 1) % 4096) (l.erase base) n else (base, l)

/-- The owner's new BASE: held tokens are released at home, and WINDOW_ADVANCE goes to every cluster with a copy. -/
def State.moveBase (s : State) (e k base : Nat) (rest : List Nat) : State :=
  let s := s.updCtx k (fun c => { c with base := base, retired := rest })
  (((s.ctx k).copies).foldl (fun s g => s.updCm g (fun m => { m with advances := m.advances ++ [(k, base)] })) s).gateRelease e k |>.pressureCheck

/-- CM_FREECTX_I_REQUEST (R50). -/
def State.cmRetire (s : State) (e : Nat) : State :=
  match s.takeSvc e 2 with
  | none => s
  | some (p, s) => match (if fld p.argB 63 12 = 0 ∧ p.len = 2 then p.ctxArg e else none) with
    | none => s.refuseArgs e p
    | some k =>
      let c := s.ctx k
      if c.state ≠ .live then s.answer e p stDONE none
      else
        let i := fld p.argB 11 0
        let d := winDist i c.base
        if d < 2 ^ c.itw then
          let s := s.answer e p stDONE none
          if c.retired.contains i then s.bumpCm e csRERETIRE
          else
            let l := c.retired ++ [i]
            let r := advanceBase c.base l l.length
            if r.1 = c.base then s.updCtx k (fun c => { c with retired := l }) else s.moveBase e k r.1 r.2
        else if staleAt (2 ^ c.itw) d then (s.answer e p stDONE none).bumpCm e csRERETIRE
        else
          let f := s.draw
          let d := fld (Config.eventDetail f.1) 47 0
          if 256 ≤ p.src then f.2.refuse e p .illegalSequence d
          else (f.2.answer e p stFAULTED none).deliverTo k e none p.rtag true .illegalSequence 0 d

/-- WINDOW_QUERY: the owner of context k answers the gate at endpoint g with BASE and keeps it in its list of copies. -/
def State.windowQuery (s : State) (g k : Nat) : State :=
  if (s.cm g).asked.contains k then
    let s := s.updCtx k (fun c => { c with copies := if c.copies.contains g then c.copies else c.copies ++ [g] })
    s.updCm g (fun m => { m with asked := m.asked.erase k, answers := m.answers ++ [(k, (s.ctx k).base)] })
  else s

/-- Enter a copy of BASE in the 64-entry cache; which entry leaves a full cache is a free value, one without held tokens if any. -/
def State.cacheBase (s : State) (g k base : Nat) : State :=
  let m := s.cm g
  if (m.cache.map (·.1)).contains k ∨ m.cache.length < 64 then s.updCm g (fun m => { m with cache := Tbl.set 0 m.cache k (base + 1) })
  else
    let keys := m.cache.map (·.1)
    let idle := keys.filter (fun x => !m.heldCtxs.contains x)
    let r := s.freeOf (if idle = [] then keys else idle)
    match r.1 with
    | none => s
    | some x => r.2.updCm g (fun m => { m with cache := Tbl.set 0 (Tbl.del m.cache x) k (base + 1),
                                               asked := if m.heldCtxs.contains x then m.asked ++ [x] else m.asked })

/-- WINDOW_CACHE_ANSWER. -/
def State.windowAnswer (s : State) (g k : Nat) : State :=
  match (s.cm g).answers.find? (fun x => x.1 = k) with
  | none => s
  | some x => ((s.updCm g (fun m => { m with answers := m.answers.erase x })).cacheBase g k x.2).gateRelease g k |>.pressureCheck
/-- WINDOW_ADVANCE: an advance follows an answer already on its way; one without a copy and without held tokens is ignored. -/
def State.windowAdvance (s : State) (g k : Nat) : State :=
  match (s.cm g).advances.find? (fun x => x.1 = k) with
  | none => s
  | some x =>
    if (s.cm g).answers.any (fun y => y.1 = k) then s
    else
      let s := s.updCm g (fun m => { m with advances := m.advances.erase x })
      if Tbl.get 0 (s.cm g).cache k ≠ 0 ∨ (s.cm g).heldCtxs.contains k then ((s.cacheBase g k x.2).gateRelease g k).pressureCheck else s

/-! Kills (R54, R56, R57, R60, R242). -/

/-- Refill the ready list up to `lim` entries from the backlog at the highest priority present (R101). Fuel is the backlog's length. -/
def bestReady : List ReadyE → Option ReadyE
  | [] => none
  | r :: l => match bestReady l with
    | none => some r
    | some q => if r.pri < q.pri ∨ (r.pri = q.pri ∧ q.stamp < r.stamp) then some q else some r
def refillReady (lim : Nat) (ready backlog : List ReadyE) : Nat → List ReadyE × List ReadyE
  | 0 => (ready, backlog)
  | n + 1 => if ready.length < lim then
      (match bestReady backlog with
       | some r => refillReady lim (ready ++ [r]) (backlog.erase r) n
       | none => (ready, backlog))
    else (ready, backlog)
def Pe.refillTo (p : Pe) (lim : Nat) : Pe :=
  let r := refillReady lim p.ready p.backlog p.backlog.length
  { p with ready := r.1, backlog := r.2 }
/-- The ready entries a PE may hold: 256 with the activation that runs (R101). -/
def Pe.readyLim (p : Pe) : Nat := 256 - p.act.isSome.toNat
/-- The highest depth of the ready list since it was last read (R109). -/
def State.noteDepth (s : State) (n : Nat) : State :=
  s.setRfld (aPeRqDepth (pairPe n)) 24 16 (max (s.rfld (aPeRqDepth (pairPe n)) 24 16) (s.pe n).ready.length)
/-- PE n's ready list takes entries from its backlog. -/
def State.refillPe (s : State) (n : Nat) : State := (s.updPe n (fun p => p.refillTo p.readyLim)).noteDepth n

/-- Clear and unbind LACC i of PE n. -/
def State.unbindLacc (s : State) (n i : Nat) : State := s.setLacc n i Lacc.init

/-- Step 3 of a kill at PE n: the running activation, ready entries, suspended activations, waiting tokens and records of context k go, of the
PARTIAL records those with property f; what has issued remains, and the long accumulators bound to k are cleared. -/
def State.cancelOf (s : State) (n k : Nat) (f : MRec → Bool) : State :=
  let mine (w : Word) : Bool := tagCtxKey n (tCtx w) == k
  let s := match s.act n with
    | some a => if mine a.tag then s.leave n a a.flights else s
    | none => s
  let p := s.pe n
  let traps := p.frames.filter (fun x => match x.2 with
    | some f => mine f.act.tag && !f.inReady
    | none => false)
  let dead := (p.ready ++ p.backlog).filter (fun r => mine r.key)
  let part := p.recs.filter (fun r => mine r.key && !r.ready && f r)
  let look := p.lookups.filter (fun l => mine l.tok.tag)
  let s := s.bumpPe n psCANCELLED (traps.length + dead.length + part.length + look.length)
  let s := s.setPe n
    { p with ready := p.ready.filter (fun r => !mine r.key), backlog := p.backlog.filter (fun r => !mine r.key),
             recs := p.recs.filter (fun r => !(mine r.key && (r.ready || f r))), lookups := p.lookups.filter (fun l => !mine l.tok.tag),
             fillBuf := p.fillBuf.filter (fun w => !mine w),
             laccSaved := p.laccSaved.map (fun l => if l.bound && ctxKey false l.owner == k then Lacc.init else l),
             shadow := if (bestReady p.ready).any (fun r => mine r.key) then none else p.shadow }
  let gone := p.frames.filter (fun x => x.2.any (fun f => mine f.act.tag))
  let s := gone.foldl (fun s x => s.freeFrame n x.1) s
  let s := s.refillPe n
  let s := look.foldl (fun s l => s.orphanFree (peEndpoint n) l.tok) s
  if peKind n = .a then
    (List.range 4).foldl (fun s i => if (s.lacc n i).bound && ctxKey false (s.lacc n i).owner == k then s.unbindLacc n i else s) s
  else s

/-- Step 3 of a kill at PE n as a whole. -/
def State.cancelPe (s : State) (n k : Nat) : State := s.cancelOf n k (fun _ => true)

/-- Void the deferred replies of context k in the pool and overflow of cluster c. -/
def State.voidDefers (s : State) (c k : Nat) : State :=
  let mark (l : List Defer) : List Defer := l.map (fun d => if tKey d.tag = k ∧ d.ep < 256 then { d with void := true } else d)
  let here (a : Nat) : Bool := decide (scrBase c ≤ a ∧ a < scrBase c + 0x100000)
  { s with defers := s.defers.map (fun x => if here x.1 then (x.1, mark x.2) else x),
           rels := s.rels.map (fun x => (x.1, x.2.map (fun r => if here r.addr then { r with list := mark r.list } else r))) }

/-- The gate at endpoint e forgets its copy of BASE of a context that ends, with what is on its way about it (R51). -/
def State.forgetBase (s : State) (e k : Nat) : State :=
  s.updCm e (fun m => { m with asked := m.asked.erase k, cache := Tbl.del m.cache k, answers := m.answers.filter (fun x => x.1 ≠ k),
                               advances := m.advances.filter (fun x => x.1 ≠ k) })
/-- Purge the tokens held for context k and the spawn requests it issued at the context manager of e. -/
def State.purgeCm (s : State) (e k : Nat) : State :=
  (s.forgetBase e k).updCm e (fun m => { m with
    gate := m.gate.filter (fun h => tKey h.tok.tag ≠ k)
    spawn := m.spawn.filter (fun p => decide (256 ≤ p.src) || ctxKey (p.src == 69) (tCtx p.rtag) != k) })

/-- Move a unit of a kill from the units not reached to those that will acknowledge. -/
def Kill.reached (x : Kill) (u : UnitId) : Kill := { x with toReach := x.toReach.erase u, toAck := x.toAck ++ [u] }
def State.updKill (s : State) (k : Nat) (f : Kill → Kill) : State :=
  s.updCm (ctxOwner k) (fun m => { m with kills := m.kills.map (fun x => if x.ctx = k then f x else x) })
def State.killOf (s : State) (k : Nat) : Option Kill := (s.cm (ctxOwner k)).kills.find? (fun x => x.ctx = k)

/-- The routine that PE n's micro-sequencer runs (R438): the one that has begun, or a bulk spill, which begins when its cluster drains, the shift is
done and no activation runs (R446, R497). -/
def State.routine (s : State) (n : Nat) : Option Routine :=
  match (s.pe n).useq.running with
  | some r => some r
  | none =>
    if (s.pe n).useq.slots = [] ∧ n < 272 ∧ s.clState (peCluster n) = 4 ∧ !s.shift.busy ∧ (s.pe n).act.isNone then some ⟨.bulkSpill, 0, 0⟩ else none
/-- KILL(k) at PE n, once its micro-sequencer takes it: the sweeps of step 3, then the acknowledgement is due (R445), or, staged at a full kill
filter, once an entry frees (R57). -/
def State.takeKill (s : State) (n k : Nat) : State :=
  let s := (s.cancelPe n k).voidDefers (peEndpoint n) k
  (if (s.pe n).killStage.contains k then s else s.updKill k (fun x => x.reached (.pe n))).pressureCheck

/-- The spill engine purges parked tokens of context k (R496). -/
def State.purgeParked (s : State) (k : Nat) : State :=
  { s with parked := (s.parked.map (fun x => (x.1, x.2.filter (fun p => tKey p.token.tag ≠ k)))).filter (fun x => x.2 ≠ []) }

/-- KILL(k) reaches unit u. A PE whose micro-sequencer runs a long routine keeps it for its next trap window (R444). `portKill` is what a port
controller does with the tokens of its reorder windows (R370). -/
def State.killArrival (s : State) (u : UnitId) (k : Nat) (portKill : State → Nat → Nat → State) : State :=
  match s.killOf k with
  | none => s
  | some x =>
    if !x.toReach.contains u then s
    else
      let done (s : State) : State := (s.updKill k (fun x => x.reached u)).pressureCheck
      match u with
      | .pe n =>
        let p := s.pe n
        if (s.routine n).isSome then
          if p.useq.killTrap.isSome then s
          else if p.killFilter.length < 64 then s.setPe n { p with killFilter := p.killFilter ++ [k], useq := { p.useq with killTrap := some k } }
          else if p.killStage = [] then s.setPe n { p with killStage := [k], useq := { p.useq with killTrap := some k } }
          else s
        else if p.killFilter.length < 64 then
          done (((s.updPe n (fun p => { p with killFilter := p.killFilter ++ [k] })).cancelPe n k).voidDefers (peEndpoint n) k)
        else if p.killStage = [] then
          (((s.updPe n (fun p => { p with killStage := [k] })).cancelPe n k).voidDefers (peEndpoint n) k).pressureCheck
        else s
      | .cm e => done ((s.purgeCm e k).voidDefers e k)
      | .spill => done ((s.purgeParked k).lockKill k)
      | .port p => done (portKill s p k)
      | .ni _ | .hub => s

/-- The sources and destinations of drain marks (R58): interfaces of powered dies, hub endpoints, ports; clusters and the keeper block. -/
def State.drainSources (s : State) : List Nat :=
  (List.range 64).filter s.dieOn ++ [64, 65, 66, 67, 68, 69] ++ (List.range 16).map (fun p => 256 + 256 * p)
def State.drainDests (s : State) : List Nat := (List.range 64).filter s.dieOn ++ [69]
/-- The number marks of a round carry: it tells the owner. -/
def drainNumber (e round : Nat) : Nat := (round * 65 + (if e < 64 then e else 64)) % 2 ^ 16
/-- Begin a drain round over the contexts in QUARANTINE, up to 64, when none runs (R58). -/
def State.beginDrain (s : State) (e : Nat) : State :=
  let l := (((s.ownCtxs e).filter (fun x => x.2.state = .quarantine)).map (·.1)).take 64
  if (s.cm e).drain.isSome ∨ l = [] then s
  else s.updCm e (fun m => { m with drainRound := m.drainRound + 1,
                                    drain := some ⟨drainNumber e m.drainRound, l, s.drainSources, s.drainSources, s.drainDests, []⟩ })

/-- KILL_ACK_ARRIVAL (units that lost power are no longer waited for): with the last acknowledgement the context enters QUARANTINE, its credits return
and the reply leaves. -/
def State.killAck (s : State) (e : Nat) (u : UnitId) (k : Nat) : State :=
  if ctxOwner k ≠ e then s else
  match s.killOf k with
  | none => s
  | some x =>
    if !x.toAck.contains u ∧ (x.toAck ≠ [] ∨ x.toReach ≠ []) then s
    else
      let y := { x with toAck := x.toAck.erase u }
      if y.toAck ≠ [] ∨ y.toReach ≠ [] then s.updKill k (fun _ => y)
      else
        let s := s.updCm e (fun m => { m with kills := m.kills.filter (fun z => z.ctx ≠ k) })
        let s := s.setRfld (aCredit e) 23 0 (s.avail e + (s.ctx k).credits)
        let s := (s.updCtx k (fun c => { c with state := .quarantine })).writeDesc k
        let s := match x.reply with
          | some p => s.answer e p stDONE (some (p.rtag, statusVal 0 0))
          | none => s
        s.beginDrain e

/-! Drain rounds (R58, R327). -/

/-- Tokens of drained contexts that still wait in front of endpoint e's interface. -/
def State.unsentOf (s : State) (e : Nat) (l : List Nat) : Bool :=
  let hit (m : Msg) : Bool := m.opc == .token && decide (m.dest < 256) && l.contains (tKey (hi64 ((m.body[0]?).getD 0)))
  (s.ni e).outQ.any hit || (endpointPes e).any (fun n => (s.pe n).outQ.any hit || (s.pe n).outBack.any hit)

/-- The spill engine's part of a drain round (R58): the tokens of its contexts that it holds for OFF clusters, or is about to hold, go. -/
def State.purgeSpill (s : State) (l : List Nat) : State :=
  let hit (p : Packet) : Bool := p.opc == .token && l.contains (tKey p.token.tag)
  (l.foldl (fun s k => s.purgeParked k) (s.setReqs 66 ((s.reqAt 66).filter (fun p => !hit p)))).pressureCheck
/-- DRAIN_REQ_ARRIVAL at source `src` of the round of owner e: parked tokens go, then a mark follows every earlier token to every
destination. The request waits while messages of the covered contexts still wait at the interface. `portDrain` discards from a
port's reorder windows. -/
def State.drainReq (s : State) (e src : Nat) (portDrain : State → Nat → List Nat → State) : State :=
  match (s.cm e).drain with
  | none => s
  | some d =>
    if !d.toReq.contains src ∨ s.unsentOf src d.ctxs then s
    else
      let s := s.updCm e (fun m => { m with drain := some { d with toReq := d.toReq.erase src } })
      let s := (s.updNi src (fun n => { n with drains := n.drains ++ [(e, d.ctxs)] })).drainDiscard src
      let s := if 256 ≤ src then portDrain s ((src - 256) / 256) d.ctxs else if src = 66 then s.purgeSpill d.ctxs else s
      d.dests.foldl (fun s x => s.unitSend src (drainMsg x d.number)) s

/-- A token meets a PE's kill filter (R57, R59). -/
def State.filterDrop (s : State) (n : Nat) (t : Token) : State := (s.bumpPe n psCANCELLED).orphanFree (peEndpoint n) t
/-- Tokens of contexts in l that wait at the PEs of endpoint e meet the kill filter. -/
def State.filterInbox (s : State) (e : Nat) (l : List Nat) : State :=
  (endpointPes e).foldl (fun s n =>
    let hit (t : Token) : Bool := l.contains (tKey t.tag)
    let bad := (s.pe n).inbox.filter hit ++ ((s.pe n).lookups.filter (fun l => hit l.tok)).map (·.tok)
    bad.foldl (fun s t => s.filterDrop n t) (s.updPe n (fun p => { p with inbox := p.inbox.filter (fun t => !hit t),
                                                                          lookups := p.lookups.filter (fun l => !hit l.tok) }))) s

/-- The owner whose open round has a number. -/
def State.roundOwner (s : State) (number : Nat) : Option Nat :=
  allOwners.find? (fun e => match (s.cm e).drain with
    | some d => d.number == number
    | none => false)
/-- DRAIN_MARK_ARRIVAL at destination endpoint e. -/
def State.drainMark (s : State) (e : Nat) : State :=
  match s.takeReq e (fun p => p.opc == .drainMark) with
  | none => s
  | some (p, s) =>
    match s.roundOwner (p.spec % 65536) with
    | none => s
    | some o => match (s.cm o).drain with
      | none => s
      | some d =>
        let seen := if d.seen.contains (p.src, e) then d.seen else d.seen ++ [(p.src, e)]
        ((s.filterInbox e d.ctxs).pressureCheck).updCm o (fun m => { m with drain := some { d with seen := seen } })

/-- Whether every destination has a mark from every source. -/
def Drain.complete (d : Drain) : Bool :=
  d.toReq.isEmpty && d.dests.all (fun x => d.sources.all (fun y => d.seen.contains (y, x)))
/-- A kill staged at a full filter enters it once an entry frees, and its unit then acknowledges, the sweeps of step 3 done (R57). -/
def State.unstage (s : State) (n : Nat) : State :=
  match (s.pe n).killStage with
  | k :: r =>
    if (s.pe n).killFilter.length < 64 then
      let swept := (s.pe n).useq.killTrap != some k
      let s := s.updPe n (fun p => { p with killFilter := p.killFilter ++ [k], killStage := r })
      if swept then s.updKill k (fun x => x.reached (.pe n)) else s
    else s
  | [] => s
/-- DRAIN_DONE_ARRIVAL at the owner: the covered ids leave every kill filter and become FREE; a next round begins. -/
def State.drainDone (s : State) (e : Nat) : State :=
  match (s.cm e).drain with
  | none => s
  | some d =>
    if !d.complete then s
    else
      let s := s.updCm e (fun m => { m with drain := none })
      let s := d.sources.foldl (fun s x => s.updNi x (fun n => { n with drains := n.drains.filter (fun y => y ≠ (e, d.ctxs)) })) s
      let s := s.pes.foldl (fun s x =>
        (s.updPe x.1 (fun p => { p with killFilter := p.killFilter.filter (fun k => !d.ctxs.contains k) })).unstage x.1) s
      let s := s.cms.foldl (fun s x => d.ctxs.foldl (fun s k => s.forgetBase x.1 k) s) s
      let s := d.ctxs.foldl (fun s k => (s.setCtx k Ctx.init).writeDesc k) s
      s.beginDrain e

/-- Send again the drain marks of source e that no destination has recorded: a mark lost to an error (R330). -/
def State.redrain (s : State) (e : Nat) : State :=
  (allOwners.filterMap (fun o => (s.cm o).drain)).foldl (fun s d =>
    if d.sources.contains e ∧ !d.toReq.contains e then
      (d.dests.filter (fun x => !d.seen.contains (e, x))).foldl (fun s x => s.unitSend e (drainMsg x d.number)) (s.drainDiscard e)
    else s) s

/-! Stall detection (R95 to R98). -/

/-- The 64-byte units of a record, in the format of R77. -/
def MRec.image (r : MRec) (n : Nat) : List Word :=
  let tag (i : Nat) : Option Token := (r.toks.find? (fun t => t.1 = i)).map (·.2)
  let bitsOf (f : Token → Bool) : Nat := (List.range 4).foldl (fun v i => v + (match tag i with
    | some t => if f t then 2 ^ i else 0
    | none => 0)) 0
  let wmask := bitsOf (fun t => tWide t.tag)
  let pri := r.toks.foldl (fun m t => max m (tPri t.2.tag)) 0
  let w0 := put 63 62 (if r.ready then 2 else 1) + put 61 59 pri + put 58 58 (r.toks.any (fun t => tCad t.2.tag)).toNat
    + put 57 57 (r.poison || r.toks.any (fun t => tPoison t.2.tag)).toNat + put 56 53 wmask + put 52 49 (bitsOf (fun _ => true))
    + put 48 47 (r.arity - 1) + put 44 25 (tCtx r.key) + put 24 13 (tIter r.key) + put 12 0 (tIp r.key)
  let lvl := match r.level with
    | .store => 0
    | .overflow => 1
    | .deep => 2
    | .fill => 3
  let half (f : Wide → Word) : List Word := (List.range 4).map (fun i => ((tag i).map (fun t => f t.val)).getD 0)
  [BitVec.ofNat 64 w0, BitVec.ofNat 64 (put 63 32 r.arrived + put 11 10 lvl + put 8 0 n)] ++ half lo64 ++ [0, 0]
    ++ (if wmask = 0 then [] else half hi64 ++ [0, 0, 0, 0])

/-- Sort records by set, keeping the order within a set. -/
def bySet (l : List MRec) : List MRec :=
  l.foldr (fun r acc => (acc.takeWhile (fun q => decide (q.set < r.set))) ++ r :: acc.dropWhile (fun q => decide (q.set < r.set))) []
/-- The partial records of context k in the order of R98, with their PEs. -/
def State.partials (s : State) (k : Nat) : List (Nat × MRec) :=
  s.pes.flatMap (fun x =>
    let mine := x.2.recs.filter (fun r => !r.ready && r.key1 x.1 == k)
    let at_ (l : Level) : List MRec := mine.filter (fun r => r.level == l)
    (bySet (at_ .store) ++ at_ .overflow ++ at_ .deep).map (fun r => (x.1, r)))
/-- Records while they fit in the slot. -/
def takeUnits : List (List Word) → Nat → List Word × Bool
  | [], _ => ([], false)
  | r :: l, room => if r.length / 8 ≤ room then
      let x := takeUnits l (room - r.length / 8)
      (r ++ x.1, x.2)
    else ([], true)
/-- Write a snapshot of context k into the next slot of cluster c; the slot's address (R97). -/
def State.snapshot (s : State) (c k : Nat) : Nat × State :=
  let m := s.cm c
  let addr := s.rfld (aSnapBase c) 47 16 * 65536 + m.snapIdx % 16 * 4096
  let recs := s.partials k
  let body := takeUnits (recs.map (fun x => x.2.image x.1)) 63
  let held := s.cms.foldl (fun n x => n + (x.2.gate.filter (fun h => tKey h.tok.tag = k)).length) 0
  let hdr := [BitVec.ofNat 64 (put 63 32 m.snapSeq + put 19 0 (ctxId k)), s.tb, BitVec.ofNat 64 (put 31 0 recs.length),
    BitVec.ofNat 64 (put 31 0 held), BitVec.ofNat 64 (put 8 8 body.2.toNat + put 7 0 (body.1.length / 8)), 0, 0, 0]
  (addr, (s.storeWords addr (hdr ++ body.1)).updCm c (fun m => { m with snapIdx := (m.snapIdx + 1) % 16, snapSeq := (m.snapSeq + 1) % 2 ^ 32 }))

/-- One context of an examination. -/
def State.examine (s : State) (e k : Nat) : State :=
  let c := s.ctx k
  if c.state ≠ .live ∨ c.stallLimit = 0 then s
  else
    let run := if c.fired then 0 else if s.waiting k ≠ 0 then c.stallRun + 100 else c.stallRun
    let time := if !c.fired ∧ s.waiting k ≠ 0 then min (c.stallTime + 100) (2 ^ 48 - 1) else c.stallTime
    let s := (s.setCtx k { c with fired := false, stallRun := if c.stallLimit ≤ run then 0 else run, stallTime := time }).noteSat k
    if c.stallLimit ≤ run then
      let r := if e < 64 then s.snapshot e k else (0, s)
      r.2.deliverTo k e none (r.2.ctxTag k) true .ctxStall 0 r.1
    else s
/-- STALL_EXAMINATION: every LIVE context of the owner. -/
def State.stallExam (s : State) (e : Nat) : State := (s.ownCtxs e).foldl (fun s x => s.examine e x.1) s

/-- CTX_COUNTER_WRITEBACK (R110). -/
def State.counterWriteback (s : State) (e : Nat) : State := (s.ownCtxs e).foldl (fun s x => s.writeDesc x.1) s

/-! Victims (R93). -/

/-- How far a context is over its credits. -/
def State.overCredit (s : State) (k : Nat) : Int := (s.waiting k : Int) - (s.ctx k).credits
/-- Whether context a goes before b under the policy. -/
def State.victimBefore (s : State) (policy a b : Nat) : Bool :=
  let x := s.ctx a
  let y := s.ctx b
  if policy = 2 then
    decide (s.overCredit b < s.overCredit a) || (decide (s.overCredit b = s.overCredit a) && decide (x.pri < y.pri))
  else decide (x.pri < y.pri) || (decide (x.pri = y.pri) && (if policy = 0 then decide (y.born < x.born) else decide (x.born < y.born)))
/-- CTX_VICTIM: contexts that the policy does not order are chosen among by a free value. -/
def State.victim (s : State) : State :=
  let policy := s.rfld aPressCfg 1 0
  if !s.pressure ∨ policy = 3 then s
  else
    let cands := (s.ctxs.filter (fun x => decide (x.1 < 2 ^ 20) && !isRoot x.1 && x.2.state == .live)).map (·.1)
    let best := cands.filter (fun a => cands.all (fun b => !s.victimBefore policy b a))
    let r := s.freeOf best
    match r.1 with
    | none => s
    | some k =>
      let s := (r.2.log 66 .ctxVictim .fatalContext (BitVec.ofNat 64 k) none (some k)).startKill k none
      let o := (s.ctx k).creator
      if (s.ctx o).state = .live ∧ (s.ctx o).hv then s.deliverTo o 66 none (s.ctxTag o) true .ctxKilled 0 k else s

/-- CM_CTXQ_SEL_WRITE: LID, and the counters of that id as they stand; VALID is 0 when the id is FREE (R110). -/
def State.ctxqSel (s : State) (c v : Nat) : State :=
  let k := ownKey c (v % 16384)
  let x := s.ctx k
  let live := decide (x.state ≠ .free)
  let s := s.setReg (aCtxqSel c) (BitVec.ofNat 64 (put 63 63 live.toNat + put 13 0 v))
  if live then
    ((s.setRfld (aCtxqVal c 0) 47 0 (min x.fires (2 ^ 48 - 1))).setRfld (aCtxqVal c 1) 47 0 (s.waiting k)).setRfld (aCtxqVal c 2) 47 0
      (min x.stallTime (2 ^ 48 - 1))
  else s

/-! Commands. -/

/-- Run f at a context manager: a cluster's, or the keeper block's as endpoint 69. -/
def onOwner (e : Nat) (s : State) (f : State → State) : Out :=
  if e < 64 ∨ e = 69 then onModule s f else .refused (.noSuchUnit "context manager")

def execCmNewctxRequest (e : Nat) (s : State) : Out := onOwner e s (fun s => s.cmNew e)
def execSpawnQueueAdmit (e : Nat) (s : State) : Out := onOwner e s (fun s => s.spawnAdmit e)
def execCmFreectxRequest (e : Nat) (s : State) : Out := onOwner e s (fun s => s.cmFree e)
def execCmFreectxIRequest (e : Nat) (s : State) : Out := onOwner e s (fun s => s.cmRetire e)
def execCmKillctxRequest (e : Nat) (s : State) : Out := onOwner e s (fun s => s.cmKill e)
def execWindowQuery (e k : Nat) (s : State) : Out := onOwner e s (fun s => s.windowQuery e k)
def execWindowCacheAnswer (e k : Nat) (s : State) : Out := onOwner e s (fun s => s.windowAnswer e k)
def execWindowAdvance (e k : Nat) (s : State) : Out := onOwner e s (fun s => s.windowAdvance e k)
/-- MARK_RETRANSMIT: epoch marks without an acknowledgement, and drain marks not recorded, are sent again. -/
def execMarkRetransmit (e : Nat) (s : State) : Out := onEndpoint e s (fun s => (s.markRetransmit e).redrain e)
def execDrainMarkArrival (e : Nat) (s : State) : Out := onOwner e s (fun s => s.drainMark e)
/-- The end of GRAPH_STOP (R473): no context of a cluster in USED is left; CL_LOCK clears and the command is answered. -/
def State.graphStopDone (s : State) : State :=
  match s.mc.graph with
  | none => s
  | some g =>
    if g.stopping ∧ s.ctxs.all (fun x => decide (64 ≤ ctxOwner x.1) || !g.used.testBit (ctxOwner x.1)) then
      let s := ((List.range 64).filter g.used.testBit).foldl (fun s c => s.setRfld (aClLock c) 0 0 0) s
      ((s.setMc (fun m => { m with graph := none })).respond g.ask 0 []).logFree 67 .graphStop .info
    else s
def execDrainDoneArrival (e : Nat) (s : State) : Out := onOwner e s (fun s => (s.drainDone e).graphStopDone)
def execStallExamination (e : Nat) (s : State) : Out := onOwner e s (fun s => s.stallExam e)
def execCtxCounterWriteback (e : Nat) (s : State) : Out := onOwner e s (fun s => s.counterWriteback e)
def execCtxVictim (s : State) : Out := onModule s (fun s => s.victim)
def execCmCtxqSelWrite (c lid : Nat) (s : State) : Out := onCluster c s (fun s => s.ctxqSel c lid)

end Sys2Proof.Machine
end

