-- ==== Sys2Proof/Machine/Ports.lean ====
section
/-! DEFINITION. Etryn-X ports (R336 to R380): received frames, credit and replay, partner ingress and its checks, reorder windows,
egress, training and port states; and the arrivals of R54 and R58 that reach ports. -/

namespace Sys2Proof.Machine

/-! The mapping table (R360 to R362). -/

def Port.w0 (x : Port) (v : Nat) : Word := Tbl.get 0 x.map0 v
def Port.w1 (x : Port) (v : Nat) : Word := Tbl.get 0 x.map1 v
def mEN (w : Word) : Bool := bitAt w 63
def mORD (w : Word) : Bool := bitAt w 62
def mMGTR (w : Word) : Nat := fld w 53 52

/-! Towards a partner from the port itself (R365, R373). -/

/-- Queue a packet of the port for its partner. -/
def State.toPartner (s : State) (p : Nat) (q : Packet) : State := s.pushVc (96 + p) 0 q 0
/-- TOKEN_REFUSED (R373): at most one per virtual endpoint and µs, further ones are counted (R365). -/
def State.tokenRefused (s : State) (p v reason : Nat) (q : Packet) : State :=
  let last := Tbl.get 0 (s.port p).notices v
  if last ≠ 0 ∧ s.now + 1 < last + 1000 then s.bumpPt p 9
  else
    let w := mkWide q.rtag (BitVec.ofNat 64 (put 15 0 q.seq + put 23 16 reason + put 27 24 q.opc.code))
    (s.updPort p (fun x => { x with notices := Tbl.set 0 x.notices v (s.now + 1) })).toPartner p (portControl p v 0x0D w)
/-- An answer of the port to a partner's packet. -/
def State.portAnswer (s : State) (p : Nat) (q : Packet) (m : Msg) : State :=
  s.toPartner p (Packet.outward { s.makePacket 68 m m.vn 0 0 with dest := portEp p (q.src % 256), src := 68 })
/-- Refuse a partner packet (R365). -/
def State.portRefuse (s : State) (p : Nat) (q : Packet) (reason : Nat) : State :=
  let s := if reason = 8 then (s.rewound (aPtDcq p q.vn)).bumpPt p 8 else s.bumpPt p 7
  if q.bad.contains 0 then s
  else match q.opc with
    | .token => s.tokenRefused p (q.src % 256) reason q
    | .read | .write | .iread | .iwrite | .atom | .service | .lock | .mgtacc | .spill =>
      if q.opc = .spill ∧ q.vn ≠ 1 then s
      else if reason = 8 then s.portAnswer p q { nackMsg q rsnCORRUPT with note := 0 }
      else s.portAnswer p q { respMsg q stDENIED none false with body := [mkWide 0 (BitVec.ofNat 64 reason)] }
    | _ => s

/-! The checks of R364. -/

/-- Opcodes a partner may send (R375). -/
def partnerMay (q : Packet) : Bool :=
  match q.opc with
  | .token | .read | .write | .iread | .iwrite | .atom | .service | .lock | .resp | .mgtacc => true
  | .control => q.spec / 2 ^ 20 % 32 == 0x0A
  | _ => false
/-- LEN matches OPC (R302, R304, R368, R373). -/
def lenOk (q : Packet) : Bool :=
  match q.opc with
  | .token => decide (q.len = if tWide q.rtag || tSeqd q.rtag then 2 else 1)
  | .read | .iread | .lock | .control => q.len == 1
  | .write | .iwrite | .atom => q.len == 2
  | .service => decide (q.len = if q.spec / 512 % 16 = 1 ∨ q.spec / 512 % 16 = 3 then 1 else 2)
  | .mgtacc => decide (q.len = if q.spec.testBit 9 then 1 + (q.spec / 1024 % 32 + 1) / 2 else 1)
  | .resp => q.len ≤ 14
  | _ => false
def headerOk4 (q : Packet) : Bool :=
  q.route == 0 && q.epoch == 0 && decide (q.src < 256) && partnerMay q && vnOk q && lenOk q && specOk q && !(q.opc == .token && q.spec.testBit 0)
def destExists (d : Nat) : Bool := decide (d < 70) || decide (256 ≤ d ∧ d < 4352)
/-- The entry permits the opcode towards DEST (R360, R361). -/
def permits (w0 w1 : Word) (q : Packet) : Bool :=
  let d := q.dest
  let p2p := decide (256 ≤ d) && bitAt w0 58
  match q.opc with
  | .token => p2p || (decide (d < 64) && bitAt w0 60 && bitAt w1 d) || (d == 69 && bitAt w0 59)
  | .read | .write | .iread | .iwrite | .atom => p2p || (d == 64 && bitAt w0 57) || (decide (d < 64) && bitAt w0 56 && bitAt w1 d)
  | .lock => p2p || (d == 65 && bitAt w0 55)
  | .service =>
    let sub := q.spec / 512 % 16
    let ks := bitAt q.argA 63
    sub != 4 && (p2p || (bitAt w0 54 && ((sub == 5 && d == 67) || (sub == 0 && decide (d < 64) && fld q.argB 31 24 != 0x41)
      || ((sub == 1 || sub == 2 || sub == 3) && decide (d < 64) && !ks))))
  | .resp => p2p || decide (d < 70)
  | .mgtacc =>
    let b := regBlock q.addr
    p2p || (d == 67 && decide (1 ≤ mMGTR w0) && decide (mMGTR w0 ≤ 2))
      || (decide (d < 70) && mMGTR w0 == 2 && !q.spec.testBit 9 && inRegBlock q.addr && b != 0x61 && b != 0x46)
  | .control => d == 67
  | _ => false
/-- Check 6: the tag of a token. -/
def tagOk (w0 : Word) (q : Packet) : Bool :=
  let t := q.rtag
  q.opc != .token || (!bitAt t 56 && (!tSeqd t || (bitAt w0 61 && !tWide t))
    && (decide (256 ≤ q.dest) || (decide (tPe t ≤ 275) && peEndpoint (tPe t) == q.dest)))

/-- The CRC of a packet whose head says LEN = len (R301). -/
def Packet.calcCrcAs (q : Packet) (len : Nat) : Nat :=
  (setFld ({ q with route := 0, crc := 0 } : Packet).head 68 65 len :: q.body).foldl crcWide 0xFFFF
/-- The first failing check of R364, as its reason, for a packet whose head says LEN = len. -/
def State.ingressFault (s : State) (p : Nat) (q : Packet) (len : Nat) : Option Nat :=
  let w0 := (s.port p).w0 (q.src % 256)
  let w1 := (s.port p).w1 (q.src % 256)
  if q.bad ≠ [] ∨ q.calcCrcAs len ≠ q.crc then some 8
  else if !headerOk4 q ∨ q.len ≠ len then some 4
  else if !mEN w0 then some 1
  else if !destExists q.dest then some 2
  else if !permits w0 w1 q then some 1
  else if !tagOk w0 q then some 3
  else if 256 ≤ q.dest ∧ s.ptState (epPort q.dest) ≠ psOPEN then some 5
  else none

/-! Passing into the crossbar (R366, R368). -/

/-- What the port writes into a checked packet: its source, for a SEQD token WIDE and the stamp, and 0x1FF as the acquiring PE of a LOCK
packet (R410). -/
def inward (p : Nat) (q : Packet) (stamp : Word) : Packet :=
  let body := if q.opc = .token ∧ tSeqd q.rtag then
      [mkWide (setBit q.rtag 58 true) q.argA, mkWide 0 (BitVec.ofNat 64 (put 63 32 (fld stamp 31 0) + put 31 0 (fld q.argB 31 0)))]
    else if q.opc = .lock then q.body.map (fun w => setFld w 8 0 0x1FF)
    else q.body
  { q with src := portEp p (q.src % 256), body := body }
/-- Put a checked packet, with its route and epoch, into the crossbar input of its port. `windowed` when its flits left ingress for a reorder window. -/
def State.passIn (s : State) (p : Nat) (q : Packet) (windowed : Bool) : State :=
  let rt := if q.dest < 64 then s.routeOf 68 q.dest q.vn else none
  s.pushVc 64 (16 + p)
    (Packet.sealed { q with route := BitVec.ofNat 30 ((rt.map (·.1)).getD 0), epoch := s.activeEpoch 68, note := if windowed then 1 else 3 })
    (crossOut q.dest ((rt.map (·.2)).getD 0))

/-! Reorder windows (R73, R74, R370). -/

/-- Distance of a stream number from the expected one, modulo 2^32. -/
def seqDist (n e : Nat) : Nat := (n + 2 ^ 32 - e % 2 ^ 32) % 2 ^ 32
def Port.window (x : Port) (v : Nat) : Window := Tbl.get Window.init x.windows v
def State.setWindow (s : State) (p v : Nat) (w : Window) : State :=
  s.updPort p (fun x => { x with windows := Tbl.set Window.init x.windows v w })
/-- Stream sequence number of a SEQD token as it stands in the window. -/
def streamNo (q : Packet) : Nat := fld q.argB 31 0
/-- A held token of a killed or drained context no longer passes, but its number does (R370). -/
def voidPkt (q : Packet) : Bool := q.note == 2
def lowestHeld (e : Nat) : List (Nat × Packet) → Option (Nat × Packet)
  | [] => none
  | h :: r => match lowestHeld e r with
    | none => some h
    | some g => if seqDist h.1 e ≤ seqDist g.1 e then some h else some g
/-- Number n passes: its token, unless void, goes into the crossbar. -/
def State.passNumber (s : State) (p v n : Nat) (q : Packet) (windowed : Bool) : State :=
  let w := (s.port p).window v
  let s := s.setWindow p v { w with expected := some ((n + 1) % 2 ^ 32), since := s.now, recent := (w.recent ++ [n]).drop (w.recent.length - 63) }
  if voidPkt q then s else s.passIn p q windowed
/-- Pass the held tokens that are in order now; `fuel` bounds how many. -/
def State.passFuel (s : State) (p v : Nat) : Nat → State
  | 0 => s
  | k + 1 =>
    let w := (s.port p).window v
    match w.held.find? (fun h => some h.1 == w.expected) with
    | none => s
    | some h => ((s.setWindow p v { w with held := w.held.erase h }).passNumber p v h.1 h.2 true).passFuel p v k
/-- Pass every held token and void number that is in order now. -/
def State.passHeld (s : State) (p v : Nat) : State := s.passFuel p v ((s.port p).window v).held.length
/-- The tokens that a window holds; a number that counts as passed holds none (R370). -/
def Window.tokens (w : Window) : List (Nat × Packet) := w.held.filter (fun h => !voidPkt h.2)
/-- Skip from the expected number to the lowest held one and pass what is in order: STREAM_GAP (R74). Numbers that count as passed are not
skipped (R370). -/
def State.skipGap (s : State) (p v : Nat) : State :=
  let w := (s.port p).window v
  match w.expected with
  | none => s
  | some e =>
    match lowestHeld e w.tokens with
    | none => s
    | some h =>
      let n := seqDist h.1 e
      let past (x : Nat × Packet) : Bool := voidPkt x.2 && decide (seqDist x.1 e < n)
      let k := n - (w.held.filter past).length
      let s := (s.bumpPt p 12 k).log (portSrc false p) .streamGap .info (BitVec.ofNat 64 (put 31 0 e + put 63 32 k))
      (s.setWindow p v { w with expected := some h.1, since := s.now, held := w.held.filter (fun x => !past x) }).passHeld p v
/-- Pass every held token in sequence order, skipping gaps. -/
def State.flushWindow (s : State) (p v : Nat) : Nat → State
  | 0 => s
  | k + 1 => if ((s.port p).window v).held = [] then s else ((s.passHeld p v).skipGap p v).flushWindow p v k
def State.flushWindows (s : State) (p : Nat) : State :=
  ((s.port p).windows.map (·.1)).foldl (fun s v => s.flushWindow p v ((s.port p).window v).held.length) s

/-- REORDER_ARRIVAL: a token of an ordered stream (R74). A number exactly 2^31 from the expected one is older (R431). -/
def State.reorderArrival (s : State) (p v : Nat) (q : Packet) : State :=
  let n := streamNo q
  let w := (s.port p).window v
  let e := w.expected.getD n
  let back (s : State) : State := s.returnCredit p q.vn q.flits
  let sent := { q with body := (q.body.take 1).map (fun w => mkWide (setBit (hi64 w) 58 false) (lo64 w)) }
  if n = e then (s.passNumber p v n q false).passHeld p v
  else if seqDist n e < 2 ^ 31 then
    if w.held.any (fun h => h.1 == n) then ((back s).bumpPt p 14).tokenRefused p v 7 sent
    else
      let s := (back s).setWindow p v { w with held := w.held ++ [(n, q)], since := if w.tokens = [] then s.now else w.since }
      if 64 ≤ w.tokens.length + 1 then s.skipGap p v else s
  else if w.recent.contains n then ((back s).bumpPt p 14).tokenRefused p v 7 sent
  else ((back s).bumpPt p 13).tokenRefused p v 6 sent

/-- Turn the held tokens of some contexts into numbers that pass without a token (R58, R370). -/
def State.voidHeld (s : State) (p : Nat) (f : Nat → Bool) : State :=
  ((s.port p).windows.map (·.1)).foldl (fun s v =>
    let w := (s.port p).window v
    (s.setWindow p v { w with held := w.held.map (fun h =>
        if h.2.dest < 70 ∧ f (tKey h.2.rtag) then (h.1, { h.2 with note := 2 }) else h) }).passHeld p v) s

/-- Entry v becomes the words given. Clearing ORD or EN passes what its window holds first (R362). -/
def State.mapApply (s : State) (p v : Nat) (w0 w1 : Word) : State :=
  let old := (s.port p).w0 v
  let s := if (mORD old && !mORD w0) || (mEN old && !mEN w0) then (s.flushWindow p v ((s.port p).window v).held.length).setWindow p v Window.init else s
  s.updPort p (fun x => { x with map0 := Tbl.set 0 x.map0 v w0, map1 := Tbl.set 0 x.map1 v w1 })
/-- Whether a packet of virtual endpoint v is open at ingress. -/
def Port.openOf (x : Port) (v : Nat) : Bool := x.opens.any (fun o => o.2.any (fun q => q.pkt.src % 256 == v))
/-- The commits whose virtual endpoint stands at a packet boundary take effect. -/
def State.mapSettle (s : State) (p : Nat) : State :=
  ((s.port p).mapDue.filter (fun e => !(s.port p).openOf e.1)).foldl (fun s e =>
    (s.updPort p (fun x => { x with mapDue := x.mapDue.erase e })).mapApply p e.1 e.2.1 e.2.2) s

/-- The RESP to a request of the module reaches the hub: its latency in ns counts for the partner endpoint (R334). -/
def State.noteLatency (s : State) (p : Nat) (q : Packet) : State :=
  match (s.port p).asked.find? (fun a => q.opc == .resp && a.1 == q.dest && a.2.1 == q.rslot && a.2.2.1 == q.src && a.2.2.2.1 == q.seq) with
  | none => s
  | some a =>
    let d := s.now - a.2.2.2.2
    let s := s.updPort p (fun x => { x with asked := x.asked.erase a })
    let s := (s.bumpPstat q.src 4 1).bumpPstat q.src 5 d
    if Tbl.get 0 s.pstat (q.src * 8 + 6) < d then { s with pstat := Tbl.set 0 s.pstat (q.src * 8 + 6) d } else s
/-- PARTNER_PACKET_INGRESS (R364 to R368): a partner packet, whose head says LEN = len and of which `flits` flits used credit, has arrived. -/
def State.partnerIngress (s : State) (p : Nat) (q : Packet) (len flits : Nat) (stamp : Word) : State :=
  let t : State := match s.ingressFault p q len with
    | some r => (s.returnCredit p q.vn flits).portRefuse p q r
    | none =>
      let v := q.src % 256
      let x := inward p q stamp
      let s := ((s.bumpPstat x.src 0 1).bumpPstat x.src 1 (16 * q.flits)).noteLatency p x
      if q.opc = .token ∧ tSeqd q.rtag ∧ mORD ((s.port p).w0 v) then s.reorderArrival p v x else s.passIn p x false
  t.mapSettle p

/-! Flits of a received frame. -/

def State.setOpen (s : State) (p v : Nat) (o : Option RxPkt) : State := s.updPort p (fun x => { x with opens := Tbl.set none x.opens v o })
def Port.openAt (x : Port) (v : Nat) : Option RxPkt := Tbl.get none x.opens v
def State.setSkip (s : State) (p v : Nat) (b : Bool) : State :=
  s.updPort p (fun x => { x with skip := if b then (if x.skip.contains v then x.skip else x.skip ++ [v]) else x.skip.filter (· ≠ v) })
/-- Close the open packet of a VC with a poisoned TAIL, which makes it fail its check; the TAIL used no credit. -/
def State.closeRx (s : State) (p v : Nat) : State :=
  match (s.port p).openAt v with
  | none => s
  | some o =>
    (s.setOpen p v none).partnerIngress p { o.pkt with body := o.pkt.body ++ [0], bad := o.pkt.bad ++ [o.pkt.body.length + 1] } o.len o.pkt.flits o.stamp
def State.closeAllRx (s : State) (p : Nat) : State := (List.range 4).foldl (fun s v => s.closeRx p v) s
/-- Take one flit of a data frame, clean or poisoned (R299, R329). A clean flit ends its packet by its KIND, a poisoned one by the flits still
owed. An open packet of 256 flits without its last word is rewound, and the rest of it is absorbed (R390). -/
def State.takeRx (s : State) (p : Nat) (f : Flit) (bad : Bool) (stamp : Word) : State :=
  let v := fld f 143 142
  let kind := fld f 141 140
  let w : Wide := BitVec.ofNat 128 f.toNat
  let resync (s : State) : State := ((s.closeAllRx p).returnCredit p v 1).logFree (portSrc false p) .linkResync .deferred
  let first : Packet := { Packet.ofHead w v [] with bad := if bad then [0] else [] }
  match (s.port p).openAt v with
  | none =>
    if kind = 3 then (s.setSkip p v false).partnerIngress p first (fld w 68 65) 1 stamp
    else if kind = 1 then (s.setSkip p v false).setOpen p v (some ⟨first, fld w 68 65, max (fld w 68 65) 1, stamp, s.now⟩)
    else if bad ∧ !(s.port p).skip.contains v then resync s
    else s.returnCredit p v 1
  | some o =>
    if kind = 1 ∨ kind = 3 then resync s
    else
      let q := { o.pkt with body := o.pkt.body ++ [w], bad := if bad then o.pkt.bad ++ [o.pkt.body.length + 1] else o.pkt.bad }
      if (if bad then decide (o.owed ≤ 1) else kind == 2) then (s.setOpen p v none).partnerIngress p q o.len q.flits o.stamp
      else if 256 ≤ q.flits then
        ((((s.setOpen p v none).setSkip p v true).returnCredit p v q.flits).oversize (aPtDcq p v) (srcOf (70 + p) v)
          (BitVec.ofNat 64 (put 6 0 (70 + p) + put 14 8 68 + put 31 24 v)))
      else s.setOpen p v (some { o with pkt := q, owed := o.owed - 1, last := s.now })

/-! Frames (R339 to R348). -/

def frameSlot (f : BitVec 1280) (k : Nat) : Flit := BitVec.ofNat 144 (f.toNat / 2 ^ (144 * k))
def frameTrailer (f : BitVec 1280) : BitVec 128 := BitVec.ofNat 128 (f.toNat / 2 ^ 1152)
/-- FV without a gap below its highest set bit. -/
def fvOk (fv : Nat) : Bool := (List.range 9).any (fun k => fv == 2 ^ k - 1)
/-- 12-bit serial order (R343): a is newer than b. -/
def seqNewer (a b : Nat) : Bool := decide (0 < (a + 4096 - b) % 4096 ∧ (a + 4096 - b) % 4096 < 2048)

/-- Every held frame leaves again with its SEQ and slots; the rest of its trailer is current (R345). -/
def State.resendHeld (s : State) (p : Nat) : State := (s.port p).held.foldl (fun s h => s.sendFrame p h.1 false h.2) s
/-- Enter RECOVERY from CLOSED, OPEN or SUSPENDED (R354). -/
def State.enterRecovery (s : State) (p cause : Nat) : State :=
  if s.linkUp p then
    let a := aPtStatus p
    let s := s.updPort p (fun x => { x with prev := s.ptState p, replays := 0 })
    let s := ((s.setRfld a 60 57 cause).setRfld a 15 0 (satInc 16 (s.rfld a 15 0))).beginTraining p psRECOVERY
    s.log (portSrc true p) .portRecovery .corrected (BitVec.ofNat 64 p)
  else s
/-- Resend every held frame (R345); the eighth replay in a row of one oldest frame leads to RECOVERY. -/
def State.replay (s : State) (p : Nat) : State :=
  let x := s.port p
  if x.held = [] then s
  else
    let s := ((s.setPort p { x with replays := x.replays + 1 }).bumpPt p 5 x.held.length).resendHeld p
    if 8 ≤ x.replays + 1 then s.enterRecovery p 3 else s
/-- An acknowledgement up to ACKSEQ frees the frames it covers. -/
def State.ackFrames (s : State) (p ack : Nat) : State :=
  let x := s.port p
  let l := x.held.filter (fun h => seqNewer h.1 ack)
  if l.length < x.held.length then (s.setPort p { x with held := l, replays := 0 }).showReplayQ p else s
/-- Take CRv: a value older by serial arithmetic with window 512 is ignored (R347). New credit ends discarding under R372:
what has arrived until then is discarded. -/
def State.takeCredit (s : State) (p v cr : Nat) : State :=
  let x := s.port p
  let old := (x.crIn[v]?).getD 0
  let d := (cr + 1024 - old) % 1024
  if 0 < d ∧ d < 512 then
    let t := s.setPort p { x with crIn := x.crIn.set v cr, stalled := x.stalled.filter (· ≠ v) }
    if x.stalled.contains v then (t.bumpPt p 11 (t.egressQ p v).length).setEgress p v [] else t
  else s
/-- A frame with NAK leaves (R344): none again until the expected frame is accepted or 1 µs has passed. -/
def State.sendNak (s : State) (p : Nat) : State :=
  if (s.port p).nakAt.any (fun t => decide (s.now < t + 1000)) then s
  else ((s.updPort p (fun x => { x with nakAt := some s.now })).bumpPt p 4).sendIdle p true
/-- Flits of a frame on VC v. -/
def vcFlits (fs : List Flit) (v : Nat) : Nat := (fs.filter (fun f => fld f 143 142 == v)).length
/-- The frame is dropped whole and its flits are given back as credit; the next frame says NOCRED (R348). -/
def State.nocredDrop (s : State) (p : Nat) (fs : List Flit) : State :=
  let s := s.updPort p (fun x => { x with nocred := true })
  (List.range 4).foldl (fun s v =>
    let n := vcFlits fs v
    if n = 0 then s
    else
      let s := s.updPort p (fun x => { x with grant := x.grant.set v (((x.grant[v]?).getD 0 + n) % 1024), used := x.used.set v (((x.used[v]?).getD 0 + n) % 1024) })
      (s.closeRx p v).setSkip p v true) s
/-- The next expected data frame has been taken: it is acknowledged from now on. -/
def State.acceptSeq (s : State) (p : Nat) : State :=
  s.updPort p (fun x => { x with rxNext := (x.rxNext + 1) % 4096, nakAt := none })

/-- A data frame that is the one expected: credit, then its flits; a frame that leaves acknowledges it (R346). -/
def State.acceptFrame (s : State) (p : Nat) (fs : List Flit) (malformed : Bool) : State :=
  let x := s.port p
  let short (v : Nat) : Bool := decide (((x.grant[v]?).getD 0 + 1024 - (x.used[v]?).getD 0) % 1024 < vcFlits fs v)
  let s := s.acceptSeq p
  if malformed then (s.nocredDrop p fs).sendIdle p
  else if (List.range 4).any short then ((s.bumpPt p 0).nocredDrop p fs).sendIdle p
  else
    let stamp := s.localTime (70 + p) - sext64 16 (s.rfld (aTsAdj p) 15 0)
    let s := (s.bumpPt p 1).updPort p (fun x =>
      { x with used := x.used.mapIdx (fun v u => (u + vcFlits fs v) % 1024) })
    (fs.foldl (fun s f => match decodeFlit f with
      | some (g, _) => s.takeRx p g (bitAt g 139) stamp
      | none => s.takeRx p (setBit f 139 true) true stamp) s).sendIdle p

/-- A whole frame has arrived (R342 to R348). -/
def State.frameReceive (s : State) (p : Nat) (f : BitVec 1280) : State :=
  if !s.linkUp p then s
  else
    let t := frameTrailer f
    if frameCrc f ≠ fld t 15 0 then (s.bumpPt p 3).sendNak p
    else
      let fv := fld t 95 88
      let fs := ((List.range 8).filter (fun k => fv.testBit k)).map (frameSlot f)
      let seq := fld t 123 112
      let expected := (s.port p).rxNext
      let malformed := decide (fld t 127 124 < 1 ∨ 3 < fld t 127 124) || bitAt t 96 || decide (fld t 47 16 ≠ 0) || !fvOk fv
      if malformed then
        let s := s.bumpPt p 6
        if fv ≠ 0 ∧ seq = expected then s.acceptFrame p fs true else s
      else
        let s := (List.range 4).foldl (fun s v => s.takeCredit p v (fld t (57 + 10 * v) (48 + 10 * v))) s
        let s := s.updPort p (fun x => { x with peerNocred := bitAt t 97 })
        let s := if bitAt t 99 then s.ackFrames p (fld t 111 100) else s
        let s := if bitAt t 98 then s.replay p else s
        if fv = 0 then s
        else if seq = expected then s.acceptFrame p fs false
        else if seqNewer seq expected then s.sendNak p
        else s.sendIdle p

/-! Received blocks (R336 to R339). -/

/-- A stripe as the lanes were sent: inverted lanes put right, and a reversed order turned back (R352). -/
def State.fixStripe (s : State) (p : Nat) (bs : List Block) : List Block :=
  let st := s.reg (aPtStatus p)
  let bs := bs.zipIdx.map (fun b => if bitAt st (51 + b.2) then ~~~b.1 else b.1)
  if bitAt st 56 then bs.reverse else bs
/-- An ALIGN stripe: the receiver deletes it (R338). -/
def isAlign (bs : List Block) : Bool := bs == (List.range 4).map (fun l => mkBlock 2 (alignWord l))
/-- The words of data stripes, descrambled in their order, and the scramblers afterwards. -/
def descramble : List (List Block) → List (BitVec 58) → List Word × List (BitVec 58)
  | [], sts => ([], sts)
  | bs :: r, sts =>
    let x := scrLanes false (bs.map Block.payload) sts
    let y := descramble r x.2
    (x.1 ++ y.1, y.2)
/-- The frame in a run of stripes, and the scramblers afterwards: five stripes of four data blocks, whatever ALIGN stripes stand among them.
Nothing where the blocks make no frame. -/
def State.rxFrame (s : State) (p : Nat) (stripes : List (List Block)) : Option (BitVec 1280 × List (BitVec 58)) :=
  let ss := (stripes.map (s.fixStripe p)).filter (fun bs => !isAlign bs)
  if ss.length = 5 ∧ ss.all (fun bs => bs.length == 4 && bs.all (fun b => b.sync == 1)) then
    let r := descramble ss (s.port p).rxScr
    some (BitVec.ofNat 1280 (ofWords r.1), r.2)
  else none
/-- The scrambler of one lane after a block: it takes the bits of a data block and stands still over a control block (R337). -/
def scrAfter (b : Block) (st : BitVec 58) : BitVec 58 := if b.sync = 1 then (scrBits false 64 b.payload.toNat st).2 else st
/-- The lanes' scramblers after stripes that make no frame. -/
def State.rxPass (s : State) (p : Nat) (stripes : List (List Block)) : State :=
  let ss := stripes.map (s.fixStripe p)
  s.updPort p (fun x => { x with rxScr := ss.foldl (fun sts bs => sts.mapIdx (fun l st => ((bs[l]?).map (scrAfter · st)).getD st)) x.rxScr })

/-! Going down and coming up (R352 to R356). -/

/-- A fresh link: sequence numbers, credit, frames and open packets start anew (R343, R347, R354). -/
def Port.fresh (x : Port) : Port :=
  { x with rxNext := 0, txNext := 0, nakAt := none, held := [], replays := 0, grant := [0, 0, 0, 0], used := [0, 0, 0, 0],
           owedCr := [0, 0, 0, 0], crIn := [0, 0, 0, 0], sent := [0, 0, 0, 0], opens := [], skip := [], stalled := [], nocred := false,
           peerNocred := false, asked := [] }
/-- What becomes of an egress packet while the port is not OPEN (R371). -/
def State.egressClosed (s : State) (p : Nat) (q : Packet) : State :=
  if q.vn = 1 then s.unitSend (portEp p 0) (respMsg q stDENIED none false)
  else if q.opc = .epochMark ∨ q.opc = .drainMark ∨ q.vn = 2 then s
  else s.bumpPt p 11
/-- The port goes DOWN (R355): its queues are flushed, open packets end, windows pass their tokens, its partners' locks are abandoned. -/
def State.portDown (s : State) (p cause : Nat) : State :=
  let s := (s.closeAllRx p).domsDown (· == 70 + p)
  let q := (List.range 4).flatMap (fun v => s.egressQ p v)
  let s := (List.range 4).foldl (fun s v => (s.setEgress p v []).setVc 64 (16 + p) v []) s
  let s := s.flushWindows p
  let s := ((s.setPtState p psDOWN).setRfld (aPtStatus p) 60 57 cause).updPort p (fun x => { x.fresh with windows := [] })
  ((q.foldl (fun s h => s.egressClosed p h.pkt) s).lockPortDown p).showReplayQ p
/-- The port reaches CLOSED with a fresh link: TS2 blocks and an ALIGN stripe end the training (R352), and frames begin with PORT_CLOSED. What
ingress still holds returns no credit of the fresh link (R348, R354). -/
def State.portClosed (s : State) (p : Nat) : State :=
  let s := (List.range 4).foldl (fun s v => s.setVc 64 (16 + p) v ((s.vc 64 (16 + p) v).map (fun h => { h with pkt := { h.pkt with note := 0 } }))) s
  let s := (s.sendTs p 0x2D).sendControl p alignWord
  let s := ((s.updPort p (fun x => { x.fresh with frames := 0 })).setPtState p psCLOSED).showReplayQ p
  s.sendFrame p 4095 false []
/-- Opening: a window's first expected number is the first one it receives from now on (R370). In kickstand mode ports 2 to 15 are SUSPENDED
(R358): one that opens is so at once, and its credit comes with RESUME (DESIGN CHOICE, log 53). -/
def State.portOpens (s : State) (p : Nat) : State :=
  if s.ptState p = psCLOSED then
    let s := (s.flushWindows p).updPort p (fun x => { x with windows := [] })
    if 2 ≤ p ∧ s.rfld aPwState 63 62 = 1 then (s.updPort p (fun x => { x with owedCr := x.owedCr.map (· + 256) })).suspendPort p else s.openPort p
  else s

/-- PT_CTL.CMD (R356): whether the state allows the command, and what it does. -/
def State.ptCmdOk (s : State) (p cmd : Nat) : Bool :=
  let st := s.ptState p
  (cmd == 1 && st == psDOWN) || (cmd == 2 && st == psOPEN) || (cmd == 3 && st == psSUSPENDED) || (cmd == 4 && s.linkUp p) || cmd == 5
def State.ptCmd (s : State) (p cmd : Nat) : State :=
  if !s.ptCmdOk p cmd then s.cfgReject (aPtCtl p)
  else if cmd = 1 then s.beginTraining p psTRAINING
  else if cmd = 2 then s.suspendPort p
  else if cmd = 3 then s.resumePort p
  else if cmd = 4 then s.enterRecovery p 5
  else s.portDown p 6

/-- Notices that were due leave once the port is OPEN again. -/
def State.sendDueIf (s : State) (p : Nat) : State := if s.ptState p = psOPEN ∧ (s.port p).due ≠ [] then s.sendDue p else s
/-- The frames that a recovery resumes with: every held one, or an idle one (R339, R354). -/
def State.resumeFrames (s : State) (p : Nat) : State := if (s.port p).held = [] then s.sendIdle p else s.resendHeld p
/-- A recovery completes: with RECOV from the partner, replay from its NEXTSEQ and return to the previous state, where an OPEN port grants what
it owes; without, a fresh link. -/
def State.recoveryDone (s : State) (p : Nat) (recov : Bool) (next : Nat) : State :=
  if s.ptState p ≠ psRECOVERY then s
  else if recov then
    let s := ((s.sendTs p 0x2D).sendControl p alignWord).setPtState p (s.port p).prev
    let s := (s.ackFrames p ((next + 4095) % 4096)).updPort p (fun x =>
      { (if s.ptState p = psOPEN then x.payOwed else x) with replays := 0, frames := 0 })
    ((s.bumpPt p 5 (s.port p).held.length).resumeFrames p).sendDueIf p
  else (s.closeAllRx p).portClosed p

/-! Received blocks (R337, R339, R352, R353). -/

/-- A TS block that passes the checks. -/
def Block.isTs (b : Block) : Bool := b.sync == 2 && tsValid b.payload
/-- Polarity of the lanes after a stripe: a lane whose TS block arrives inverted, header and payload, is inverted. -/
def polAfter (pol : Nat) (bs : List Block) : Nat :=
  (List.range 4).foldl (fun n l =>
    let b := (bs[l]?).getD 0
    n + (if Block.isTs (~~~b) || (pol.testBit l && !b.isTs) then 2 ^ l else 0)) 0
/-- Block lock needs 64 valid sync headers in a row on each lane. -/
def locksAfter (locks : List Nat) (bs : List Block) : List Nat :=
  locks.mapIdx (fun l n => if (bs[l]?).any (fun b => b.sync == 1 || b.sync == 2) then min 64 (n + 1) else 0)
/-- Fields of a TS block beside its lane number. -/
def tsFields (b : Block) : Word := setFld b.payload 9 8 0
/-- What four blocks, polarity put right, add to the findings: the lane order, the roles seen, and TS2 with unchanged fields. -/
def Training.take (x : Training) (bs : List Block) : Training :=
  let lanesAre (l : List Nat) : Bool := bs.all Block.isTs && bs.map (fun b => fld b.payload 9 8) == l
  let role (b : Block) (r : Nat) : Bool := b.isTs && fld b.payload 23 16 == r
  let f := ((bs.head?).map tsFields).getD 0
  let run := bs.all (fun b => role b 2 && fld b.payload 7 0 == 0x2D && tsFields b == f)
  { x with found := x.found || lanesAre [0, 1, 2, 3] || lanesAre [3, 2, 1, 0], partner := x.partner || bs.any (role · 2), peer := x.peer || bs.any (role · 1),
           same := if run then (if x.same ≠ 0 ∧ f = x.last then x.same + 1 else 1) else if bs.all (role · 2) then 0 else x.same,
           last := if run then f else x.last }
/-- Training and recovery end once 16 TS2 have come with unchanged fields and 16 have gone. -/
def Training.over (x : Training) : Bool := x.found && decide (16 ≤ x.same) && decide (16 ≤ x.sent)
/-- A stripe arrives while port p trains or recovers: block lock, then polarity, lane order and the partner's fields; an invalid TS block is
counted and says nothing more; a stripe leaves in the same block time. -/
def State.tsReceive (s : State) (p : Nat) (bs : List Block) : State :=
  let a := aPtStatus p
  let x := { (s.port p).train with locks := locksAfter (s.port p).train.locks bs }
  if !x.locks.all (fun n => decide (64 ≤ n)) then (s.updPort p (fun y => { y with train := x })).sendTs p 0x1E
  else
    let s := s.setRfld a 54 51 (polAfter (s.rfld a 54 51) bs)
    let fixed := bs.zipIdx.map (fun b => if bitAt (s.reg a) (51 + b.2) then ~~~b.1 else b.1)
    let bad := (fixed.filter (fun b => b.sync == 2 && !tsValid b.payload && fld b.payload 7 0 != 0x4B)).length
    let s := if bad = 0 then s else s.bumpPt p 6 bad
    let s := if fixed.all Block.isTs then s.setRfld a 56 56 (fixed.map (fun b => fld b.payload 9 8) == [3, 2, 1, 0]).toNat else s
    let s := if fixed.any (fun b => b.isTs && fld b.payload 23 16 == 2 && bitAt b.payload 11) then s.setRfld a 55 55 1 else s
    let x := x.take fixed
    let x := if x.found then { x with sent := min 16 (x.sent + 1) } else x
    let s := (s.updPort p (fun y => { y with train := x })).sendTs p (if x.found then 0x2D else 0x1E)
    if !x.over then s
    else if s.ptState p = psTRAINING then s.portClosed p
    else s.recoveryDone p (bitAt x.last 44) (fld x.last 43 32)
/-- Stripes one by one while the port trains, and those that come after. -/
def State.trainRun (s : State) (p : Nat) : List (List Block) → State × List (List Block)
  | [] => (s, [])
  | bs :: r =>
    if s.ptState p = psTRAINING ∨ s.ptState p = psRECOVERY then ((s.rxPass p [bs]).tsReceive p bs).trainRun p r else (s, bs :: r)
/-- Stripes on a link that is up make a frame, and blocks that make none fail the frame check; ALIGN stripes alone say nothing (R338). -/
def State.blocksReceive (s : State) (p : Nat) (stripes : List (List Block)) : State :=
  if !s.linkUp p ∨ stripes.all (fun bs => isAlign (s.fixStripe p bs)) then s
  else match s.rxFrame p stripes with
    | some (f, sts) => (s.updPort p (fun x => { x with rxScr := sts })).frameReceive p f
    | none => ((s.rxPass p stripes).bumpPt p 3).sendNak p
/-- FRAME_RECEIVE: stripes arrive on the four receive lanes. -/
def State.lanesReceive (s : State) (p : Nat) (stripes : List (List Block)) : State :=
  let r := s.trainRun p stripes
  (r.1.blocksReceive p r.2).sendDueIf p

/-- A commit of mapping entry v (R362), at the next packet boundary of its ingress: refused with MGTR = 0b11, a reserved bit, or a 17th ORD. -/
def State.mapCommit (s : State) (p : Nat) (w : Word) : State :=
  let v := s.rfld (aMapSel p) 7 0
  let x := s.port p
  let next := x.mapDue.foldl (fun t e => Tbl.set 0 t e.1 e.2.1) x.map0
  let ords := (next.filter (fun e => mORD e.2 && e.1 != v)).length
  let lock := bitAt (s.reg (aPtLock p)) 0
  if mMGTR w = 3 ∨ fld w 51 0 ≠ 0 ∨ (mORD w ∧ 16 ≤ ords) ∨ (lock ∧ w ≠ x.w0 v) then s.cfgReject (aMapW0 p)
  else if lock then s
  else (s.updPort p (fun x => { x with mapDue := x.mapDue.filter (fun e => e.1 ≠ v) ++ [(v, w, x.stage)] })).mapSettle p

/-! Egress (R371, R372). -/

/-- A request of a module master leaves for a partner: its round trip is measured, and an older one in the same RSLOT no longer is (R334). -/
def State.noteAsked (s : State) (p : Nat) (q : Packet) : State :=
  if q.src < 256 ∧ (q.vn = 1 ∨ q.opc = .mgtacc) then
    let same (a : Nat × Nat × Nat × Nat × Nat) : Bool := a.1 == q.src && a.2.1 == q.rslot && a.2.2.1 == q.dest
    s.updPort p (fun x => { x with asked := x.asked.filter (fun a => !same a) ++ [(q.src, q.rslot, q.dest, q.seq, s.now)] })
  else s
/-- EGRESS_PACKET of port p on a VN. -/
def State.egress (s : State) (p vn : Nat) : State :=
  if 4 ≤ vn then s else
  match s.egressQ p vn with
  | [] => s
  | h :: r =>
    let q := h.pkt
    let s' := s.setEgress p vn r
    let e := q.dest
    if q.opc = .epochMark ∨ q.opc = .drainMark then s'
    else if s.ptState p = psOPEN ∨ (q.vn = 2 ∧ s.ptState p = psSUSPENDED) then
      if (s.port p).stalled.contains vn then s'.bumpPt p 11
      else match s'.transmit p (if e < 256 then q else q.outward) with
        | some t => if 256 ≤ e then t.noteAsked p q else t
        | none => s
    else s'.egressClosed p q

/-- EGRESS_CREDIT_TIMEOUT (R372): a head has waited EGTO_US for credit. -/
def State.egressTimeout (s : State) (p vn : Nat) : State :=
  if 4 ≤ vn then s else
  match s.egressQ p vn with
  | [] => s
  | h :: _ =>
    if (s.ptState p = psOPEN ∨ (vn = 2 ∧ s.ptState p = psSUSPENDED)) ∧ (s.port p).credit vn < h.pkt.flits then
      let n := (s.egressQ p vn).length
      (((s.setEgress p vn []).bumpPt p 11 n).updPort p (fun x => { x with stalled := x.stalled ++ [vn] })).log (portSrc false p) .partnerStall .deferred (BitVec.ofNat 64 p)
    else s

/-- OPEN_PACKET_TIMEOUT (R350). -/
def State.openTimeout (s : State) (p vn : Nat) : State :=
  if ((s.port p).openAt vn).isSome then s.sayCredit p (fun s => ((s.closeRx p vn).bumpPt p 10).setSkip p vn true) else s

/-- PARTNER_INFO_ARRIVAL at the MC (R373). -/
def State.partnerInfo (s : State) : State :=
  match s.takeReq 67 (fun p => p.opc == .control && p.sub == 0x0A) with
  | none => s
  | some (q, s) =>
    let p := epPort q.src
    (s.setReg (aPinfo p) (BitVec.ofNat 64 (put 63 63 1 + put 47 0 (fld q.argA 47 0)))).log 67 .partnerInfo .info (BitVec.ofNat 64 (fld q.argA 47 0))

def execFrameReceive (p : Nat) (stripes : List (List (BitVec 66))) (s : State) : Out := onLink p s (fun s => s.lanesReceive p stripes)
def execReplayTimeout (p : Nat) (s : State) : Out := onLink p s (fun s => if s.linkUp p then s.replay p else s)
def execReorderTimeout (p v : Nat) (s : State) : Out := onPort p s (fun s => s.skipGap p v)
def execOpenPacketTimeout (p vn : Nat) (s : State) : Out := onLink p s (fun s => s.openTimeout p vn)
def execEgressPacket (p vn : Nat) (s : State) : Out := onLink p s (fun s => s.egress p vn)
def execEgressCreditTimeout (p vn : Nat) (s : State) : Out := onPort p s (fun s => s.egressTimeout p vn)
def execPartnerInfoArrival (s : State) : Out := onModule s (fun s => s.partnerInfo)
/-- PORT_TRAIN_DONE (R352): the exchange of TS blocks ends where they are not given one by one, with what it found of lane order and polarity. -/
def execPortTrainDone (p : Nat) (rxrev txrev : Bool) (pol : Nat) (s : State) : Out :=
  onLink p s (fun s =>
    if s.ptState p = psTRAINING then
      (((s.setRfld (aPtStatus p) 56 56 rxrev.toNat).setRfld (aPtStatus p) 55 55 txrev.toNat).setRfld (aPtStatus p) 54 51 pol).portClosed p
    else s)
/-- PT_STATUS.CAUSE of a training that fails (R353, R356): 1 timeout, 8 role mismatch, 9 no valid TS block of a partner. The blocks received
decide; where none was given, the command does. -/
def State.failCause (s : State) (p cause : Nat) : Nat :=
  let x := (s.port p).train
  if x.partner then 1 else if x.peer then 8 else if cause = 8 ∨ cause = 9 then cause else 1
/-- PORT_TRAIN_FAIL (R352, R353, R355). -/
def execPortTrainFail (p cause : Nat) (s : State) : Out :=
  onPort p s (fun s =>
    if s.ptState p = psTRAINING then
      ((s.setPtState p psDOWN).setRfld (aPtStatus p) 60 57 (s.failCause p cause)).log (portSrc true p) .portTrainFail .deferred (BitVec.ofNat 64 p)
    else s)
/-- PORT_TRAIN_RETRY (R355): 100 ms after a failure, when RETRY is 1. -/
def execPortTrainRetry (p : Nat) (s : State) : Out :=
  onLink p s (fun s =>
    let c := s.rfld (aPtStatus p) 60 57
    if s.ptState p = psDOWN ∧ bitAt (s.reg (aPtCfg p)) 6 ∧ (c = 1 ∨ c = 7 ∨ c = 8 ∨ c = 9) then s.beginTraining p psTRAINING else s)
def execBlockLockLost (p : Nat) (s : State) : Out := onLink p s (fun s => s.enterRecovery p 2)
def execNoValidFrame (p : Nat) (s : State) : Out := onLink p s (fun s => s.enterRecovery p 4)
def execPortRecoveryDone (p : Nat) (recov : Bool) (next : Nat) (s : State) : Out := onLink p s (fun s => s.recoveryDone p recov next)
/-- PORT_RECOVERY_TIMEOUT (R354, R355). -/
def execPortRecoveryTimeout (p : Nat) (s : State) : Out :=
  onPort p s (fun s => if s.ptState p = psRECOVERY then (s.portDown p 7).log (portSrc true p) .linkDown .deferred (BitVec.ofNat 64 p) else s)
/-- Whether AUTO opens port p now: from DELAY ms after T+0 of the start-up on (R356, R357). -/
def State.autoOpens (s : State) (p : Nat) : Bool :=
  bitAt (s.reg (aPtOpen p)) 63 && decide (s.pw.begun + s.rfld (aPtOpen p) 31 16 * 1000000 ≤ s.now)
/-- PORT_AUTO_OPEN (R356, R357). -/
def execPortAutoOpen (p : Nat) (s : State) : Out := onLink p s (fun s => if s.autoOpens p then s.portOpens p else s)
def execPtCtlTrain (p : Nat) (s : State) : Out := onLink p s (fun s => s.ptCmd p 1)
def execPtCtlSuspend (p : Nat) (s : State) : Out := onLink p s (fun s => s.ptCmd p 2)
def execPtCtlResume (p : Nat) (s : State) : Out := onLink p s (fun s => s.ptCmd p 3)
def execPtCtlRetrain (p : Nat) (s : State) : Out := onLink p s (fun s => s.ptCmd p 4)
def execPtCtlReset (p : Nat) (s : State) : Out := onLink p s (fun s => s.ptCmd p 5)
def execPtOpenGo (p : Nat) (s : State) : Out := onLink p s (fun s => s.portOpens p)
def execPtMapW0Commit (p : Nat) (w : Word) (s : State) : Out := onPort p s (fun s => s.mapCommit p w)

/-! Kills and drains (R54, R58). -/

/-- The number of a unit that receives KILL: PEs 0 to 275, then the context managers 512 to 575 and 581 (the keeper's), the spill engine
at 600 and the ports from 640. -/
def unitOf (u : Nat) : UnitId :=
  if u < 512 then .pe u else if u < 600 then .cm (u - 512) else if u = 600 then .spill else .port (u - 640)

/-- KILL_ARRIVAL at unit u for context k (R54 step 3, R370). -/
def execKillArrival (u k : Nat) (s : State) : Out :=
  onModule s (fun s => s.killArrival (unitOf u) k (fun s p k => s.voidHeld p (fun x => x == k)))
/-- KILL_ACK_ARRIVAL of unit u at owner e. -/
def execKillAckArrival (e u k : Nat) (s : State) : Out := onOwner e s (fun s => s.killAck e (unitOf u) k)
/-- DRAIN_REQ_ARRIVAL at source `src` of the round of owner e. -/
def execDrainReqArrival (e src : Nat) (s : State) : Out :=
  onOwner e s (fun s => s.drainReq e src (fun s p l => s.voidHeld p (fun x => l.contains x)))

/-! Program events (R185, R304). -/

/-- MC_EVENT_REQUEST: record an EVENT request; a word outside R304's layout is refused. -/
def State.eventRequest (s : State) : State :=
  match s.takeSvc 67 5 with
  | none => s
  | some (p, s) =>
    let sev := fld p.argB 18 16
    if (sev ≠ 0 ∧ sev ≠ 2) ∨ fld p.argB 63 19 ≠ 0 then s.refuseArgs 67 p
    else
      let s := s.log 67 (.program (fld p.argB 15 0)) (if sev = 0 then .info else .deferred) p.argA (if p.src < 256 then some (pairPe (tPe p.rtag)) else none)
        (some (tCtx p.rtag)) p.dpsn
      s.answer 67 p stDONE none
def execMcEventRequest (s : State) : Out := onModule s (fun s => s.eventRequest)

end Sys2Proof.Machine
end

