-- ==== Sys2Proof/Machine/Flash.lean ====
section
/-! DEFINITION. Image copies in flash and their checks (R253, R447, R448, R468 to R471, R551): envelopes, patch bundles, keeper programs,
settings and graph images. -/

namespace Sys2Proof.Machine

/-! Bytes of flash: an erased byte reads 0xFF. -/

def State.flashAt (s : State) (a : Nat) : Byte := Tbl.get 0xFF s.mc.flash a
def State.flashBytes (s : State) (a n : Nat) : List Byte := (List.range n).map (fun i => s.flashAt (a + i))
def State.flashLe (s : State) (a n : Nat) : Nat := leNat (s.flashBytes a n)
/-- A number held highest byte first. -/
def beNat (l : List Byte) : Nat := leNat l.reverse
def State.flashBe (s : State) (a n : Nat) : Nat := beNat (s.flashBytes a n)
def allZero (l : List Byte) : Bool := l.all (· == 0)
def State.flashZero (s : State) (a n : Nat) : Bool := allZero (s.flashBytes a n)

/-! Where copies stand (R468): copy 1 is A in FLASH_A, copy 2 is B in FLASH_B. -/

def imgOff (t : Nat) : Nat :=
  if t = 1 then 0 else if t = 2 then 0x400000 else if t = 3 then 0x440000 else if t = 6 then 0x530000 else if t = 4 then 0x540000 else 0x1000000
def imgRegion (t : Nat) : Nat :=
  if t = 1 then 0x400000 else if t = 2 then 0x40000 else if t = 3 then 0xF0000 else if t = 6 then 0x10000 else if t = 4 then 0x100000 else 0x3000000
def imgBase (t c : Nat) : Nat := (c - 1) * 2 ^ 26 + imgOff t
def State.imgAbsent (s : State) (t c : Nat) : Bool := (s.flashBytes (imgBase t c) 512).all (· == 0xFF)
def State.imgLen (s : State) (t c : Nat) : Nat := s.flashLe (imgBase t c + 0x10) 4
def State.imgSeq (s : State) (t c : Nat) : Nat := s.flashLe (imgBase t c + 8) 4
def State.imgSvn (s : State) (t c : Nat) : Nat := s.flashLe (imgBase t c + 0xC) 2
def State.payload (s : State) (t c : Nat) : List Byte := s.flashBytes (imgBase t c + 512) (s.imgLen t c)

/-! The envelope (R469). -/

def State.imgFields (s : State) (t c : Nat) : Bool :=
  let a := imgBase t c
  let k := s.flashLe (a + 6) 1
  s.flashLe a 4 == 0x47454E56 && s.flashLe (a + 4) 1 == t && s.flashLe (a + 5) 1 == 1 && decide (k ≤ 2) && s.flashZero (a + 7) 1
    && decide (s.imgSvn t c ≤ 64) && s.flashZero (a + 0xE) 2 && decide (s.imgLen t c + 512 ≤ imgRegion t) && s.flashZero (a + 0x14) 12
    && (k != 0 || s.flashZero (a + 0x50) 192) && s.flashZero (a + 0x110) 240
def State.imgDigest (s : State) (t c : Nat) : Bool :=
  let a := imgBase t c
  Config.sha384 (s.flashBytes a 32 ++ s.payload t c) == BitVec.ofNat 384 (s.flashBe (a + 0x20) 48)
/-- Whether a SIGKIND may stand for a type in a lifecycle. -/
def sigKindOk (t life k : Nat) : Bool :=
  if t = 1 then k == 1 else if t = 2 ∨ t = 6 then k == 0 else if 2 ≤ life then k == 2 else k == 0 || k == 2
/-- The signature rule under the rules of a lifecycle. -/
def State.imgSigned (s : State) (t c life : Nat) : Bool :=
  let a := imgBase t c
  let k := s.flashLe (a + 6) 1
  let pub := s.flashBytes (a + 0x50) 96
  sigKindOk t life k && (k == 0
    || ((Config.sha384 pub == if k = 1 then Config.romKeyHash else s.mc.imgHash)
        && Config.sigValid (beNat pub) (s.flashBytes a 0xB0) (s.flashBe (a + 0xB0) 96)))
def State.minVer (s : State) (t : Nat) : Nat := (s.mc.minver[t - 1]?).getD 0

/-! Patch bundles (R447, R448). -/

/-- A section: PE kind (0 S, 1 A, 2 K), match entries (ROM address, patch word), patch words. -/
structure PatchSec where
  kind : Nat
  entries : List (Nat × Nat)
  words : List (BitVec 112)
  deriving DecidableEq, Repr

def bytesLe (l : List Byte) (a n : Nat) : Nat := leNat ((l.drop a).take n)
/-- One section at the front of a plaintext, and what follows it. -/
def patchSec (kind : Nat) (l : List Byte) : Option (PatchSec × List Byte) :=
  let nm := bytesLe l 1 1
  let nw := bytesLe l 2 2
  let n := 16 + 8 * nm + 16 * nw
  let ms := (List.range nm).map (fun i => bytesLe l (16 + 8 * i) 8)
  let ws := (List.range nw).map (fun i => bytesLe l (16 + 8 * nm + 16 * i) 16)
  let roms := ms.map (· % 2 ^ 13)
  if l.length < n ∨ bytesLe l 0 1 ≠ kind ∨ 32 < nm ∨ 512 < nw ∨ !allZero ((l.take 16).drop 4) then none
  else if ms.any (fun m => decide (m ≠ m % 2 ^ 13 + m / 2 ^ 16 % 512 * 2 ^ 16 + 2 ^ 31) || decide (nw ≤ m / 2 ^ 16 % 512)) then none
  else if ws.any (fun w => decide (2 ^ 112 ≤ w)) ∨ roms.dedup ≠ roms then none
  else some (⟨kind, ms.map (fun m => (m % 2 ^ 13, m / 2 ^ 16 % 512)), ws.map (BitVec.ofNat 112)⟩, l.drop n)
/-- The sections of a plaintext for a KINDS byte. -/
def patchSecs (kinds : Nat) (l : List Byte) : Option (List PatchSec) :=
  let r := ((List.range 3).filter (fun k => kinds.testBit k)).foldl (fun (x : Option (List PatchSec × List Byte)) k =>
    match x with
    | none => none
    | some (ps, rest) => (patchSec k rest).map (fun y => (ps ++ [y.1], y.2))) (some ([], l))
  match r with
  | some (ps, []) => some ps
  | _ => none
/-- The check of a bundle copy from step 2 on: the failed check coded as RESULT_A, or its plaintext. -/
def State.bundle (s : State) (c : Nat) : Nat ⊕ List Byte :=
  let a := imgBase 2 c + 512
  let plen := s.flashLe (a + 0x14) 4
  let kinds := s.flashLe (a + 0x13) 1
  if s.flashLe a 4 ≠ 0x55434B50 ∨ s.flashLe (a + 4) 4 ≠ 1 ∨ s.flashLe (a + 0x12) 1 ≠ 0xB0 ∨ 7 < kinds ∨ 25392 < plen ∨ s.flashLe (a + 0xC) 4 = 0
      ∨ !s.flashZero (a + 0x18) 8 ∨ !s.flashZero (a + 0x2C) 4 ∨ s.imgLen 2 c ≠ 0x40 + plen + 96 then .inl 2
  else if !Config.sigValid Config.patchSigKey (s.flashBytes a (0x40 + plen)) (s.flashBe (a + 0x40 + plen) 96) then .inl 3
  else if s.flashLe (a + 0x10) 2 ≠ (Config.romRev 0).toNat then .inl 4
  else if s.imgSvn 2 c < s.minVer 2 then .inl 5
  else if s.mc.keysGone then .inl 6
  else match Config.decrypt 0 (s.flashBytes a 0x30) (s.flashBytes (a + 0x20) 12) (s.flashBytes (a + 0x30) 16) (s.flashBytes (a + 0x40) plen) with
    | none => .inl 6
    | some pt => if (patchSecs kinds pt).isSome then .inr pt else .inl 8

/-! Keeper programs (R253). -/

/-- Byte offset of pair p's section in a payload at flash address a, when present. -/
def State.kpSec (s : State) (a p : Nat) : Option Nat := if (s.flashLe (a + 4) 4).testBit p then some (a + s.flashLe (a + 8 + 4 * p) 4) else none
def State.kpSecOk (s : State) (a len p : Nat) : Bool :=
  match s.kpSec a p with
  | none => true
  | some q =>
    let iw := s.flashLe q 4
    let ls := s.flashLe (q + 4) 4
    let sb := s.flashLe (q + 0xC) 4
    let sz := s.flashLe (q + 0x10) 4
    (q - a) % 64 == 0 && decide (1 ≤ iw ∧ iw ≤ 8192) && decide (ls ≤ 32768) && ls % 8 == 0 && decide (s.flashLe (q + 8) 4 < 8192) && sb % 8 == 0 && sz % 8 == 0
      && decide (sb + sz ≤ 32768) && decide (sz = 0 ∨ ls ≤ sb) && s.flashZero (q + 0x18) 0x28 && decide (q - a + 0x40 + 8 * iw + ls ≤ len)
def State.kpOk (s : State) (c : Nat) : Bool :=
  let a := imgBase 4 c + 512
  let len := s.imgLen 4 c
  let h := s.flashLe (a + 0x14) 4
  decide (0x40 ≤ len) && s.flashLe a 4 == 1 && decide (s.flashLe (a + 4) 4 < 4) && decide (s.flashLe (a + 0x10) 4 ≤ 12)
    && decide (s.flashLe (a + 0x18) 4 ≤ 16777215) && s.flashZero (a + 0x1C) 0x24
    && (h / 2 ^ 31 == 0 || h / 2 ^ 13 % 512 == 272 || h / 2 ^ 13 % 512 == 274) && h / 2 ^ 22 % 512 == 0
    && s.kpSecOk a len 0 && s.kpSecOk a len 1

/-! Graph images (R471). -/

/-- A section: KIND, TARGET, START, LEN and the flash address of its body. -/
structure GSec where
  kind : Nat
  target : Nat
  start : Nat
  len : Nat
  body : Nat
  deriving DecidableEq, Repr

/-- n sections from flash address a on, none when they overrun `stop` or a zero field is not zero. -/
def State.gSecs (s : State) (stop : Nat) : Nat → Nat → Option (List GSec)
  | a, 0 => if a = stop then some [] else none
  | a, n + 1 =>
    let len := s.flashLe (a + 16) 8
    let pad := (len + 7) / 8 * 8
    if stop < a + 24 + pad ∨ !s.flashZero (a + 2) 2 ∨ !s.flashZero (a + 24 + len) (pad - len) then none
    else (s.gSecs stop (a + 24 + pad) n).map (fun l => ⟨s.flashLe a 2, s.flashLe (a + 4) 4, s.flashLe (a + 8) 8, len, a + 24⟩ :: l)
/-- The sections of copy c of the graph image. -/
def State.graphSecs (s : State) (c : Nat) : Option (List GSec) :=
  let a := imgBase 5 c + 512
  let n := s.flashLe (a + 4) 4
  let len := s.imgLen 5 c
  if len < 64 ∨ s.flashLe a 4 ≠ 1 ∨ n < 1 ∨ 65536 < n ∨ 24 * n + 64 > len ∨ !s.flashZero (a + 0x12) 2 ∨ !s.flashZero (a + 0x20) 32 then none
  else s.gSecs (a + len) (a + 64) n
def State.graphUsed (s : State) (c : Nat) : Nat := s.flashLe (imgBase 5 c + 512 + 8) 8
def State.graphApe (s : State) (c : Nat) : Nat := s.flashLe (imgBase 5 c + 512 + 0x10) 2
def State.graphId (s : State) (c : Nat) : Word := BitVec.ofNat 64 (s.flashLe (imgBase 5 c + 512 + 0x18) 8)

/-- The register pairs of a body: addresses and values. -/
def State.regPairs (s : State) (a len : Nat) : List (Nat × Word) :=
  (List.range (len / 16)).map (fun i => (s.flashLe (a + 16 * i) 8 % 2 ^ 48, BitVec.ofNat 64 (s.flashLe (a + 16 * i + 8) 8)))
/-- The value that a field of a register has once the REGS sections are applied. -/
def State.afterRegs (s : State) (l : List GSec) (addr hi lo : Nat) (ok : Nat → Bool) : Nat :=
  (l.filter (fun g => g.kind == 6)).foldl (fun v g =>
    (s.regPairs g.body g.len).foldl (fun v x => if x.1 = addr ∧ ok (fld x.2 hi lo) then fld x.2 hi lo else v) v) (s.rfld addr hi lo)

/-- Whether PE n and its cluster are in USED and APEUSED. -/
def peUsed (used ape n : Nat) : Bool := used.testBit (peCluster n) && (decide (n < 256) || ape.testBit (n - 256))
/-- Bottom of the regions the MC places by its base registers, below which the general area ends (R277). -/
def State.mcRegions (s : State) : Nat :=
  ((List.range 64).flatMap (fun c => [s.rfld (aCtxtBase c) 47 20 * 2 ^ 20, s.rfld (aSnapBase c) 47 16 * 2 ^ 16])
    ++ (List.range 276).map (fun n => s.rfld (aPeSaveBase n) 47 12 * 4096) ++ [s.rfld aPwSaveBase 47 26 * 2 ^ 26]).foldl
    (fun m x => if x = 0 then m else min m x) (28 * 2 ^ 30 - s.rfld aQuota 7 0 * 2 ^ 26)
/-- The tag and root checks of one section. -/
def State.gSecOk (s : State) (l : List GSec) (used ape : Nat) (g : GSec) : Bool :=
  let t := g.target
  let ovf := s.afterRegs l (aOvfSize t) 6 0 (fun v => decide (v ≤ 64)) * 4096
  let general := decide (0x10000 ≤ g.start ∧ g.start + g.len + ovf ≤ 0x80000)
  if g.kind = 1 then
    decide (t < 272) && peUsed used ape t && g.len % 8 == 0 && decide (g.start + g.len / 8 ≤ imemWords t)
      && (decide (t < 256) || (List.range (g.len / 8)).all (fun i => s.flashLe (g.body + 8 * i + 7) 1 != 0x10 || (g.start + i) % 2 == 0))
  else if g.kind = 2 then decide (t < 272) && peUsed used ape t && g.start % 8 == 0 && g.len % 8 == 0 && decide (g.start + g.len ≤ lsBytes t)
  else if g.kind = 3 then decide (t < 64) && used.testBit t && g.start % 8 == 0 && (decide (g.start + g.len ≤ 0x4000) || general)
  else if g.kind = 4 then
    g.start % 8 == 0 && g.len % 8 == 0 && ((decide (t < 64) && used.testBit t && general) || (t == 64 && decide (g.start + g.len ≤ 2 ^ 32)))
  else if g.kind = 5 then t == 64 && decide (2 ^ 32 ≤ g.start ∧ g.start + g.len ≤ s.mcRegions)
  else if g.kind = 6 then
    t == 0 && g.start == 0 && g.len % 16 == 0
      && (s.regPairs g.body g.len).all (fun x => (regSpec x.1).isSome && decide (regBlock x.1 < 64) && used.testBit (regBlock x.1))
  else if g.kind = 7 then
    let sa : Word := BitVec.ofNat 64 (s.flashLe g.body 8)
    let sb : Word := BitVec.ofNat 64 (s.flashLe (g.body + 8) 8)
    decide (t < 64) && used.testBit t && g.start == 0 && g.len == 32 && decide (fld sa 59 56 ≤ 12) && fld sa 32 20 == 0 && fld sb 63 32 == 0
      && s.flashZero (g.body + 16) 16 && (!bitAt sa 55 || decide (fld sa 54 46 ≤ 271)) && (l.filter (fun h => h.kind == 7 && h.target == t)).length == 1
      && decide (fld sa 19 0 ≤ s.afterRegs l (aCredit t) 55 32 (fun _ => true))
  else if g.kind = 8 then
    t == 0 && g.start == 0 && g.len % 24 == 0 && (List.range (g.len / 24)).all (fun i =>
      let tag : Word := BitVec.ofNat 64 (s.flashLe (g.body + 24 * i) 8)
      let n := fld tag 23 15
      decide (n < 272) && used.testBit (peCluster n) && fld tag 55 36 == peCluster n * 16384 && !bitAt tag 56 && !bitAt tag 57)
  else false
def State.graphOk (s : State) (c : Nat) : Bool :=
  match s.graphSecs c with
  | none => false
  | some l => l.all (s.gSecOk l (s.graphUsed c) (s.graphApe c))

/-! Choosing a copy (R470). -/

/-- The failed check of copy c of type t under the rules of a lifecycle, coded as in R470; 0 when it is valid. -/
def State.imgCheck (s : State) (t c life : Nat) : Nat :=
  if !s.imgFields t c then 2
  else if !s.imgDigest t c then 1
  else if !s.imgSigned t c life then 3
  else if t = 2 then (match s.bundle c with
    | .inl k => k
    | .inr _ => 0)
  else if t ≤ 5 ∧ s.imgSvn t c < s.minVer t then 5
  else if t = 4 ∧ !s.kpOk c then 8
  else if t = 5 ∧ !s.graphOk c then 8
  else 0
def State.imgValid (s : State) (t c : Nat) : Bool := !s.imgAbsent t c && s.imgCheck t c s.mc.life == 0
/-- The copy to use: the higher SEQ, copy A when equal; 0 for none. The sequence number of a patch bundle is its own. -/
def State.chooseCopy (s : State) (t : Nat) : Nat :=
  let sq (c : Nat) : Nat := if t = 2 then s.flashLe (imgBase 2 c + 512 + 8) 4 else s.imgSeq t c
  if s.imgValid t 1 then (if s.imgValid t 2 ∧ sq 1 < sq 2 then 2 else 1)
  else if s.imgValid t 2 then 2 else 0
/-- A copy that is present and fails is logged (R470). -/
def State.logInvalid (s : State) (t : Nat) : State :=
  [1, 2].foldl (fun s c =>
    if s.imgAbsent t c ∨ s.imgValid t c then s
    else s.log 67 .imgInvalid .deferred (BitVec.ofNat 64 (t + 256 * c + 65536 * s.imgCheck t c s.mc.life))) s
def State.inUse (s : State) (t : Nat) : Nat := Tbl.get 0 s.mc.inUse t
def State.takeCopy (s : State) (t : Nat) : State :=
  let c := s.chooseCopy t
  { s.logInvalid t with mc := { (s.logInvalid t).mc with inUse := Tbl.set 0 s.mc.inUse t c } }

/-! Settings (R470). -/

/-- The sections of a settings payload: type and body. Fuel bounds the list. -/
def cfgSections : Nat → List Byte → List (Nat × List Byte)
  | 0, _ => []
  | k + 1, l =>
    if l.length < 8 then []
    else
      let n := bytesLe l 4 4
      (bytesLe l 0 2, (l.drop 8).take n) :: cfgSections k (l.drop (8 + n))
def cfgBody (l : List Byte) (t : Nat) : List Byte := ((cfgSections l.length l).filter (fun x => x.1 == t)).flatMap (·.2)
/-- The register writes of section 0x0001: each a 48-bit address and a 64-bit value. -/
def cfgRegs (l : List Byte) : List (Nat × Word) :=
  let b := cfgBody l 1
  (List.range (b.length / 14)).map (fun i => (bytesLe b (14 * i) 6, BitVec.ofNat 64 (bytesLe b (14 * i + 6) 8)))

end Sys2Proof.Machine
end

