-- ==== Sys2Proof/Machine/LocalOps.lean ====
section
/-! DEFINITION. Local store and special registers (R172 to R174, R119, R121, R122, R235). -/

namespace Sys2Proof.Machine

/-- The local store as the activation's later accesses see it: stores still waiting for their write-back have happened (R63, R173). -/
def State.lsView (s : State) (a : Act) : State :=
  a.flights.foldl (fun s f => match f.eff with
    | .store addr size v p => (s.store addr size v.toNat).setEcc addr (s.mergedEcc addr size p)
    | .zero addr size => (List.range (size / 8)).foldl (fun s k => (s.store (addr + 8 * k) 8 0).setEcc (addr + 8 * k) .ok) s
    | _ => s) s

/-- Access size of modifier bits 2:1 (R172). -/
def lsSize (m : Nat) : Nat :=
  match m / 2 % 4 with
  | 0 => 8
  | 1 => 4
  | 2 => 2
  | _ => 1
/-- The effective address (R172). -/
def lsEa (a : Act) (f : Fields) : Nat := (f.i + (if f.c % 2 = 1 then (a.src f.a).toNat else 0)) % 2 ^ 64
/-- The field rules of LDL and STL (R172). -/
def lsFields (load : Bool) (f : Fields) : Bool :=
  decide (f.i < 2 ^ 18) && decide (f.c < 16) && (decide (f.c / 8 % 2 = 0) || (load && decide (lsSize f.c ≠ 8)))
    && (if f.c % 2 = 1 then isSrc f.a else f.a == 0)
/-- The alignment and range rule (R173). -/
def lsRange (n ea size : Nat) : Bool := decide (ea % size = 0) && decide (ea + size ≤ lsBytes n)

/-- LDL: size by modifier, zero- or sign-extended; an uncorrectable word faults, or poisons when CTL.PSN is 1 (R122). What an
uncorrectable word reads as is free. -/
def semLdl : State → Nat → Act → Fields → Issued :=
  fun s n a f =>
    let ea := lsEa a f
    let size := lsSize f.c
    let addr := lsBase (pairPe n) + ea
    if !(isDst f.d && lsFields true f) then badWord 0xA0 f
    else if f.c % 2 = 1 ∧ a.poisoned f.a then .bad .tokenCorrupt (poisonDetail f.a) none
    else if !lsRange n ea size then .bad .addressFault ((lsBase n + ea) % 2 ^ 48) none
    else
      let v := s.lsView a
      let e := v.eccAt addr
      let raw := if e = .ue then (Config.badRead addr (s.free + (s.pe n).clk)).toNat % 2 ^ (8 * size) else v.load addr size
      let val := if f.c / 8 % 2 = 1 then sext64 (8 * size) raw else BitVec.ofNat 64 raw
      if e.bad && !a.psn then .bad .lsUncorrectable ea none
      else .ok (⟨3, .reg f.d (val.setWidth 80) e.bad⟩ :: (if e = .ce ∨ e = .ue then [⟨0, .scrub addr⟩] else [])) .next false none 0

def opLs (code : Nat) (load : Bool) : Op :=
  ⟨code, ⟨load, true, !load, true, true⟩, fun f => (if f.c % 2 = 1 then [f.a] else []) ++ (if load then [] else [f.b]), false, allKinds⟩

def execLdl (pe : Nat) (f : Fields) (s : State) : Out := runOp pe (opLs 0xA0 true) f semLdl s

/-- STL: the low bytes of SB; a poisoned SB is stored with stored poison (R123, R281). -/
def semStl : State → Nat → Act → Fields → Issued :=
  fun _ n a f =>
    let ea := lsEa a f
    let size := lsSize f.c
    if !(isSrc f.b && lsFields false f) then badWord 0xA1 f
    else if f.c % 2 = 1 ∧ a.poisoned f.a then .bad .tokenCorrupt (poisonDetail f.a) none
    else if !lsRange n ea size then .bad .addressFault ((lsBase n + ea) % 2 ^ 48) none
    else .ok [⟨0, .store (lsBase (pairPe n) + ea) size (a.src f.b) (a.poisoned f.b)⟩] .next true none 0

def execStl (pe : Nat) (f : Fields) (s : State) : Out := runOp pe (opLs 0xA1 false) f semStl s

/-- The value of a special register (R174). -/
def Act.special (a : Act) (r : Nat) : Word :=
  match r with
  | 24 => a.tag
  | 25 => a.rc.setWidth 64
  | 26 => a.fps
  | 27 => a.fxs
  | 28 => a.ctl
  | 29 => a.mh
  | 30 => a.ml
  | _ => a.lsel

/-- MOVS: a special register, or the high half of an input (R119, R174). -/
def semMovs : State → Nat → Act → Fields → Issued :=
  fun _ n a f =>
    if !isDst f.d then badWord 0xA2 f
    else if f.c = 0 ∧ 24 ≤ f.a ∧ f.a < 32 ∧ (f.a < 29 ∨ peKind n = .a) then regResult f.d 2 (a.special f.a) false uDup
    else if f.c = 1 ∧ 16 ≤ f.a ∧ f.a < 20 then
      regResult f.d 2 (hi64 ((a.ins[f.a - 16]?).map (·.val) |>.getD 0)) (a.poisoned f.a) uDup
    else badWord 0xA2 f

def execMovs (pe : Nat) (f : Fields) (s : State) : Out :=
  runOp pe ⟨0xA2, ⟨true, true, false, true, false⟩, fun f => [f.a], false, allKinds⟩ f semMovs s

/-- Whether MOVTS may write v to special register r (R121, R235). -/
def specialOk (a : Act) (r : Nat) (v : Word) : Bool :=
  match r with
  | 25 => decide (v.toNat < 2 ^ 16)
  | 26 => decide (v.toNat < 2 ^ 11) && decide (fld v 7 5 = 0) && decide (fld v 10 8 ≤ 4)
  | 27 => decide (v.toNat < 4)
  | 28 => decide (v.toNat < 2 ^ 14) && decide (fld v 7 5 = 0) && decide (fld v 13 8 = fld a.ctl 13 8)
  | _ => decide (v.toNat < 2 ^ 24) && decide (fld v 7 5 = 0) && decide (fld v 10 8 ≤ 4) && decide (fld v 4 2 ≤ 4)

/-- Whether a debug session bars entering cadence mode (R486, the Cz cells): INVASIVE or FACTORY with the module SECURED. -/
def State.cadBarred (s : State) : Bool := s.rfld aSecStatus 1 0 == 2 && decide (2 ≤ s.rfld aSecStatus 5 4)

/-- MOVTS (R121, R174). A debug session that bars cadence mode abandons the activation (R146, R486). -/
def semMovts : State → Nat → Act → Fields → Issued :=
  fun s n a f =>
    let v := a.src f.a
    if !(((25 ≤ f.d && f.d ≤ 28) || (f.d == 31 && peKind n == .a)) && isSrc f.a) then badWord 0xA3 f
    else if a.poisoned f.a then .bad .tokenCorrupt (poisonDetail f.a) none
    else if !specialOk a f.d v then badWord 0xA3 f
    else if f.d = 28 ∧ bitAt v 3 ∧ !a.cad ∧ s.cadBarred then .bad .accessDenied 0 none
    else .ok [⟨2, .special f.d v⟩] .next (f.d == 31) none 0

def execMovts (pe : Nat) (f : Fields) (s : State) : Out :=
  runOp pe ⟨0xA3, usesDA, fun f => [f.a], false, allKinds⟩ f semMovts s

end Sys2Proof.Machine
end

