-- ==== Sys2Proof/Machine/Matching.lean ====
section
/-! DEFINITION. The matching stage and dispatch (R28 to R36, R75 to R86, R99 to R108), suspension and resumption (R104, R141, R150 to
R153), and what comes about inside a running activation by itself (R129, R154, R219, R238). -/

namespace Sys2Proof.Machine

/-! Where a record belongs (R75, R76, R85). -/

/-- Sets of the matching store of a PE (R75). -/
def msSets (n : Nat) : Nat :=
  match peKind n with
  | .s => 1024
  | .a => 2048
  | .k => 256
/-- The part of the two hashes that depends on the key alone. -/
def keyHash (t : Word) : Nat :=
  let ip := tIp t
  let it := tIter t
  let c := tCtx t
  ip ^^^ (ip / 1024) ^^^ (it * 8) ^^^ (it / 128) ^^^ c ^^^ (c / 1024)
/-- The set of a token on PE n (R76). -/
def State.setOf (s : State) (n : Nat) (t : Word) : Nat :=
  (keyHash t % msSets n) ^^^ (s.rfld (aMsCfg (pairPe n)) 10 0 % msSets n)
/-- Buckets of the overflow area at endpoint e: CL_OVF_SIZE of a cluster, 64 KiB in the keeper block (R80, R85). -/
def State.ovfBuckets (s : State) (e : Nat) : Nat := if e < 64 then s.rfld (aOvfSize e) 6 0 * 16 else 256
def State.bucketOf (s : State) (n : Nat) (t : Word) : Nat := (keyHash t ^^^ (pairPe n * 32)) % s.ovfBuckets (peEndpoint n)
/-- Slots in use of a bucket, over the PEs that share the area. -/
def State.bucketUse (s : State) (n : Nat) (t : Word) : Nat :=
  let b := s.bucketOf n t
  (bucketPes (peEndpoint n)).foldl (fun m q => m + ((s.pe q).recs.filter (fun r => r.level = .overflow ∧ s.bucketOf q r.key = b)).foldl
    (fun m r => m + r.units) 0) 0
/-- Ways in use of a set. -/
def Pe.waysUsed (p : Pe) (set : Nat) : Nat := (p.recs.filter (fun r => r.level = .store ∧ r.set = set)).foldl (fun m r => m + r.units) 0
/-- The lower counts of a set (R81), as the records give them: a record leaves its count when it completes. -/
def Pe.lowCount (p : Pe) (set : Nat) (l : Level) : Nat := (p.recs.filter (fun r => r.level = l ∧ r.set = set ∧ !r.ready)).length

/-! The ready list (R99 to R101). -/

/-- Put an entry in the ready list, or in the backlog when the list is full, once the places that have become free are filled from the backlog
(R101, R108). -/
def State.enqueue (s : State) (n : Nat) (r : ReadyE) : State :=
  let s := if (s.pe n).backlog = [] then s else (s.refillPe n).pressureCheck
  let p := s.pe n
  if p.ready.length < p.readyLim then (s.setPe n { p with ready := p.ready ++ [r] }).noteDepth n
  else ((s.setPe n { p with backlog := p.backlog ++ [r] }).bumpPe n psBACKLOG).pressureCheck

/-- The boost in force for a context on a PE. -/
def Pe.boostOf (p : Pe) (k : Nat) : Nat := (p.boosts.filter (fun b => b.1 = k)).foldl (fun m b => max m b.2) 0

/-- Whether what happened to PE n found space: an entry that went to the ready backlog while the auxiliary region was full waits where it
came from (R94). -/
def State.backlogFits (s t : State) (n : Nat) : Bool :=
  decide ((t.pe n).backlog.length ≤ (s.pe n).backlog.length) || s.auxRoom (peEndpoint n) .pes 64

/-- Refuse a completed activation with poisoned inputs (R33): the tag is that of a poisoned input, the DETAIL the mask of their ports. -/
def State.poisonedAct (s : State) (n : Nat) (toks : List (Nat × Token)) : State :=
  let bad := toks.filter (fun t => tPoison t.2.tag)
  let r := s.freeOf bad
  match r.1 with
  | some t => r.2.deliver (peEndpoint n) (some (pairPe n)) t.2.tag true .tokenCorrupt 0 (bad.foldl (fun m x => m + 2 ^ x.1) 0)
      (if t.2.fault then some (fld t.2.val 63 56) else none)
  | none => s

/-- Enable an activation (R31, R99, R109). -/
def State.enable (s : State) (n : Nat) (toks : List (Nat × Token)) (key : Word) (src : RSrc) : State :=
  let k := tagCtxKey n (tCtx key)
  let pri := toks.foldl (fun m t => max m (tPri t.2.tag)) (s.ctx k).pri
  let p := s.pe n
  let s := ((s.updCtx k (fun c => { c with fires := min (c.fires + 1) (2 ^ 48 - 1), fired := true })).noteSat k).bumpPe n psFIRE
  s.enqueue n ⟨max pri (p.boostOf k), pri, p.clk, p.clk, key, src⟩

/-! Records (R77 to R82). -/

def State.setRecs (s : State) (n : Nat) (l : List MRec) : State := s.updPe n (fun p => { p with recs := l })
/-- Replace the record with a key. -/
def replaceRec (l : List MRec) (r : MRec) : List MRec := l.map (fun q => if q.key = r.key then r else q)
/-- The bucket of a record of level l is accessed: in the overflow area of a cluster that is an access to its scratch (R285, R291), one for
a search, one for a write and one for a fill (DESIGN CHOICE, log 49). -/
def State.touchOvf (s : State) (n : Nat) (key : Word) (l : Level) : State :=
  let e := peEndpoint n
  if l = .overflow ∧ e < 64 then s.microTouch e (s.bucketAt e (s.bucketOf n key)) else s
/-- The next lower level with room for a record (R78, R80): the overflow area, then the deep store. -/
def State.lowerLevel (s : State) (n : Nat) (r : MRec) : Option Level :=
  if r.level = .store ∧ s.ovfBuckets (peEndpoint n) ≠ 0 ∧ s.bucketUse n r.key + r.units ≤ 4 then some .overflow
  else if s.matchRoom (peEndpoint n) r.units then some .deep else none

/-- The tokens of a record; those of one poisoned by a value slot all carry POISON. -/
def MRec.marked (r : MRec) : List (Nat × Token) := r.toks.map (fun t => (t.1, if r.poison then { t.2 with tag := setBit t.2.tag 59 true } else t.2))
/-- A record that has all its tokens (R33, R100): poisoned by a value slot (R79), whose port the entry does not keep, every port counts as
poisoned (DESIGN CHOICE, log 47). Poisoned, it is freed and faults; otherwise it becomes READY, and below the matching
store its inputs go to the fill buffer while that has an entry. -/
def State.complete (s : State) (n : Nat) (r : MRec) : State :=
  let p := s.pe n
  if r.marked.any (fun t => tPoison t.2.tag) then (s.setRecs n (p.recs.filter (fun q => q.key ≠ r.key))).poisonedAct n r.marked
  else
    let low := r.level == .overflow || r.level == .deep
    let s := s.updPe n (fun p => { p with recs := replaceRec p.recs { r with ready := true },
                                          fillBuf := if low && decide (p.fillBuf.length < 32) then p.fillBuf ++ [r.key] else p.fillBuf })
    s.enable n r.toks r.key (.record r.key)

/-- A token that the PE cannot match (R35). -/
def State.badToken (s : State) (n : Nat) (t : Token) (fc : FaultCode) : State :=
  (s.bumpPe n psBADTOK).deliver (peEndpoint n) (some (pairPe n)) t.tag true fc 0 0

/-- Merge a token into the record of its key; none when the record must move down and no level has room (R94). A record of the overflow
area that grows wide in a full bucket moves to the deep store, as R78 says of a set (DESIGN CHOICE, log 47). -/
def State.mergeTok (s : State) (n : Nat) (r : MRec) (t : Token) : Option State :=
  let port := tPort t.tag
  if r.toks.any (fun x => x.1 = port) then some (s.badToken n t .illegalSequence)
  else
    let r' := { r with toks := Tbl.ins r.toks port t }
    let p := s.pe n
    let grows := decide (r.units < r'.units)
    let fits := match r.level with
      | .store => decide (p.waysUsed r.set + 1 ≤ 4)
      | .overflow => decide (s.bucketUse n r.key + 1 ≤ 4)
      | .deep => s.matchRoom (peEndpoint n) 1
      | .fill => true
    let place (s : State) (r' : MRec) : State :=
      let s := (s.touchOvf n r'.key r'.level).setRecs n (replaceRec (s.pe n).recs r')
      if r'.toks.length = r'.arity then s.complete n r' else s
    if !grows || fits then some (place s r')
    else match s.lowerLevel n r' with
      | some l => some ((place s { r' with level := l }).bumpPe n psSPILL)
      | none => none

/-- Make a record for the first token of a key (R80 orders 3 to 5); none when no level has room (R94). -/
def State.newRec (s : State) (n : Nat) (t : Token) (arity set : Nat) : Option State :=
  let r : MRec := { key := matchKey t.tag, arity := arity, toks := [(tPort t.tag, t)], ready := false, poison := false, keyBad := false,
                    arrived := fld s.tb 31 0, level := .store, set := set }
  if (s.pe n).waysUsed set + r.units ≤ 4 then some (s.updPe n (fun p => { p with recs := p.recs ++ [r] }))
  else match s.lowerLevel n r with
    | some l => some (((s.touchOvf n r.key l).updPe n (fun p => { p with recs := p.recs ++ [{ r with level := l }] })).bumpPe n psSPILL)
    | none => none

/-- A record whose header word reads uncorrectable is void, and with it what the ready list and the fill buffer hold of it (R79). -/
def State.voidRec (s : State) (n : Nat) (r : MRec) : State :=
  let other (x : ReadyE) : Bool := x.src != .record r.key
  (s.updPe n (fun p => { p with recs := p.recs.erase r, fillBuf := p.fillBuf.erase r.key, ready := p.ready.filter other,
                                backlog := p.backlog.filter other, keyLost := satInc 48 p.keyLost })).log (peEndpoint n) .msKeyLost
    .deferred (BitVec.ofNat 64 r.set) (some (pairPe n))
/-- Void the records of a set whose header word reads uncorrectable, at the levels searched (R79). -/
def State.voidBad (s : State) (n set : Nat) (levels : List Level) : State :=
  ((s.pe n).recs.filter (fun r => r.keyBad && r.set == set && levels.contains r.level)).foldl (fun s r => s.voidRec n r) s

/-! One token (R80). -/

/-- The request to the spill engine that searches the deep store for a token, or takes its record (R84, R86). -/
def spillMsg (n : Nat) (t : Token) : Msg :=
  { dest := 66, opc := .spill, pri := tPri t.tag, spec := 0,
    body := [mkWide t.tag (lo64 t.val), mkWide (BitVec.ofNat 64 (pairPe n)) (hi64 t.val)], act := 0, cls := .none, ae := none }
/-- The PE a SPILL packet speaks for. -/
def Packet.spillPe (p : Packet) : Nat := (hi64 ((p.body[1]?).getD 0)).toNat

/-- Place a token of arity above 1. `searched` says that the deep store has answered. None when the token must wait for space. A READY record is
found at any level, since no two records may have one key (R80, R83); in the deep store the ready list names it and no search is made, as
R81 no longer counts it (DEDUCED, log 53). -/
def State.placeTok (s : State) (n : Nat) (t : Token) (arity : Nat) (searched : Bool) : Option State :=
  let set := s.setOf n t.tag
  let s := s.voidBad n set (if searched then [.store, .overflow, .deep, .fill] else [.store, .overflow, .fill])
  let key := matchKey t.tag
  let s := if !searched && (s.pe n).lowCount set .overflow != 0 && !(s.pe n).recs.any (fun r => r.key = key ∧ r.level = .store)
    then s.touchOvf n key .overflow else s
  let found (l : List Level) : Option MRec := (s.pe n).recs.find? (fun r => r.key = key ∧ l.contains r.level)
  let ask : Option State :=
    some ((s.updPe n (fun p => { p with lookups := p.lookups ++ [⟨t, set, true, false⟩] })).unitSend (peEndpoint n) (spillMsg n t))
  match (found [.store, .fill, .overflow]).or ((found [.deep]).filter (·.ready)) with
  | some r => s.mergeTok n r t
  | none =>
    if searched then (match found [.deep] with
      | some r => s.mergeTok n r t
      | none => s.newRec n t arity set)
    else if (s.pe n).lowCount set .deep ≠ 0 then ask
    else
      let w := if tWide t.tag then 2 else 1
      let toDeep := decide (4 < (s.pe n).waysUsed set + w) && (s.ovfBuckets (peEndpoint n) == 0 || decide (4 < s.bucketUse n key + w))
      if toDeep then ask else s.newRec n t arity set

/-- The word address of a token's block (R29). -/
def blockAddr (n : Nat) (t : Word) : Nat := if peKind n = .a then 2 * tIp t else tIp t

/-- Whether the kill filter holds a context, staged kills included (R57). -/
def Pe.killed (p : Pe) (k : Nat) : Bool := p.killFilter.contains k || p.killStage.contains k
/-- The matching stage takes one token: the kill filter (R57), the header's arity (R35), then a place. -/
def State.matchTok (s : State) (n : Nat) (t : Token) (searched : Bool) : Option State :=
  let e := peEndpoint n
  let p := s.pe n
  let k := tagCtxKey n (tCtx t.tag)
  let base := blockAddr n t.tag
  let hdr := s.imemAt n base
  let arity := fld hdr 47 46 + 1
  if p.killed k then some (s.filterDrop n t)
  else if p.imemBad.contains base then some (((s.noteUe n .imemUncorrectable base).bumpPe n psBADTOK).deliver e (some (pairPe n)) t.tag true .imemUncorrectable 0 base)
  else if imemWords n ≤ base ∨ opOf hdr ≠ 0x10 then some (s.badToken n t .illegalOpcode)
  else if t.fault ∧ arity ≠ 1 then
    some ((s.log e .faultLost .fatalContext (lo64 t.val) (some (pairPe n)) (some (tCtx t.tag))).startKill k none)
  else if arity ≤ tPort t.tag then some (s.badToken n t .illegalField)
  else
    let s := if searched then s else s.bumpPe n psMATCH
    if arity = 1 then
      some (if tPoison t.tag then s.poisonedAct n [(0, t)] else s.enable n [(0, t)] (matchKey t.tag) (.one t))
    else s.placeTok n t arity searched

/-- One cycle of a PE's clock passes at its matching stage (R80). -/
def State.tick (s : State) (n : Nat) : State :=
  ((s.bumpPe n psCYCLES).bumpPe n psRQAREA (s.pe n).ready.length).updPe n (fun p => { p with clk := p.clk + 1 })

/-- Whether a set has a token whose lower level is being searched or written (R83). -/
def Pe.setBusy (p : Pe) (set : Nat) : Bool := p.lookups.any (fun l => l.asked && l.set == set)

/-- The outcome of a token at PE n, or the state before it where the token must wait for space (R94). -/
def State.fitOr (s : State) (n : Nat) (t : Option State) : State :=
  match t with
  | some u => if s.backlogFits u n then u.pressureCheck else s
  | none => s
/-- TOKEN_MATCH: the first waiting token whose set is idle, from the lookup buffer before the inbox. A token whose set is busy waits in
the buffer of 32; with the buffer full, or no space below, the PE takes no token (R83, R84, R94), and none while its pair does not run (R247). -/
def State.tokenMatch (s : State) (n : Nat) : State :=
  let p := s.pe n
  if !s.pairRuns n then s else
  match p.lookups.find? (fun l => !l.asked && !p.setBusy l.set) with
    | some l => s.fitOr n ((((s.setPe n { p with lookups := p.lookups.erase l }).tick n).matchTok n l.tok false))
    | none =>
      if 32 ≤ p.lookups.length then s
      else match p.inbox with
        | [] => s
        | t :: r =>
          let s' := (s.setPe n { p with inbox := r }).tick n
          if p.killed (tagCtxKey n (tCtx t.tag)) then s'.filterDrop n t
          else if p.setBusy (s.setOf n t.tag) then s'.updPe n (fun p => { p with lookups := p.lookups ++ [⟨t, s.setOf n t.tag, false, false⟩] })
          else s.fitOr n (s'.matchTok n t false)

/-- SPILL_ENGINE_REQUEST (R84, R86): the spill engine serves the first SPILL request and answers on RSP; a search never waits for space. -/
def State.spillEngine (s : State) : State :=
  match s.takeReq 66 (fun p => p.opc == .spill && p.vn == 1) with
  | none => s
  | some (p, s) =>
    (s.unitSend 66 { dest := p.src, opc := .spill, pri := p.pri, spec := p.rslot, body := p.body, act := 0, cls := .none, ae := none,
                     seq := some p.seq }).pressureCheck

/-- DEEP_STORE_LOOKUP_REPLY: the answer to the search or write that PE n asked for. -/
def State.lookupReply (s : State) (n : Nat) : State :=
  let e := peEndpoint n
  match s.takeReq e (fun p => p.opc == .spill && p.vn == 2 && p.spillPe == pairPe n) with
  | none => s
  | some (p, t) =>
    let t := t.endSlot e p.rslot
    if !t.pairRuns n then t.bump aHaltDrop else
    match (t.pe n).lookups.find? (fun l => l.asked && l.tok.tag == p.rtag) with
    | none => t
    | some l =>
      s.fitOr n ((t.updPe n (fun p => { p with lookups := p.lookups.erase l })).matchTok n l.tok true)

/-- FILL_COMPLETE: the inputs of the first READY record below the matching store stand in the fill buffer (R100). -/
def State.fillComplete (s : State) (n : Nat) : State :=
  let p := s.pe n
  match p.recs.find? (fun r => r.ready && p.fillBuf.contains r.key && r.level != .fill) with
  | some r =>
    if r.keyBad then s.voidRec n r
    else (((s.touchOvf n r.key r.level).setRecs n (replaceRec p.recs { r with level := .fill })).bumpPe n psFILL).pressureCheck
  | none => s

/-- SHADOW_COPY_COMPLETE: the inputs of the entry R99 would choose stand in the shadow input bank (R102). -/
def State.shadowCopy (s : State) (n : Nat) : State :=
  match bestReady (s.pe n).ready with
  | some r => s.updPe n (fun p => { p with shadow := some r.src })
  | none => s

/-! Dispatch (R36, R99, R102, R113, R153). -/

/-- Whether a header may be dispatched (R113). -/
def headerOk (n base : Nat) (h : Word) : Bool :=
  fld h 55 48 != 0 && fld h 38 0 == 0 && (bitAt h 45 || fld h 43 39 == 0) && decide (base + fld h 55 48 < imemWords n)

/-- Count a dispatch and its wait (R109). -/
def State.countDispatch (s : State) (n wait : Nat) : State :=
  (s.bumpPe n psDISPATCH).bumpPe n (psWAIT (waitBin ((s.pe n).clk - wait)))

/-- Dispatch a new activation with tag, block address and inputs. -/
def State.dispatchNew (s : State) (n : Nat) (r : ReadyE) (toks : List (Nat × Token)) : State :=
  let e := peEndpoint n
  let c := s.ctx (tagCtxKey n (tCtx r.key))
  let base := blockAddr n r.key
  let hdr := s.imemAt n base
  let handles := (toks.find? (fun t => t.2.fault)).map (fun t => fld t.2.val 63 56)
  let cad := toks.any (fun t => tCad t.2.tag) || c.cad || bitAt hdr 44
  let tag := setFld (setFld r.key 63 61 r.base) 60 60 cad.toNat
  if (s.pe n).imemBad.contains base then (s.noteUe n .imemUncorrectable base).deliver e (some (pairPe n)) tag false .imemUncorrectable 0 base handles
  else if !headerOk n base hdr then s.deliver e (some (pairPe n)) tag false .illegalField 0 (wordDetail hdr) handles
  else if cad ∧ s.cadBarred then s.deliver e (some (pairPe n)) tag false .accessDenied 0 0 handles
  else
    let a := Act.fresh s.serial tag hdr r.stamp base (toks.map (·.2)) handles
    { (s.countDispatch n r.wait).setAct n (some a) with serial := s.serial + 1 }

/-- Whether PE n may dispatch: its cluster runs, or drains before the shift completes (R497); its pair is RUNNING (R248). -/
def State.mayDispatch (s : State) (n : Nat) : Bool :=
  if n < 272 then
    let st := s.clState (peCluster n)
    decide (st ≤ 1) || (st == 4 && s.shift.busy)
  else s.rfld (aPairStatus (pairOf n)) 63 62 == 1

/-- ACTIVATION_DISPATCH: the highest priority, then the smallest stamp; a PE runs one activation, and none while debug holds it. A READY record
whose header reads uncorrectable is void, and one with a bad value slot faults as R33 says (R79). A preemption frame resumes from the
micro-sequencer's copy; its words in module memory, which nobody may change, are not read (DESIGN CHOICE, log 53). -/
def State.dispatch (s : State) (n : Nat) : State :=
  let p := s.pe n
  if p.act.isSome ∨ p.halt ≠ .run ∨ !s.mayDispatch n then s
  else match bestReady p.ready with
    | none => s
    | some r =>
      let s := (s.setPe n { { p with ready := p.ready.erase r, shadow := none }.refillTo 255 with act := p.act }).noteDepth n
      let s := if p.backlog = [] then s else s.pressureCheck
      match r.src with
      | .one t => s.dispatchNew n r [(0, t)]
      | .record key =>
        match p.recs.find? (fun q => q.key = key) with
        | none => s
        | some q =>
          if q.keyBad then s.voidRec n q else
          let low := q.level == .overflow || q.level == .deep
          let s := (s.touchOvf n q.key q.level).updPe n (fun p => { p with recs := p.recs.erase q, fillBuf := p.fillBuf.erase key })
          let s := if low then (s.bumpPe n psFILL).pressureCheck else s
          if q.poison then s.poisonedAct n q.marked else s.dispatchNew n r q.toks
      | .frame f =>
        match p.frame f with
        | none => s
        | some x => (((s.freeFrame n f).countDispatch n r.wait).setAct n (some { x.act with resumed := true })).checkEnd n 0 0

/-! Suspension (R103, R104, R135). -/

/-- PREEMPTION at an iteration boundary of a REP.I: a trap or residue decision due in the activation wins (R155), and a readout ends
first (R244). DESIGN CHOICE (log 48): after iteration k of n the frame holds RC = n − k, the value that iteration k read, and the iteration
that follows reads n − (k + 1). Stores and messages in flight take effect (R56, R186), but for a SAFEW of an AW block, which may fault at its
write-back and stays in the frame beside the register writes of R141. OPA, OPB, OPC, RESULT and word 0x170, which describe a trapping
instruction, are free values (DESIGN CHOICE, log 53). -/
def State.preempt (s : State) (n : Nat) : State :=
  let p := s.pe n
  match p.act with
  | none => s
  | some a =>
    let due := a.flights.filter (fun f => match f.eff with
      | .trap _ _ _ _ _ _ _ _ _ | .check _ => true
      | _ => false)
    match a.rep, firstFlight due with
    | some r, some f => if r.interruptible then s.landTo n f.land else s
    | some r, none =>
      if !r.interruptible || r.done == 0 || a.lrd.isSome || p.halt != .run then s
      else if !(p.ready.any (fun x => decide (6 ≤ x.pri) && decide (actPri p a < x.pri))) || decide (256 ≤ p.ready.length) then s
      else match p.freeFrame true with
        | none => s
        | some fr =>
          let kept := a.flights.filter (fun f => f.eff.persists && !(a.aw && f.eff.isSafew))
          let s := s.leave n a kept
          let a := { a with flights := a.flights.filter (fun f => !kept.contains f) }
          let d := s.draw
          let w (k : Nat) : Word := Config.frameMicro (d.1 + k)
          let s := { d.2 with free := d.2.free + 5 }
          let s := s.saveFrame n fr true a (w 0) (w 1) (w 2) (w 3) 63 (w 4).toNat
          let s := (s.bumpPe n psCYCLES 40).bumpPe n psRQAREA (40 * p.ready.length)
          let s := s.updPe n (fun p => { p with clk := p.clk + 40, frames := Tbl.upd none p.frames fr (fun x => x.map (fun y => { y with inReady := true })) })
          (s.bumpPe n psPREEMPT).enqueue n ⟨max (tPri a.tag) ((s.pe n).boostOf a.key), tPri a.tag, a.stamp, (s.pe n).clk, a.tag, .frame fr⟩
    | none, _ => s

/-- PRECISE_TRAP: the write-back point of an instruction whose enabled exception was raised (R135). -/
def State.preciseTrap (s : State) (n : Nat) : State :=
  match s.act n with
  | none => s
  | some a =>
    match firstFlight (a.flights.filter (fun f => match f.eff with
      | .trap _ _ _ _ _ _ _ _ _ => true
      | _ => false)) with
    | some f => s.landTo n f.land
    | none => s

/-- RESIDUE_MISMATCH: the checked result of the instruction issued in `slot` fails its residue check at its write-back point; the
result is suppressed and R219 decides. -/
def State.residueMismatch (s : State) (n slot : Nat) : State :=
  match s.act n with
  | none => s
  | some a =>
    match a.flights.find? (fun f => f.issue == slot && (match f.eff with
      | .reg _ _ _ | .product _ | .mac _ _ | .trap _ _ _ _ _ _ _ _ _ => true
      | _ => false)) with
    | none => s
    | some f =>
      let s := (s.setAct n (some { a with flights := a.flights.filter (fun g => g.issue != slot) })).landTo n f.land
      match s.act n with
      | some b => if s.sameAct n a then s.residueDecide n b f else s
      | none => s

/-- DIVK_LANDING: slots of a fence stall pass until the divide lands (R129, R194). -/
def State.divkLanding (s : State) (n : Nat) : State :=
  match s.act n with
  | none => s
  | some a =>
    match a.flights.find? (·.divk) with
    | none => s
    | some f =>
      if a.fence.isSome ∧ a.slot < f.land then
        ((s.countSlots n a.slot f.land).landTo n f.land).updPe n (fun p => { p with act := p.act.map (fun b => { b with slot := max b.slot f.land }) })
      else s

/-! LRD (R188, R236 to R241). -/

/-- LRD reads an LACC (R241): its words, of which one may show a single-bit error (1) or an uncorrectable one (2 and above), and its residue,
which makes it CORRUPT when it does not agree. -/
def State.readLacc (s : State) (n k upset : Nat) : State :=
  let s := (s.setLacc n k { s.lacc n k with err := max upset (s.lacc n k).err }).laccWords n k
  let l := s.lacc n k
  if l.corrupt ∨ !l.residueBad then s
  else ((s.setLacc n k { l with corrupt := true }).bumpPe n psLACCERR).logFree (peEndpoint n) .laccCorrupt .deferred (some (pairPe n)) (some l.owner)
/-- LRD_LANDING: the readout with the modes of its issue, after every write that is due before it. A CORRUPT LACC faults (R237). -/
def State.lrdLanding (s : State) (n upset : Nat) : State :=
  match s.act n with
  | none => s
  | some a =>
    match a.lrd with
    | none => s
    | some r =>
      let s := s.readLacc n r.acc upset
      let l := s.lacc n r.acc
      let cyc := l.cycles a.cad
      let t := max a.slot (r.issue + cyc)
      let s := ((s.bumpPe n psLRDCYC cyc).countSlots n a.slot t).landTo n (t - 1)
      match s.act n with
      | none => s
      | some b =>
        if !s.sameAct n a then s
        else match l.readout r.lsel r.rm r.fxrm r.sat with
          | none => s.raiseFault n { b with lrd := none, slot := t } .arithCheck r.offset 0
          | some (v, fps, fxs) =>
            let b := { b with lrd := none, slot := t, g := b.g.setIfInBounds r.dst v, gp := setBit b.gp r.dst false,
                              fps := b.fps ||| BitVec.ofNat 64 fps, fxs := b.fxs ||| BitVec.ofNat 64 fxs }
            let s := (s.bumpPe n psLRD).setAct n (some b)
            if b.aw then s.checkEnd n r.word b.len else s

/-! RESUME at the owning PE (R151 to R153). -/

/-- Word i of a save frame in module memory. -/
def State.frameWord (s : State) (n f off : Nat) : Word := s.word (s.frameAddr n f + off)
/-- The activation that a frame's words describe, on top of the micro-sequencer's own copy (R150). A word that reads uncorrectable or as stored poison
comes back with its bits, without poison or fault (DESIGN CHOICE, log 53). All four I registers come back, whatever the arity; RC under a repeat is
the count that remains after the iteration that is issued again (R141); CTL.CAD only sets (R121). -/
def State.frameAct (s : State) (n f : Nat) (a : Act) : Act :=
  let w := s.frameWord n f
  let ins := (List.range 4).map (fun k =>
    { (a.ins[k]?).getD ⟨0, 0, false, 0, false⟩ with val := mkWide (w (0xC8 + 16 * k)) (w (0xC0 + 16 * k)) })
  let rc : BitVec 16 := (w 0x108).setWidth 16
  { a with g := Vector.ofFn (fun (k : Fin 16) => w (8 * k.val)),
           ga := Vector.ofFn (fun (k : Fin 4) => BitVec.ofNat 80 ((w (0x80 + 16 * k.val)).toNat + 2 ^ 64 * (w (0x88 + 16 * k.val)).toNat)),
           ins := ins, rc := rc, rep := a.rep.map (fun r => { r with n := rc.toNat + r.done + 1 }), fps := w 0x110, fxs := w 0x118,
           ctl := setBit (w 0x120) 3 (bitAt (w 0x120) 3 || a.cad),
           mh := if peKind n = .a then w 0x128 else a.mh, ml := if peKind n = .a then w 0x130 else a.ml,
           lsel := if peKind n = .a then w 0x138 else a.lsel, gp := (w 0x148).setWidth 24 }
/-- Whether every register word holds a value that MOVTS could write (R152). -/
def State.frameOk (s : State) (n f : Nat) (a : Act) : Bool :=
  let w := s.frameWord n f
  specialOk a 25 (w 0x108) && specialOk a 26 (w 0x110) && specialOk a 27 (w 0x118) && specialOk a 28 (w 0x120)
    && (peKind n != .a || specialOk a 31 (w 0x138)) && fld (w 0x148) 63 24 == 0
    && (List.range 4).all (fun k => fld (w (0x88 + 16 * k)) 63 16 == 0)

/-- Write RESULT to a destination register; 63 stands for an instruction without one. The manual does not say whether the destination is
poisoned when the trapping instruction read a poisoned source: it is not (DESIGN CHOICE, log 48). -/
def Act.putResult (a : Act) (d : Nat) (v : Word) : Act :=
  if d < 16 then { a with g := a.g.setIfInBounds d v, gp := setBit a.gp d false } else a

/-- CM_RESUME_REQUEST: the checks of R152 at the PE that owns the frame, then reinsertion, or for RESUME.D the end of the frame. The frame's
words are read, and its KIND becomes free, when the request is accepted (R155); the frame serves another trap once the activation runs
again (DESIGN CHOICE, log 48). -/
def State.resume (s0 : State) (e : Nat) : State :=
  match s0.takeSvc e 4 with
  | none => s0
  | some (p, s) =>
    let addr := fld p.argA 47 0
    let n := pairPe (fld p.argA 56 48)
    let mode := fld p.argB 1 0
    if fld p.argA 63 57 ≠ 0 ∨ 275 < fld p.argA 56 48 ∨ fld p.argB 63 2 ≠ 0 ∨ mode = 3 ∨ p.len ≠ 2 ∨ peEndpoint n ≠ e then s.refuseArgs e p
    else
      let area := s.frameAddr n 0
      let f := (addr - area) / 512
      let no := s.refuse e p .illegalSequence addr
      if addr < area ∨ area + 4096 ≤ addr ∨ addr % 512 ≠ 0 then no
      else match (s.pe n).frame f with
        | none => no
        | some x =>
          if x.preempt || x.inReady || s.frameWord n f 0x100 != x.act.tag || s.frameWord n f 0x140 != x.status
            || tCtx x.act.tag != tCtx p.rtag || tIter x.act.tag != tIter p.rtag || (mode != 2 && !s.frameOk n f x.act) then no
          else
            let s := s.answer e p stDONE none
            if mode = 2 then s.freeFrame n f
            else
              let a := s.frameAct n f x.act
              let a := if mode = 1 then (a.putResult x.dst (s.frameWord n f 0x168)).advance a.off else a
              let s := (s.updPe n (fun p => p.setFrame f (some { x with act := a, inReady := true }))).clearKind n f
              let t := s.enqueue n ⟨max x.pri ((s.pe n).boostOf a.key), x.pri, a.stamp, (s.pe n).clk, a.tag, .frame f⟩
              if s.backlogFits t n then t else s0

/-! Commands. -/

def execTokenMatch (pe : Nat) (s : State) : Out := onPe pe s (fun s => s.tokenMatch pe)
def execDeepStoreLookupReply (pe : Nat) (s : State) : Out := onPe pe s (fun s => s.lookupReply pe)
def execSpillEngineRequest (s : State) : Out := onModule s (fun s => s.spillEngine)
def execFillComplete (pe : Nat) (s : State) : Out := onPe pe s (fun s => s.fillComplete pe)
def execShadowCopyComplete (pe : Nat) (s : State) : Out := onPe pe s (fun s => s.shadowCopy pe)
def execActivationDispatch (pe : Nat) (s : State) : Out := onPe pe s (fun s => s.dispatch pe)
def execPreemption (pe : Nat) (s : State) : Out := onPe pe s (fun s => s.preempt pe)
def execPreciseTrap (pe : Nat) (s : State) : Out := onPe pe s (fun s => s.preciseTrap pe)
def execResidueMismatch (pe slot : Nat) (s : State) : Out := onPe pe s (fun s => s.residueMismatch pe slot)
def execDivkLanding (pe : Nat) (s : State) : Out := onPe pe s (fun s => s.divkLanding pe)
def execLrdLanding (x : LrdRead) (s : State) : Out := onPe x.pe s (fun s => s.lrdLanding x.pe x.upset)
def execCmResumeRequest (e : Nat) (s : State) : Out := onOwner e s (fun s => s.resume e)

end Sys2Proof.Machine
end

