-- ==== Sys2Proof/Machine/Microword.lean ====
section
/-! DEFINITION. Microwords (R439 to R443): the control store, their layout, the next micro-address, the match registers that redirect a fetch to
patch RAM, and control-store faults. What the datapath field DP does is not published (R440). -/

namespace Sys2Proof.Machine

/-- A microword (R440); `sels` holds C0SEL to C3SEL. -/
structure Microword where
  clen : Nat
  tw : Bool
  seq : Nat
  base : Nat
  sels : List Nat
  dp : Nat
  deriving DecidableEq, Repr
def microword (w : BitVec 112) : Microword :=
  { clen := fld w 111 110, tw := bitAt w 109, seq := fld w 108 107, base := fld w 106 93,
    sels := [fld w 77 73, fld w 82 78, fld w 87 83, fld w 92 88], dp := fld w 72 0 }
/-- Cycles that a microword occupies. -/
def Microword.cycles (m : Microword) : Nat := m.clen + 1
/-- A selector's condition: 0 gives a constant 0, 1 to 31 name the internal conditions `conds` shows. -/
def condOf (conds : BitVec 32) (sel : Nat) : Bool := sel != 0 && conds.getLsbD sel
/-- The next micro-address: BASE or (c3 * 8 + c2 * 4 + c1 * 2 + c0) (R441). -/
def Microword.next (m : Microword) (conds : BitVec 32) : Nat :=
  m.base ||| m.sels.foldr (fun sel n => (condOf conds sel).toNat + 2 * n) 0
/-- The first enabled match register of PE n that holds a ROM address: the patch RAM word it names (R442). -/
def State.patchWord (s : State) (n a : Nat) : Option Nat :=
  ((List.range 32).find? (fun k => bitAt (s.reg (aPeUmatch n k)) 31 && s.rfld (aPeUmatch n k) 12 0 == a)).map (fun k => s.rfld (aPeUmatch n k) 24 16)
/-- Where a formed address is fetched: ROM addresses are compared with the match registers, patch RAM addresses never are (R439, R442). -/
def State.fetchAddr (s : State) (n a : Nat) : Nat := if a < 0x2000 then ((s.patchWord n a).map (0x2000 + ·)).getD a else a
def kindNo (n : Nat) : Nat := match peKind n with
  | .s => 0
  | .a => 1
  | .k => 2
/-- The control-store word of PE n at a micro-address: the ROM of its kind, or its patch RAM (R439). -/
def State.storeWord (s : State) (n a : Nat) : BitVec 112 :=
  if a < 0x2000 then Config.ucodeRom (kindNo n) a else Tbl.get 0 (s.pe n).useq.patch (a - 0x2000)
/-- The microword that PE n's micro-sequencer runs. -/
def State.microHere (s : State) (n : Nat) : Microword := microword (s.storeWord n (s.pe n).useq.mpc.toNat)
/-- What follows a microword: the address fetched next, the end of the routine, or a control-store fault at a micro-address, which a reserved SEQ and
an address in the reserved range are (R440, R443). -/
inductive MicroEnd where
  | next (a : Nat) | done | fault (a : Nat)
  deriving DecidableEq, Repr
def State.microNext (s : State) (n : Nat) (conds : BitVec 32) : MicroEnd :=
  let m := s.microHere n
  if m.seq = 0 then
    let a := m.next conds
    if 0x2200 ≤ a then .fault a else .next (s.fetchAddr n a)
  else if m.seq = 1 then .done
  else .fault (s.pe n).useq.mpc.toNat
def State.updUseq (s : State) (n : Nat) (f : Useq → Useq) : State := s.updPe n (fun p => { p with useq := f p.useq })
def State.setMpc (s : State) (n a : Nat) : State := s.updUseq n (fun u => { u with mpc := BitVec.ofNat 14 a })

/-! PE_UCODE_SUM (R449). -/

/-- CRC-32 with the IEEE 802.3 polynomial, bits taken from the lowest, over a byte string (R449). -/
def crc32Bits : Nat → Nat → Nat
  | 0, c => c
  | k + 1, c => crc32Bits k (if c.testBit 0 then c / 2 ^^^ 0xEDB88320 else c / 2)
def crc32 (l : List Byte) : Nat := l.foldl (fun c b => crc32Bits 8 (c ^^^ b.toNat)) 0xFFFFFFFF ^^^ 0xFFFFFFFF
/-- The bytes summed: 512 words of patch RAM of 16 bytes each, then the 32 match registers, all little-endian (DESIGN CHOICE, log 13). -/
def State.ucodeBytes (s : State) (n : Nat) : List Byte :=
  (List.range 512).flatMap (fun i => leBytes 16 (Tbl.get 0 (s.pe n).useq.patch i).toNat) ++ (List.range 32).flatMap (fun k => leBytes 8 (s.reg (aPeUmatch n k)).toNat)

end Sys2Proof.Machine
end

