-- ==== Sys2Proof/Machine/Targets.lean ====
section
/-! DEFINITION. What a memory target does with a request (R63, R68 to R71, R177, R179 to R181, R262 to R281, R511), the release of
deferred replies (R273), scrubbing, the background test and retention (R274 to R291). -/

namespace Sys2Proof.Machine

/-! Which request a target takes next (R63, R264). -/

/-- The activation that issued a request, as its response slot records it. -/
def State.issuedBy (s : State) (e : Nat) (p : Packet) : Option Nat := ((s.ni p.src).slot (if localReq e p then p.seq else p.rslot)).map (·.act)
/-- Whether q, which arrived before p, must be served first: they touch a common byte through one view, and come from one activation, or
reach a channel of module memory, which serves in arrival order (R63, R291). -/
def State.goesFirst (s : State) (e : Nat) (q p : Packet) : Bool :=
  p.overlaps q
    && (decide (64 ≤ e) || (q.src == p.src && s.issuedBy e q == s.issuedBy e p))
/-- Rank of a master at a bank, 0 first: NI-in, the A-PE, then the S-PEs in turn after the one served last (R264). -/
def Bank.rank (b : Bank) (m : Nat) : Nat := if m = 5 then 0 else if m = 4 then 1 else 2 + (m + 3 - b.last) % 4
/-- Whether a master has waited for 16 accesses, each taking a cluster cycle (R264). -/
def Bank.starved (b : Bank) (m : Nat) : Bool := decide (16 ≤ Tbl.get 0 b.held m)
/-- The first of a list with the least rank. -/
def bestRank (f : Packet → Nat) : List Packet → Option Packet
  | [] => none
  | p :: r => match bestRank f r with
    | none => some p
    | some q => if f q < f p then some q else some p
/-- The memory requests at endpoint e that no earlier one must precede. -/
def State.memReady (s : State) (e : Nat) : List Packet :=
  let l := s.reqAt e
  l.filter (fun p => p.opc.isMem && !(l.takeWhile (· ≠ p)).any (fun q => s.goesFirst e q p))
/-- The request that wins bank b of cluster e, whatever its opcode: the starved before the others, then by rank. -/
def State.bankWinner (s : State) (e b : Nat) : Option Packet :=
  let x := s.bank e b
  bestRank (fun q => if x.starved (masterOf e q) then x.rank (masterOf e q) else 8 + x.rank (masterOf e q))
    ((s.memReady e).filter (fun q => !portB e q && q.bank == b))
/-- The request with property f that endpoint e serves next: at a scratch bank only the winner, but for those of port B. -/
def State.memPick (s : State) (e : Nat) (f : Packet → Bool) : Option Packet :=
  (s.memReady e).find? (fun p => f p && (decide (64 ≤ e) || portB e p || s.bankWinner e p.bank == some p))
def State.dropReq (s : State) (e : Nat) (p : Packet) : State := s.setReqs e ((s.reqAt e).erase p)
/-- Take it. -/
def State.takeMem (s : State) (e : Nat) (f : Packet → Bool) : Option (Packet × State) := (s.memPick e f).map (fun p => (p, s.dropReq e p))
/-- A bank has served p. -/
def State.noteBank (s : State) (e : Nat) (p : Packet) : State := if 64 ≤ e ∨ portB e p then s else s.serveBank e p.bank (masterOf e p)

/-! Reading a stored word (R279, R281). -/

/-- Memory channel of a plain-view address (R275). -/
def channelOf (a : Nat) : Nat := (a / 256 ^^^ a / 65536) % 4
/-- Counters of a channel: RD, WR, CE, UE, POISON, CHKMISS (R290). -/
def msRD : Nat := 0
def msWR : Nat := 1
def msCE : Nat := 2
def msUE : Nat := 3
def msPOISON : Nat := 4
def msCHKMISS : Nat := 5
/-- MM_ERR_ADDR (R290). -/
def State.errAddr (s : State) (a : Nat) (ue : Bool) : State :=
  s.setReg (aMmErr (channelOf a)) (BitVec.ofNat 64 (put 63 63 1 + put 62 62 ue.toNat + put 47 0 a))
/-- The source of an event about a word at target e: the scratch bank, or the memory channel (R381, R426). -/
def wordSrc (e a : Nat) : Nat := if e < 64 then bankSrc e a else srcOf (87 + channelOf a) (channelOf a)
/-- The word at a plain-view address of target e, and whether it reads poisoned: corrections are written back and logged, an
uncorrectable word is logged and counted, stored poison is counted. -/
def State.readWord (s : State) (e a : Nat) : Word × Bool × State :=
  let v := s.word a
  let ctr (s : State) (i j : Nat) : State := if e < 64 then s.bump (aScStat e i) else s.bump (aMmStat (channelOf a) j)
  let seen (s : State) (ue : Bool) : State := if e < 64 then s else s.errAddr a ue
  match s.eccAt a with
  | .ok => (v, false, s)
  | .ce => (v, false, (seen (ctr ((if e < 64 then s.noteCe e a else s).setEcc a .ok) ssCE msCE) false).log (wordSrc e a) (if e < 64 then .scCe else .memCe) .corrected (BitVec.ofNat 64 a))
  | .ue =>
    let d := s.draw
    (Config.badRead a d.1, true,
      ((seen (ctr d.2 ssUE msUE) true).log (wordSrc e a) (if e < 64 then .scUe else .memUe) .deferred (BitVec.ofNat 64 a)).countUe)
  | .poison => (v, true, ctr s ssPOISON msPOISON)

/-! The checks of a target (R263, R511). -/

/-- Why target e refuses a request of `size` bytes at address a, through the I-view or not. What touches TB_NOW and is no READ of it is
ACCESS_DENIED, misaligned or not (R177; DESIGN CHOICE, log 53). -/
def State.targetCheck (s : State) (e a size : Nat) (iview : Bool) : Option FaultCode :=
  let scr (c : Nat) (i : Bool) : Option FaultCode :=
    if c ≠ e ∨ a % size ≠ 0 ∨ i ≠ iview then some .addressFault
    else if s.reservedArea c (a % 0x80000) then some .accessDenied else none
  match s.classify a with
  | .none => some .addressFault
  | .barred => some .accessDenied
  | .tbNow => if e = 68 ∧ !iview ∧ size = 8 ∧ a = aTbNow then none else some .accessDenied
  | .mem => if e ≠ 64 ∨ a % size ≠ 0 ∨ iview then some .addressFault else none
  | .memI => if e ≠ 64 ∨ a % size ≠ 0 ∨ !iview then some .addressFault else none
  | .scr c => scr c false
  | .scrI c => scr c true

/-- Refuse a request that fails its checks; reserved scratch counts in SC_STAT_DENIED (R263). -/
def State.refuseTarget (s : State) (e : Nat) (p : Packet) (fc : FaultCode) : State :=
  let s := if fc = .accessDenied ∧ e < 64 ∧ s.reservedArea e (p.addr % 0x80000) then s.bump (aScStat e ssDENIED) else s
  s.refuse e p fc p.addr

/-- A channel of module memory counts a read or a write, and the misses of its cache, which the manual leaves to the device (log 49). -/
def State.touchMem (s : State) (a : Nat) (write : Bool) : State :=
  let d := s.draw
  (d.2.bump (aMmStat (channelOf a) (if write then msWR else msRD))).bump (aMmStat (channelOf a) msCHKMISS) (Config.chkMisses d.1)
/-- The access that serves request p at its target. -/
def State.atTarget (s : State) (e : Nat) (p : Packet) (write : Bool) : State :=
  let a := plainOf p.addr
  if e < 64 then (s.noteBank e p).touchScratch e (a % 0x80000) else if e = 64 then s.touchMem a write else s

/-- Answer with a value: the reply token carries POISON when the value was read poisoned (R33). -/
def State.answerValue (s : State) (e : Nat) (p : Packet) (v : Wide) (poison : Bool) : State :=
  s.answer e p stDONE (if p.nr then none else some (if poison then setBit p.rtag 59 true else p.rtag, v))
/-- Answer with a status in value bits 63:56 (R180, R181), no token with NR set. -/
def State.answerStatus (s : State) (e : Nat) (p : Packet) (rsp st : Nat) : State :=
  s.answer e p rsp (if p.nr then none else some (p.rtag, statusVal st 0))

/-! READ and WRITE. -/

/-- The access size of a READ or WRITE (R302). -/
def Packet.size (p : Packet) : Nat := sizeOf (p.spec / 512 % 8)

/-- The words a READ of `size` bytes covers: value and poison. A DEFERRED word reads zero (R68). -/
def State.readPlain (s : State) (e a size : Nat) : Wide × Bool × State :=
  let one (s : State) (b : Nat) : Word × Bool × State := if s.presAt b = .deferred then (0, false, s) else s.readWord e b
  if size = 16 then
    let x := one s a
    let y := one x.2.2 (a + 8)
    (mkWide y.1 x.1, x.2.1 || y.2.1, y.2.2)
  else
    let x := one s (a / 8 * 8)
    (BitVec.ofNat 128 (x.1.toNat / 256 ^ (a % 8) % 256 ^ size), x.2.1, x.2.2)

/-- TARGET_READ at endpoint e. -/
def State.targetRead (s : State) (e : Nat) : State :=
  match s.takeMem e (fun p => p.opc == .read) with
  | none => s
  | some (p, s) =>
    match s.targetCheck e p.addr p.size false with
    | some fc => s.refuseTarget e p fc
    | none =>
      if e = 68 then s.answerValue e p (mkWide 0 s.tb) false
      else
        let a := plainOf p.addr
        let r := (s.atTarget e p false).readPlain e a p.size
        r.2.2.answerValue e p r.1 r.2.1

/-- Store k bytes of data at a target: a narrow write reads the word first and keeps an uncorrectable word poisoned (R276, R281). -/
def State.writePlain (s : State) (e a k v : Nat) (poison : Bool) : State :=
  let x := s.mergedEcc a k poison
  let s := if k < 8 then (s.readWord e (a / 8 * 8)).2.2 else s
  (s.store a k v).setEcc a x

/-- Whether a request met a write of port A to its mailbox word in the same cycle (R267, R268). -/
def collides (e : Nat) (p : Packet) (same : Bool) : Bool := same && decide (e < 64) && !localReq e p && decide (p.addr % 0x80000 < 0x4000)

/-- Port B's write is discarded: CL_DP_COLLIDE rises and the requester sees COLLIDED. -/
def State.collide (s : State) (e : Nat) (p : Packet) : State := (s.bump (aDpCollide e)).answerStatus e p stCOLLIDED 1

/-- TARGET_WRITE at endpoint e; `same` when port A wrote the word in the same cycle. -/
def State.targetWrite (s : State) (e : Nat) (same : Bool) : State :=
  match s.takeMem e (fun p => p.opc == .write) with
  | none => s
  | some (p, s) =>
    let a := plainOf p.addr
    match s.targetCheck e p.addr p.size false with
    | some fc => s.refuseTarget e p fc
    | none =>
      let s := s.atTarget e p true
      if collides e p same then s.collide e p
      else if s.presAt a = .deferred then s.refuseTarget e p .addressFault
      else (s.writePlain e a p.size p.argB.toNat p.dpsn).answerStatus e p stDONE 0

/-! The I-view (R67 to R71, R269 to R273). -/

/-- The entries of a level that deferrals against the scratch of cluster e, or against the I-region, take. -/
def State.deferSlots (s : State) (e : Nat) (ovf : Bool) : List Nat :=
  let here (a : Nat) : Bool := if e < 64 then decide (scrBase e ≤ a ∧ a < scrBase e + 0x100000) else decide (a < 2 ^ 32)
  let n (l : List Defer) : List Nat := (l.filter (fun d => d.ovf == ovf)).map (·.slot)
  (s.defers.filter (fun x => here x.1)).flatMap (fun x => n x.2) ++ (Tbl.get [] s.rels e).flatMap (fun r => n r.list)
def State.deferCount (s : State) (e : Nat) (ovf : Bool) : Nat := (s.deferSlots e ovf).length
/-- The level a new deferral takes (R70 to R72, R271, R272): the pool, the cluster's overflow, or none free. -/
def State.deferLevel (s : State) (e : Nat) : Option Bool :=
  if e < 64 then
    if s.deferCount e false < 4096 then some false else if s.deferCount e true < 65536 then some true else none
  else if s.deferCount e false < 16777216 then some false else none
def State.setDefers (s : State) (a : Nat) (l : List Defer) : State := { s with defers := Tbl.set [] s.defers a l }

/-- The presence code word of the word at a reads uncorrectable: it counts in the storm window, and at a channel of module memory (R283, R290). -/
def State.presUe (s : State) (e a : Nat) : State :=
  (if e < 64 then s else (s.bump (aMmStat (channelOf a) msUE)).errAddr a true).countUe
/-- An access to a word whose presence state is lost gets a poisoned reply; the word becomes EMPTY (R269). -/
def State.lostPresence (s : State) (e : Nat) (p : Packet) (a : Nat) : State :=
  let d := s.draw
  let s := ((d.2.setPres a .empty).setDefers a []).log (wordSrc e a) .scPresenceLost .deferred (BitVec.ofNat 64 a)
  (s.answerValue e p (mkWide 0 (Config.badRead a d.1)) true).presUe e a

/-- No deferral entry is free (R70): NACK NO_CAPACITY; the local path delivers the fault itself. -/
def State.noDefer (s : State) (e : Nat) (p : Packet) : State :=
  let s := if e < 64 then s.bump (aScStat e ssNACK) else s
  if localReq e p then (s.endSlot e p.seq).deliverTo p.issuerKey e none p.rtag true .noCapacity 0 p.addr else s.nack e p rsnNOCAP

/-- The PE whose micro-sequencer does the deferral bookkeeping of scratch: the lowest-numbered local slot that runs no routine, or slot 0 where every
one does (R438). -/
def State.scratchPe (s : State) (e : Nat) : Option Nat :=
  if e < 64 then some (((clusterPes e).find? (fun n => (s.pe n).useq.running.isNone)).getD (slotPe e 0)) else none
/-- Record a deferral in entry k of a level (R270, R271): the word's data bits become the indexes of its list, and an entry of the pool holds the
reply tag. -/
def State.recordDefer (s : State) (e a : Nat) (p : Packet) (ovf : Bool) : State :=
  let k := firstFree (s.deferSlots e ovf)
  let d := s.draw
  let s := ((d.2.setDefers a (Tbl.get [] s.defers a ++ [⟨p.rtag, p.src, ovf, false, k, false⟩])).setPres a .deferred).putWord a (Config.listWord d.1)
  if e < 64 then
    let s := (s.bump (aScStat e ssDEFER)).bump (aScStat e ssDEFOVF) ovf.toNat
    if ovf then s else s.microPut e (poolAt e k) p.rtag
  else s
/-- Serve an IREAD. -/
def State.serveIread (s : State) (e : Nat) (p : Packet) : State :=
  let a := plainOf p.addr
  match s.targetCheck e p.addr 8 true with
  | some fc => s.refuseTarget e p fc
  | none =>
    let s := s.atTarget e p false
    match s.presAt a with
    | .lost => s.lostPresence e p a
    | .full =>
      let r := s.readWord e a
      r.2.2.answerValue e p (mkWide 0 r.1) r.2.1
    | .empty | .deferred =>
      match s.deferLevel e with
      | none => s.noDefer e p
      | some ovf => (s.recordDefer e a p ovf).answer e p stDEFERRED none
/-- Serve an IWRITE: a DEFERRED word's list is released after the writer's own answer (R273); in scratch one of the cluster's
micro-sequencers runs the release. -/
def State.serveIwrite (s : State) (e : Nat) (p : Packet) (same : Bool) : State :=
  let a := plainOf p.addr
  match s.targetCheck e p.addr 8 true with
  | some fc => s.refuseTarget e p fc
  | none =>
    let s := s.atTarget e p true
    let put (s : State) : State :=
      (((s.store a 8 p.argB.toNat).setEcc a (if p.dpsn then .poison else .ok)).setPres a .full).answerStatus e p stDONE 0
    if collides e p same then s.collide e p
    else match s.presAt a with
      | .lost => s.lostPresence e p a
      | .full => s.refuseTarget e p .iDoubleWrite
      | .empty => put s
      | .deferred =>
        let l := Tbl.get [] s.defers a
        let s := put (s.setDefers a [])
        { s with rels := Tbl.set [] s.rels e (Tbl.get [] s.rels e ++ [⟨a, p.argB, p.dpsn, l, 0, s.scratchPe e⟩]) }
/-- The waiting request with property f to the word of p. -/
def State.meets (s : State) (e : Nat) (p : Packet) (f : Packet → Bool) : Option Packet :=
  (s.reqAt e).find? (fun q => f q && plainOf q.addr == plainOf p.addr)

/-- TARGET_IREAD; `same` when an IWRITE reached the same word in the same cycle: at an EMPTY word it is applied first (R71). -/
def State.targetIread (s : State) (e : Nat) (same : Bool) : State :=
  match s.takeMem e (fun p => p.opc == .iread) with
  | none => s
  | some (p, s) =>
    match s.meets e p (fun q => q.opc == .iwrite) with
    | some q => if same ∧ s.presAt (plainOf p.addr) = .empty then ((s.dropReq e q).serveIwrite e q false).serveIread e p else s.serveIread e p
    | none => s.serveIread e p
/-- TARGET_IWRITE; `same` when port A wrote the word in the same cycle. -/
def State.targetIwrite (s : State) (e : Nat) (same : Bool) : State :=
  match s.takeMem e (fun p => p.opc == .iwrite) with
  | none => s
  | some (p, s) => s.serveIwrite e p same

/-- A word that the MC fills (R472): it becomes FULL, and its deferred replies are due. -/
def State.fillWord (s : State) (e a : Nat) : State :=
  let l := Tbl.get [] s.defers a
  let s := s.setPres a .full
  if l = [] then s
  else
    let s := s.setDefers a []
    { s with rels := Tbl.set [] s.rels e (Tbl.get [] s.rels e ++ [⟨a, s.word a, (s.eccAt a).bad, l, 0, s.scratchPe e⟩]) }

/-- Send one deferred reply from endpoint e (R273, R367). -/
def State.sendDeferred (s : State) (e : Nat) (d : Defer) (v : Word) (poison : Bool) : State :=
  let tag := if poison then setBit d.tag 59 true else d.tag
  s.unitSend e (tokenMsg (if 256 ≤ d.ep then d.ep else peEndpoint (tPe tag)) tag (mkWide 0 v) 0 .none)

/-- The micro-sequencer reads the entry of a deferral: whether it can be read (R280). -/
def State.readDefer (s : State) (e : Nat) (d : Defer) : Bool × State :=
  if e < 64 ∧ !d.ovf then s.microRead e (poolAt e d.slot) else if d.bad then (false, s.tallyUe) else (true, s)
/-- The first release of a list that may run: a micro-sequencer that debug halted waits (R451). An entry that cannot be read is skipped (R280). -/
def State.releaseNext (s : State) (e : Nat) (f : Release → Bool) : State :=
  let l := Tbl.get [] s.rels e
  match l.find? (fun r => f r && !(r.pe.any (fun n => (s.pe n).halt == .halted))) with
  | none => s
  | some r =>
    let keep (s : State) (x : List Defer) (n : Nat) : State :=
      let now : Release := { r with list := x, sent := n }
      let all := (l.takeWhile (· ≠ r) ++ now :: (l.dropWhile (· ≠ r)).tail).filter (fun q => q.list ≠ [])
      { s with rels := Tbl.set [] s.rels e all }
    match r.list.dropWhile (fun d => d.void) with
    | [] => keep s [] r.sent
    | d :: x =>
      let t := s.readDefer e d
      if s.stormIn t.2 then s.afterUe t.2
      else if t.1 then (keep t.2 x (r.sent + 1)).sendDeferred e d r.val r.poison else (keep t.2 x r.sent).logFree e .deferLost .deferred

/-- DEFERRED_REPLY_RELEASE: the next reply of a filled word, voided entries skipped. -/
def State.releaseOne (s : State) (e : Nat) : State := s.releaseNext e (fun _ => true)

/-! ATOM (R181). -/

/-- FORM of an ATOM packet. -/
def Packet.form (p : Packet) : Nat := p.spec / 512 % 16
/-- What a form makes of the word: operand b, comparand c. -/
def atomOf (form : Nat) (old b c : Word) : Word :=
  if form = 0 then b
  else if form = 1 then (if old = c then b else old)
  else if form = 2 then old + b
  else if form = 3 then old &&& b
  else if form = 4 then old ||| b
  else if form = 5 then old ^^^ b
  else if form = 6 then (if b.slt old then b else old)
  else if form = 7 then (if old.slt b then b else old)
  else if form = 8 then (if b.ult old then b else old)
  else if form = 9 then (if old.ult b then b else old)
  else old
/-- Whether the new word is stored poison: it comes from a poisoned operand, or from a poisoned old word it depends on. -/
def atomPoison (form : Nat) (old c : Word) (oldBad opBad : Bool) : Bool :=
  if form = 0 then opBad else if form = 1 then oldBad || (opBad && old == c) else oldBad || opBad

/-- TARGET_ATOM: every form but ICLR, as one step on the word. -/
def State.targetAtom (s : State) (e : Nat) : State :=
  match s.takeMem e (fun p => p.opc == .atom && p.form != 10) with
  | none => s
  | some (p, s) =>
    let a := plainOf p.addr
    match s.targetCheck e p.addr 8 false with
    | some fc => s.refuseTarget e p fc
    | none =>
      let s := s.atTarget e p true
      if s.presAt a = .deferred then s.refuseTarget e p .addressFault
      else
        let r := s.readWord e a
        let v := atomOf p.form r.1 p.argB p.argC
        let bad := atomPoison p.form r.1 p.argC r.2.1 p.dpsn
        ((r.2.2.store a 8 v.toNat).setEcc a (if bad then .poison else .ok)).answerValue e p (mkWide 0 r.1) r.2.1

/-- Serve an ICLR (R68, R181): CLEARED, WAS_EMPTY or DEFERRED_BUSY. -/
def State.serveIclr (s : State) (e : Nat) (p : Packet) : State :=
  let a := plainOf p.addr
  match s.targetCheck e p.addr 8 true with
  | some fc => s.refuseTarget e p fc
  | none =>
    let s := s.atTarget e p true
    match s.presAt a with
    | .lost => s.lostPresence e p a
    | .full => (s.setPres a .empty).answerStatus e p stDONE 0
    | .empty => s.answerStatus e p stDONE 1
    | .deferred => s.answerStatus e p stDONE 2
/-- TARGET_ICLR; `same` when an IREAD reached the same word in the same cycle: at a FULL or DEFERRED word it is served first (R71, R291). -/
def State.targetIclr (s : State) (e : Nat) (same : Bool) : State :=
  match s.takeMem e (fun p => p.opc == .atom && p.form == 10) with
  | none => s
  | some (p, s) =>
    let x := s.presAt (plainOf p.addr)
    match s.meets e p (fun q => q.opc == .iread) with
    | some q => if same ∧ (x = .full ∨ x = .deferred) then ((s.dropReq e q).serveIread e q).serveIclr e p else s.serveIclr e p
    | none => s.serveIclr e p

def execTargetRead (e : Nat) (s : State) : Out := onEndpoint e s (fun s => s.targetRead e)
def execTargetWrite (e : Nat) (same : Bool) (s : State) : Out := onEndpoint e s (fun s => s.targetWrite e same)
def execTargetIread (x : IAccess) (s : State) : Out := onEndpoint x.e s (fun s => s.targetIread x.e x.same)
def execTargetIwrite (e : Nat) (same : Bool) (s : State) : Out := onEndpoint e s (fun s => s.targetIwrite e same)
def execDeferredReplyRelease (e : Nat) (s : State) : Out := onEndpoint e s (fun s => s.releaseOne e)
def execTargetAtom (e : Nat) (s : State) : Out := onEndpoint e s (fun s => s.targetAtom e)
def execTargetIclr (x : IAccess) (s : State) : Out := onEndpoint x.e s (fun s => s.targetIclr x.e x.same)

/-! Scrubbing (R279, R282, R283). -/

/-- What an upset makes of a word's check state: 1 a single-bit error, 2 an uncorrectable one; two single-bit errors are uncorrectable. -/
def upsetEcc (x : Ecc) (upset : Nat) : Ecc :=
  match upset, x with
  | 0, e => e
  | 1, .ok => .ce
  | 1, .ce => .ue
  | 1, e => e
  | 2, .poison => .poison
  | 2, _ => .ue
  | _, e => e
/-- An upset of the presence code word that holds the state of the word at a: 3 loses all its 32 states, 4 is corrected as it is read (R269);
`seen` when the scrub reads it. -/
def State.upsetPres (s : State) (e a upset : Nat) (seen : Bool) : State :=
  if upset = 3 then
    let s := (List.range 32).foldl (fun s k => s.setPres (a / 256 * 256 + 8 * k) .lost) s
    if seen then s.presUe e a else s
  else if upset = 4 ∧ seen then
    (if e < 64 then s.bump (aScStat e ssCE) else (s.bump (aMmStat (channelOf a) msCE)).errAddr a false).log (wordSrc e a)
      (if e < 64 then .scCe else .memCe) .corrected (BitVec.ofNat 64 a)
  else s
/-- The record in slot u of a bucket, and which of its two slots that is: records take the slots in their order (DESIGN CHOICE, log 49). -/
def recAt (u : Nat) : List (Nat × MRec) → Option (Nat × MRec × Nat)
  | [] => none
  | x :: l => if u < x.2.units then some (x.1, x.2, u) else recAt (u - x.2.units) l
/-- An uncorrectable word of the overflow area: the header of its record, or one of its value slots (R79, R280). -/
def State.hitRecord (s : State) (c a : Nat) : State :=
  let o := a % 0x80000
  if s.bucketAt c 0 ≤ o then
    let b := (o - s.bucketAt c 0) / 256
    let l := (clusterPes c).flatMap (fun n => ((s.pe n).recs.filter (fun r => r.level == .overflow && s.bucketOf n r.key == b)).map (fun r => (n, r)))
    match recAt (o % 256 / 64) l with
    | some (n, r, k) =>
      s.setRecs n (replaceRec (s.pe n).recs (if k = 0 ∧ o % 64 < 16 then { r with keyBad := true } else { r with poison := true }))
    | none => s
  else s

/-! Keeper pairs (R245 to R247). -/

def State.pairState (s : State) (p : Nat) : Nat := s.rfld (aPairStatus p) 63 62
def State.setPairState (s : State) (p v : Nat) : State := (s.setRfld (aPairStatus p) 63 62 v).driveLands
def pairNo (p : Nat) : Nat := 272 + 2 * p
/-- Steps 1 to 4 of R247, and the start of step 5: the pair stops where it stands, what its activation has in flight is suppressed. DETAIL of
KEEPER_MISMATCH is pair + 256 × point, a layout that no rule gives (DESIGN CHOICE, log 53). -/
def State.haltPair (s : State) (p cause point : Nat) : State :=
  let a := aPairStatus p
  let s := (s.setRfld a 61 58 cause).setRfld a 57 54 point
  let s := if cause = 1 then s.setRfld a 15 0 (satInc 16 (s.rfld a 15 0)) else s
  let s := (s.updPe (pairNo p) (fun x => { x with act := none })).setPairState p 2
  let s := s.updPair p (fun x => { x with zero := true })
  if cause = 1 then s.log 69 .keeperMismatch .fatalModule (BitVec.ofNat 64 (p + 256 * point))
  else (s.logFree 69 .keeperHalted .deferred).setMc (fun m => { m with faultN := true })
/-- An uncorrectable error in a memory of PE n: in one copy alone of a RUNNING pair it is a mismatch (R246), which counts as an error (R283);
otherwise an error as `f` has it. -/
def State.copyUe (s : State) (n : Nat) (both : Bool) (f : State → State) : State :=
  if 272 ≤ n ∧ !both ∧ s.pairState (pairOf n) = 1 then (s.haltPair (pairOf n) 1 6).countUe else f s
/-- The other K-PE of a tandem pair. -/
def twin (n : Nat) : Nat := if n % 2 = 0 then n + 1 else n - 1
/-- How `imemBad` of a pair names word w of the copy in K-PE n: the words of the odd copy follow the 8,192 of the even one. -/
def copyWord (n w : Nat) : Nat := if 272 ≤ n ∧ n % 2 = 1 then 8192 + w else w

/-- An error befalls memory that no address reaches (DESIGN CHOICE of its spelling as an address of PATROL_SCRUB from 2^48 on, log 53): 1 a matching
record of PE n, at any level, its value slots (2) or its header word (3), named by its place among the PE's records (R79, R280); 2 a word of LACC
k of PE n, a single-bit error (1) or an uncorrectable one (R241); 3 a deferral entry outside the pool, of the word at x (R280). -/
def State.strike (s : State) (kind x upset : Nat) : State :=
  let n := x / 2 ^ 32
  let k := x % 2 ^ 32
  if kind = 1 then
    match (s.pe n).recs[k]? with
    | some r =>
      let r' := if upset = 3 then { r with keyBad := true } else if upset = 2 then { r with poison := true } else r
      s.setRecs n ((s.pe n).recs.set k r')
    | none => s
  else if kind = 2 then s.setLacc n (k % 4) { s.lacc n (k % 4) with err := max (min upset 2) (s.lacc n (k % 4)).err }
  else if kind = 3 then
    let a := x / 8 * 8
    s.setDefers a ((Tbl.get [] s.defers a).zipIdx.map (fun d => if d.2 = upset ∧ (a < 2 ^ 32 ∨ d.1.ovf) then { d.1 with bad := true } else d.1))
  else s
/-- PATROL_SCRUB of the word at a global address; `upset` is what has befallen the word or (3, 4) its presence code word. -/
def State.patrol (s : State) (addr upset : Nat) : State :=
  if 2 ^ 48 ≤ addr then s.strike (addr / 2 ^ 48) (addr % 2 ^ 48) upset else
  let a := plainOf addr / 8 * 8
  let up (s : State) : State := s.setEcc a (upsetEcc (s.eccAt a) upset)
  if a < 28 * 2 ^ 30 then
    let s := if a < 2 ^ 32 then (up s).upsetPres 64 a upset (bitAt (s.reg aScrubCtl) 0) else up s
    if bitAt (s.reg aScrubCtl) 0 then (s.readWord 64 a).2.2 else s
  else if scrBase 0 ≤ a ∧ a < scrBase 64 then
    let c := (a - scrBase 0) / 0x100000
    let s := if a % 0x80000 = 0 then s.updTest c (fun t => { t with ceSeen := [] }) else s
    let s := ((up s).touchScratch c (a % 0x80000)).upsetPres c a upset true
    let s := if s.eccAt a = .ue then s.hitRecord c a else s
    (s.readWord c a).2.2
  else if lsBase 0 ≤ a ∧ a < lsBase 276 then
    let n := (a - lsBase 0) / 0x100000
    let s := up s
    match s.eccAt a with
    | .ce => (s.setEcc a .ok).log (peEndpoint n) .lsCe .corrected (BitVec.ofNat 64 a) (some (pairPe n))
    | .ue => s.copyUe n (s.eccAt (a - lsBase n + lsBase (twin n)) == .ue) (fun s => s.peUe (peEndpoint n) (pairPe n) a false)
    | _ => s
  else if imemBase 0 ≤ a ∧ a < imemBase 276 then
    let n := (a - imemBase 0) / 0x100000
    let w := (a - imemBase n) / 8
    let i := copyWord n w
    let s := if upset = 2 ∧ !(s.pe n).imemBad.contains i then s.updPe n (fun p => { p with imemBad := p.imemBad ++ [i] }) else s
    if (s.pe n).imemBad.contains i then
      s.copyUe n ((s.pe n).imemBad.contains (copyWord (twin n) w)) (fun s => s.peUe (peEndpoint n) (pairPe n) a true)
    else if upset = 1 then s.log (peEndpoint n) .lsCe .corrected (BitVec.ofNat 64 a) (some (pairPe n))
    else s
  else s

def execPatrolScrub (addr upset : Nat) (s : State) : Out := onModule s (fun s => s.patrol addr upset)

/-! The background test (R284 to R288). -/

/-- Whether a segment of cluster c may be borrowed: not excluded, its bank not retained and still testable. -/
def State.testable (s : State) (c g : Nat) : Bool :=
  let x (k : Nat) : Bool :=
    let r := s.reg (aTestExclude c k)
    bitAt r 63 && decide (fld r 8 0 ≤ g ∧ g ≤ fld r 24 16)
  !((List.range 4).any x) && !s.retained c (g / 32) && decide (s.rfld (aScRepair c) (4 * (g / 32) + 3) (4 * (g / 32)) < 9)
/-- Segments a pass still owes: neither tested nor excluded, in a bank that can be tested. -/
def State.owedSegs (s : State) (c : Nat) : List Nat :=
  let x (g k : Nat) : Bool :=
    let r := s.reg (aTestExclude c k)
    bitAt r 63 && decide (fld r 8 0 ≤ g ∧ g ≤ fld r 24 16)
  (List.range 512).filter (fun g => !(s.test c).tested.contains g && !((List.range 4).any (x g))
    && decide (s.rfld (aScRepair c) (4 * (g / 32) + 3) (4 * (g / 32)) < 9))
/-- The next segment: those that R282 moved to the front, then those the pass went by while their bank was retained, then ascending (R286). -/
def State.nextSeg (s : State) (c : Nat) : Option Nat :=
  let t := s.test c
  match t.front.find? (s.testable c) with
  | some g => some g
  | none =>
    let l := (s.owedSegs c).filter (s.testable c)
    match l.find? (fun g => decide (g < t.next)) with
    | some g => some g
    | none => l.find? (fun g => decide (t.next ≤ g))
/-- Step 2: each word is read as R279 to R283 say; an uncorrectable one is copied as stored poison (R291). -/
def State.copySeg (s : State) (c g : Nat) : State :=
  (List.range 128).foldl (fun s k =>
    let a := scrBase c + g * 0x400 + 8 * k
    let t := (s.readWord c a).2.2
    if t.eccAt a = .ue then t.setEcc a .poison else t) s
/-- BG_TEST_SEGMENT_START: steps 1 to 3 of R284, then the march runs. -/
def State.testStart (s : State) (c : Nat) : State :=
  if !bitAt (s.reg (aScTestCtl c)) 0 ∨ (s.test c).borrow.isSome ∨ 2 ≤ s.clState c then s
  else match s.nextSeg c with
    | none => s
    | some g =>
      let t := s.copySeg c g
      if t.rfld aPwState 63 62 ≠ s.rfld aPwState 63 62 then t
      else
      let s := t.updTest c (fun t =>
        { t with borrow := some g, front := t.front.erase g, next := if t.front.contains g then t.next else max t.next (g + 1) })
      ((s.setRfld (aScTestStatus c) 40 40 1).setRfld (aScTestStatus c) 36 34 2).setRfld (aScTestStatus c) 24 16 g

/-- A repair record (R289). -/
def repairRecord (kind unit bank row spare time : Nat) : Word :=
  BitVec.ofNat 64 (put 63 60 kind + put 59 51 unit + put 50 47 bank + put 46 37 row + put 36 34 spare + put 31 0 time)
def State.addRepair (s : State) (r : Word) : State := s.setMc (fun m => { m with unrecorded := m.unrecorded ++ [r] })
/-- Step 5 for one failing row of segment g: the next spare row, or the spare segment becomes the segment's home (R288). -/
def State.repairRow (s : State) (c g k : Nat) : State :=
  let b := g / 32
  let n := s.rfld (aScRepair c) (4 * b + 3) (4 * b)
  let time := fld s.tb 63 32
  if n < 8 then
    ((s.setRfld (aScRepair c) (4 * b + 3) (4 * b) (n + 1)).addRepair (repairRecord 1 c b (g % 32 * 4 + k) n time)).logFree (srcOf c b) .scRowRepair .corrected
  else if n = 8 then
    (((s.setRfld (aScRepair c) (4 * b + 3) (4 * b) 9).addRepair (repairRecord 2 c b (g % 32 * 4 + k) 0 time)).updTest c
      (fun t => { t with homes := t.homes ++ [g] })).logFree (srcOf c b) .scNoSpare .deferred
  else s
/-- BG_TEST_RELEASE: steps 5 to 7; `rows` names the rows of the segment that failed the march. -/
def State.testRelease (s : State) (c rows : Nat) : State :=
  match (s.test c).borrow with
  | none => s
  | some g =>
    let bad := (List.range 4).filter (fun k => rows.testBit k)
    let s := bad.foldl (fun s k => s.repairRow c g k) s
    let st := aScTestStatus c
    let s := if bad = [] then s else s.setRfld st 15 0 (satInc 16 (s.rfld st 15 0))
    let s := s.updTest c (fun t => { t with borrow := none, tested := if t.tested.contains g then t.tested else t.tested ++ [g] })
    let s := (s.setRfld st 40 40 0).setRfld st 36 34 0
    if s.owedSegs c = [] then
      (s.setRfld st 63 48 (satInc 16 (s.rfld st 63 48))).updTest c (fun t => { t with tested := [], next := 0 })
    else s

def execBgTestSegmentStart (c : Nat) (s : State) : Out := onCluster c s (fun s => s.testStart c)
def execBgTestRelease (c rows : Nat) (s : State) : Out := onCluster c s (fun s => s.testRelease c rows)

/-! Retention (R274). -/

/-- Whether bank b of cluster c is idle: no segment of it is borrowed and no request waits for it. -/
def State.bankIdle (s : State) (c b : Nat) : Bool :=
  !((s.test c).borrow.any (fun g => g / 32 == b)) && !((s.reqAt c).any (fun p => p.opc.isMem && bankOf (p.addr % 0x80000) == b))
/-- BANK_RETENTION_ENTRY: IDLE µs have passed without an access to the bank. -/
def State.retainBank (s : State) (c b : Nat) : State :=
  if b < 16 ∧ bitAt (s.reg (aScRet c)) b ∧ s.bankIdle c b then s.setRetained c b true else s
/-- A write of SC_RET: IDLE = 0 is ignored as a whole; a bit set retains an idle bank at once, a bit cleared wakes its bank. -/
def State.retWrite (s : State) (c : Nat) (v : Word) : State :=
  if fld v 31 16 = 0 then s
  else
    let old := s.reg (aScRet c)
    let s := (s.setRfld (aScRet c) 31 16 (fld v 31 16)).setRfld (aScRet c) 15 0 (fld v 15 0)
    (List.range 16).foldl (fun s b =>
      if bitAt v b ∧ !bitAt old b then s.retainBank c b
      else if !bitAt v b ∧ bitAt old b ∧ s.clState c ≠ 2 then s.setRetained c b false
      else s) s

def execBankRetentionEntry (c b : Nat) (s : State) : Out := onCluster c s (fun s => s.retainBank c b)
def execScRetMaskWrite (c : Nat) (v : Word) (s : State) : Out := onCluster c s (fun s => s.retWrite c v)

/-! Module memory. -/

/-- REFRESH_RATE_CHECK of channel ch (R278): the rate the device reports, 0 to 3. -/
def execRefreshRateCheck (ch rate : Nat) (s : State) : Out :=
  onUnit "channel" ch 4 s (fun s =>
    let s := s.setRfld (aMmStatus ch) 3 2 rate
    if rate % 4 = 3 then s.logFree 67 .mmOvertemp .deferred else s)
/-- MM_INIT_DONE of channel ch (R507). -/
def execMmInitDone (ch : Nat) (s : State) : Out := onUnit "channel" ch 4 s (fun s => s.setRfld (aMmInit ch) 63 63 1)

end Sys2Proof.Machine
end

