-- ==== Sys2Proof/Machine/Resets.lean ====
section
/-! DEFINITION. Loading microcode patches (R449, R450), resets of PEs and clusters (R508), and traps and faults of the micro-sequencers
(R443 to R446). -/

namespace Sys2Proof.Machine

/-! Patches. -/

/-- The section of the kept plaintext for a PE kind. -/
def State.patchFor (s : State) (n : Nat) : Option PatchSec :=
  let c := s.inUse 2
  if c = 0 then none
  else match patchSecs (s.flashLe (imgBase 2 c + 512 + 0x13) 1) s.mc.ucode with
    | some l => l.find? (fun p => p.kind == kindNo n)
    | none => none
def patchTbl (l : List (BitVec 112)) : Tbl (BitVec 112) :=
  (l.mapIdx (fun i w => (i, w))).foldl (fun t x => Tbl.set 0 t x.1 x.2) []
/-- Write match registers k on, enabled or not. -/
def State.setUmatch (s : State) (n : Nat) (on : Bool) (l : List (Nat × Nat)) : State :=
  (List.range 32).foldl (fun s k => match l[k]? with
    | some m => s.setReg (aPeUmatch n k) (BitVec.ofNat 64 (put 31 31 on.toNat + put 24 16 m.2 + put 12 0 m.1))
    | none => s.setReg (aPeUmatch n k) 0) s
/-- Steps 3 and 4 of R449 for PE n. A second failed comparison leaves the PE on its ROM alone. -/
def State.loadPatch (s : State) (n : Nat) : State :=
  let rev := aPeUcodeRev n
  let ram (s : State) (t : Tbl (BitVec 112)) : State := s.updPe n (fun p => { p with useq := { p.useq with patch := t } })
  match s.patchFor n with
  | none => ((ram s []).setUmatch n false []).setReg rev (setFld (setFld (setFld (s.reg rev) 63 63 0) 55 48 0) 31 0 0)
  | some p =>
    let t := (ram s (patchTbl p.words)).setUmatch n false p.entries
    let d := (t.setReg (aPeUcodeSum n) (BitVec.ofNat 64 (crc32 (t.ucodeBytes n)))).draw
    let s := d.2
    if Config.loadFails d.1 then
      ((s.setReg rev (setFld (setFld (setFld (s.reg rev) 63 63 0) 55 48 0) 31 0 0)).setRfld aUcodeStatus 39 32
        (satInc 8 (s.rfld aUcodeStatus 39 32))).logFree 67 .ucodeLoadFail .deferred (some n)
    else
      (s.setUmatch n true p.entries).setReg rev
        (setFld (setFld (setFld (s.reg rev) 63 63 1) 55 48 p.entries.length) 31 0 (s.flashLe (imgBase 2 (s.inUse 2) + 512 + 0xC) 4))
/-- Both K-PEs of a pair, or the one PE. -/
def State.loadPatches (s : State) (n : Nat) : State := if n < 272 then s.loadPatch n else (s.loadPatch (pairPe n)).loadPatch (pairPe n + 1)

/-! Resets (R508). -/

/-- What a PE reset discards: matching store and lower levels, ready entries, save frames, fill buffer, unsent messages, the running
activation, LACCs and save slots. Instruction memory, local store, kill filter and tokens still at its input stay. -/
def Pe.discard (p : Pe) : Pe :=
  { p with lookups := [], recs := [], fillBuf := [], ready := [], backlog := [], shadow := none, act := none, frames := [], outQ := [],
           outBack := [], boosts := [], laccs := [], laccSaved := [], useq := p.useq.discard }
/-- Every save frame of PE n becomes free (R105, R150). -/
def State.freeFrames (s : State) (n : Nat) : State := (s.pe n).frames.foldl (fun s x => if x.2.isSome then s.freeFrame n x.1 else s) s
/-- KILLs that a micro-sequencer had not served are complete once a reset has discarded what they would cancel (R451). -/
def State.endKills (s : State) (n : Nat) (l : List Nat) : State := l.foldl (fun s k => s.takeKill n k) s
/-- PE reset of an S-PE or A-PE: what it discards gives its space back (R91). -/
def State.peReset (s : State) (n : Nat) : State :=
  (((((s.freeFrames n).updPe n Pe.discard).lockPeReset n).loadPatches n).endKills n (s.pe n).useq.kills).pressureCheck
/-- Whether a plain-view offset of scratch survives a cluster reset: the bounce area. -/
def bounceArea (o : Nat) : Bool := decide (0x4000 ≤ o ∧ o < 0x8000)
/-- Drop what table t holds for the scratch of cluster c, outside kept offsets. -/
def dropScratch {α : Type} (c : Nat) (keep : Nat → Bool) (t : Tbl α) : Tbl α :=
  t.filter (fun x => !(decide (scrBase c ≤ x.1 ∧ x.1 < scrBase c + 0x100000) && !keep (x.1 - scrBase c)))
/-- Scratch of cluster c becomes zero and EMPTY. -/
def State.clearScratch (s : State) (c : Nat) (keep : Nat → Bool) : State :=
  { s with mem := dropScratch c keep s.mem, ecc := dropScratch c keep s.ecc, pres := dropScratch c keep s.pres,
           defers := dropScratch c (fun _ => false) s.defers, rels := Tbl.set [] s.rels c [] }
/-- Cluster reset. -/
def State.clusterReset (s : State) (c : Nat) : State :=
  let s := (clusterPes c).foldl (fun s n => s.peReset n) s
  ({ s with aes := Tbl.set Ae.init s.aes c Ae.init }).clearScratch c bounceArea
/-- A write of CL_RESET (R508): ignored with CFG_REJECT unless the cluster is ACTIVE or IDLE; ignored when it names an absent A-PE. -/
def State.clReset (s : State) (c : Nat) (v : Word) : State :=
  if (bitAt v 4 ∧ !hasApe c) ∨ fld v 5 0 = 0 then s
  else if 2 ≤ s.clState c then s.cfgReject (aClReset c)
  else if bitAt v 5 then s.clusterReset c
  else ((List.range 5).filter (fun k => bitAt v k)).foldl (fun s k => s.peReset (slotPe c k)) s

def execClusterReset (c : Nat) (s : State) : Out := onCluster c s (fun s => s.clReset c 0x20)

/-! Keeper pairs (R245 to R256). -/

/-- Bytes of the secret region of pair p, by offset (R255). -/
def State.secretBase (s : State) (p : Nat) : Nat := s.rfld (aSecret p) 14 3 * 8
def State.secretSize (s : State) (p : Nat) : Nat := s.rfld (aSecret p) 28 16 * 8
/-- Bytes [lo, hi) of the local store of PE n become zero. -/
def State.zeroLs (s : State) (n lo hi : Nat) : State :=
  let gone {α : Type} (t : Tbl α) : Tbl α := t.filter (fun x => !decide (lsBase n + lo ≤ x.1 ∧ x.1 < lsBase n + hi))
  { s with mem := gone s.mem, ecc := gone s.ecc }
/-- Zeroise the secret regions of pair p. -/
def State.zeroSecret (s : State) (p : Nat) : State :=
  let z (s : State) (n : Nat) : State := s.zeroLs n (s.secretBase p) (min 32768 (s.secretBase p + s.secretSize p))
  z (z s (pairNo p)) (pairNo p + 1)
/-- Whether bytes [a, a + n) of the global address space touch the secret region of a K-PE's local store (R255). -/
def State.touchesSecret (s : State) (a n : Nat) : Bool :=
  [272, 273, 274, 275].any (fun k =>
    let lo := 0x002000000000 + k * 0x100000 + s.secretBase (pairOf k)
    decide (lo < a + n ∧ a < lo + s.secretSize (pairOf k)))
/-- SECRET_READ is logged for a read that an MGT or debug access was denied there (R255). -/
def State.noteSecret (s : State) (hit : Bool) : State := if hit then s.logFree 69 .secretRead .deferred else s
/-- The start token of pair p with a boot reason (R254). -/
def State.startToken (s : State) (p boot entry : Nat) : State :=
  let tag := mkTag 0 false false false 0 0 (pairNo p) entry 0
  ((s.updPair p (fun x => { x with wdogOut := false })).tokenIn 69 ⟨tag, mkWide 0 (BitVec.ofNat 64 boot), false, 69, false⟩).getD s
/-- Write a pair's section: code, initial local store, and the secret region as zero (R253, R255). -/
def State.loadPair (s : State) (p q : Nat) : State :=
  let n := pairNo p
  let iw := s.flashLe q 4
  let ls := s.flashLe (q + 4) 4
  let s := (List.range iw).foldl (fun s i => s.setImem n i (BitVec.ofNat 64 (s.flashLe (q + 0x40 + 8 * i) 8))) s
  let s := { s with mem := memWrite s.mem (lsBase n) (s.flashBytes (q + 0x40 + 8 * iw) ls) }
  s.zeroSecret p
/-- Section of pair p in the copy chosen at the latest start. -/
def State.pairSection (s : State) (p : Nat) : Option Nat := if s.inUse 4 = 0 then none else s.kpSec (imgBase 4 (s.inUse 4) + 512) p
/-- Reset, reload and start pair p (R248, R254). -/
def State.startPair (s : State) (p boot : Nat) : State :=
  match s.pairSection p with
  | none => s.setPairState p 0
  | some q =>
    let n := pairNo p
    let kills := (s.pe n).useq.kills
    let s := (((s.setPairState p 3).freeFrames n).updPe n (fun x => { Pe.init with killFilter := x.killFilter, killStage := x.killStage, halt := x.halt, useq := x.useq.discard })).lockPeReset n
    let s := (((s.zeroLs n 0 32768).zeroLs (n + 1) 0 32768).updPe (n + 1) (fun x => { x with imemBad := [] })).loadPatches n
    (((s.loadPair p q).endKills n kills).setPairState p 1).startToken p boot (s.flashLe (q + 8) 4)
/-- A write of RESTART (R248): whether it is ignored with CFG_REJECT, and what it does; it waits while the secret regions are zeroised. -/
def State.restartBad (s : State) (p : Nat) : Bool := s.pairState p == 0 && (s.pairSection p).isNone
def State.restartPair (s : State) (p : Nat) : State :=
  if s.pairState p = 1 ∨ s.pairState p = 3 then s
  else if s.restartBad p then s.cfgReject (aPairCtl p)
  else if (s.pairSt p).zero then s.updPair p (fun x => { x with again := true })
  else s.startPair p 4
/-- A PE reset of a K-PE: its pair restarts, RUNNING or not (R248, R508). -/
def State.resetPair (s : State) (p : Nat) : State := if s.pairState p = 1 then s.startPair p 4 else s.restartPair p
/-- A write of HALT (R247). -/
def State.haltCmd (s : State) (p : Nat) : State := if s.pairState p = 1 then s.haltPair p 2 0 else s.cfgReject (aPairCtl p)

/-- A K-PE reset restarts its pair. -/
def State.anyPeReset (s : State) (n : Nat) : State := if n < 272 then s.peReset n else s.resetPair (pairOf n)
/-- PE_RESET of a PE by its number: CL_RESET for an S-PE or A-PE, a restart for a K-PE. -/
def execPeReset (pe : Nat) (s : State) : Out :=
  onPe pe s (fun s =>
    if pe < 256 then s.clReset (pe / 4) (BitVec.ofNat 64 (2 ^ (pe % 4)))
    else if pe < 272 then s.clReset (peCluster pe) 0x10
    else s.resetPair (pairOf pe))

def onPair (p : Nat) (s : State) (f : State → State) : Out := onUnit "pair" p 2 s f
/-- KEEPER_MISMATCH of a RUNNING pair at a comparison point 1 to 6 (R246, R247). -/
def execKeeperMismatch (p point : Nat) (s : State) : Out := onPair p s (fun s => if s.pairState p = 1 then s.haltPair p 1 point else s)
def execKpPairHalt (p : Nat) (s : State) : Out := onPair p s (fun s => s.haltCmd p)
def execKpPairRestart (p : Nat) (s : State) : Out := onPair p s (fun s => s.restartPair p)
/-- KEEPER_ZEROISE_DONE: a restart that waited begins. -/
def execKeeperZeroiseDone (p : Nat) (s : State) : Out :=
  onPair p s (fun s =>
    let x := s.pairSt p
    if x.zero then
      let s := (s.zeroSecret p).updPair p (fun _ => { x with zero := false, again := false })
      if x.again then s.restartPair p else s
    else s)
/-- KEEPER_WDOG: the count reaches zero and sticks there (R251). -/
def execKeeperWdog (p : Nat) (s : State) : Out :=
  onPair p s (fun s =>
    if s.pairState p = 1 ∧ s.rfld (aPairCtl p) 63 32 ≠ 0 ∧ !(s.pairSt p).wdogOut then
      let r := (List.range 8).foldl (fun r k =>
        r + (if (if s.owns p k then bitAt (s.reg aSafeCfg) k else (s.safeReq p).testBit k) then 2 ^ k else 0)) 0
      ((s.updPair p (fun x => { x with wdogOut := true })).setSafeReq p r).logFree 69 .keeperWdog .deferred
    else s)

/-! Micro-traps and control-store faults. -/

/-- The row of R445 whose service routine a routine is; 0 of a bulk spill. -/
def LongKind.event : LongKind → Nat
  | .bulkSpill => 0
  | .killSweep _ | .overflowSweep _ => 1
  | .halt => 2
  | .fill => 3
  | .release => 4
/-- A ready entry has left a lower level for the fill buffer's input, or the shadow copy of the next one is missing (R100, R102). -/
def State.fillDue (s : State) (n : Nat) : Bool :=
  let p := s.pe n
  p.recs.any (fun r => r.ready && p.fillBuf.contains r.key && r.level != .fill) || ((bestReady p.ready).isSome && p.shadow.isNone)
/-- The pending events of PE n by their priority (R445). -/
def State.microEvents (s : State) (n : Nat) : List Nat :=
  let u := (s.pe n).useq
  let rel := (Tbl.get [] s.rels (peEndpoint n)).any (fun r => r.pe == some n)
  [1, 2, 3, 4].filter (fun e => if e = 1 then u.killTrap.isSome else if e = 2 then u.haltTrap else if e = 3 then s.fillDue n else rel)
/-- A routine of an event's kind runs or is held in a save slot: the event waits for its end. -/
def State.busyWith (s : State) (n e : Nat) : Bool :=
  ((s.routine n).toList ++ (s.pe n).useq.slots.filterMap (·.routine)).any (fun r => r.kind.event == e)
/-- PARTIAL records of context k with property f go; how many. -/
def State.sweep (s : State) (n k : Nat) (f : MRec → Bool) : State × Nat :=
  let hit (r : MRec) : Bool := tagCtxKey n (tCtx r.key) == k && !r.ready && f r
  let c := ((s.pe n).recs.filter hit).length
  ((s.updPe n (fun p => { p with recs := p.recs.filter (fun r => !hit r) })).bumpPe n psCANCELLED c, c)
/-- Records of the matching store with property f go to the deep store, where it has room; how many. -/
def State.spillSets (s : State) (n : Nat) (f : MRec → Bool) : Option (State × Nat) :=
  let hit (r : MRec) : Bool := r.level == .store && f r
  let l := (s.pe n).recs.filter hit
  if s.matchRoom (peCluster n) (l.foldl (fun k r => k + r.units) 0) then
    some ((s.updPe n (fun p => { p with recs := p.recs.map (fun r => if hit r then { r with level := .deep } else r) })).bumpPe n psSPILL l.length, l.length)
  else none
/-- What the running routine does up to a trap window: one set of a bulk spill or kill sweep, one bucket of an overflow sweep, one deferred reply
(R438, R446). -/
def State.routineUnit (s : State) (n : Nat) : State :=
  match s.routine n with
  | none => s
  | some r =>
    let go (s : State) (x : Routine) : State := s.updUseq n (fun u => { u with running := some x })
    match r.kind with
    | .bulkSpill =>
      match (if r.set < msSets n then s.spillSets n (fun x => s.setOf n x.key == r.set) else none) with
      | some (t, c) => go t { r with set := r.set + 1, records := r.records + c }
      | none => go s r
    | .killSweep k =>
      let t := s.sweep n k (fun x => x.level == .store && s.setOf n x.key == r.set)
      go t.1 (if r.set + 1 < msSets n then { r with set := r.set + 1, records := r.records + t.2 } else ⟨.overflowSweep k, 0, 0⟩)
    | .overflowSweep k =>
      let t := s.sweep n k (fun x => x.level == .overflow && s.bucketOf n x.key == r.set)
      go t.1 { r with set := min (r.set + 1) (s.ovfBuckets (peEndpoint n)), records := r.records + t.2 }
    | .release =>
      if (s.microEvents n).contains 4 then go (s.releaseNext (peEndpoint n) (fun r => r.pe == some n)) { r with records := r.records + 1 } else s
    | .halt | .fill => s
/-- The service routine of an event begins at its entry in the control store. -/
def State.serve (s : State) (n e : Nat) : State :=
  let start (s : State) (k : LongKind) : State :=
    s.updUseq n (fun u => { u with running := some ⟨k, 0, 0⟩, mpc := BitVec.ofNat 14 (s.fetchAddr n (Config.ucodeEntry (kindNo n) e % 0x2000)) })
  if e = 1 then match (s.pe n).useq.killTrap with
    | some k => start ((s.updUseq n (fun u => { u with killTrap := none })).cancelOf n k (fun _ => false)) (.killSweep k)
    | none => s
  else if e = 2 then start ((s.updUseq n (fun u => { u with haltTrap := false })).updPe n (fun p => { p with halt := .halted })) .halt
  else if e = 3 then
    start (if (s.pe n).recs.any (fun r => r.ready && (s.pe n).fillBuf.contains r.key && r.level != .fill) then s.fillComplete n else s.shadowCopy n) .fill
  else start s .release
/-- A trap window of PE n: the highest pending event, none of whose kind runs, interrupts the routine where a save slot is free (R444, R445). -/
def State.microTrap (s : State) (n : Nat) : State :=
  match (s.microEvents n).find? (fun e => !s.busyWith n e) with
  | none => s
  | some e =>
    if 4 ≤ (s.pe n).useq.slots.length then s
    else
      let r := s.routine n
      ((s.updUseq n (fun u => { u with slots := ⟨u.mpc, u.mr, r⟩ :: u.slots })).bumpPe n psUTRAP).serve n e
/-- A routine ends (SEQ = DONE): what it had still to do is done, and the one it interrupted goes on; where it interrupted none, an event that waits
is served at once (R444, R451). -/
def State.routineDone (s : State) (n : Nat) : State :=
  let s := match (s.routine n).map (·.kind) with
    | some (.killSweep k) | some (.overflowSweep k) => s.takeKill n k
    | some .bulkSpill => ((s.spillSets n (fun _ => true)).map Prod.fst).getD s
    | _ => s
  let t := s.updUseq n Useq.restore
  if (s.pe n).useq.slots ≠ [] then t
  else match t.microEvents n with
    | e :: _ => t.serve n e
    | [] => t
/-- UCODE_FAULT with the micro-address, and a PE reset (R443). -/
def State.ucodeFault (s : State) (pe a : Nat) : State :=
  (s.log (peEndpoint pe) .ucodeFault .deferred (BitVec.ofNat 64 a) (some (pairPe pe))).anyPeReset pe
/-- PE n's microword ends: the next one is fetched, and reads clean (0), with a single-bit error (1) or uncorrectable; or the routine ends (R440 to
R443). -/
def State.microFetch (s : State) (pe : Nat) (conds : BitVec 32) (read : Nat) : State :=
  let n := pairPe pe
  match s.microNext n conds with
  | .fault a => s.ucodeFault pe a
  | .done => s.routineDone n
  | .next a =>
    if 2 ≤ read then s.ucodeFault pe a
    else if read = 1 then (s.setMpc n a).log (peEndpoint pe) .ucodeCe .corrected (BitVec.ofNat 64 a) (some n)
    else s.setMpc n a
/-- MICRO_TRAP: PE n ends a microword; the end of one with TW = 1 that continues is a trap window. -/
def execMicroTrap (m : MicroStep) (s : State) : Out :=
  onPe m.pe s (fun s =>
    let n := pairPe m.pe
    match s.microNext n m.conds with
    | .next a => if (s.microHere n).tw then ((s.setMpc n a).routineUnit n).microTrap n else s.setMpc n a
    | _ => s.microFetch m.pe m.conds 0)
/-- UCODE_FAULT: PE n ends a microword and fetches the next one. -/
def execUcodeFault (m : MicroStep) (read : Nat) (s : State) : Out :=
  onPe m.pe s (fun s => s.microFetch m.pe m.conds read)

end Sys2Proof.Machine
end

