-- ==== Sys2Proof/Machine/Power.lean ====
section
/-! DEFINITION. Cluster power states (R493 to R500), sensors (R462), thermal derating and aging guardbands (R541 to R547), and the
time inputs (R530, R531). -/

namespace Sys2Proof.Machine

def State.ae0 (s : State) (c : Nat) : Ae := Tbl.get Ae.init s.aes c
def Ae.idle (a : Ae) : Bool := a == Ae.init

/-! FREEWHEEL (R495). -/

/-- No work is left in cluster c, and none waits for it. -/
def State.quiescent (s : State) (c : Nat) : Bool :=
  (clusterPes c).all (fun n =>
    let p := s.pe n
    p.act.isNone && p.ready.isEmpty && p.backlog.isEmpty && p.inbox.isEmpty && p.lookups.isEmpty && p.fillBuf.isEmpty
      && p.useq.calm && p.useq.running.isNone)
    && (s.ae0 c).idle && (s.test c).borrow.isNone && (Tbl.get [] s.rels c).isEmpty && (s.ejectQ c).isEmpty && (s.reqAt c).isEmpty
/-- FREEWHEEL_ENTRY: a request is granted once the cluster is quiescent. -/
def State.freewheel (s : State) (c : Nat) : State :=
  if s.goal c = 5 ∧ s.clState c ≤ 1 ∧ s.quiescent c then (s.setFreewheel c).setGoal c 0 else s
/-- FREEWHEEL_WAKE: a packet held for the cluster wakes it. -/
def State.freewheelWake (s : State) (c : Nat) : State :=
  if s.clState c = 2 ∧ !(s.ejectQ c).isEmpty then s.accessWake c else s
/-- FREEWHEEL_AUTO_RETURN: FW_IDLE µs have passed without an activation. -/
def State.freewheelReturn (s : State) (c : Nat) : State :=
  if s.goal c = 6 ∧ bitAt (s.reg (aPwrCtl c)) 3 ∧ s.clState c ≤ 1 ∧ s.quiescent c then (s.setFreewheel c).setGoal c 0 else s

/-! The drain-and-fence handshake (R496, R497). -/

/-- Where a byte of cluster c's scratch or local stores stands in its save area (R496). -/
def saveOffset (c a : Nat) : Option Nat :=
  if scrBase c ≤ a ∧ a < scrBase c + 0x80000 then some (a - scrBase c)
  else (clusterPes c).findSome? (fun n =>
    if lsBase n ≤ a ∧ a < lsBase n + lsBytes n then some ((if n < 256 then 0x90000 + n % 4 * 0x8000 else 0xB0000) + (a - lsBase n)) else none)
/-- Inverse of saveOffset. -/
def saveSource (c o : Nat) : Option Nat :=
  if o < 0x80000 then some (scrBase c + o)
  else if 0x90000 ≤ o ∧ o < 0xB0000 then some (lsBase (4 * c + (o - 0x90000) / 0x8000) + o % 0x8000)
  else if hasApe c ∧ 0xB0000 ≤ o ∧ o < 0xF0000 then some (lsBase (slotPe c 4) + (o - 0xB0000))
  else none
def State.saveArea (s : State) (c : Nat) : Nat := s.rfld aPwSaveBase 47 26 * 2 ^ 26 + c * 0x100000
/-- Bytes of the save area that the handshake uses. -/
def saveUsed (c o : Nat) : Bool := decide (o < 0x84000) || (saveSource c o).isSome
/-- Presence state as its two bits (R67). -/
def Presence.code : Presence → Nat
  | .empty => 0
  | .full => 1
  | .deferred => 2
  | .lost => 3
def Presence.ofCode : Nat → Presence
  | 0 => .empty
  | 1 => .full
  | 2 => .deferred
  | _ => .lost
/-- One byte copied to the save area at b, when the handshake saves it. -/
def saveCell (c b : Nat) (m : List Host.Cell) (x : Host.Cell) : List Host.Cell :=
  (saveOffset c x.1).elim m (fun o => Tbl.set 0 m (b + o) x.2)
/-- One word's presence state as its two bits in the save area. -/
def State.savePres (c b : Nat) (s : State) (x : Nat × Presence) : State :=
  if scrBase c ≤ x.1 ∧ x.1 < scrBase c + 0x80000 then
    let w := (x.1 - scrBase c) / 8
    let a := b + 0x80000 + w / 4
    s.setByte a (s.byte a + BitVec.ofNat 8 (x.2.code * 4 ^ (w % 4)))
  else s
/-- Step 5: copy scratch, presence states and local stores to the save area. An uncorrectable word is copied as stored poison. -/
def State.saveCluster (s : State) (c : Nat) : State :=
  let b := s.saveArea c
  let keep {α : Type} (t : Tbl α) : Tbl α := t.filter (fun x => !(decide (b ≤ x.1 ∧ x.1 < b + 0x100000) && saveUsed c (x.1 - b)))
  let ecc := s.ecc.foldl (fun m x => match saveOffset c x.1 with
    | some o => if x.2.bad then Tbl.set Ecc.ok m (b + o) Ecc.poison else m
    | none => m) (keep s.ecc)
  let s1 := { s with mem := s.mem.foldl (saveCell c b) (keep s.mem), ecc := ecc }
  (s.pres.foldl (State.savePres c b) s1).setRfld (aPwrStatus c) 60 60 1
/-- One byte of the save area at b copied back. -/
def restoreCell (c b : Nat) (m : List Host.Cell) (x : Host.Cell) : List Host.Cell :=
  if b ≤ x.1 ∧ x.1 < b + 0x100000 then (match saveSource c (x.1 - b) with
    | some a => Tbl.set 0 m a x.2
    | none => m) else m
/-- The four presence states of one byte of the save area. -/
def State.restorePres (c b : Nat) (s : State) (x : Host.Cell) : State :=
  if b + 0x80000 ≤ x.1 ∧ x.1 < b + 0x84000 then
    (List.range 4).foldl (fun s k => s.setPres (scrBase c + ((x.1 - b - 0x80000) * 4 + k) * 8) (Presence.ofCode (x.2.toNat / 4 ^ k % 4))) s
  else s
/-- Step 5 of R499: the contents return. -/
def State.restoreCluster (s : State) (c : Nat) : State :=
  let b := s.saveArea c
  let ecc := s.ecc.foldl (fun m x => if b ≤ x.1 ∧ x.1 < b + 0x100000 then (match saveSource c (x.1 - b) with
    | some a => Tbl.set Ecc.ok m a x.2
    | none => m) else m) s.ecc
  let s1 := { s with mem := s.mem.foldl (restoreCell c b) s.mem, ecc := ecc }
  (s.mem.foldl (State.restorePres c b) s1).setRfld (aPwrStatus c) 60 60 0

/-- Step 4 is complete but for the spill: activations ended, queues drained, no kill staged, no PE halted, no borrow, no AE work. -/
def State.drained (s : State) (c : Nat) : Bool :=
  (clusterPes c).all (fun n =>
    let p := s.pe n
    p.act.isNone && p.halt == .run && p.inbox.isEmpty && p.lookups.isEmpty && p.outQ.isEmpty && p.outBack.isEmpty && p.killStage.isEmpty
      && p.useq.calm && p.useq.running.all (fun r => r.kind == .bulkSpill))
    && (s.ae0 c).idle && (s.test c).borrow.isNone && (Tbl.get [] s.rels c).isEmpty && !(s.reqAt c).any (fun p => p.opc.isMem)
/-- The bulk spill of PE n: its records go to the deep store, its ready entries to the backlog, and the four LACCs of an A-PE to the
auxiliary bucket (R242). -/
def Pe.spillAll (p : Pe) (n : Nat) : Pe :=
  { p with recs := p.recs.map (fun r => { r with level := .deep }), fillBuf := [], shadow := none, backlog := p.ready ++ p.backlog, ready := [],
           laccs := [], laccSaved := if peKind n = .a then (List.range 4).map (Tbl.get Lacc.init p.laccs) else [] }
/-- The LACCs come back at wake, before the first dispatch (R242). -/
def Pe.restoreLaccs (p : Pe) : Pe :=
  { p with laccs := (p.laccSaved.zipIdx).foldl (fun t x => Tbl.set Lacc.init t x.2 x.1) p.laccs, laccSaved := [] }
def State.toSpill (s : State) (c : Nat) : Nat :=
  (clusterPes c).foldl (fun k n => k + ((s.pe n).recs.filter (fun r => r.level != .deep)).foldl (fun k r => k + r.units) 0) 0
def State.bulkSpill (s : State) (c : Nat) : State :=
  let s := (clusterPes c).foldl (fun s n =>
    ((s.bumpPe n psSPILL ((s.pe n).recs.filter (fun r => r.level != .deep)).length).bumpPe n psBACKLOG (s.pe n).ready.length).updPe n
      (fun p => p.spillAll n)) s
  s.updNi c (fun n => { n with parked := n.parked.map (fun x => { x with overflow := true }) })
/-- Whether the deep store has room for everything the bulk spill moves (R94, R500). -/
def State.spillFits (s : State) (c : Nat) : Bool := s.matchRoom c (s.toSpill c) && decide ((s.bulkSpill c).auxUsed ≤ s.auxChunks)
/-- Step 7: the cluster's SRAMs lose their contents; deferred replies that were not saved are lost (R498). -/
def State.losePower (s : State) (c : Nat) (saved : Bool) : State :=
  let lost := s.deferCount c false + s.deferCount c true
  let mine (n : Nat) : Bool := (clusterPes c).contains n
  let off {α : Type} (t : Tbl α) : Tbl α := t.filter (fun x => !(saveOffset c x.1).isSome)
  let s := { s with mem := off s.mem, ecc := off s.ecc, pres := dropScratch c (fun _ => false) s.pres,
                    defers := if saved then s.defers else dropScratch c (fun _ => false) s.defers,
                    imem := s.imem.filter (fun x => !mine (x.1 / 16384)) }
  let s := s.domsDown (· == c)
  let s := (clusterPes c).foldl (fun s n => s.updPe n (fun p => { p with imemBad := [], useq := { p.useq.discard with patch := [] } })) s
  if !saved ∧ lost ≠ 0 then s.log 67 .deferLost .deferred (BitVec.ofNat 64 lost) else s
/-- FENCE_DONE: the commit point of a power-down; nothing while step 4 is not complete or the deep store is full (R94, R500). -/
def State.fenceDone (s : State) (c : Nat) : State :=
  if s.goal c = 2 ∧ s.clState c = 4 ∧ !s.shift.busy ∧ s.drained c ∧ s.spillFits c then
    let save := bitAt (s.reg (aPwrCtl c)) 2
    let s := (s.bulkSpill c).pressureCheck
    let s := if save then s.saveCluster c else s
    let a := aPwrStatus c
    (((s.losePower c save).setRfld a 31 16 (satInc 16 (s.rfld a 31 16))).setClState c 3).setGoal c 0
  else s

/-! Requests (R494, R499, R500). -/

/-- Load `n` instruction words from the refill copy at a module-memory address (R277, R499); a word read uncorrectable stays so. -/
def State.refillImem (s : State) (addr key : Nat) : Nat → State
  | 0 => s
  | n + 1 =>
    let r := s.readWord 64 addr
    let s := r.2.2.setImem (key / 16384) (key % 16384) r.1
    let s := if r.2.1 then s.updPe (key / 16384) (fun p => { p with imemBad := p.imemBad ++ [key % 16384] }) else s
    s.refillImem (addr + 8) (key + 1) n
/-- Steps 2 to 5 of R499: microcode, instruction memories from the refill copy, saved contents; ready entries return (R101). An
uncorrectable-error storm ends it in KICKSTAND. -/
def State.wakeCluster (s : State) (c : Nat) : State :=
  let s := (clusterPes c).foldl (fun s n => s.loadPatches n) (s.setClState c 5)
  let s := (s.mc.refill.filter (fun x => (clusterPes c).contains (x.2.1 / 16384))).foldl (fun s x =>
    if s.clState c = 5 then s.refillImem x.1 x.2.1 x.2.2 else s) s
  if s.clState c ≠ 5 then s else
  let s := if bitAt (s.reg (aPwrStatus c)) 60 then s.restoreCluster c else s
  let s := (clusterPes c).foldl (fun s n => (s.updPe n Pe.restoreLaccs).refillPe n) s
  (s.setGoal c 3).pressureCheck.powerShift
/-- A bulk spill stops at its window; what it has spilled stays below (R82, R451). -/
def State.stopSpill (s : State) (c : Nat) : State :=
  (clusterPes c).foldl (fun s n => s.updPe n (fun p => { p with useq := { p.useq with
    running := p.useq.running.filter (fun r => r.kind != .bulkSpill)
    slots := p.useq.slots.map (fun x => { x with routine := x.routine.filter (fun r => r.kind != .bulkSpill) }) } })) s
/-- A wake request by REQ = ACTIVE or FREEWHEEL: it leaves OFF, or aborts a power-down before FENCE_DONE. -/
def State.wakeRequest (s : State) (c : Nat) : State :=
  let st := s.clState c
  if st = 3 then s.wakeCluster c
  else if st = 4 then (((s.stopSpill c).setClState c 5).setGoal c 3).powerShift
  else s
def State.reqActive (s : State) (c : Nat) : State :=
  let s := s.setRfld (aPwrCtl c) 1 0 0
  let st := s.clState c
  if st = 2 then (s.leaveFreewheel c).setGoal c 0
  else if st ≤ 1 then s.setGoal c 0
  else s.wakeRequest c
def State.reqFreewheel (s : State) (c : Nat) : State :=
  let s := s.setRfld (aPwrCtl c) 1 0 1
  if s.clState c ≤ 1 then s.setGoal c 5 else s.wakeRequest c
def State.reqOff (s : State) (c : Nat) : State :=
  let s := s.setRfld (aPwrCtl c) 1 0 2
  if s.clState c ≤ 2 then (s.setGoal c 1).powerShift else s
/-- A write of CL_PWR_CTL (R494). -/
def State.pwrWrite (s : State) (c : Nat) (v : Word) : State :=
  let a := aPwrCtl c
  if fld v 1 0 = 3 ∨ fld v 63 32 = 0 then s.cfgReject a
  else
    let s := ((s.setRfld a 63 32 (fld v 63 32)).setRfld a 3 3 (fld v 3 3)).setRfld a 2 2 (fld v 2 2)
    if fld v 1 0 = 0 then s.reqActive c else if fld v 1 0 = 1 then s.reqFreewheel c else s.reqOff c

/-- OFF_TOKEN_PARK at the spill engine (R496): waits while the auxiliary region is full; a token for a cluster no longer masked goes on. -/
def State.parkToken (s : State) : State :=
  match s.takeReq 66 (fun p => p.opc == .token) with
  | none => s
  | some (p, t) =>
    let d := p.dest
    if d < 64 ∧ bitAt (s.reg (aNiOff 66 (s.activeBank 66))) d then
      if s.auxRoom d .bounce 32 then (({ t with parked := Tbl.set [] t.parked d (Tbl.get [] t.parked d ++ [p]) }).bump (aParked d)).pressureCheck
      else s
    else t.unitSend 66 { dest := d, opc := .token, pri := p.pri, spec := p.spec, body := p.body, act := 0, cls := .none, ae := none, fault := p.fault }

def execClusterReqActive (c : Nat) (s : State) : Out := onCluster c s (fun s => s.reqActive c)
def execClusterReqFreewheel (c : Nat) (s : State) : Out := onCluster c s (fun s => s.reqFreewheel c)
def execClusterReqOff (c : Nat) (s : State) : Out := onCluster c s (fun s => s.reqOff c)
def execFreewheelEntry (c : Nat) (s : State) : Out := onCluster c s (fun s => s.freewheel c)
def execFreewheelWake (c : Nat) (s : State) : Out := onCluster c s (fun s => s.freewheelWake c)
def execFreewheelAutoReturn (c : Nat) (s : State) : Out := onCluster c s (fun s => s.freewheelReturn c)
def execOffTokenPark (s : State) : Out := onModule s (fun s => s.parkToken)

/-! Sensors (R462). -/

/-- A two's complement half-word. -/
def sx16 (v : Nat) : Int := sextNat 16 v
/-- A temperature sample in 1/16 °C: NOW, and MAX when it is higher. -/
def State.sampleTemp (s : State) (i : Nat) (valid : Bool) (v : Nat) : State :=
  let a := aMcTemp i
  if !valid then s.setRfld a 63 63 0
  else
    let s := (s.setRfld a 63 63 1).setRfld a 15 0 v
    if sx16 (s.rfld a 31 16) < sx16 v then s.setRfld a 31 16 v else s
/-- An aging sample: NOW and DEGR, (FRESH − NOW) ÷ FRESH in ppm from 0 to 65,535. -/
def State.sampleAge (s : State) (m : Nat) (valid : Bool) (v : Nat) : State :=
  let a := aMcAge m
  if !valid then s.setRfld a 63 63 0
  else
    let f := s.rfld a 47 32
    let n := v % 65536
    ((s.setRfld a 63 63 1).setRfld a 15 0 n).setRfld a 31 16 (if f = 0 then 0 else min 65535 ((f - n) * 1000000 / f))
/-- SENSOR_SAMPLE of kind 0 temperature, 1 voltage (v mV, w in 10 mA), 2 aging, sensor i. -/
def State.sample (s : State) (kind i : Nat) (valid : Bool) (v w : Nat) : State :=
  if kind = 0 ∧ i < 24 then s.sampleTemp i valid v
  else if kind = 1 ∧ i < 22 then
    if valid then ((s.setRfld (aMcVmon i) 63 63 1).setRfld (aMcVmon i) 15 0 v).setRfld (aMcVmon i) 47 32 w else s.setRfld (aMcVmon i) 63 63 0
  else if kind = 2 ∧ i < 72 then s.sampleAge i valid v
  else s
def execSensorSample (kind i : Nat) (valid : Bool) (v w : Nat) (s : State) : Out := onModule s (fun s => s.sample kind i valid v w)

/-! The thermal governor (R541 to R544, R547). -/

/-- Readings of die d's junction sensors that are valid, in 1/16 °C. -/
def State.junctions (s : State) (d : Nat) : List Int :=
  ((List.range 5).filter (fun k => bitAt (s.reg (aMcTemp (5 * d + k))) 63)).map (fun k => sx16 (s.rfld (aMcTemp (5 * d + k)) 15 0))
/-- The hottest of a list. -/
def hottest : List Int → Int
  | [] => 136 * 16
  | [t] => t
  | t :: r => max t (hottest r)
/-- kHz below 1.4 GHz that R541 asks for at t (1/16 °C), from the drop in force. -/
def dropAt (t : Int) (now : Nat) : Nat :=
  if t ≤ 1760 then 0 else if t ≤ 2176 then ((t - 1760) * 21540 / 16).toNat else min 1050000 (now + 50000)
/-- A rise of the ceiling waits for 2 °C of hysteresis. -/
def nextDrop (t : Int) (now : Nat) : Nat :=
  let want := dropAt t now
  if now ≤ want then want else min now (max want (dropAt (t + 32) now))
/-- What aging takes from a die's ceiling (R547). -/
def State.ageDrop (s : State) (d : Nat) : Nat := Tbl.get 0 s.pw.ageSteps d * 10000
/-- What a memory device above its limit takes off beside (R278): the manual does not say how far the governor derates, so the step is a free
value, never below the floor of R541 (log 49). -/
def State.memDrop (s : State) (k : Nat) (want : Nat) : Nat :=
  if (List.range 4).any (fun h => s.rfld (aMmStatus h) 3 2 == 3) then min 1050000 (want + 1 + Config.memDerate k) else want
/-- The clock ceiling of a cluster in kHz. -/
def State.ceiling (s : State) (c : Nat) : Nat := 1400000 - Tbl.get 0 s.pw.drop c - s.ageDrop (clDie c)
def dieClusters (d : Nat) : List Nat := (List.range 64).filter (fun c => clDie c == d)
/-- THERMAL_GOVERNOR_TICK. A die none of whose sensors reads is treated as at 136 °C. -/
def State.governDie (s : State) (d : Nat) : State :=
  let l := s.junctions d
  let gone := l.isEmpty
  let s := if gone ∧ !s.pw.tempLost.contains d then
      (s.setPw (fun p => { p with tempLost := p.tempLost ++ [d] })).log 67 .tempSensorLost .deferred (BitVec.ofNat 64 d)
    else if !gone then s.setPw (fun p => { p with tempLost := p.tempLost.erase d }) else s
  (dieClusters d).foldl (fun s c => s.setPw (fun p =>
    { p with drop := Tbl.set 0 p.drop c (s.memDrop s.free (if gone then 560000 else nextDrop (hottest l) (Tbl.get 0 p.drop c))) })) s
def State.govern (s : State) : State := ((List.range 4).filter (fun d => bitAt (s.reg aPwState) (48 + d))).foldl (fun s d => s.governDie d) s
def execThermalGovernorTick (s : State) : Out := onModule s (fun s => s.draw.2.govern)
/-- THERMAL_KICKSTAND: a junction of die d stayed above 140 °C for 10 ms while the die sits at its floor. -/
def State.thermalKick (s : State) (d : Nat) : State :=
  if (s.junctions d).any (fun t => decide (2240 < t)) ∧ (dieClusters d).all (fun c => Tbl.get 0 s.pw.drop c == 1050000) then s.kickstandEntry 2 0 else s
def execThermalKickstand (d : Nat) (s : State) : Out := onUnit "die" d 4 s (fun s => s.thermalKick d)

/-! Aging guardbands (R546, R547). -/

/-- The monitors of a die; 4 is the hub. -/
def monitorsOf (d : Nat) : List Nat := if d < 4 then dieClusters d else [64, 65, 66, 67, 68, 69, 70, 71]
/-- Guardband in µV. -/
def nextGuard (g degr : Nat) : Nat :=
  let t := min 60000 (degr / 2)
  if g < t then min t (g + 2000) else max t (g - 2000)
/-- One die: monitors named invalid for 10 minutes are left out; AGING_LIMIT at 60 mV and for each further 2,000 ppm. -/
def State.guardDie (s : State) (d : Nat) : State :=
  let l := (monitorsOf d).filter (fun m => bitAt (s.reg (aMcAge m)) 63 && !s.pw.ageLost.contains m)
  if l = [] then s
  else
    let degr := l.foldl (fun x m => max x (s.rfld (aMcAge m) 31 16)) 0
    let g := nextGuard (Tbl.get 0 s.pw.guard d) degr
    let s := s.setPw (fun p => { p with guard := Tbl.set 0 p.guard d g })
    if g < 60000 then s
    else
      let steps := (degr - 120000) / 2000
      let old := Tbl.get 0 s.pw.ageSeen d
      let s := if old ≤ steps then (List.range (steps + 1 - old)).foldl (fun s _ => s.log 67 .agingLimit .deferred (BitVec.ofNat 64 d)) s else s
      s.setPw (fun p => { p with ageSeen := Tbl.set 0 p.ageSeen d (max old (steps + 1)), ageSteps := Tbl.set 0 p.ageSteps d steps })
/-- AGING_GUARDBAND_UPDATE; `lost` are the monitors whose readings have been invalid for 10 minutes. -/
def State.guardbands (s : State) (lost : List Nat) : State :=
  let l := lost.filter (fun m => decide (m < 72) && !bitAt (s.reg (aMcAge m)) 63 && !s.pw.ageLost.contains m)
  let s := l.foldl (fun s m => s.log 67 .ageMonitorLost .deferred (BitVec.ofNat 64 m)) s
  let s := s.setPw (fun p => { p with ageLost := (p.ageLost ++ l).filter (fun m => !bitAt (s.reg (aMcAge m)) 63) })
  (List.range 5).foldl (fun s d => s.guardDie d) s
def execAgingGuardbandUpdate (lost : List Nat) (s : State) : Out := onModule s (fun s => s.guardbands lost)

/-! Reference clocks and time inputs (R530, R531). -/

def execRefclkLost (s : State) : Out :=
  onModule s (fun s =>
    if s.pw.refOk ∧ s.mc.up then (s.setPw (fun p => { p with refOk := false, holdover := true })).logFree 67 .refclkLost .deferred
    else s.setPw (fun p => { p with refOk := false }))
/-- REFCLK_RESTORED: REFCLK has stayed within its limits for 10 ms. -/
def execRefclkRestored (s : State) : Out :=
  onModule s (fun s =>
    let t := s.setPw (fun p => { p with refOk := true, holdover := false })
    if s.pw.holdover then t.logFree 67 .refclkRestored .info else t)
/-- TIME_SYNC to a partner (R373). -/
def State.timeSync (s : State) (p : Nat) : State :=
  let w := s.tb + sext64 16 (s.rfld (aTsAdj p) 15 0)
  s.atLink p (fun s => (s.transmit p (portControl p 0 0x0B (mkWide 0 w))).getD s)
/-- PPS_EDGE: a rising edge `err` ns from the predicted second. The eighth good edge in a row sets PPS_LOCK; an edge more than 1 µs off
clears it (a missing edge is PPS_LOCK_LOST). Every OPEN port with TSYNC sends TIME_SYNC. -/
def State.ppsEdge (s : State) (err : Int) : State :=
  let good := decide (-100 ≤ err ∧ err ≤ 100)
  let run := if good then s.pw.ppsRun + 1 else 0
  let s := s.setPw (fun p => { p with ppsRun := run, ppsAt := s.now })
  let s := if 8 ≤ run then s.setRfld aTbStatus 63 63 1 else if err < -1000 ∨ 1000 < err then s.setRfld aTbStatus 63 63 0 else s
  ((List.range 16).filter (fun p => s.ptState p == psOPEN && bitAt (s.reg (aPtCfg p)) 7)).foldl (fun s p => s.timeSync p) s
def execPpsEdge (err : Int) (s : State) : Out := onModule s (fun s => s.ppsEdge err)
/-- PPS_LOCK_LOST: an edge is missing for 1.5 s, or arrived more than 1 µs from the prediction. -/
def execPpsLockLost (s : State) : Out :=
  onModule s (fun s => (s.setRfld aTbStatus 63 63 0).setPw (fun p => { p with ppsRun := 0 }))
/-- REF_LOCK_CHANGE: CLK10M_IN has been good for 100 ms, or without edges for 1 ms. -/
def execRefLockChange (on : Bool) (s : State) : Out := onModule s (fun s => s.setRfld aTbStatus 62 62 on.toNat)
/-- PPS_OUT_EDGE: PPS_OUT rises at a timebase second boundary, or falls 100 ms later. -/
def execPpsOutEdge (rise : Bool) (s : State) : Out := onModule s (fun s => s.setPw (fun p => { p with ppsOut := rise }))

end Sys2Proof.Machine
end

