-- ==== Sys2Proof/Machine/Crossings.lean ====
section
/-! DEFINITION. Dual-clock queues (R385 to R396), values, pulses and stopped clocks (R397 to R403), beacons and local counters (R404 to
R407), and the path of event records to the log (R426 to R429, R463 to R466). -/

namespace Sys2Proof.Machine

/-! The instances (R395), by their status register. -/

/-- Where a DCQ instance holds its words: an ejection queue of an endpoint, an input queue of a router, crossbar or port, an egress queue of a
port, or the requests of a memory channel; with its write and read domains and its index in its block. -/
inductive DcqAt where
  | eject (e vn : Nat)
  | input (r i vn : Nat)
  | egress (p vn : Nat)
  | chan (ch : Nat)
  | none
  deriving DecidableEq, Repr
structure Dcq where
  store : DcqAt
  src : Nat
  dst : Nat
  idx : Nat
  deriving DecidableEq, Repr

def fabDom (c : Nat) : Nat := 64 + clDie c
/-- The instance whose status register stands at an address. -/
def dcqOf (a : Nat) : Option Dcq :=
  let b := regBlock a
  let q := (a - regBase) % 0x10000
  if (regSpec a).isNone ∨ a < regBase then none
  else if b < 64 ∧ 0x340 ≤ q ∧ q < 0x380 then
    let i := (q - 0x340) / 8
    some (if i < 4 then ⟨.input b 5 i, b, fabDom b, i⟩ else ⟨.eject b (i - 4), fabDom b, b, i⟩)
  else if b < 64 ∧ 0x480 ≤ q ∧ q < 0x520 then
    let i := (q - 0x480) / 8
    some ⟨.input b (i / 4) (i % 4), if i < 16 then fabDom (nbrOf b (i / 4)) else 68, fabDom b, i⟩
  else if b = 0x40 ∧ 0x100 ≤ q ∧ q < 0x300 then
    let i := (q - 0x100) / 8
    some ⟨.input 64 (i / 4) (i % 4), fabDom (spokeCluster (i / 4)), 68, i⟩
  else if b = 0x45 ∧ 0x100 ≤ q ∧ q % 0x100 / 8 ≥ 10 ∧ q % 0x100 / 8 < 12 then
    let m := q / 0x100 - 1
    let i := q % 0x100 / 8 - 10
    some ⟨if i = 0 then .chan m else .none, if i = 0 then 68 else 87 + m, if i = 0 then 87 + m else 68, 2 * m + i⟩
  else if b = 0x46 ∧ 0x80 ≤ q ∧ q < 0xC0 then
    let i := (q - 0x80) / 8
    some (if i < 4 then ⟨.eject 69 i, 68, 69, i⟩ else ⟨.input 64 37 (i - 4), 69, 68, i⟩)
  else if 0x50 ≤ b ∧ b < 0x60 ∧ 0x80 ≤ q ∧ q < 0xC8 then
    let i := (q - 0x80) / 8
    let p := b - 0x50
    some (if i < 4 then ⟨.input 64 (16 + p) i, 70 + p, 68, i⟩ else if i < 8 then ⟨.egress p (i - 4), 68, 86, i⟩ else ⟨.none, 70 + p, 86, i⟩)
  else if b = 0x60 ∧ 0x40 ≤ q ∧ q < 0x68 then
    let i := (q - 0x40) / 8
    some (if i = 0 then ⟨.eject 67 0, 68, 91, 0⟩ else if i = 1 then ⟨.input 64 35 0, 91, 68, 1⟩ else if i = 2 then ⟨.none, 93, 91, 2⟩
      else if i = 3 then ⟨.none, 94, 91, 3⟩ else ⟨.none, 91, 94, 4⟩)
  else none

/-- DETAIL of a crossing event (R403). -/
def crossDetail (src dst mech idx : Nat) : Word := BitVec.ofNat 64 (put 6 0 src + put 14 8 dst + put 17 16 mech + put 31 24 idx)
def Dcq.detail (d : Dcq) : Word := crossDetail d.src d.dst 0 d.idx
/-- The source of an event at the read side of an instance (R426). -/
def Dcq.unit (d : Dcq) : Nat := srcOf d.dst d.idx
/-- The requests of memory channel ch that wait at module memory. -/
def chanReq (ch : Nat) (p : Packet) : Bool := p.opc.isMem && channelOf p.addr == ch

/-- Discard what an instance holds, returning the credit of a port's flits (R386, R392, R394). The MC's mailbox holds one VN's queue per
network; all of them go. -/
def State.dcqClear (s : State) (d : Dcq) : State :=
  match d.store with
  | .none => s
  | .eject e vn => s.setEject e ((s.ejectQ e).filter (fun p => e != 67 && p.vn != vn))
  | .egress p vn => s.setEgress p vn []
  | .chan ch => s.setReqs 64 ((s.reqAt 64).filter (fun p => !chanReq ch p))
  | .input r i vn =>
    let l := if i = 35 then (List.range 4).flatMap (fun v => s.vc r i v) else s.vc r i vn
    let t := if i = 35 then (List.range 4).foldl (fun s v => s.setVc r i v []) s else s.setVc r i vn []
    if r = 64 ∧ 16 ≤ i ∧ i < 32 then
      let p := i - 16
      t.atLink p (fun t => t.sayCredit p (fun t =>
        let t := l.foldl (fun s h => if h.pkt.note = 3 then s.returnCredit p vn h.pkt.flits else s) t
        match (t.port p).openAt vn with
        | some o => ((t.setOpen p vn none).setSkip p vn true).returnCredit p vn (o.pkt.body.length + 1)
        | none => t))
    else t
/-- The packets that an instance's write side is still writing, by their keys in `openPkts`. -/
def Dcq.openKeys (d : Dcq) : List Nat :=
  match d.store with
  | .input r i vn => if i = 35 then (List.range 4).map (vcKey r i) else [vcKey r i vn]
  | .eject e vn => let k (v : Nat) : Nat := if e < 64 then vcKey e 6 v else vcKey 64 (e - 24) v
    if e = 67 then (List.range 4).map k else [k vn]
  | _ => []
def State.dcqOpen (s : State) (d : Dcq) : Bool := d.openKeys.any (fun k => (Tbl.get none s.openPkts k).isSome)
/-- A flush (R392): what has been written goes now, and a packet being written is completed and then discarded; without effect while CRESET is 1
(R396). -/
def State.dcqFlush (s : State) (a : Nat) : State :=
  match dcqOf a with
  | some d =>
    if bitAt (s.reg a) 62 then s
    else if s.dcqOpen d ∧ !s.flushes.contains a then { s.dcqClear d with flushes := s.flushes ++ [a] }
    else s.dcqClear d
  | none => s
/-- Pointer copies differ (R393): every word goes, committed or not, and the credit-reset handshake begins, which includes a flush; on a die-edge
or spoke channel it runs as a forced retrain, and a port's ingress resets its own side alone (R394). While a handshake runs a mismatch that the
other side finds is part of it: one reset, two events (R408). -/
def State.ptrMismatch (s : State) (a : Nat) : State :=
  match dcqOf a with
  | none => s
  | some d =>
    let s := s.log d.unit .dcqPtrMismatch .deferred d.detail
    if bitAt (s.reg a) 62 then s else
    let s := s.setRfld a 43 36 (satInc 8 (s.rfld a 43 36))
    let retrain (s : State) (r i : Nat) : State :=
      let (r1, p1) := portOf r i
      if dieEdge r1 p1 ∧ s.portState r1 p1 ≠ 0 then s.beginRetrain r1 p1 else s
    let t := s.dcqClear d
    let t := { t with openPkts := d.openKeys.foldl (fun t k => Tbl.set none t k none) t.openPkts, flushes := t.flushes.erase a }
    match d.store with
    | .input r i _ =>
      if r < 64 ∧ i < 5 then retrain (t.setRfld a 62 62 1) r i
      else if r = 64 ∧ i < 16 then retrain (t.setRfld a 62 62 1) 64 i
      else if r = 64 ∧ i < 32 then t
      else t.setRfld a 62 62 1
    | _ => t.setRfld a 62 62 1
/-- The handshake ends: credits are granted anew, which is the empty queue's free space. -/
def State.creditReset (s : State) (a : Nat) : State := if (dcqOf a).isSome then s.setRfld a 62 62 0 else s
/-- Detectors stand armed (R402): not for the JTAG and Ethernet receive domains, nor while either side's clock is stopped as planned. -/
def State.armed (s : State) (src dst : Nat) : Bool :=
  let stopped (d : Nat) : Bool :=
    (decide (d < 64) && (!s.dieOn d || (decide (2 ≤ s.clState d) && decide (s.clState d ≤ 3)))) || (decide (64 ≤ d ∧ d < 68) && !bitAt (s.reg aPwState) (48 + (d - 64)))
      || (decide (70 ≤ d ∧ d < 86) && s.ptState (d - 70) == psDOWN)
  !(decide (93 ≤ src) || decide (93 ≤ dst) || stopped src || stopped dst)
/-- A pulse crossing by its domains and index. -/
def pulseKey (src dst idx : Nat) : Nat := (idx * 128 + dst) * 128 + src
/-- Detectors of a pulse stand until the handshake that is open ends (R408); the JTAG and Ethernet receive domains have none. -/
def State.armedFor (s : State) (mech src dst idx : Nat) : Bool :=
  s.armed src dst || (mech == 2 && decide (src < 93 ∧ dst < 93) && (Tbl.get Pulse.init s.pulses (pulseKey src dst idx)).busy)
/-- A value or pulse crossing, as `stopped` names it. -/
def stopKey (mech src dst idx : Nat) : Nat := pulseKey src dst idx * 4 + mech
/-- DCQ_STALL (R401): mechanism 0 names the instance by its status register in `a`; 1 and 2 name a value or a pulse by its domains and `a`. The
live side is the destination, or the source where 4 is added to the mechanism. -/
def State.crossStall (s : State) (mech src dst a : Nat) : State :=
  let m := mech % 4
  if m = 0 then
    match dcqOf a with
    | some d =>
      if s.armed d.src d.dst ∧ !bitAt (s.reg a) 63 then
        (s.setRfld a 63 63 1).log (srcOf (if 4 ≤ mech then d.src else d.dst) d.idx) .dcqStall .deferred d.detail
      else s
    | none => s
  else if s.armedFor m src dst a ∧ !s.stopped.contains (stopKey m src dst a) then
    ({ s with stopped := s.stopped ++ [stopKey m src dst a] } : State).log (srcOf (if 4 ≤ mech then src else dst) a) .cdcTimeout .deferred
      (crossDetail src dst m a)
  else s
/-- CDC_RESUMED: the partner's heartbeat changes again at a crossing that was seen stopped. -/
def State.crossResume (s : State) (mech src dst a : Nat) : State :=
  let m := mech % 4
  if m = 0 then
    match dcqOf a with
    | some d =>
      if bitAt (s.reg a) 63 then (s.setRfld a 63 63 0).log (srcOf (if 4 ≤ mech then d.src else d.dst) d.idx) .cdcResumed .info d.detail else s
    | none => s
  else if s.stopped.contains (stopKey m src dst a) then
    ({ s with stopped := s.stopped.erase (stopKey m src dst a) } : State).log (srcOf (if 4 ≤ mech then src else dst) a) .cdcResumed .info
      (crossDetail src dst m a)
  else s

def execDcqFlush (a : Nat) (s : State) : Out := onModule s (fun s => s.dcqFlush a)
def execDcqPtrMismatch (a : Nat) (s : State) : Out := onModule s (fun s => s.ptrMismatch a)
def execCreditResetDone (a : Nat) (s : State) : Out := onModule s (fun s => s.creditReset a)
def execDcqStall (mech src dst a : Nat) (s : State) : Out := onModule s (fun s => s.crossStall mech src dst a)
def execCdcResumed (mech src dst a : Nat) (s : State) : Out := onModule s (fun s => s.crossResume mech src dst a)

/-! Values, pulses and beacons. -/

/-- CDC_UNSTABLE (R398): a window closes with no value accepted; for a beacon (mechanism 3) TB_DOM_ERR shows it. -/
def State.unstable (s : State) (mech src dst idx : Nat) : State :=
  let s := if mech = 3 then s.setDom dst { s.dom dst with unstable := true } else s
  s.log (srcOf dst idx) .cdcUnstable .deferred (crossDetail src dst mech idx)
def execCdcUnstable (mech src dst idx : Nat) (s : State) : Out := onModule s (fun s => s.unstable mech src dst idx)

/-- PULSE_CROSSING: a pulse arrives at the source, or (`ends`) the handshake that is open ends (R399). -/
def State.pulse (s : State) (src dst idx : Nat) (ends : Bool) : State :=
  let k := pulseKey src dst idx
  let x := Tbl.get Pulse.init s.pulses k
  let set (s : State) (x : Pulse) : State := { s with pulses := Tbl.set Pulse.init s.pulses k x }
  if ends then
    if !x.busy then s
    else if x.pending = 0 then set s { x with busy := false }
    else set s { x with pending := x.pending - 1, delivered := x.delivered + 1 }
  else if !x.busy then set s { x with busy := true, delivered := x.delivered + 1 }
  else if x.pending < 15 then set s { x with pending := x.pending + 1 }
  else (set s { x with lost := true }).log (srcOf src idx) .pulseLost .deferred (crossDetail src dst 2 idx)
def execPulseCrossing (src dst idx : Nat) (ends : Bool) (s : State) : Out := onModule s (fun s => s.pulse src dst idx ends)

/-- Whether the module is powered: PW_STATUS.SRC is not zero then (R490). -/
def State.powered (s : State) : Bool := s.rfld aPwStatus 5 4 != 0
/-- BEACON_LAUNCH (R404): 64 timebase cycles have passed; the beacon holds the timebase value at its launch edge. -/
def execBeaconLaunch (s : State) : Out :=
  onModule s (fun s => if s.powered then { s with now := s.now + 64, beacon := ({ s with now := s.now + 64 } : State).tb } else s)
/-- What domain d's counter reads when it accepts a beacon: it stands while it is held; otherwise it has gone as far as its increment says, or on
to `here` where its clock has run faster (R404). It never runs backwards (R405). -/
def State.counterAt (s : State) (d here : Nat) : Nat := if (s.dom d).held then (s.dom d).val.toNat else max here (s.localTime d)
/-- BEACON_ACCEPT in domain d, whose clock has brought its counter to `here` (R405). A counter that comes up loads its first beacon (R548). -/
def State.beaconAccept (s : State) (d here : Nat) : State :=
  if 93 < d ∨ d = 92 then s
  else
    let x := s.dom d
    let v := s.beacon.toNat + Config.beaconLatency d
    let l := s.counterAt d here
    let e : Int := (v : Int) - l
    let y := { x with unstable := false, loaded := true, err := e, since := s.now, corr := 0 }
    let step (s : State) : State := s.log (srcOf d 0) .timeStep .corrected (crossDetail 92 d 3 0)
    if !x.loaded then s.setDom d { y with val := BitVec.ofNat 64 v, err := 0, held := false }
    else if x.held then
      if 0 ≤ e then step (s.setDom d { y with val := BitVec.ofNat 64 v, held := false, steps := satInc 16 x.steps })
      else s.setDom d y
    else if -4096 ≤ e ∧ e ≤ 4096 then s.setDom d { y with val := BitVec.ofNat 64 l, corr := e }
    else if 0 < e then step (s.setDom d { y with val := BitVec.ofNat 64 v, steps := satInc 16 x.steps })
    else s.setDom d { y with val := BitVec.ofNat 64 l, held := true }
def execBeaconAccept (d here : Nat) (s : State) : Out := onModule s (fun s => s.beaconAccept d here)

/-! Event records. -/

def Sev.code : Sev → Nat
  | .info => 0
  | .corrected => 1
  | .deferred => 2
  | .fatalContext => 3
  | .fatalModule => 4
def Ev.code : Ev → BitVec 16
  | .program c => BitVec.ofNat 16 c
  | e => Config.eventCode e.ctorIdx
/-- SRC of a record (R426): the domain of its source, and the unit's number in it: the PE, the endpoint, or what `srcOf` named. -/
def EvRec.srcNo (r : EvRec) : Nat :=
  put 15 9 (evDom r.src r.pe) + put 8 0 (r.pe.getD (if 2 ^ 20 ≤ r.src then (r.src - 2 ^ 20) % 512 else r.src))
def EvRec.isProg (r : EvRec) : Bool := match r.code with
  | .program _ => true
  | _ => false
/-- The four words of a record (R426). -/
def LogRec.words (r : LogRec) : List Word :=
  [BitVec.ofNat 64 r.seq, BitVec.ofNat 64 r.ev.tb,
   BitVec.ofNat 64 (put 63 61 r.ev.sev.code + put 60 60 r.ev.isProg.toNat + put 59 59 r.late.toNat + put 58 58 r.ev.ctx.isSome.toNat
     + put 57 57 r.ev.psn.toNat + put 55 36 (r.ev.ctx.getD 0) + put 31 16 r.ev.code.code.toNat + put 15 0 r.ev.srcNo), r.ev.detail]
def LogRec.bytes (r : LogRec) : List Byte := r.words.flatMap (fun w => leBytes 8 w.toNat)

/-- The record of the lowest TIME, of several the one received first. -/
def earliest : List EvRec → Option EvRec
  | [] => none
  | r :: l => match earliest l with
    | none => some r
    | some q => if q.tb < r.tb then some q else some r
/-- COLLECTOR_FORWARD: records go to the merge in order of TIME, once they have been held for 2 µs (R427). -/
def State.collForward (s : State) (k : Nat) : State :=
  match earliest (Tbl.get [] s.coll k) with
  | none => s
  | some r =>
    if s.now < r.time + 2000 then s
    else
      { s with coll := Tbl.set [] s.coll k ((Tbl.get [] s.coll k).erase r),
               ev := { s.ev with merge := s.ev.merge ++ [⟨k, r⟩], lseqs := Tbl.set 0 s.ev.lseqs k (s.nextLseq k) } }
/-- The domain whose counter a collector reads: its die's fabric, the hub fabric, always-on. -/
def collDom (k : Nat) : Nat := if k < 4 then 64 + k else if k = 4 then 68 else 91
/-- PROGRESS_MARK: no later record of collector k has TIME below the mark; it is live (again). -/
def State.progressMark (s : State) (k : Nat) : State :=
  let now := s.localTime (collDom k) - lsbOf 2000
  let t := match earliest (Tbl.get [] s.coll k) with
    | none => now
    | some r => min r.tb now
  { s with ev := { s.ev with marks := Tbl.set 0 s.ev.marks k (t + 1), silent := s.ev.silent.erase k } }
/-- The live collectors: those that have not fallen silent (R428). -/
def State.liveColls (s : State) : List Nat := (List.range 6).filter (fun k => !s.ev.silent.contains k)
def FwdRec.key (r : FwdRec) : Nat × Nat × Nat := (r.ev.tb, r.ev.srcNo, r.ev.lseq)
def keyLt (a b : Nat × Nat × Nat) : Bool :=
  decide (a.1 < b.1) || (a.1 == b.1 && (decide (a.2.1 < b.2.1) || (a.2.1 == b.2.1 && decide (a.2.2 < b.2.2))))
def lowestRec : List FwdRec → Option FwdRec
  | [] => none
  | r :: l => match lowestRec l with
    | none => some r
    | some q => if keyLt q.key r.key then some q else some r
/-- The oldest record of the lowest severity leaves a full persist queue (R464). -/
def lowestSev : List LogRec → Option LogRec
  | [] => none
  | r :: l => match lowestSev l with
    | none => some r
    | some q => if q.ev.sev.code < r.ev.sev.code then some q else some r
/-- Queue a record for the flash logs. -/
def State.queuePersist (s : State) (r : LogRec) : State :=
  if r.ev.sev.code < s.rfld aLogCtl 2 0 then s
  else
    let q := s.ev.persist ++ [r]
    if q.length ≤ 4096 then { s with ev := { s.ev with persist := q } }
    else match lowestSev q with
      | none => s
      | some x => (({ s with ev := { s.ev with persist := q.erase x } } : State).bump aFlashLost).log 67 .logPersistGap .info (BitVec.ofNat 64 x.seq)
/-- Append to the ring, with its newest and oldest SEQ (R463). -/
def State.toRing (s : State) (r : LogRec) : State :=
  let ring := (s.ev.ring ++ [r]).drop (s.ev.ring.length + 1 - 16384)
  let old := (ring.head?.map (fun x => x.seq)).getD 0
  ((({ s with ev := { s.ev with ring := ring } } : State).setReg aLogNewest (BitVec.ofNat 64 r.seq)).setReg aLogOldest (BitVec.ofNat 64 old)).queuePersist r
/-- EVENT_SEQ_ASSIGN: the lowest key whose TIME every live collector's mark exceeds takes the next SEQ (R428). A running trace sends it. -/
def State.seqAssign (s : State) : State :=
  match lowestRec s.ev.merge with
  | none => s
  | some r =>
    if s.liveColls.all (fun k => decide (r.ev.tb + 1 < Tbl.get 0 s.ev.marks k)) then
      let late := keyLt r.key s.ev.top
      let x : LogRec := ⟨s.ev.seq, late, r.ev⟩
      let s := { s with ev := { s.ev with merge := s.ev.merge.erase r, seq := (s.ev.seq + 1) % 2 ^ 64, top := if late then s.ev.top else r.key } }
      let s := match s.mc.trace with
        | some (lo, n) => if lo ≤ r.ev.sev.code then s.setMc (fun m => { m with trace := some (lo, n + 1), resp := (0, x.bytes) }) else s
        | none => s
      s.toRing x
    else s
/-- COLLECTOR_SILENT: 100 µs without a mark. -/
def State.collSilent (s : State) (k : Nat) : State :=
  if s.ev.silent.contains k then s
  else ({ s with ev := { s.ev with silent := s.ev.silent ++ [k] } } : State).log 68 .collectorSilent .deferred (BitVec.ofNat 64 k)
/-- OPSEC (R484): the value at power-on and the seconds of MC operation since. -/
def State.opsec (s : State) : Nat := s.mc.opsec + (s.now - 60000000) / 10 ^ 9
/-- LOG_PERSIST: the queue goes to both flash logs, with the command sequence number, OPSEC and the guardbands. -/
def State.logPersist (s : State) : State :=
  if s.mc.up then
    { s with ev := { s.ev with flash := (s.ev.flash ++ s.ev.persist).drop (s.ev.flash.length + s.ev.persist.length - 262144), persist := [] },
             mc := { s.mc with kept := (s.mc.ethSeq, s.opsec, s.pw.guard) } }
  else s

def onColl (k : Nat) (s : State) (f : State → State) : Out := onUnit "collector" k 6 s f
def execCollectorForward (k : Nat) (s : State) : Out := onColl k s (fun s => s.collForward k)
def execProgressMark (k : Nat) (s : State) : Out := onColl k s (fun s => s.progressMark k)
def execEventSeqAssign (s : State) : Out := onModule s (fun s => s.seqAssign)
def execCollectorSilent (k : Nat) (s : State) : Out := onColl k s (fun s => s.collSilent k)
def execLogPersist (s : State) : Out := onModule s (fun s => s.logPersist)

end Sys2Proof.Machine
end

