-- ==== Sys2Proof/Machine/Registers.lean ====
section
/-! DEFINITION. Reading and writing registers: what a read shows (R5, R243, R334, R407, R424, R513), and what a write does by its access
codes, lock bits and each register's own rule (R5 to R7, R513, R522, R523). -/

namespace Sys2Proof.Machine

/-- Who accesses a register (R523). -/
inductive Master where
  | mc | invasive | observe | partner
  deriving DecidableEq, Repr

/-! What is read. -/

/-- The register that an address of an odd K-PE stands for: the pair answers under its even number, but for microcode (R245). -/
def canonReg (a : Nat) : Nat :=
  let o := a - kpBlock
  if a < kpBlock ∨ evBlock ≤ a then a
  else if 0x800 ≤ o ∧ o < 0xC00 ∧ o / 0x100 % 2 = 1 ∧ o % 0x100 < 0x30 then a - 0x100
  else if 0x1000 ≤ o ∧ o < 0x1800 ∧ o / 0x200 % 2 = 1 then a - 0x200
  else a
/-- The PE whose register of R514 stands at an address, and which of the eight it is. -/
def peRegAt (a : Nat) : Option (Nat × Nat) :=
  let o := (a - regBase) % 0x10000
  let b := regBlock a
  if a < regBase ∨ (regSpec a).isNone ∨ o < 0x800 ∨ 0x1000 ≤ o ∨ 0x40 ≤ o % 0x100 then none
  else if b < 64 then some (slotPe b ((o - 0x800) / 0x100), o % 0x100 / 8)
  else if b = 0x46 then some (272 + (o - 0x800) / 0x100, o % 0x100 / 8)
  else none
/-- Priorities of a list of ready entries as a mask. -/
def priMask (l : List ReadyE) : Nat := (List.range 8).foldl (fun v k => if l.any (fun r => r.pri == k) then v + 2 ^ k else v) 0
/-- PE_LACC_STAT (R243). -/
def Lacc.stat (l : Lacc) : Word :=
  BitVec.ofNat 64 (put 63 63 l.bound.toNat + put 62 62 l.corrupt.toNat + put 61 61 l.ovf.toNat + put 60 60 l.nan.toNat + put 59 59 l.pinf.toNat
    + put 58 58 l.ninf.toNat + put 39 20 (if l.bound then l.owner else 0) + put 12 0 (l.lead.getD 0x1FFF))
/-- PE_SPILL_PROGRESS.KIND of a routine; 0 of one that it does not show. -/
def LongKind.shown : LongKind → Nat
  | .bulkSpill => 1
  | .killSweep _ => 2
  | .overflowSweep _ => 3
  | .release => 4
  | .halt | .fill => 0
/-- PE_SPILL_PROGRESS (R446): the long routine started last that still runs or is held in a save slot, or a deferral release under way. -/
def State.spillProgress (s : State) (n : Nat) : Word :=
  match ((s.routine n).toList ++ (s.pe n).useq.slots.filterMap (·.routine)).find? (fun r => r.kind.shown != 0) with
  | some r => BitVec.ofNat 64 (put 63 63 1 + put 62 60 r.kind.shown + put 43 32 r.set + put 15 0 (min r.records 0xFFFF))
  | none =>
    match (Tbl.get [] s.rels (peEndpoint n)).find? (fun r => r.pe == some n && !r.list.isEmpty) with
    | some r => BitVec.ofNat 64 (put 63 63 1 + put 62 60 4 + put 15 0 (min r.sent 0xFFFF))
    | none => 0
/-- The words of a DCQ instance that its read side sees (R387, R396): in packet mode those of packets that pass their check, in pass mode also those
of the packet being written. -/
def State.dcqOcc (s : State) (d : Dcq) : Nat :=
  let f (l : List Packet) : Nat := l.foldl (fun n p => n + p.flits) 0
  min 2048 (match d.store with
    | .none => 0
    | .eject e vn => f ((s.ejectQ e).filter (fun p => (e == 67 || p.vn == vn) && p.bad == [] && p.calcCrc == p.crc))
    | .egress p vn => hopFlits (s.egressQ p vn)
    | .chan ch => f ((s.reqAt 64).filter (chanReq ch))
    | .input r i vn =>
      let held (v : Nat) : Nat := hopFlits (s.vc r i v) + (((Tbl.get none s.openPkts (vcKey r i v)).map (fun o => o.pkt.flits)).getD 0)
      if i = 35 then (List.range 4).foldl (fun n v => n + held v) 0 else held vn)
/-- LK_INFO of a lock (R424). -/
def Lock.info (l : Lock) (now : Nat) : Word :=
  let h := l.holder.getD { ep := 0, ctx := 0, pe := 0, pri := 0, tag := 0 }
  BitVec.ofNat 64 (put 63 60 l.waiters.length + put 59 57 h.pri + put 56 54 (l.boost.getD 0) + put 53 53 l.boost.isSome.toNat + put 52 33 h.ctx
    + put 32 24 h.pe + put 19 0 (l.left now))
/-- What a cluster block shows beyond the stored bits. -/
def State.clShown (s : State) (c q a : Nat) (v : Word) : Word :=
  if q = 0x20 then if s.clState c = 0 ∧ s.quiescent c then setFld v 63 61 1 else v
  else if q = 0x308 then
    let n := (s.ni c).inUse
    setFld (setFld v 38 32 (min n 127)) 31 31 (decide (n = 128)).toNat
  else if 0x430 ≤ q ∧ q < 0x458 then
    let p := (q - 0x430) / 8
    setFld (setFld v 55 48 (s.openOn c p)) 47 32 (s.idleUs c p)
  else if 0xC40 ≤ q ∧ q < 0xC60 then (s.lacc (slotPe c 4) ((q - 0xC40) / 8)).stat
  else match peRegAt a with
    | some (n, 3) => setFld (setFld v 40 32 (priMask (s.pe n).backlog)) 8 0 (s.pe n).ready.length
    | some (n, 5) => s.spillProgress n
    | _ => v
/-- What the blocks of the hub die show beyond the stored bits. -/
def State.hubShown (s : State) (b q a : Nat) (v : Word) : Word :=
  if b = 0x40 then
    if 0x40 ≤ q ∧ q ≤ 0x70 then
      if bitAt (s.reg aPstatSel) 63 then BitVec.ofNat 64 (Tbl.get 0 s.pstat (s.rfld aPstatSel 12 0 * 8 + (q - 0x40) / 8)) else 0
    else v
  else if b = 0x42 then
    let l := s.lock (s.rfld aLkSel 9 0)
    if q = 0x08 then if bitAt (s.reg aLkSel) 63 then BitVec.ofNat 64 l.leaseUs else v
    else if q = 0x10 then if bitAt (s.reg aLkSel) 63 then l.info s.now else 0
    else v
  else if b = 0x43 then (s.lock (q / 0x10)).status
  else if b = 0x44 then
    if q = 0 then s.tb
    else if q = 0x18 then
      if bitAt (s.reg aDomSel) 63 then
        let x := s.dom (s.rfld aDomSel 6 0)
        BitVec.ofNat 64 (put 63 63 x.unstable.toNat + put 47 32 x.steps) ||| (BitVec.ofInt 32 x.err).setWidth 64
      else 0
    else v
  else if b = 0x46 then
    match peRegAt a with
    | some (n, 3) => setFld (setFld v 40 32 (priMask (s.pe n).backlog)) 8 0 (s.pe n).ready.length
    | some (n, 5) => s.spillProgress n
    | _ => v
  else if 0x50 ≤ b ∧ b < 0x60 then
    let x := s.port (b - 0x50)
    let sel := s.rfld (aMapSel (b - 0x50)) 7 0
    if q = 0x30 then x.w0 sel else if q = 0x38 then x.w1 sel else v
  else v
/-- What a read of a register returns; zero where no register stands (R513). -/
def State.regShown (s : State) (a : Nat) : Word :=
  let a := canonReg a
  if (regSpec a).isNone then 0
  else
    let b := regBlock a
    let q := (a - regBase) % 0x10000
    let v := s.reg a
    let v := match dcqOf a with
      | some d => setFld v 55 44 (s.dcqOcc d)
      | none => v
    if b < 64 then s.clShown b q a v else s.hubShown b q a v

/-- An RCL field goes back to its reset value when it is read (R5). -/
def State.clearRcl (s : State) (a : Nat) : State :=
  let a := canonReg a
  if a = aPstat 6 then { s with pstat := Tbl.set 0 s.pstat (s.rfld aPstatSel 12 0 * 8 + 6) 0 }
  else ((regSpec a).getD []).foldl (fun s f => if f.acc = .rcl then s.setRfld a f.hi f.lo f.rst else s) s
/-- Read a register: the value, and the state after RCL fields cleared. -/
def State.regRead (s : State) (a : Nat) : Word × State := (s.regShown a, s.clearRcl a)
/-- Read `n` registers in ascending order. -/
def State.regReads (s : State) (a : Nat) : Nat → List Word × State
  | 0 => ([], s)
  | n + 1 =>
    let r := s.regRead a
    let q := r.2.regReads (a + 8) n
    (r.1 :: q.1, q.2)

/-- A register read by the MC or an invasive session: a read of LK_ACQ acquires for the MC (R412). -/
def State.mcRead (s : State) (a : Nat) : Word × State :=
  if regBlock a = 0x43 ∧ a % 0x10 = 0 ∧ (regSpec a).isSome then s.lkAcqRead ((a - lkArray) / 0x10) 67 Config.mcLockCtx false else s.regRead a

/-! Whether a block answers. -/

/-- Whether the block of a register is powered: a cluster's die, and its own clock domain; the keeper block and the ports outside STANDBY. -/
def State.reachable (s : State) (a : Nat) : Bool :=
  let b := regBlock a
  if b < 64 then s.dieOn b && !(clusterSide a && decide (3 ≤ s.clState b))
  else if b = 0x46 ∨ (0x50 ≤ b ∧ b < 0x60) then s.power != 2
  else true
/-- An access to the cluster clock domain wakes a cluster in FREEWHEEL (R495). -/
def State.wakeFor (s : State) (a : Nat) : State :=
  let c := regBlock a
  if c < 64 ∧ clusterSide a ∧ s.clState c = 2 then s.accessWake c else s

/-! What a write does. -/

/-- Apply the access codes of a register's fields (R5, R522): RWL fields keep their value while locked, and a change of one is reported. -/
def State.writeFields (s : State) (a : Nat) (v : Word) : State :=
  let lock : Bool := match blockLock a with
    | some l => bitAt (s.reg l) 0
    | none => false
  let fs := (regSpec a).getD []
  let old := s.reg a
  let new := fs.foldl (fun x f =>
    match f.acc with
    | .rw => setFld x f.hi f.lo (fld v f.hi f.lo)
    | .rwl => if lock then x else setFld x f.hi f.lo (fld v f.hi f.lo)
    | .w1c => setFld x f.hi f.lo (fld x f.hi f.lo &&& (2 ^ 64 - 1 - fld v f.hi f.lo))
    | .w1s => setFld x f.hi f.lo (fld x f.hi f.lo ||| fld v f.hi f.lo)
    | .ro | .wo | .rcl => x) old
  let s := s.setReg a new
  if lock ∧ fs.any (fun f => f.acc == .rwl && fld v f.hi f.lo != fld old f.hi f.lo) then s.cfgReject a else s

/-- The regions the MC's base registers place, as base and size; a register still at zero places none. -/
def State.placed (s : State) : List (Nat × Nat) :=
  ((List.range 64).flatMap (fun c => [(s.rfld (aCtxtBase c) 47 20 * 2 ^ 20, 2 ^ 20), (s.rfld (aSnapBase c) 47 16 * 2 ^ 16, 2 ^ 16)])
    ++ (List.range 276).map (fun n => (s.rfld (aPeSaveBase n) 47 12 * 4096, 4096))).filter (fun x => x.1 ≠ 0)
/-- A region at base lies in usable memory and below the deep store. -/
def State.fits (s : State) (base size : Nat) : Bool := decide (base + size ≤ s.deepBase)
/-- Whether a PW_SAVE_BASE write is refused (R496). -/
def State.saveClash (s : State) (base : Nat) : Bool :=
  !s.fits base (2 ^ 26) || s.placed.any (fun x => decide (x.1 < base + 2 ^ 26 ∧ base < x.1 + x.2))
/-- Whether a write of the deep-store quota is refused (R277). -/
def State.quotaClash (s : State) (units : Nat) : Bool :=
  decide (units < 4 ∨ 128 < units) || decide (0 < s.matchUsed + s.auxUsed)
    || (s.placed ++ (if s.reg aPwSaveBase = 0 then [] else [(s.rfld aPwSaveBase 47 26 * 2 ^ 26, 2 ^ 26)])).any
      (fun x => decide (28 * 2 ^ 30 - units * 2 ^ 26 < x.1 + x.2))

/-- What becomes of a write before its fields are set: it goes on, it is ignored, or it is ignored and reported. -/
inductive WriteDec where
  | go | ignore | reject
  deriving DecidableEq, Repr
def rejectIf (b : Bool) : WriteDec := if b then .reject else .go
def ignoreIf (b : Bool) : WriteDec := if b then .ignore else .go
/-- The value rules of a cluster block's registers (R42, R76, R85, R90, R97, R105, R222, R284, R288, R294, R314, R331, R496). -/
def State.clCheck (s : State) (c q a : Nat) (v : Word) : WriteDec :=
  if q = 0x10 then rejectIf (decide (64 < fld v 6 0) || (clusterPes c).any (fun n => decide (0 < (s.pe n).unitsAt .overflow)))
  else if 0x40 ≤ q ∧ q < 0x60 then ignoreIf (decide (fld v 24 16 < fld v 8 0))
  else if q = 0x110 then ignoreIf (decide (fld v 63 32 < 600 ∨ 2592000 < fld v 63 32))
  else if q = 0x200 then rejectIf !(s.fits (fld v 47 20 * 2 ^ 20) (2 ^ 20))
  else if q = 0x208 then rejectIf !(s.fits (fld v 47 16 * 2 ^ 16) (2 ^ 16))
  else if q = 0x300 then rejectIf s.shift.busy
  else if q = 0x308 then ignoreIf (decide (fld v 23 0 < 100 ∨ 1000000 < fld v 23 0))
  else if q = 0x320 ∨ q = 0x328 then rejectIf (decide ((q - 0x320) / 8 = s.activeBank c))
  else if q = 0x608 then ignoreIf (decide (2 ≤ fld v 3 1))
  else if 0x2000 ≤ q ∧ q < 0x4000 then
    let e := q % 0x1000 / 8
    if 70 ≤ e ∧ e < 256 then .ignore
    else rejectIf (decide ((q - 0x2000) / 0x1000 = s.activeBank c) || !routeLegal c e (fld v 29 0) false || !routeLegal c e (fld v 59 30) true)
  else match peRegAt a with
    | some (n, 0) => rejectIf (decide (0 < (s.pe n).unitsAt .store))
    | some (_, 1) => rejectIf !(s.fits (fld v 47 12 * 4096) 4096)
    | some (_, 2) => ignoreIf (decide (6 ≤ fld v 3 1))
    | _ => .go
/-- The value rules of the hub-die, port, MC and power blocks (R89, R91, R257, R277, R283, R318, R355, R356, R400, R464, R486, R496). -/
def State.hubCheck (s : State) (b q a : Nat) (v : Word) : WriteDec :=
  if b = 0x40 then
    if q = 0x08 then rejectIf s.shift.busy
    else if q = 0x10 ∨ q = 0x18 then rejectIf (decide ((q - 0x10) / 8 = s.activeBank 64))
    else if q = 0x28 then ignoreIf (decide (fld v 15 0 < 256))
    else if 0x1000 ≤ q then
      let legal (w : Nat) (rsp : Bool) : Bool := movesLegal rsp (routeCodes w 10) && decide (w / 8 ^ (routeCodes w 10).length = 0)
      rejectIf (decide ((q - 0x1000) / 0x400 = s.activeBank 64)
        || (q % 0x10 == 0 && !(legal (fld v 29 0) false && legal (fld v 59 30) true)))
    else .go
  else if b = 0x41 then if q = 0x10 then rejectIf (s.quotaClash (fld v 7 0)) else .go
  else if b = 0x45 then if q = 0 then ignoreIf (decide (fld v 16 1 < 1 ∨ 720 < fld v 16 1)) else .go
  else if b = 0x46 then
    if q = 0x40 ∨ q = 0x48 then rejectIf (decide (32768 < fld v 14 3 * 8 + fld v 28 16 * 8))
    else match peRegAt a with
      | some (n, 0) => rejectIf (decide (0 < (s.pe n).unitsAt .store))
      | some (_, 1) => rejectIf !(s.fits (fld v 47 12 * 4096) 4096)
      | some (_, 2) => ignoreIf (decide (6 ≤ fld v 3 1))
      | _ => .go
  else if b = 0x47 then
    if q = 0 then ignoreIf (decide (fld v 31 16 = 0 ∨ fld v 15 0 = 0))
    else if q = 0x08 then ignoreIf (decide (fld v 2 0 < 1 ∨ 4 < fld v 2 0))
    else .go
  else if 0x50 ≤ b ∧ b < 0x60 then
    if q = 0x10 then ignoreIf (decide (fld v 31 16 < 260 ∨ 10000 < fld v 31 16))
    else if q = 0x20 then ignoreIf (decide (fld v 63 48 = 0 ∨ fld v 47 32 = 0 ∨ fld v 31 16 = 0))
    else .go
  else if b = 0x60 then if q = 0x10 then ignoreIf (decide (fld v 15 0 < 10)) else .go
  else if b = 0x62 then if q = 0x28 then rejectIf (s.saveClash (fld v 47 26 * 2 ^ 26)) else .go
  else .go

/-- A change of a credit pool (R89): AVAIL follows TOTAL, and TOTAL never falls below what is reserved. -/
def State.creditWrite (s : State) (e : Nat) (v : Word) : State :=
  let a := aCredit e
  let held := s.rfld a 55 32 - s.rfld a 23 0
  if fld v 55 32 < held then s.cfgReject a
  else
    let t := s.writeFields a v
    t.setRfld a 23 0 (t.rfld a 55 32 - held)

/-- Zero every counter from address lo up to hi. -/
def State.zeroRegs (s : State) (lo hi : Nat) : State := { s with regs := s.regs.filter (fun x => !decide (lo ≤ x.1 ∧ x.1 < hi)) }
/-- The counter fields of DCQ status registers clear with their block's statistics (R396). -/
def State.zeroDcqs (s : State) (a n : Nat) : State :=
  (List.range n).foldl (fun s i => ((s.setRfld (a + 8 * i) 43 36 0).setRfld (a + 8 * i) 35 24 0).setRfld (a + 8 * i) 15 0 0) s
/-- The group clear of a statistics control register (R109, R221, R266, R290, R332, R333, R379, R424). -/
def State.clearGroup (s : State) (a : Nat) : State :=
  let b := regBlock a
  let q := (a - regBase) % 0x10000
  let base := regBase + b * 0x10000
  if b < 64 ∧ q = 0x100 then ((s.zeroRegs (base + 0x30) (base + 0x38)).zeroRegs (base + 0x140) (base + 0x180)).zeroRegs (base + 0x1D00) (base + 0x1D48)
  else if b < 64 ∧ q = 0x310 then (s.zeroRegs (base + 0x1A00) (base + 0x1B20)).zeroDcqs (aNiDcq b 0) 8
  else if b < 64 ∧ q = 0x400 then (s.zeroRegs (base + 0x1C00) (base + 0x1CB8)).zeroDcqs (aRtDcq b 0) (if isSpoke b then 20 else 16)
  else if b < 64 ∧ q = 0x600 then s.zeroRegs (base + 0x610) (base + 0x620)
  else if b = 0x42 ∧ q = 0x18 then s.zeroRegs (base + 0x20) (base + 0x58)
  else if b = 0x45 then (s.zeroRegs (a + 0x10) (a + 0x40)).zeroDcqs (a + 0x40) 2
  else if 0x50 ≤ b ∧ b < 0x60 then (s.zeroRegs (base + 0x100) (base + 0x178)).zeroDcqs (base + 0x80) 9
  else match peRegAt a with
    | some (n, 4) => s.zeroRegs (peStats n) (peStats n + 0x200)
    | _ => s
/-- A write of a statistics control register: OVF clears on a 1, CLR clears the group. -/
def State.statCtlWrite (s : State) (a : Nat) (v : Word) : State :=
  let s := s.writeFields a v
  if bitAt v 0 then s.clearGroup a else s
/-- Whether a register is a statistics control register. -/
def isStatCtl (a : Nat) : Bool :=
  let b := regBlock a
  let q := (a - regBase) % 0x10000
  (decide (b < 64) && (q == 0x100 || q == 0x310 || q == 0x400 || q == 0x600)) || (b == 0x42 && q == 0x18)
    || (b == 0x45 && decide (0x100 ≤ q) && q % 0x100 == 0x10) || (decide (0x50 ≤ b ∧ b < 0x60) && q == 0x50)
    || (match peRegAt a with
        | some (_, 4) => true
        | _ => false)

/-- A write of a lock register (R522): UNLOCK from the MC only, and for a cluster only while no graph image runs. -/
def State.lockWrite (s : State) (m : Master) (a : Nat) (v : Word) : State :=
  if bitAt v 0 ∧ bitAt v 1 then s
  else if bitAt v 0 then s.setRfld a 0 0 1
  else if bitAt v 1 ∧ m = .mc ∧ (64 ≤ regBlock a ∨ s.mc.graph = none) then s.setRfld a 0 0 0
  else s

/-- The activation's multiply-accumulates on LACC i land, then the LACC clears and is unbound (R243). -/
def State.unbindNow (s : State) (n i : Nat) : State :=
  let mine (f : Flight) : Bool := match f.eff with
    | .mac k _ => k == i
    | .lclr k => k == i
    | _ => false
  match s.act n with
  | none => s.unbindLacc n i
  | some a =>
    let l := a.flights.filter mine
    (landKept n a l.length l (s.setAct n (some { a with flights := a.flights.filter (fun f => !mine f) }))).unbindLacc n i
def State.unbindWrite (s : State) (n : Nat) (v : Word) : State :=
  ((List.range 4).filter (fun i => bitAt v i)).foldl (fun s i => s.unbindNow n i) s
/-- A write of RT_PORT_CTL (R294). -/
def State.portCtlWrite (s : State) (r p : Nat) (v : Word) : State :=
  if fld v 47 32 = 0 ∨ 2 ≤ popc 3 (fld v 2 0) ∨ !hasPort r p then s
  else
    let s := s.setRfld (aPortCtl r p) 47 32 (fld v 47 32)
    if bitAt v 0 then s.portDis r p else if bitAt v 1 then s.portEn r p else if bitAt v 2 then s.portRetrain r p else s
/-- A write of HB_SHIFT (R318). -/
def State.shiftWrite (s : State) (v : Word) : State :=
  let s := if s.shift.busy then s else s.setRfld aHbShift 3 0 (fld v 3 0)
  if bitAt v 4 then s.shiftGo else s
/-- A write of HB_PSTAT_SEL (R334). -/
def State.pstatSel (s : State) (v : Word) : State :=
  let e := fld v 12 0
  s.setReg aPstatSel (BitVec.ofNat 64 (put 63 63 (decide (256 ≤ e ∧ e ≤ 4351)).toNat + put 12 0 e))
/-- A write of TB_DOM_SEL (R407). -/
def State.domSel (s : State) (v : Word) : State :=
  let d := fld v 6 0
  s.setReg aDomSel (BitVec.ofNat 64 (put 63 63 (decide (d ≠ 92 ∧ d < 94)).toNat + put 6 0 d))
/-- A write of LK_SEL and of LK_LEASE (R424). -/
def State.lkSel (s : State) (v : Word) : State := s.setReg aLkSel (BitVec.ofNat 64 (put 63 63 1 + put 9 0 (fld v 9 0)))
def State.leaseWrite (s : State) (v : Word) : State :=
  let n := s.rfld aLkSel 9 0
  if !bitAt (s.reg aLkSel) 63 ∨ fld v 19 0 < 1 ∨ 1000000 < fld v 19 0 then s
  else s.setLock n { s.lock n with leaseUs := fld v 19 0 }
/-- A write of KP_PAIR_CTL (R247, R248, R251): with HALT and RESTART only HALT acts. -/
def State.pairCtlWrite (s : State) (p : Nat) (v : Word) : State :=
  let s := s.writeFields (aPairCtl p) v
  if bitAt v 0 then s.haltCmd p else if bitAt v 1 then s.restartPair p else s
/-- PT_MAP_W1 stages a word; a lock keeps the table as it is (R362, R522). -/
def State.stageWrite (s : State) (p : Nat) (v : Word) : State :=
  if bitAt (s.reg (aPtLock p)) 0 then
    if v = (s.port p).w1 (s.rfld (aMapSel p) 7 0) then s else s.cfgReject (aMapW1 p)
  else s.updPort p (fun x => { x with stage := v })
/-- A write of SP_PRESS_CFG (R91): a TIMEOUT out of range leaves TIMEOUT as it is. -/
def State.pressWrite (s : State) (v : Word) : State :=
  let t := fld v 39 20
  s.writeFields aPressCfg (if 100 ≤ t ∧ t ≤ 1000000 then v else setFld v 39 20 (s.rfld aPressCfg 39 20))
/-- MC_EVT: clearing VALID clears the count with it (R461). -/
def State.evtWrite (s : State) (v : Word) : State := if bitAt v 63 then (s.setRfld aMcEvt 63 63 0).setRfld aMcEvt 55 48 0 else s

/-- The registers of a cluster block whose write is more than setting fields. -/
def State.clWrite (s : State) (m : Master) (c q a : Nat) (v : Word) : State :=
  if q = 0x08 then s.lockWrite m a v
  else if q = 0x18 then s.pwrWrite c v
  else if q = 0x28 then s.clReset c v
  else if q = 0x108 then s.retWrite c v
  else if q = 0x210 then s.creditWrite c v
  else if q = 0x218 then s.ctxqSel c (fld v 13 0)
  else if 0x408 ≤ q ∧ q < 0x430 then s.portCtlWrite c ((q - 0x408) / 8) v
  else if q = 0xC60 ∧ hasApe c then s.unbindWrite (slotPe c 4) v
  else match s.clCheck c q a v with
    | .go => s.writeFields a v
    | .ignore => s
    | .reject => s.cfgReject a
/-- The registers of the other blocks whose write is more than setting fields. -/
def State.hubWrite (s : State) (m : Master) (b q a : Nat) (v : Word) : State :=
  let p := b - 0x50
  if a = aHbLock ∨ a = aKpLock ∨ a = aMcLock ∨ a = aPwLock ∨ (0x50 ≤ b ∧ b < 0x60 ∧ q = 0) then s.lockWrite m a v
  else if a = aHbShift then s.shiftWrite v
  else if a = aPstatSel then s.pstatSel v
  else if a = aPressCfg then s.pressWrite v
  else if a = aLkSel then s.lkSel v
  else if a = aLkLease then s.leaseWrite v
  else if b = 0x43 then if q % 0x10 = 8 then relAnswered (s.lkRelWrite (q / 0x10) 67 Config.mcLockCtx) else s
  else if a = aDomSel then s.domSel v
  else if a = aPairCtl 0 then s.pairCtlWrite 0 v
  else if a = aPairCtl 1 then s.pairCtlWrite 1 v
  else if a = aSafeCfg then (s.writeFields a v).safeRest
  else if a = aCredit 69 then s.creditWrite 69 v
  else if a = aMcEvt then s.evtWrite v
  else if 0x50 ≤ b ∧ b < 0x60 ∧ q = 0x08 then s.atLink p (fun s => s.ptCmd p (fld v 3 0))
  else if 0x50 ≤ b ∧ b < 0x60 ∧ q = 0x10 then
    match s.hubCheck b q a v with
    | .go => let s := s.writeFields a v; if bitAt v 0 then s.atLink p (fun s => s.portOpens p) else s
    | _ => s
  else if 0x50 ≤ b ∧ b < 0x60 ∧ q = 0x30 then s.mapCommit p v
  else if 0x50 ≤ b ∧ b < 0x60 ∧ q = 0x38 then s.stageWrite p v
  else match s.hubCheck b q a v with
    | .go => s.writeFields a v
    | .ignore => s
    | .reject => s.cfgReject a

/-- Whether a master may write a register (R5, R222, R243, R396, R443, R523). -/
def mayWrite (m : Master) (a : Nat) : Bool :=
  match m with
  | .mc => true
  | .invasive => !(dcqOf a).isSome && regBlock a != 0x61
  | .observe | .partner => false

/-- A register write by a master: nothing where no register stands; an unpowered block refuses it with CFG_REJECT (R470, R497). -/
def State.regWrite (s : State) (m : Master) (addr : Nat) (v : Word) : State :=
  let a := canonReg addr
  if (regSpec a).isNone ∨ !mayWrite m a then s
  else if !s.reachable a then s.cfgReject a
  else
    let s := s.wakeFor a
    let b := regBlock a
    let q := (a - regBase) % 0x10000
    if (dcqOf a).isSome then if bitAt v 60 then s.dcqFlush a else s
    else if isStatCtl a then s.statCtlWrite a v
    else if b < 64 then s.clWrite m b q a v
    else s.hubWrite m b q a v

/-! Commands. -/

/-- A hardware event of the same cycle sets bits of a register that is written or read (R6): those of W1C, W1S and RCL fields are kept, so they read 1
afterwards; what it would do to RW and RWL fields is lost. -/
def State.hwSets (s : State) (a : Nat) (hw : Word) : State :=
  let a := canonReg a
  if hw = 0 ∨ !s.reachable a then s
  else if a = aPstat 6 then
    let k := s.rfld aPstatSel 12 0 * 8 + 6
    { s with pstat := Tbl.set 0 s.pstat k (Tbl.get 0 s.pstat k ||| hw.toNat % 2 ^ 32) }
  else ((regSpec a).getD []).foldl (fun s f =>
    if f.acc = .w1c ∨ f.acc = .w1s ∨ f.acc = .rcl then s.setRfld a f.hi f.lo (s.rfld a f.hi f.lo ||| fld hw f.hi f.lo) else s) s
/-- REGISTER_WRITE by the MC (R513), with the hardware event of its cycle (R6). -/
def execRegisterWrite (r : RegAt) (v : Word) (s : State) : Out := onModule s (fun s => (s.regWrite .mc r.a v).hwSets r.a r.hw)
/-- RCL_READ: the value read stands in `rdata`. -/
def execRclRead (r : RegAt) (s : State) : Out :=
  onModule s (fun s => let x := s.mcRead r.a; { x.2.hwSets r.a r.hw with rdata := [x.1] })
def execLockBitSet (a : Nat) (s : State) : Out := onModule s (fun s => if (regSpec a) == some fLock then s.regWrite .mc a 1 else s)
def execLockBitUnlock (a : Nat) (s : State) : Out := onModule s (fun s => if (regSpec a) == some fLock then s.regWrite .mc a 2 else s)
def execPeStatCtlClr (pe : Nat) (s : State) : Out := onPe pe s (fun s => s.regWrite .mc (aPeStatCtl pe) 1)
def execAeStatCtlClr (c : Nat) (s : State) : Out := onCluster c s (fun s => s.regWrite .mc (aAeStatCtl c) 1)
def execScCtlClr (c : Nat) (s : State) : Out := onCluster c s (fun s => s.regWrite .mc (aScCtl c) 1)
def execMmCtlClr (ch : Nat) (s : State) : Out := onUnit "channel" ch 4 s (fun s => s.regWrite .mc (aMmCtl ch) 1)
def execNiStatCtlClr (c : Nat) (s : State) : Out := onCluster c s (fun s => s.regWrite .mc (aNiStatCtl c) 1)
def execRtStatCtlClr (c : Nat) (s : State) : Out := onCluster c s (fun s => s.regWrite .mc (aRtStatCtl c) 1)
def execPtStatCtlClr (p : Nat) (s : State) : Out := onPort p s (fun s => s.regWrite .mc (aPtStatCtl p) 1)
def execLkStatCtlClr (s : State) : Out := onModule s (fun s => s.regWrite .mc aLkStatCtl 1)
/-- STAT_OVF_CLEAR: a 1 is written to the OVF bit of the group whose control register stands at `a`. -/
def execStatOvfClear (a : Nat) (s : State) : Out := onModule s (fun s => if isStatCtl a then s.regWrite .mc a 2 else s)
def execHbPstatSelWrite (ep : Nat) (s : State) : Out := onModule s (fun s => s.regWrite .mc aPstatSel (BitVec.ofNat 64 ep))
def execTbDomSelWrite (d : Nat) (s : State) : Out := onModule s (fun s => s.regWrite .mc aDomSel (BitVec.ofNat 64 d))
def execLkSelWrite (n : Nat) (s : State) : Out := onModule s (fun s => s.regWrite .mc aLkSel (BitVec.ofNat 64 n))
def execMcEvtClear (s : State) : Out := onModule s (fun s => s.regWrite .mc aMcEvt (BitVec.ofNat 64 (2 ^ 63)))
def onApe (n : Nat) (s : State) (f : State → State) : Out := if 256 ≤ n ∧ n < 272 then onModule s f else .refused (.noSuchUnit "A-PE")
/-- PE_LACC_UNBIND: `m` names the accumulators. -/
def execPeLaccUnbind (pe m : Nat) (s : State) : Out := onApe pe s (fun s => s.regWrite .mc (aLaccCtl pe) (BitVec.ofNat 64 (m % 16)))
def execPeLaccInjectArm (pe acc : Nat) (s : State) : Out := onApe pe s (fun s => s.regWrite .mc (aLaccInject pe) (BitVec.ofNat 64 (acc % 4 * 2 + 1)))
def execPeResInjectArm (pe u : Nat) (s : State) : Out := onPe pe s (fun s => s.regWrite .mc (aPeResInject pe) (BitVec.ofNat 64 (u % 8 * 2 + 1)))
def execAeResInjectArm (c u : Nat) (s : State) : Out := onCluster c s (fun s => s.regWrite .mc (aAeResInject c) (BitVec.ofNat 64 (u % 8 * 2 + 1)))

end Sys2Proof.Machine
end

