-- ==== Sys2Proof/Machine/Graph.lean ====
section
/-! DEFINITION. Base registers of the regions the MC places (R277), starting and stopping a graph image (R471 to R473). -/

namespace Sys2Proof.Machine

/-! Regions of the MC (R277). -/

/-- The last value that the settings give a register, if any (R277, R551). -/
def State.cfgValue (s : State) (a : Nat) : Option Word := ((cfgRegs s.mc.settings).filter (fun x => x.1 == a)).getLast?.map (·.2)
/-- Write a base register as R277 places its region, unless the settings place it elsewhere. -/
def State.placeReg (s : State) (a v : Nat) : State := s.regWrite .mc a ((s.cfgValue a).getD (BitVec.ofNat 64 v))
/-- Context tables, snapshot areas and save areas of the clusters on powered dies. -/
def State.placeClusters (s : State) : State :=
  let top := s.deepBase
  ((List.range 64).filter s.dieOn).foldl (fun s c =>
    let s := (s.placeReg (aCtxtBase c) (top - 2 ^ 26 + c * 2 ^ 20)).placeReg (aSnapBase c) (top - 164 * 2 ^ 20 + c * 2 ^ 16)
    if s.clState c < 3 then (clusterPes c).foldl (fun s n => s.placeReg (aPeSaveBase n) (top - 166 * 2 ^ 20 + n * 4096)) s else s) s
/-- Bytes from the deep store down to the graph refill copy, and where the copy stands. -/
def refillBelow : Nat := 160 * 2 ^ 20
def State.refillBase (s : State) : Nat := s.deepBase - refillBelow
/-- The place of instruction word w of PE n in the refill copy: each PE has the size of its memory. -/
def refillAt (base n w : Nat) : Nat := base + (if n < 256 then n * 0x10000 else 0x1000000 + (n - 256) * 0x20000) + 8 * w

/-! Writing sections (R472 step 4). -/

/-- Store bytes; a word wholly covered loses its error. -/
def State.putBytes (s : State) (a : Nat) (l : List Byte) : State :=
  { s with mem := memWrite s.mem a l, ecc := s.ecc.filter (fun x => !decide (a ≤ x.1 ∧ x.1 + 8 ≤ a + l.length)) }
/-- Bytes written through the plain view: a DEFERRED word stores nothing (R68). -/
def State.putPlain (s : State) (a : Nat) (l : List Byte) : State :=
  (List.range (l.length / 8 + 2)).foldl (fun s i =>
    let w := a / 8 * 8 + 8 * i
    let lo := max a w - a
    let part := (l.drop lo).take (w + 8 - max a w)
    if part = [] ∨ s.presAt w = .deferred then s else s.putBytes (a + lo) part) s
/-- An IMEM section: the words, and their copy for refills. -/
def State.putImem (s : State) (g : GSec) : State :=
  let n := g.target
  let k := g.len / 8
  let at0 := refillAt s.refillBase n g.start
  let s := (List.range k).foldl (fun s i => s.setImem n (g.start + i) (BitVec.ofNat 64 (s.flashLe (g.body + 8 * i) 8))) s
  let s := s.updPe n (fun p => { p with imemBad := p.imemBad.filter (fun w => !decide (g.start ≤ w ∧ w < g.start + k)) })
  (s.putBytes at0 (s.flashBytes g.body g.len)).setMc (fun m => { m with refill := m.refill ++ [(at0, n * 16384 + g.start, k)] })
/-- An IFULL section: each word is written by IWRITE and left FULL; a DEFERRED word's list is released. -/
def State.putFull (s : State) (g : GSec) : State :=
  let a := (if g.target < 64 then scrBase g.target else 0) + g.start
  let s := s.putBytes a (s.flashBytes g.body g.len)
  (List.range (g.len / 8)).foldl (fun s i => s.fillWord g.target (a + 8 * i)) s
def State.putSection (s : State) (g : GSec) : State :=
  if g.kind = 1 then s.putImem g
  else if g.kind = 2 then s.putBytes (lsBase g.target + g.start) (s.flashBytes g.body g.len)
  else if g.kind = 3 then s.putPlain (scrBase g.target + g.start) (s.flashBytes g.body g.len)
  else if g.kind = 4 then s.putFull g
  else if g.kind = 5 then s.putPlain g.start (s.flashBytes g.body g.len)
  else s
/-- Step 6: root context 0 of cluster c from its ROOT section, or with the default fields. -/
def State.makeRoot (s : State) (l : List GSec) (c : Nat) : State :=
  let k := c * 16384
  let x : Ctx := match l.find? (fun g => g.kind == 7 && g.target == c) with
    | some g =>
      let p : Packet := {
        vn := 0, opc := .service, route := 0, dest := c, src := 67, pri := 0, seq := 0, epoch := 0, spec := 0, crc := 0, bad := [],
        body := [mkWide 0 (BitVec.ofNat 64 (s.flashLe g.body 8)), mkWide 0 (BitVec.ofNat 64 (s.flashLe (g.body + 8) 8))], fault := false, note := 0 }
      p.newCtx k s.tb
    | none => { Ctx.init with state := .live, itw := 12, creator := k, born := s.tb.toNat }
  ((s.setCtx k x).setRfld (aCredit c) 23 0 (s.rfld (aCredit c) 23 0 - x.credits)).writeDesc k
/-- Step 7: the tokens of a START section, from endpoint 67. -/
def State.sendStarts (s : State) (g : GSec) : State :=
  (List.range (g.len / 24)).foldl (fun s i =>
    let b := g.body + 24 * i
    let tag : Word := BitVec.ofNat 64 (s.flashLe b 8)
    let lo : Word := BitVec.ofNat 64 (s.flashLe (b + 8) 8)
    let hi : Word := BitVec.ofNat 64 (s.flashLe (b + 16) 8)
    s.unitSend 67 (tokenMsg (peEndpoint (tPe tag)) tag (mkWide hi lo) 0 .none)) s

/-! GRAPH_START (R472). -/

/-- Whether step 2 is complete: clusters in USED run, and the others are OFF where the power policy allows it. -/
def State.clustersSet (s : State) (used : Nat) : Bool :=
  (List.range 64).all (fun c =>
    if used.testBit c then decide (s.clState c ≤ 1) else !(Config.offPolicy s.mc.settings c && s.dieOn c) || s.clState c == 3)
/-- Steps 3 to 8, once step 2 is complete. -/
def State.graphRun (s : State) : State :=
  match s.mc.graph with
  | none => s
  | some g =>
    if !g.starting ∨ !s.clustersSet g.used then s
    else
      let l := (s.graphSecs (s.inUse 5)).getD []
      let used := (List.range 64).filter g.used.testBit
      let s := s.placeClusters
      let s := (l.filter (fun x => x.kind == 6)).foldl (fun s x => (s.regPairs x.body x.len).foldl (fun s r => s.regWrite .mc r.1 r.2) s) s
      let s := l.foldl (fun s x => s.putSection x) (s.setMc (fun m => { m with refill := [] }))
      let s := used.foldl (fun s c => s.regWrite .mc (aClLock c) 1) s
      let s := used.foldl (fun s c => s.makeRoot l c) s
      let s := (l.filter (fun x => x.kind == 8)).foldl (fun s x => s.sendStarts x) s
      let s := s.log 67 .graphStart .info g.id
      (s.setMc (fun m => { m with graph := some { g with starting := false } })).respond g.ask 0 []
/-- Steps 1 and 2: choose and check the copy, and command the clusters. The answer follows when step 8 is reached. -/
def State.graphStart (s : State) (q : McAsk) : State :=
  if s.power ≠ 0 ∨ s.mc.graph.isSome then s.respond q 7 []
  else
    let c := s.chooseCopy 5
    if c = 0 then ((s.logInvalid 5).logFree 67 .graphNoImage .deferred).respond q 5 []
    else
      let s := s.takeCopy 5
      let used := s.graphUsed c
      let s := s.setMc (fun m => { m with graph := some ⟨used, s.graphApe c, s.graphId c, true, false, q⟩ })
      let s := (List.range 64).foldl (fun s c =>
        if used.testBit c then (if 2 ≤ s.clState c then s.reqActive c else s)
        else if Config.offPolicy s.mc.settings c ∧ s.dieOn c ∧ s.clState c ≤ 2 then s.reqOff c
        else s) s
      s.graphRun

/-! GRAPH_STOP (R473). -/

/-- The kill of a context at the MC's command, root contexts included. -/
def State.stopCtx (s : State) (k : Nat) : State :=
  if (s.ctx k).state = .live then
    ((s.updCtx k (fun c => { c with state := .killing })).writeDesc k).updCm (ctxOwner k) (fun m => { m with kills := m.kills ++ [⟨k, killUnits, [], none⟩] })
  else s
def State.graphKill (s : State) (g : Graph) (q : McAsk) : State :=
  let s := s.setMc (fun m => { m with graph := some { g with starting := false, stopping := true, ask := q } })
  (((s.ctxs.map (·.1)).filter (fun k => decide (ctxOwner k < 64) && g.used.testBit (ctxOwner k))).foldl (fun s k => s.stopCtx k) s).graphStopDone
def State.graphStop (s : State) (q : McAsk) : State :=
  match s.mc.graph with
  | some g => if g.starting ∨ g.stopping then s.respond q 7 [] else s.graphKill g q
  | none => s.respond q 7 []

/-! Commands that can complete a change of power state, and with it a graph start. -/

def execNackArrival (e : Nat) (s : State) : Out := onEndpoint e s (fun s => ((s.nackArrival e).powerShift).graphRun)
def execMarkAckArrival (e : Nat) (s : State) : Out := onEndpoint e s (fun s => ((s.markAckArrival e).powerShift).graphRun)
def execShiftDoneArrival (s : State) : Out := onModule s (fun s => (s.shiftDoneArrival.powerShift).graphRun)
def execFenceDone (c : Nat) (s : State) : Out := onCluster c s (fun s => (s.fenceDone c).graphRun)

end Sys2Proof.Machine
end

