-- ==== Sys2Proof/Machine/Startup.lean ====
section
/-! DEFINITION. Power input (R489, R490, R528), start-up (R467, R506, R551), kickstand exit (R504), standby, orderly shutdown (R505), module
and warm reset (R508), and the repair records (R289). -/

namespace Sys2Proof.Machine

/-! Flash. -/

/-- Erase n bytes of flash from address a on. -/
def State.flashErase (s : State) (a n : Nat) : State :=
  s.setMc (fun m => { m with flash := m.flash.filter (fun x => !decide (a ≤ x.1 ∧ x.1 < a + n)) })
/-- Program bytes; an erased byte reads 0xFF. -/
def flashSet (t : Tbl Byte) (a : Nat) : List Byte → Tbl Byte
  | [] => t
  | b :: r => flashSet (Tbl.set 0xFF t a b) (a + 1) r
def State.flashWrite (s : State) (a : Nat) (l : List Byte) : State := s.setMc (fun m => { m with flash := flashSet m.flash a l })
/-- A number as n bytes, highest first. -/
def beBytes (n v : Nat) : List Byte := (leBytes n v).reverse
/-- The copy an update of type t writes (R474): the one not in use at this start, or copy A. -/
def State.targetCopy (s : State) (t : Nat) : Nat := if s.inUse t = 1 then 2 else 1

/-! Repair records (R289). -/

/-- Whether a record names a KIND, row and spare that exist. -/
def repairOk (w : Word) : Bool :=
  let k := fld w 63 60
  let u := fld w 59 51
  let row := fld w 46 37
  let sp := fld w 36 34
  (k == 1 && decide (u < 64 ∧ row < 128)) || (k == 2 && decide (u < 64 ∧ row < 128) && sp == 0)
    || (k == 3 && decide (u < 276 ∧ sp < 4 ∧ row < (if peKind u = .a then 1024 else 128)) && fld w 50 47 == 0)
/-- Load one record into the repair maps: the spare rows in use of a bank, or the spare segment's home. -/
def State.loadRepair (s : State) (w : Word) : State :=
  let c := fld w 59 51
  let b := fld w 50 47
  let n := s.rfld (aScRepair c) (4 * b + 3) (4 * b)
  if fld w 63 60 = 1 then s.setRfld (aScRepair c) (4 * b + 3) (4 * b) (max n (fld w 36 34 + 1))
  else if fld w 63 60 = 2 then
    (s.setRfld (aScRepair c) (4 * b + 3) (4 * b) 9).updTest c (fun t => { t with homes := t.homes ++ [b * 32 + fld w 46 37 / 4] })
  else { s with lsRows := Tbl.set [] s.lsRows c (Tbl.get [] s.lsRows c ++ [fld w 46 37]) }
/-- The test of PE n's local store and instruction memory at array initialisation (R261): which rows fail is a free value; each takes the next of
the 4 spare rows. A row of instruction memory stands in `lsRows` from 1,024 on, and has no record: R289 has no KIND for it (log 49). -/
def State.testLs (s : State) (n : Nat) : State :=
  let d := s.draw
  let ls := (Config.lsTest d.1 n).filter (fun r => decide (r < if peKind n = .a then 1024 else 128))
  let im := ((Config.imemTest d.1 n).filter (fun r => decide (r < imemWords n / 32))).map (· + 1024)
  let rows := ((ls ++ im).filter (fun r => !(Tbl.get [] s.lsRows n).contains r)).dedup
  (rows.take (4 - (Tbl.get [] s.lsRows n).length)).foldl (fun s r =>
    let l := Tbl.get [] s.lsRows n
    let t : State := { s with lsRows := Tbl.set [] s.lsRows n (l ++ [r]) }
    if r < 1024 then t.addRepair (repairRecord 3 n 0 r l.length (fld s.tb 63 32)) else t) d.2
/-- The repair maps of the units that satisfy a test, from the records and the repairs not yet recorded; then local stores are tested. -/
def State.loadRepairs (s : State) (f : Word → Bool) (pes : List Nat) : State :=
  pes.foldl (fun s n => s.testLs n) (((s.mc.repairs ++ s.mc.unrecorded).filter f).foldl (fun s w => s.loadRepair w) s)
/-- A record of a compute die's unit: the others are those of the keeper block. -/
def onDie (w : Word) : Bool := fld w 63 60 != 3 || decide (fld w 59 51 < 272)
/-- Write the repair-record image: every record known, up to 1,024, in a new copy. -/
def State.writeRepairs (s : State) : State :=
  let all := s.mc.repairs ++ s.mc.unrecorded
  let l := all.take 1024
  let pay := l.flatMap (fun w => leBytes 8 w.toNat)
  let c := s.targetCopy 6
  let seq (k : Nat) : Nat := if s.imgAbsent 6 k then 0 else s.imgSeq 6 k
  let head := leBytes 4 0x47454E56 ++ [6, 1, 0, 0] ++ leBytes 4 (max (seq 1) (seq 2) + 1) ++ leBytes 4 0 ++ leBytes 4 pay.length ++ leBytes 12 0
  let env := head ++ beBytes 48 (Config.sha384 (head ++ pay)).toNat ++ leBytes 432 0
  let s := ((s.flashErase (imgBase 6 c) (imgRegion 6)).flashWrite (imgBase 6 c) (env ++ pay)).setMc (fun m => { m with repairs := all, unrecorded := [] })
  if 1024 < all.length then s.logFree 67 .repairTableFull .deferred else s

/-! Power off and the states that resets leave. -/

/-- OFF: only OTP, flash and the inputs keep what they hold; records that no flush wrote are lost (R466). -/
def State.off (s : State) : State :=
  { State.reset with
    pending := s.pending
    free := s.free
    serial := s.serial
    ev := { EvPath.init with flash := s.ev.flash, cut := s.ev.cut || !s.ev.persist.isEmpty }
    mc := { Mc.init with
      lcProv := s.mc.lcProv, lcSec := s.mc.lcSec, lcRet := s.mc.lcRet, imgHash := s.mc.imgHash, dbgHash := s.mc.dbgHash
      ethKey := s.mc.ethKey, keysGone := s.mc.keysGone, minver := s.mc.minver, flash := s.mc.flash, kept := s.mc.kept }
    pw := { Pow.init with refOk := s.pw.refOk } }
/-- A register that a module reset keeps: what the sensors, the power inputs, the log and the latest kickstand entry show. -/
def keptReg (a : Nat) : Bool :=
  a == aPwStatus || a == aKsCause || a == aLogNewest || a == aLogOldest || a == aFlashLost || decide (mcBlock + 0x100 ≤ a ∧ a < mcBlock + 0x640)
/-- A register of the always-on domain and of the lands, which STANDBY keeps. -/
def aonReg (a : Nat) : Bool := decide (evBlock ≤ a ∧ a < ptBlock 0) || decide (mcBlock ≤ a) || a == aSafeCfg || a == aSafeOut
/-- Everything outside the always-on domain is as after power-on; `keep` names the registers that stay. Set OVF bits (R430), the counter of the
always-on domain and the STEPS of the others (R407, R548) stay too. -/
def State.hubLost (s : State) (keep : Nat → Bool) : State :=
  { State.reset with
    pending := s.pending
    free := s.free
    serial := s.serial
    now := s.now
    regs := keepOvf keep s.regs
    sat := s.sat
    doms := (s.domsDown (fun d => d != 91 && d != 93)).doms
    coll := s.coll
    ev := s.ev
    mc := { s.mc with graph := none, refill := [] }
    pw := { s.pw with goal := [], drop := [] } }

/-! Input (R489, R490, R528). -/

/-- PW_STATUS of the two inputs; SRC keeps its value while neither has voltage. -/
def State.showVin (s : State) : State :=
  let a := s.pw.vinA
  let b := s.pw.vinB
  let src := if max a b = 0 then s.rfld aPwStatus 5 4 else if a ≤ b + 200 ∧ b ≤ a + 200 then 3 else if b < a then 1 else 2
  ((s.setRfld aPwStatus 5 4 src).setRfld aPwStatus 3 3 (decide (9000 ≤ b)).toNat).setRfld aPwStatus 2 2 (decide (9000 ≤ a)).toNat
def State.setVin (s : State) (a b : Nat) : State := (s.setPw (fun p => { p with vinA := a, vinB := b })).showVin
/-- The OR of the inputs, in mV. -/
def State.vin (s : State) : Nat := max s.pw.vinA s.pw.vinB
/-- VIN_RISE through 8.5 V, with both inputs in mV: T+0 of R506; the always-on counter starts at zero (R548). -/
def State.vinRise (s : State) (a b : Nat) : State :=
  if s.powered ∨ max a b < 8500 then s
  else (({ s with now := 0, doms := Tbl.set Dom.init [] 91 { Dom.init with loaded := true } } : State).setPw (fun p => { p with soft := true })).setVin a b |>.driveLands
def State.softAbort (s : State) : State := if s.pw.soft then s.off else s
/-- VIN_LOST of input i (0 for VIN_A) at v mV, while the other keeps VIN at 9.0 V or above. -/
def State.vinLost (s : State) (i v : Nat) : State :=
  let a := if i = 0 then v else s.pw.vinA
  let b := if i = 0 then s.pw.vinB else v
  if !s.powered ∨ 9000 ≤ v ∨ max a b < 9000 then s
  else
    let s := s.setVin a b
    if s.mc.up then s.logFree 67 .vinLost .info else s
/-- VIN_INPUT_OK: input i is back at v mV. -/
def State.vinOk (s : State) (i v : Nat) : State :=
  if !s.powered ∨ v < 9000 then s else if i = 0 then s.setVin v s.pw.vinB else s.setVin s.pw.vinA v
/-- VIN_DIP: VIN below 9.0 V for 1 ms. -/
def State.vinDip (s : State) (a b : Nat) : State :=
  if !s.powered ∨ 9000 ≤ max a b then s else (s.setVin a b).kickstandEntry 1 0

/-! Orderly shutdown (R505). -/

/-- Steps 1 and 2, from the commit point on. -/
def State.beginShutdown (s : State) : State :=
  if !s.powered ∨ s.rfld aPwState 61 61 = 1 then s
  else if s.pw.soft then s.off
  else
    let s := (s.setRfld aPwState 61 61 1).noticeAll 3
    let s := if s.rfld aPwState 51 48 = 0 then s else s.diesOff
    let s := [0, 1].foldl (fun s p => s.setRfld (aPairStatus p) 63 62 0) s
    (s.setMc (fun m => { m with pwrGood := false, update := none })).driveLands
/-- Steps 3 and 4: the flush, as far as HOLDUP allows, then OFF. -/
def State.endShutdown (s : State) : State :=
  let q := s.ev.persist
  let whole := s.rfld aPwStatus 7 7 == 1 && decide (q.length ≤ 512)
  let d := s.draw
  let n := if whole then q.length else if s.rfld aPwStatus 7 7 = 1 then max 512 (Config.flushCount d.1) else Config.flushCount d.1
  let s := if whole then s else d.2
  let s := { s with ev := { s.ev with flash := (s.ev.flash ++ q.take n).drop (s.ev.flash.length + (q.take n).length - 262144), persist := q.drop n } }
  let s := s.setMc (fun m => { m with kept := (m.ethSeq, s.opsec, s.pw.guard) })
  let s := if s.mc.unrecorded ≠ [] ∧ (whole ∨ q.length < n) then s.writeRepairs else s
  s.off

/-! Start-up (R467, R506). -/

def msec : Nat := 1000000
/-- Time has reached t. -/
def State.atTime (s : State) (t : Nat) : State := { s with now := max s.now t }
/-- A lifecycle group counts as burned with two of its fuses (R479). -/
def burned (v : Nat) : Bool := decide (2 ≤ popc 3 v)
/-- Step 2 of R467: the firmware copy; Beynas runs when there is one. -/
def State.chooseFirmware (s : State) : State :=
  let s := (s.setMc (fun m => { m with up := false })).takeCopy 1
  if s.inUse 1 = 0 then s.setMc (fun m => { m with faultN := true, causes := if m.causes.contains 2 then m.causes else m.causes ++ [2] })
  else s.setMc (fun m => { m with up := true, causes := m.causes.filter (· ≠ 2) })
/-- Steps 1 and 2 of R467: third fuses, the lifecycle, and the firmware. -/
def State.bootRom (s : State) : State :=
  let third (v : Nat) : Nat := if burned v then 7 else v
  let life (m : Mc) : Nat := if burned m.lcRet then 3 else if burned m.lcSec then 2 else if burned m.lcProv then 1 else 0
  let s := s.setMc (fun m => { m with lcProv := third m.lcProv, lcSec := third m.lcSec, lcRet := third m.lcRet })
  ((s.setMc (fun m => { m with life := life m })).setRfld aSecStatus 1 0 (life s.mc)).chooseFirmware
/-- Beynas reads the settings (R470). -/
def State.readSettings (s : State) : State :=
  let s := s.takeCopy 3
  let c := s.inUse 3
  if c = 0 then s.setMc (fun m => { m with settings := [], faultN := true, causes := if m.causes.contains 1 then m.causes else m.causes ++ [1] })
  else
    let l := s.payload 3 c
    let s := s.setMc (fun m => { m with settings := l, causes := m.causes.filter (· ≠ 1), smbus := (Config.smbusAddr l).getD 0x3A })
    ((cfgSections l.length l).filter (fun x => x.1 = 0 ∨ 5 < x.1)).foldl (fun s _ => s.logFree 67 .configSectionUnknown .deferred) s
/-- The repair records; a bad one is skipped. -/
def State.readRepairs (s : State) : State :=
  let s := s.takeCopy 6
  let c := s.inUse 6
  let n := if c = 0 then 0 else s.imgLen 6 c / 8
  let l := (List.range n).map (fun i => (BitVec.ofNat 64 (s.flashLe (imgBase 6 c + 512 + 8 * i) 8) : Word))
  (l.filter (fun w => !repairOk w)).foldl (fun s _ => s.logFree 67 .repairRecordBad .deferred)
    (s.setMc (fun m => { m with repairs := l.filter repairOk }))
/-- The patch bundle (R448, R449 steps 1 and 2), and MC_UCODE_STATUS. -/
def State.readBundle (s : State) : State :=
  let s := s.takeCopy 2
  let c := s.inUse 2
  let res (k : Nat) : Nat := if s.imgAbsent 2 k then 7 else s.imgCheck 2 k s.mc.life
  let text := match (if c = 0 then Sum.inl 0 else s.bundle c) with
    | .inr t => t
    | .inl _ => []
  let seq := if c = 0 then 0 else s.flashLe (imgBase 2 c + 512 + 8) 4
  let s := (s.setMc (fun m => { m with ucode := text })).setReg aUcodeStatus
    (BitVec.ofNat 64 (put 63 62 c + put 55 48 (res 1) + put 47 40 (res 2) + put 31 0 seq))
  if c = 0 then s.logFree 67 .ucodeNoPatch .deferred else s
/-- Step 4 of R506: what Beynas reads. -/
def State.readImages (s : State) : State :=
  let s := s.readSettings
  if s.inUse 3 = 0 then s.readBundle else ((s.readRepairs).readBundle).takeCopy 4

/-- The epoch-0 routes of R315 and R316, in both banks, with the control registers as given. -/
def State.loadRoutes (s : State) (ctl : Word) (hub : Bool) : State :=
  let entry (f r : BitVec 30) : Word := BitVec.ofNat 64 (put 63 62 3 + put 59 30 r.toNat + put 29 0 f.toNat)
  let others := [64, 65, 66, 67, 68, 69] ++ (List.range 16).map (256 + ·)
  let s := ((List.range 64).filter s.dieOn).foldl (fun s c =>
    [0, 1].foldl (fun s b =>
      let s := (List.range 64).foldl (fun s e => s.setReg (aNiRt c b e) (entry (routeTo c e false) (routeTo c e true))) s
      others.foldl (fun s e => s.setReg (aNiRt c b e) (entry (routeHub c false) (routeHub c true))) s) (s.setReg (aNiRtCtl c) ctl)) s
  if hub then
    [0, 1].foldl (fun s b => (List.range 64).foldl (fun s d =>
      let sp := spokeFor d
      (s.setReg (aHbRt b d 0) (entry (routeTo sp d false) (routeTo sp d true))).setReg (aHbRt b d 1)
        (BitVec.ofNat 64 (put 7 4 (spokeOf sp) + put 3 0 (spokeOf sp)))) s) (s.setReg (aNiRtCtl 68) ctl)
  else s
/-- NI_RT_CTL with bank 0 active in epoch 0, the shadow bank in epoch 1. -/
def rtCtlStart : Word := BitVec.ofNat 64 (put 7 4 1)
/-- The ports of every router. -/
def allPorts : List (Nat × Nat) := ((List.range 64).flatMap (fun c => [0, 1, 2, 3, 4].map (fun p => (c, p)))).filter (fun x => hasPort x.1 x.2)
/-- A die-edge port trains when the dies come up; how many of its wires fail is open (R295, R296). -/
def State.startTraining (s : State) (r p : Nat) : State :=
  if !dieEdge r p ∨ s.portState r p = 0 then s
  else
    let (k, t) := s.draw
    t.replaceWires r p (Config.trainFails k r p)
/-- The compute dies are powered, their links trained, their arrays and microcode initialised. -/
def State.diesUp (s : State) : State :=
  let s := s.setRfld aPwState 51 48 0xF
  let s := allPorts.foldl (fun s x => s.setPortState x.1 x.2 2) s
  let s := allPorts.foldl (fun s x => s.startTraining x.1 x.2) s
  ((List.range 272).foldl (fun s n => s.loadPatches n) s).loadRepairs onDie (List.range 272)
/-- The register writes of the settings whose address satisfies a test, in order (R551). -/
def State.applyRegs (s : State) (f : Nat → Bool) : State :=
  ((cfgRegs s.mc.settings).filter (fun x => f x.1)).foldl (fun s x => s.regWrite .mc x.1 x.2) s
/-- Step 2 of R254: the keeper block's settings; the requests equal SAFEVAL; then the lock. -/
def State.keeperSettings (s : State) : State :=
  let s := (s.loadRepairs (fun w => !onDie w) [272, 273, 274, 275]).applyRegs (fun a => regBlock a == 0x46)
  let s := [0, 1].foldl (fun s p => match s.pairSection p with
    | some q =>
      let s := s.setRfld (aPairCtl p) 63 32 (s.flashLe (q + 0x14) 4)
      s.regWrite .mc (aSecret p) (BitVec.ofNat 64 (put 28 16 (s.flashLe (q + 0x10) 4 / 8) + put 14 3 (s.flashLe (q + 0xC) 4 / 8)))
    | none => s) s
  let s := [272, 274].foldl (fun s n => s.placeReg (aPeSaveBase n) (s.deepBase - 166 * 2 ^ 20 + n * 4096)) s
  let s := s.safeRest
  s.regWrite .mc aKpLock 1
/-- Steps 4 and 5 of R254: the copies read back equal or not (a free value), then the keeper root context and the loaded pairs. -/
def State.keeperStart (s : State) (boot : Nat) : State :=
  let (k, s) := s.draw
  if s.inUse 4 = 0 || Config.keeperDiffers k then ((s.setPairState 0 0).setPairState 1 0).logFree 67 .keeperNoProgram .fatalModule
  else
    let a := imgBase 4 (s.inUse 4) + 512
    let h := s.flashLe (a + 0x14) 4
    let k := ctxKey true 0
    let s := (s.setCtx k { Ctx.init with
      state := .live, itw := s.flashLe (a + 0x10) 4, hv := decide (2 ^ 31 ≤ h), hpe := h / 2 ^ 13 % 512, hip := h % 2 ^ 13
      stallLimit := s.flashLe (a + 0x18) 4, creator := k, born := s.tb.toNat }).writeDesc k
    (s.startPair 0 boot).startPair 1 boot
/-- Step 10: settings, port mapping entries and lock bits. -/
def State.applySettings (s : State) : State :=
  let s := s.applyRegs (fun a => regBlock a != 0x46)
  let s := (Config.mapEntries s.mc.settings).foldl (fun s x =>
    let p := x.1 % 16
    ((s.regWrite .mc (aMapSel p) (BitVec.ofNat 64 x.2.1)).regWrite .mc (aMapW1 p) x.2.2.2).regWrite .mc (aMapW0 p) x.2.2.1) s
  ([aHbLock, aMcLock, aPwLock] ++ (List.range 16).map aPtLock).foldl (fun s a => s.regWrite .mc a 1) s
/-- The start options name a graph image (R506 step 12). -/
def State.startOption (s : State) : State := if s.mc.settings != [] && Config.startGraph s.mc.settings then s.graphStart ⟨0, 0, 0, 0, 0⟩ else s
/-- Steps 5 to 12 of R506, with T+0 at time t. -/
def State.startHub (s : State) (t boot : Nat) : State :=
  let s := (s.atTime (t + 70 * msec)).setRfld aPwState 39 32 boot
  let s := { s with beacon := s.tb }
  let s := (List.range 4).foldl (fun s ch => s.setRfld (aMmStatus ch) 1 0 3) (s.atTime (t + 110 * msec))
  let s := ((s.atTime (t + 130 * msec)).setRfld aPwState 63 62 0).setMc (fun m => { m with pwrGood := true })
  let s := ([272, 273, 274, 275].foldl (fun s n => s.loadPatch n) s.diesUp).keeperSettings
  let s := (s.atTime (t + 200 * msec)).placeClusters
  let s := s.placeReg aPwSaveBase (s.deepBase - 2 ^ 27)
  let s := (s.loadRoutes rtCtlStart true).applySettings
  let s := (List.range 16).foldl (fun s p => ((s.atTime (t + (220 + 5 * (p / 2)) * msec)).beginTraining p psTRAINING)) s
  (((s.setPw (fun x => { x with begun := t })).atTime (t + 300 * msec)).keeperStart boot).startOption
/-- Start-up from the boot ROM on. It stays in STANDBY without firmware, settings or REFCLK, and when RETIRED. -/
def State.startUp (s : State) (t boot : Nat) : State :=
  let s := (((s.setMc (fun m => { m with clean := true, ethSeq := m.kept.1 + 65536 })).atTime (t + 6 * msec)).setRfld aPwState 39 32 boot).bootRom
  if !s.mc.up then s
  else
    let s := (s.atTime (t + 60 * msec)).readImages
    let s := if s.ev.cut then
        ({ s with ev := { s.ev with cut := false } } : State).log 67 .logTruncated .deferred (BitVec.ofNat 64 ((s.ev.flash.getLast?.map (·.seq)).getD 0))
      else s
    let s := if s.pw.refOk then s else s.logFree 67 .refclkLost .fatalModule
    if s.inUse 3 = 0 ∨ s.mc.life = 3 ∨ !s.pw.refOk then s else s.startHub t boot
/-- Compute dies that faulted before RUN: start-up completes in kickstand mode (R506). -/
def State.lateDies (s : State) : State :=
  let l := s.pw.late
  let s := s.setPw (fun p => { p with late := [] })
  if l = [] ∨ s.power ≠ 0 then s
  else (l.foldl (fun s _ => s.logFree 67 .dieFault .fatalModule) s).kickstandEntry 8 (l.foldl (fun k d => k + 2 ^ d) 0)
/-- Power-on: Beynas resumes its counters from the values stored with the log (R455, R484, R547). -/
def State.powerOn (s : State) : State :=
  let s := s.setPw (fun p => { p with soft := false, guard := s.mc.kept.2.2 })
  ((s.setMc (fun m => { m with opsec := m.kept.2.1 })).startUp 0 1).lateDies

/-! Resets of the module (R508) and standby (R501). -/

/-- Module reset: everything but always-on SRAM and the log starts anew from step 3 of R506. -/
def State.moduleReset (s : State) : State :=
  if !s.powered ∨ s.pw.soft ∨ s.rfld aPwState 61 61 = 1 then s
  else
    let s := s.hubLost keptReg
    let s := s.setMc (fun m => { Mc.init with
      lcProv := m.lcProv, lcSec := m.lcSec, lcRet := m.lcRet, imgHash := m.imgHash, dbgHash := m.dbgHash, ethKey := m.ethKey
      keysGone := m.keysGone, minver := m.minver, flash := m.flash, kept := m.kept, ethSeq := m.ethSeq, opsec := m.opsec, faultN := m.faultN, unrecorded := m.unrecorded })
    (s.driveLands).startUp (s.now - 6 * msec) 2
/-- Entry to STANDBY: only the always-on domain stays powered. -/
def State.standby (s : State) : State :=
  let s := match s.mc.session with
    | some x => if 2 ≤ x.level then s.endSession else s.setMc (fun m => { m with session := some { x with halted := [] } })
    | none => s
  let s := s.hubLost aonReg
  ((s.setRfld aPwState 63 62 2).setRfld aPwState 51 48 0).setMc (fun m => { m with kickN := false, pwrGood := false }) |>.driveLands
/-- Memory [lo, hi) becomes zero. -/
def State.zeroMem (s : State) (lo hi : Nat) : State :=
  let gone {α : Type} (t : Tbl α) : Tbl α := t.filter (fun x => !decide (lo ≤ x.1 ∧ x.1 < hi))
  { s with mem := gone s.mem, ecc := gone s.ecc }
/-- The deep store and the regions that the MC placed become zero. -/
def State.zeroRegions (s : State) : State :=
  let sv := s.rfld aPwSaveBase 47 26 * 2 ^ 26
  let l : List (Nat × Nat) := s.placed ++ [(s.refillBase, 32 * 2 ^ 20), (sv, if sv = 0 then 0 else 2 ^ 26)]
  l.foldl (fun s x => s.zeroMem x.1 (x.1 + x.2))
    (s.zeroMem s.deepBase (28 * 2 ^ 30))
/-- The pairs stop, the keeper contexts and what they hold are gone, the fabric's state of shifts with them, and KP_LOCK clears (R522). -/
def State.keeperReset (s : State) : State :=
  let fresh (x : Nat × Ni) : Option (Nat × Ni) :=
    if x.1 = 69 then none
    else some (x.1, { x.2 with formed := [], shifting := false, marks := [], lastEpoch := [], drains := [], boosts := [] })
  let s := { s with
    ctxs := [], cms := [], pes := [], nis := s.nis.filterMap fresh
    reqs := Tbl.set [] s.reqs 69 [], eject := Tbl.set [] s.eject 69 [], rels := Tbl.set [] s.rels 69 [], shift := Shift.init }
  ((((s.setRfld (aCredit 69) 23 0 (s.rfld (aCredit 69) 55 32)).setReg aHbShift 0).setReg aKpLock 0).setPairState 0 0).setPairState 1 0
/-- Warm reset while the dies run: steps 6 to 10 and 12 of R506 for the clusters; the hub, the ports and general memory stay. -/
def State.warmRun (s : State) : State :=
  let s := s.noticeAll 4
  let s := s.setMc (fun m => { m with session := m.session.map (fun x => { x with halted := x.halted.filter (272 ≤ ·) }) })
  let s := s.dropHolders Waiter.inModule Waiter.inModule
  let s := ((s.loseDies).setMc (fun m => { m with graph := none })).zeroRegions
  let s := (s.setMc (fun m => { m with refill := [] })).keeperReset
  let s := ((s.setRfld aPwState 39 32 3).diesUp).atTime (s.now + 190 * msec)
  let s := ((s.placeClusters).loadRoutes rtCtlStart true).applyRegs (fun a => decide (regBlock a < 64))
  (s.keeperStart 3).startOption
/-- WARM_RESET: from RUN, or from STANDBY through start-up from the hub step. -/
def State.warmReset (s : State) : State :=
  if s.power = 0 then s.warmRun
  else if s.pw.refOk then ((s.setMc (fun m => { m with refill := [] })).startHub (s.now - 70 * msec) 3)
  else s.logFree 67 .refclkLost .fatalModule

/-! Kickstand exit (R504). -/

/-- Steps 1 to 6. Both banks of every NI take the epochs in use at the hub. -/
def State.kickExit (s : State) : State :=
  let t := s.now
  let s := (s.diesUp).loadRoutes (s.reg (aNiRtCtl 68)) false
  let s := (s.atTime (t + 120 * msec)).setRfld aPwState 63 62 0
  let s := if bitAt (s.reg aKsCfg) 1 then s.graphStart ⟨0, 0, 0, 0, 0⟩ else s
  let back (s : State) (p : Nat) : State :=
    if p < 2 then s else if s.ptState p = psSUSPENDED then s.resumePort p else s.heldPort p psSUSPENDED psOPEN
  let s := (List.range 16).foldl (fun s p => s.atLink p (fun s => let t := back s p; if t.wasOpen p then t.portNotice p 2 else t)) s
  s.setMc (fun m => { m with kickN := false, pwrGood := true })
/-- Exit without a command, for a cause bit of PW_KS_CAUSE. -/
def State.autoExit (s : State) (bit : Nat) : State :=
  if s.power = 1 ∧ s.rfld aPwState 61 61 = 0 ∧ bitAt (s.reg aKsCfg) 0 ∧ bitAt (s.reg aKsCause) bit then s.kickExit else s
/-- VIN_RECOVER: VIN at 9.5 V or above for 100 ms. -/
def State.vinRecover (s : State) (a b : Nat) : State :=
  if !s.powered ∨ max a b < 9500 then s else (s.setVin a b).autoExit 0
/-- KICKSTAND_AUTOEXIT_TEMP: every hub sensor at or below 115 °C for 60 s. -/
def State.tempExit (s : State) : State :=
  if [20, 21, 22, 23].all (fun i => bitAt (s.reg (aMcTemp i)) 63 && decide (sx16 (s.rfld (aMcTemp i) 15 0) ≤ 115 * 16)) then s.autoExit 1 else s
/-- DIE_FAULT of compute die d (R492); before step 7 of R506 it is noted, and start-up completes in kickstand mode (R506, R509). -/
def State.dieFault (s : State) (d : Nat) : State :=
  if s.power = 0 ∧ bitAt (s.reg aPwState) (48 + d) then (s.logFree 67 .dieFault .fatalModule).kickstandEntry 8 (2 ^ d)
  else if s.pw.soft ∧ !s.pw.late.contains d then s.setPw (fun p => { p with late := p.late ++ [d] })
  else s

/-! What happens by itself while no command waits. -/

/-- On an empty queue a soft start runs on into start-up, an orderly shutdown to its end, and Beynas installs routes around links that went
DOWN or came UP; nothing else happens. -/
def State.idle (s : State) : State :=
  if s.pw.soft then s.powerOn else if s.rfld aPwState 61 61 = 1 then s.endShutdown else if s.rerouteDue then s.reroute else s

/-! Commands. -/

def execVinRise (a b : Nat) (s : State) : Out := onModule s (fun s => s.vinRise a b)
def execVinSoftStartAbort (s : State) : Out := onModule s (fun s => s.softAbort)
def execVinLost (i v : Nat) (s : State) : Out := onModule s (fun s => s.vinLost i v)
def execVinInputOk (i v : Nat) (s : State) : Out := onModule s (fun s => s.vinOk i v)
def execVinDip (a b : Nat) (s : State) : Out := onModule s (fun s => s.vinDip a b)
def execVinRecover (a b : Nat) (s : State) : Out := onModule s (fun s => s.vinRecover a b)
/-- VIN_UNDERVOLT: VIN below 7.0 V for 100 µs. -/
def execVinUndervolt (a b : Nat) (s : State) : Out :=
  onModule s (fun s => if 7000 ≤ max a b ∨ !s.powered then s else (s.setVin a b).beginShutdown)
/-- HOLDUP_FAIL: both inputs are gone, and the module runs from HOLDUP. -/
def execHoldupFail (s : State) : Out :=
  onModule s (fun s => if s.powered then ((s.setVin 0 0).setRfld aPwStatus 6 6 1).beginShutdown else s)
/-- VIN_SURGE: the input stage clamps. -/
def execVinSurge (s : State) : Out := onModule s (fun s => if s.mc.up then s.logFree 67 .vinSurge .corrected else s)
/-- HOLDUP_CHARGED: HOLDUP crosses 44 V upward or downward. -/
def execHoldupCharged (on : Bool) (s : State) : Out := onModule s (fun s => if s.powered then s.setRfld aPwStatus 7 7 on.toNat else s)
def execResetNAssert (s : State) : Out := onModule s (fun s => s.moduleReset)
def execDieFault (d : Nat) (s : State) : Out := onUnit "die" d 4 s (fun s => s.dieFault d)
def execKickstandAutoexitTemp (s : State) : Out := onModule s (fun s => s.tempExit)
/-- REPAIR_RECORD_UPDATE: within 1 h of the first repair not yet recorded. -/
def execRepairRecordUpdate (s : State) : Out := onModule s (fun s => if s.mc.up ∧ s.mc.unrecorded ≠ [] then s.writeRepairs else s)

end Sys2Proof.Machine
end

