-- ==== Sys2Proof/Machine/Mailbox.lean ====
section
/-! DEFINITION. MGT accesses to registers and to the command mailbox (R361, R456, R513), ejection at an interface (R330), and how a
command frame reaches Beynas: form, channel rights and authentication (R454, R455, R457, R458, R467). -/

namespace Sys2Proof.Machine

/-! MGTACC. -/

def Packet.mgtWords (p : Packet) : Nat := p.spec / 2 ^ 10 % 32
def Packet.mgtWrite (p : Packet) : Bool := p.spec.testBit 9
/-- Two words a flit, the lower address in the low half. -/
def pairUp : List Word → List Wide
  | [] => []
  | [a] => [mkWide 0 a]
  | a :: b :: r => mkWide b a :: pairUp r
/-- The words an access writes. -/
def Packet.mgtData (p : Packet) : List Word := (p.body.drop 1).flatMap (fun w => [lo64 w, hi64 w]) |>.take p.mgtWords
/-- Answer an MGTACC: RESP with data, or DENIED. -/
def State.mgtDone (s : State) (e : Nat) (p : Packet) (l : List Word) : State := s.unitSend e { respMsg p 0 none false with body := pairUp l }
def State.mgtDeny (s : State) (e : Nat) (p : Packet) : State := s.unitSend e (respMsg p stDENIED none false)
/-- The security block and the keeper block, which a partner does not reach. -/
def shut (a : Nat) : Bool := regBlock a == 0x61 || regBlock a == 0x46
/-- An access to registers at their owner e: every word in one block, readable by the partner, and its domain powered. -/
def State.mgtRegs (s : State) (e : Nat) (p : Packet) : State :=
  let a := p.addr
  let l := (List.range p.mgtWords).map (fun i => a + 8 * i)
  if a % 8 ≠ 0 ∨ p.mgtWrite ∨ !l.all (fun x => inRegBlock x && regBlock x == regBlock a && regOwner x == e && !shut x && s.reachable x) then
    (s.noteSecret (!p.mgtWrite && s.touchesSecret a (8 * p.mgtWords))).mgtDeny e p
  else
    let r := s.regReads a p.mgtWords
    r.2.mgtDone e p r.1

/-! The mailbox (R456). -/

def State.window (s : State) (ep : Nat) : Option MbWin := s.mc.windows.find? (fun w => w.ep = ep)
def MbWin.init (ep : Nat) : MbWin := { ep := ep, req := [], resp := [], busy := false, done := false, status := 0, last := 0 }
/-- The window of an endpoint, taken into use while fewer than 64 are. -/
def State.openWindow (s : State) (ep : Nat) : Option State :=
  match s.window ep with
  | some _ => some s
  | none => if s.mc.windows.length < 64 then some (s.setMc (fun m => { m with windows := m.windows ++ [MbWin.init ep] })) else none
def State.updWindow (s : State) (ep : Nat) (f : MbWin → MbWin) : State :=
  s.setMc (fun m => { m with windows := m.windows.map (fun w => if w.ep = ep then f w else w) })
/-- Bytes of the request frame. -/
def MbWin.bytes (w : MbWin) (a n : Nat) : List Byte := (List.range n).map (fun i => Tbl.get 0 w.req (a + i))
/-- A word that a read of the window returns. -/
def MbWin.word (w : MbWin) (o : Nat) : Word :=
  if o = 0x1008 then BitVec.ofNat 64 (w.busy.toNat + 2 * w.done.toNat + put 15 8 w.status)
  else BitVec.ofNat 64 (leNat ((w.resp.drop (o - 0x800)).take 8))
/-- Opcodes of R459. -/
def knownOp (o : Nat) : Bool :=
  [1, 2, 3, 4, 5, 0x10, 0x11, 0x12, 0x13, 0x14, 0x15, 0x16, 0x17, 0x18, 0x20, 0x21, 0x22, 0x23, 0x24, 0x25, 0x30, 0x31, 0x32, 0x33,
   0x40, 0x41, 0x42, 0x43, 0x44].contains o
/-- MB_DOORBELL: the frame is submitted; a doorbell while BUSY is ignored. An unknown OPCODE is answered at once. -/
def State.doorbell (s : State) (ep : Nat) : State :=
  match s.window ep with
  | none => s
  | some w =>
    if w.busy ∨ !s.mc.up then s
    else
      let s := s.updWindow ep (fun w => { w with busy := true, done := false, last := s.now })
      let op := leNat (w.bytes 0 2)
      if knownOp op then s else s.respond ⟨5, ep, op, leNat (w.bytes 4 4), 0⟩ 2 []
/-- Write words of a window. -/
def State.windowWrite (s : State) (ep : Nat) (o : Nat) : List Word → State
  | [] => s
  | v :: r =>
    let s := if o = 0x1000 then s.doorbell ep
      else s.updWindow ep (fun w => { w with req := memWrite w.req o (leBytes 8 v.toNat), last := s.now })
    s.windowWrite ep (o + 8) r
/-- An access at endpoint 67 by the endpoint that sent it. Nothing answers while Beynas does not run. -/
def State.mgtMailbox (s : State) (p : Packet) : State :=
  let a := p.addr
  let l := (List.range p.mgtWords).map (fun i => a + 8 * i)
  let ok (o : Nat) : Bool := if p.mgtWrite then decide (o < 0x800) || o == 0x1000 else decide (0x800 ≤ o ∧ o < 0x1000) || o == 0x1008
  if !s.mc.up then s
  else if a % 8 ≠ 0 ∨ !l.all ok then s.mgtDeny 67 p
  else match s.openWindow p.src with
    | none => s.mgtDeny 67 p
    | some s =>
      if p.mgtWrite then (s.windowWrite p.src a p.mgtData).mgtDone 67 p []
      else
        let s := s.updWindow p.src (fun w => { w with last := s.now })
        match s.window p.src with
        | some w => s.mgtDone 67 p (l.map w.word)
        | none => s
def State.mgtAccess (s : State) (e : Nat) (p : Packet) : State := if e = 67 then s.mgtMailbox p else s.mgtRegs e p

/-- NI_PACKET_EJECT at endpoint e. -/
def execNiPacketEject (e : Nat) (s : State) : Out := onEndpoint e s (fun s => s.ejectOne e (fun s p => s.mgtAccess e p))
def execMbDoorbell (ep : Nat) (s : State) : Out := onModule s (fun s => s.doorbell ep)
/-- MAILBOX_WINDOW_RELEASE: the window of an endpoint has been idle for 1 s; one whose request is not answered yet is not idle. -/
def execMailboxWindowRelease (ep : Nat) (s : State) : Out :=
  onModule s (fun s => s.setMc (fun m => { m with windows := m.windows.filter (fun w => w.ep ≠ ep || w.busy) }))

/-! Rights and authentication. -/

/-- Classes of R454. -/
def clsREAD : Nat := 0
def clsOPERATE : Nat := 1
def clsUPDATE : Nat := 2
def clsLIFECYCLE : Nat := 3
def clsDEBUG : Nat := 4
/-- Whether a channel may issue a class in a lifecycle (R454); `operate`: the settings grant OPERATE to the partner's port. -/
def chanMay (ch life cls : Nat) (operate : Bool) : Bool :=
  let l : List Nat :=
    if ch = 1 then (if life = 3 then [0, 4] else [0, 1, 2, 3, 4])
    else if ch = 4 then (if life = 3 then [0] else [0, 1])
    else if ch = 2 then (if life = 0 then [0, 1, 2, 3, 4] else if life = 3 then [0, 4] else [0, 1, 4])
    else if ch = 3 then (if life = 0 then [0, 1, 2, 3, 4] else [0, 4])
    else if ch = 5 then (if life = 3 then [] else if operate then [0, 1] else [0])
    else []
  l.contains cls
/-- The rights after what the settings withdraw. -/
def State.chanRight (s : State) (ch ep cls : Nat) : Bool :=
  chanMay ch s.mc.life cls (Config.portOperate s.mc.settings (epPort ep)) && !(s.mc.settings != [] && Config.withdrawn s.mc.settings ch cls)

/-- A frame as Beynas sees it: CMDSEQ, bytes 8 to 15 and payload. A mailbox frame stands in its window, which must be BUSY with it; an SMBus frame
names the target's address, and its PEC holds (R452). -/
def State.mcFrame (s : State) (op : Nat) (r : McReq) : Option (Nat × List Byte × List Byte) :=
  if r.ch = 5 then
    match s.window r.ep with
    | some w =>
      if w.busy ∧ leNat (w.bytes 0 2) = op then some (leNat (w.bytes 4 4), w.bytes 8 8, w.bytes 16 (leNat (w.bytes 2 2))) else none
    | none => none
  else if 1 ≤ r.ch ∧ r.ch ≤ 4 ∧ (r.ch = 4 → r.src = s.mc.smbus ∧ r.pec = true) then some (r.seq, r.zero, r.data)
  else none
/-- The recovery path of the boot ROM: IMG_BEGIN, IMG_DATA and IMG_END on the UART and JTAG (R467). -/
def State.recovery (s : State) (ch op : Nat) : Bool :=
  !s.mc.up && s.mc.causes.contains 2 && (ch == 2 || ch == 3) && decide (0x20 ≤ op ∧ op ≤ 0x22)
/-- Whether the tag of an Ethernet frame is needed and, where it is, right and fresh (R455). -/
def State.tagNeeded (s : State) (ch cls : Nat) : Bool := ch == 1 && cls != 0 && (s.mc.life == 1 || s.mc.life == 2)
def State.tagGood (s : State) (op : Nat) (seq : Nat) (z d : List Byte) (tag : BitVec 128) : Bool :=
  tag == Config.macOf s.mc.ethKey.toNat (leBytes 2 op ++ leBytes 2 d.length ++ leBytes 4 seq ++ z ++ d) && decide (s.mc.ethSeq < seq)
/-- A command once it is let in. Without settings only READ, UPDATE and DEBUG work (R470); an orderly shutdown takes no other command. -/
def State.mcLet (s : State) (cls : Nat) (q : McAsk) (d : List Byte) (f : State → McAsk → List Byte → State) : State :=
  if (s.mc.causes.contains 1 ∨ s.rfld aPwState 61 61 = 1) ∧ (cls = clsOPERATE ∨ cls = clsLIFECYCLE) then s.respond q 7 [] else f s q d
/-- A command frame of an opcode and its class: its form, the channel's right, its tag, then its effect. -/
def State.mcRun (s : State) (op cls : Nat) (r : McReq) (f : State → McAsk → List Byte → State) : State :=
  match s.mcFrame op r with
  | none => s
  | some (seq, z, d) =>
    let q : McAsk := ⟨r.ch, r.ep, op, seq, r.src⟩
    if !s.mc.up ∧ !s.recovery r.ch op then s
    else if (if r.ch = 1 then 1440 else 2032) < d.length ∨ !allZero z then s.respond q 2 []
    else if !s.mc.up then f s q d
    else if !s.chanRight r.ch r.ep cls then (s.logFree 67 .evCmdDenied .info).respond q 3 []
    else if s.tagNeeded r.ch cls then
      if s.tagGood op seq z d r.tag then (s.setMc (fun m => { m with ethSeq := seq })).mcLet cls q d f
      else (s.logFree 67 .authFail .deferred).respond q 4 []
    else s.mcLet cls q d f

end Sys2Proof.Machine
end

