-- ==== Sys2Proof/Machine/Commands.lean ====
section
/-! DEFINITION. The commands of classes READ, OPERATE, UPDATE and LIFECYCLE (R459, R460, R471 to R481). -/

namespace Sys2Proof.Machine

/-- The command's answer without payload. -/
def State.done (s : State) (q : McAsk) : State := s.respond q 0 []
def wordsBytes (l : List Word) : List Byte := l.flatMap (fun w => leBytes 8 w.toNat)
def deviceId : List Byte := (List.range 8).map Config.otpByte

/-! READ. -/

/-- An image entry of GET_INFO. -/
def State.imgEntry (s : State) (t : Nat) : List Byte :=
  let c := s.inUse t
  let mv := if t = 6 then 0 else s.minVer t
  if c = 0 then leBytes 10 0 ++ leBytes 2 mv ++ leBytes 4 0
  else leBytes 4 c ++ leBytes 4 (s.imgSeq t c) ++ leBytes 2 (s.imgSvn t c) ++ leBytes 2 mv ++ leBytes 4 0
def State.imgEntries (s : State) : List Byte := [1, 2, 3, 4, 5, 6].flatMap s.imgEntry
def State.getInfo (s : State) (q : McAsk) (d : List Byte) : State :=
  if d ≠ [] then s.respond q 2 []
  else s.respond q 0 (deviceId ++ [0xB0, BitVec.ofNat 8 s.mc.life] ++ leBytes 2 (Config.romRev 0).toNat ++ leBytes 4 0
    ++ beBytes 96 Config.devicePub.toNat ++ s.imgEntries)
def State.getSensors (s : State) (q : McAsk) (d : List Byte) : State :=
  if d ≠ [] then s.respond q 2 []
  else
    let t := s.regReads (aMcTemp 0) 24
    let v := t.2.regReads (aMcVmon 0) 22
    let a := v.2.regReads (aMcAge 0) 72
    a.2.respond q 0 (wordsBytes (t.1 ++ v.1 ++ a.1))
/-- The persisted records of this power cycle: the last run of rising SEQ in the flash log. -/
def thisRun : List LogRec → List LogRec
  | [] => []
  | r :: l => match thisRun l with
    | [] => [r]
    | q :: k => if r.seq < q.seq ∧ k.length + 1 = l.length then r :: q :: k else q :: k
/-- Up to n records from a SEQ on: from the flash log what has left the ring (R465). -/
def State.logFrom (s : State) (seq n : Nat) : List LogRec :=
  let old := match s.ev.ring with
    | [] => 2 ^ 64
    | r :: _ => r.seq
  (((thisRun s.ev.flash).filter (fun r => decide (r.seq < old)) ++ s.ev.ring).filter (fun r => decide (seq ≤ r.seq))).take n
/-- Payload bytes that a response may carry: 1,440 over Ethernet (R455). -/
def respMax (ch : Nat) : Nat := if ch = 1 then 1440 else 2032
/-- LOG_READ returns as many of the records asked for as the response can carry (DESIGN CHOICE, log 53). -/
def State.logRead (s : State) (q : McAsk) (d : List Byte) : State :=
  let n := bytesLe d 8 1
  if d.length ≠ 16 ∨ n < 1 ∨ 63 < n ∨ !allZero (d.drop 9) then s.respond q 2 []
  else
    let l := s.logFrom (bytesLe d 0 8) (min n ((respMax q.ch - 16) / 32))
    s.respond q 0 (leBytes 8 ((l.head?.map (·.seq)).getD 0) ++ leBytes 8 l.length ++ l.flatMap LogRec.bytes)
/-- Read registers one by one in request order. -/
def State.readList (s : State) : List Nat → List Word × State
  | [] => ([], s)
  | a :: r =>
    let x := s.mcRead a
    let y := x.2.readList r
    (x.1 :: y.1, y.2)
def isSecretReg (a : Nat) : Bool := a == aSecret 0 || a == aSecret 1
/-- REG_READ; a request whose values a response cannot carry is answered BAD_CMD (DESIGN CHOICE, log 53). -/
def State.regReadCmd (s : State) (q : McAsk) (d : List Byte) : State :=
  let n := bytesLe d 0 2
  if d.length < 8 ∨ d.length ≠ 8 + 6 * n ∨ n < 1 ∨ 254 < n ∨ respMax q.ch < 8 * n ∨ !allZero ((d.take 8).drop 2) then s.respond q 2 []
  else
    let l := (List.range n).map (fun i => bytesLe d (8 + 6 * i) 6)
    if l.all (fun a => (regSpec a).isSome && regBlock a != 0x61 && !isSecretReg a && s.reachable a) then
      let r := s.readList l
      r.2.respond q 0 (wordsBytes r.1)
    else s.respond q 3 []
def State.attest (s : State) (q : McAsk) (d : List Byte) : State :=
  if d.length ≠ 48 then s.respond q 2 []
  else
    let b := d ++ deviceId ++ [BitVec.ofNat 8 s.mc.life] ++ leBytes 7 0 ++ s.imgEntries
    s.respond q 0 (b ++ beBytes 96 (Config.sign b).toNat)

/-! OPERATE. -/

def State.portCmd (s : State) (q : McAsk) (d : List Byte) : State :=
  let p := bytesLe d 0 1
  let a := bytesLe d 1 1
  if d.length ≠ 8 ∨ 15 < p ∨ !((1 ≤ a ∧ a ≤ 5) ∨ a = 0x10) ∨ !allZero (d.drop 2) then s.respond q 2 []
  else if s.power = 2 then s.respond q 7 []
  else if a = 0x10 then (s.atLink p (fun s => s.portOpens p)).done q
  else if s.ptCmdOk p a then (s.atLink p (fun s => s.ptCmd p a)).done q
  else s.respond q 7 []
/-- A command without payload, allowed in some power states. -/
def State.plain (s : State) (q : McAsk) (d : List Byte) (ok : Bool) (f : State → State) : State :=
  if d ≠ [] then s.respond q 2 [] else if ok then (f s).done q else s.respond q 7 []
def State.graphStartCmd (s : State) (q : McAsk) (d : List Byte) : State := if d ≠ [] then s.respond q 2 [] else s.graphStart q
def State.graphStopCmd (s : State) (q : McAsk) (d : List Byte) : State := if d ≠ [] then s.respond q 2 [] else s.graphStop q
def State.kickEnter (s : State) (q : McAsk) (d : List Byte) : State := s.plain q d (s.power == 0) (fun s => s.kickstandEntry 16 0)
/-- KICKSTAND_EXIT after a compute-die fault or UE_STORM requires FAULT_CLEAR first (R504). -/
def State.kickLeave (s : State) (q : McAsk) (d : List Byte) : State :=
  s.plain q d (s.power == 1 && !((s.rfld aKsCause 3 2 != 0) && s.mc.faultN)) (fun s => s.kickExit)
def State.warmCmd (s : State) (q : McAsk) (d : List Byte) : State := s.plain q d (s.power != 1) (fun s => s.warmReset)
def State.standbyCmd (s : State) (q : McAsk) (d : List Byte) : State := s.plain q d (s.power != 2) (fun s => s.standby)
def State.keeperCtl (s : State) (q : McAsk) (d : List Byte) : State :=
  let p := bytesLe d 0 1
  let a := bytesLe d 1 1
  if d.length ≠ 8 ∨ 1 < p ∨ a < 1 ∨ 2 < a ∨ !allZero (d.drop 2) then s.respond q 2 []
  else if s.power = 2 then s.respond q 7 []
  else if a = 1 then (if s.pairState p = 1 then (s.haltCmd p).done q else (s.haltCmd p).respond q 7 [])
  else if s.restartBad p then (s.restartPair p).respond q 7 []
  else (s.restartPair p).done q
/-- A cause of FAULT_N still stands (R453): invalid settings or firmware, or a pair HALTED. -/
def State.faultStands (s : State) : Bool := s.mc.causes != [] || s.pairState 0 == 2 || s.pairState 1 == 2
def State.faultClear (s : State) (q : McAsk) (d : List Byte) : State :=
  s.plain q d (!s.faultStands) (fun s => s.setMc (fun m => { m with faultN := false }))

/-! UPDATE (R474 to R476, R478). -/

/-- The update that has not reached its commit point. -/
def State.openUpdate (s : State) : Option Update := match s.mc.update with
  | some u => if u.done then none else some u
  | none => none
def State.imgBegin (s : State) (q : McAsk) (d : List Byte) : State :=
  let t := bytesLe d 0 1
  let n := bytesLe d 4 4
  if d.length ≠ 8 ∨ t < 1 ∨ 6 < t ∨ !allZero ((d.take 4).drop 1) ∨ imgRegion t < n ∨ (!s.mc.up ∧ t ≠ 1) then s.respond q 2 []
  else if s.openUpdate.isSome then s.respond q 1 []
  else
    let c := s.targetCopy t
    ((s.flashErase (imgBase t c) (imgRegion t)).setMc (fun m => { m with update := some ⟨t, c, n, [], false⟩ })).respond q 0 (leBytes 8 c)
def State.imgData (s : State) (q : McAsk) (d : List Byte) : State :=
  let o := bytesLe d 0 4
  let n := d.length - 8
  match s.openUpdate with
  | none => s.respond q 7 []
  | some u =>
    if d.length < 16 ∨ 2032 < d.length ∨ n % 8 ≠ 0 ∨ o % 8 ≠ 0 ∨ !allZero ((d.take 8).drop 4) ∨ u.total < o + n
        ∨ u.ranges.any (fun r => decide (r.1 < o + n ∧ o < r.2)) then s.respond q 2 []
    else ((s.flashWrite (imgBase u.type u.copy + o) (d.drop 8)).setMc (fun m =>
      { m with update := some { u with ranges := u.ranges ++ [(o, o + n)] } })).done q
/-- The sequence number that orders the copies of a type. -/
def State.copySeq (s : State) (t c : Nat) : Nat := if t = 2 then s.flashLe (imgBase 2 c + 512 + 8) 4 else s.imgSeq t c
/-- IMG_END: the read-back check; in recovery the boot ROM then chooses firmware again and start-up goes on. -/
def State.imgEnd (s : State) (q : McAsk) (d : List Byte) : State :=
  match s.openUpdate with
  | none => s.respond q 7 []
  | some u =>
    if d ≠ [] then s.respond q 2 []
    else
      let k := s.imgCheck u.type u.copy s.mc.life
      let c := s.inUse u.type
      let s := s.setMc (fun m => { m with update := some { u with done := true } })
      if k ≠ 0 ∨ (c ≠ 0 ∧ s.copySeq u.type u.copy ≤ s.copySeq u.type c) then
        ((s.flashErase (imgBase u.type u.copy) 512).setMc (fun m => { m with update := none })).respond q (if k = 5 then 6 else 5) []
      else if s.mc.up then s.done q
      else (s.done q).startUp (s.now - 6 * msec) (s.rfld aPwState 39 32)
/-- IMG_ABORT: ABORTED before the commit point, TOO_LATE after it. -/
def State.imgAbort (s : State) (q : McAsk) (d : List Byte) : State :=
  if d ≠ [] then s.respond q 2 []
  else match s.mc.update with
    | none => s.respond q 7 []
    | some u => if u.done then s.respond q 0x11 [] else (s.setMc (fun m => { m with update := none })).respond q 0x10 []
/-- MINVER_RAISE: the copy in use has completed a start-up without a FATAL-MODULE event, and its SVN is higher. -/
def State.minverRaise (s : State) (q : McAsk) (d : List Byte) : State :=
  let t := bytesLe d 0 1
  if d.length ≠ 8 ∨ t < 1 ∨ 5 < t ∨ !allZero (d.drop 1) then s.respond q 2 []
  else if s.openUpdate.any (fun u => u.type == t) then s.respond q 1 []
  else
    let c := s.inUse t
    let v := s.imgSvn t c
    if c = 0 ∨ !s.mc.clean ∨ s.now < 350 * msec ∨ v ≤ s.minVer t then s.respond q 7 []
    else (s.setMc (fun m => { m with minver := m.minver.set (t - 1) v })).done q
/-- KSECRET_LOAD: the plaintext goes to the running pair as wide tokens from endpoint 67. -/
def State.ksecretLoad (s : State) (q : McAsk) (d : List Byte) : State :=
  let p := bytesLe d 0 1
  let k := bytesLe d 4 4
  let ip := bytesLe d 8 2
  let n := d.length - 140
  if d.length < 148 ∨ 1888 < n ∨ n % 8 ≠ 0 ∨ 1 < p ∨ 255 < k ∨ 2 ^ 13 ≤ ip ∨ !allZero ((d.take 4).drop 1) ∨ !allZero ((d.take 16).drop 10) then
    s.respond q 2 []
  else if s.pairState p ≠ 1 then s.respond q 7 []
  else
    let key := (Config.sha384 (beBytes 48 (Config.ecdhKey (beNat ((d.drop 16).take 96))) ++ deviceId)).toNat / 2 ^ 128
    match Config.decrypt (key + 1) (d.take 16) ((d.drop 112).take 12) ((d.drop 124).take 16) (d.drop 140) with
    | none => s.respond q 4 []
    | some t =>
      ((List.range (t.length / 8)).foldl (fun s i =>
        s.unitSend 67 (tokenMsg 69 (mkTag 0 true false true k 0 (pairNo p) ip 0) (mkWide (BitVec.ofNat 64 i) (BitVec.ofNat 64 (bytesLe t (8 * i) 8))) 0
          .none)) s).done q

/-! LIFECYCLE (R479 to R481). -/

/-- Draw a 48-byte nonce. -/
def State.nonce (s : State) : BitVec 384 × State :=
  let d := s.draw
  (BitVec.ofNat 384 (leNat ((List.range 48).map (Config.randomBytes d.1))), d.2)
def minute : Nat := 60000 * msec
/-- A nonce that is at most 60 s old. -/
def State.fresh (s : State) (n : Option (BitVec 384 × Nat)) : Option (BitVec 384) := match n with
  | some (v, t) => if s.now ≤ t + minute then some v else none
  | none => none
def State.lcChallenge (s : State) (q : McAsk) (d : List Byte) : State :=
  if d ≠ [] then s.respond q 2 []
  else if !s.mc.rngOk then s.respond q 1 []
  else
    let r := s.nonce
    (r.2.setMc (fun m => { m with lcNonce := some (r.1, s.now) })).respond q 0 (leBytes 48 r.1.toNat)
/-- A transition ends every debug session. -/
def State.lcDone (s : State) (q : McAsk) : State := (s.endSession).done q
/-- Whether a field has no burned bit where the requested value has a 0 (R480). -/
def mayBurn {n : Nat} (old new : BitVec n) : Bool := old &&& ~~~new == 0
def State.lcProvision (s : State) (q : McAsk) (d : List Byte) : State :=
  let a : BitVec 384 := BitVec.ofNat 384 (beNat (d.take 48))
  let b : BitVec 384 := BitVec.ofNat 384 (beNat ((d.drop 48).take 48))
  let k : BitVec 256 := BitVec.ofNat 256 (beNat (d.drop 96))
  if d.length ≠ 128 then s.respond q 2 []
  else if s.mc.life ≠ 0 ∨ !(mayBurn s.mc.imgHash a && mayBurn s.mc.dbgHash b && mayBurn s.mc.ethKey k) then s.respond q 7 []
  else (s.setMc (fun m => { m with imgHash := a, dbgHash := b, ethKey := k, lcProv := 7 })).lcDone q
/-- The owner's signature over the nonce and DEVICE_ID, under the owner key that signed the settings in use. -/
def State.ownerSigned (s : State) (sig : List Byte) : Bool :=
  let a := imgBase 3 (s.inUse 3)
  let pub := s.flashBytes (a + 0x50) 96
  match s.fresh s.mc.lcNonce with
  | some n => s.inUse 3 != 0 && Config.sha384 pub == s.mc.imgHash && Config.sigValid (beNat pub) (leBytes 48 n.toNat ++ deviceId) (beNat sig)
  | none => false
/-- Every image of TYPE 1 to 5 in use is valid under the SECURED rules. -/
def State.readyToSecure (s : State) : Bool := [1, 2, 3, 4, 5].all (fun t => s.inUse t == 0 || s.imgCheck t (s.inUse t) 2 == 0)
def State.spendLc (s : State) : State := s.setMc (fun m => { m with lcNonce := none })
def State.lcSecure (s : State) (q : McAsk) (d : List Byte) : State :=
  if d.length ≠ 96 then s.respond q 2 []
  else if s.mc.life = 1 ∧ s.ownerSigned d ∧ s.readyToSecure then ((s.spendLc).setMc (fun m => { m with lcSec := 7 })).lcDone q
  else s.spendLc.respond q 7 []
/-- Zeroise every keeper local store and instruction memory (R256). -/
def State.zeroKeepers (s : State) : State :=
  let s := [272, 273, 274, 275].foldl (fun s n => (s.zeroLs n 0 32768).updPe n (fun p => { p with imemBad := [] })) s
  { s with imem := s.imem.filter (fun x => decide (x.1 < 272 * 16384)) }
/-- Entry to RETIRED, in the order of R481. -/
def State.retire (s : State) : State :=
  let s := match s.mc.graph with
    | some g => if g.stopping then s else s.graphKill g ⟨0, 0, 0, 0, 0⟩
    | none => s
  (s.zeroKeepers).setMc (fun m => { m with keysGone := true, ethKey := BitVec.allOnes 256, ucode := [], lcRet := 7 })
def State.lcRetire (s : State) (q : McAsk) (d : List Byte) : State :=
  if d.length ≠ (if s.mc.life = 2 then 96 else 0) then s.respond q 2 []
  else if s.mc.life = 2 ∧ !s.ownerSigned d then s.spendLc.respond q 7 []
  else ((s.spendLc).retire).lcDone q

/-! Commands. -/

def execGetInfo (r : McReq) (s : State) : Out := onModule s (fun s => s.mcRun 0x01 clsREAD r State.getInfo)
def execGetSensors (r : McReq) (s : State) : Out := onModule s (fun s => s.mcRun 0x02 clsREAD r State.getSensors)
def execLogRead (r : McReq) (s : State) : Out := onModule s (fun s => s.mcRun 0x03 clsREAD r State.logRead)
def execRegRead (r : McReq) (s : State) : Out := onModule s (fun s => s.mcRun 0x04 clsREAD r State.regReadCmd)
def execAttest (r : McReq) (s : State) : Out := onModule s (fun s => s.mcRun 0x05 clsREAD r State.attest)
def execPortCmd (r : McReq) (s : State) : Out := onModule s (fun s => s.mcRun 0x10 clsOPERATE r State.portCmd)
def execGraphStart (r : McReq) (s : State) : Out := onModule s (fun s => s.mcRun 0x11 clsOPERATE r State.graphStartCmd)
def execGraphStop (r : McReq) (s : State) : Out := onModule s (fun s => s.mcRun 0x12 clsOPERATE r State.graphStopCmd)
def execKickstandEnter (r : McReq) (s : State) : Out := onModule s (fun s => s.mcRun 0x13 clsOPERATE r State.kickEnter)
def execKickstandExit (r : McReq) (s : State) : Out := onModule s (fun s => s.mcRun 0x14 clsOPERATE r State.kickLeave)
def execWarmReset (r : McReq) (s : State) : Out := onModule s (fun s => s.mcRun 0x15 clsOPERATE r State.warmCmd)
def execStandbyEnter (r : McReq) (s : State) : Out := onModule s (fun s => s.mcRun 0x16 clsOPERATE r State.standbyCmd)
def execKeeperCtl (r : McReq) (s : State) : Out := onModule s (fun s => s.mcRun 0x17 clsOPERATE r State.keeperCtl)
def execFaultClear (r : McReq) (s : State) : Out := onModule s (fun s => s.mcRun 0x18 clsOPERATE r State.faultClear)
def execImgBegin (r : McReq) (s : State) : Out := onModule s (fun s => s.mcRun 0x20 clsUPDATE r State.imgBegin)
def execImgData (r : McReq) (s : State) : Out := onModule s (fun s => s.mcRun 0x21 clsUPDATE r State.imgData)
def execImgEnd (r : McReq) (s : State) : Out := onModule s (fun s => s.mcRun 0x22 clsUPDATE r State.imgEnd)
def execImgAbort (r : McReq) (s : State) : Out := onModule s (fun s => s.mcRun 0x23 clsUPDATE r State.imgAbort)
def execMinverRaise (r : McReq) (s : State) : Out := onModule s (fun s => s.mcRun 0x24 clsUPDATE r State.minverRaise)
def execKsecretLoad (r : McReq) (s : State) : Out := onModule s (fun s => s.mcRun 0x25 clsUPDATE r State.ksecretLoad)
def execLcProvision (r : McReq) (s : State) : Out := onModule s (fun s => s.mcRun 0x30 clsLIFECYCLE r State.lcProvision)
def execLcSecure (r : McReq) (s : State) : Out := onModule s (fun s => s.mcRun 0x31 clsLIFECYCLE r State.lcSecure)
def execLcRetire (r : McReq) (s : State) : Out := onModule s (fun s => s.mcRun 0x32 clsLIFECYCLE r State.lcRetire)
def execLcChallenge (r : McReq) (s : State) : Out := onModule s (fun s => s.mcRun 0x33 clsLIFECYCLE r State.lcChallenge)

end Sys2Proof.Machine
end

