-- ==== Sys2Proof/Machine/Debug.lean ====
section
/-! DEFINITION. Debug sessions (R482 to R488), event traces (R460), the restart of the management controller (R461), the random number
generator (R478), and the PMBus, JTAG and Ethernet services (R452, R453). -/

namespace Sys2Proof.Machine

/-! Opening and closing. -/

/-- How R486 decides a level: 0 refused, 1 on request, 2 with a certificate, 3 with a certificate and zeroising. -/
def dbgCell (life level power : Nat) : Nat :=
  if life ≤ 1 then
    if level = 1 then 1 else if level = 2 then (if power = 2 then 0 else 1) else if life = 0 then 1 else 2
  else if life = 2 then
    if level = 1 then 2 else if level = 2 then (if power = 0 then 3 else 0) else if power = 0 then 3 else if power = 1 then 0 else 2
  else if power = 2 then (if level = 2 then 0 else 1)
  else 0
def State.dbgChallenge (s : State) (q : McAsk) (d : List Byte) : State :=
  if d ≠ [] then s.respond q 2 []
  else if !s.mc.rngOk then s.respond q 1 []
  else
    let r := s.nonce
    (r.2.setMc (fun m => { m with dbgNonce := some (r.1, s.now) })).respond q 0 (leBytes 48 r.1.toNat)
/-- The certificate and the session key's signature of R484, for a requested level. -/
def State.certOk (s : State) (level : Nat) (cert sig : List Byte) : Bool :=
  let body := cert.take 0xA0
  let csig := beNat (cert.drop 0xA0)
  let ses := (cert.drop 0x20).take 96
  match s.fresh s.mc.dbgNonce, Config.signerOf body csig with
  | some n, some key =>
    bytesLe cert 0 4 == 0x44424743 && bytesLe cert 4 4 == 1 && (cert.drop 8).take 8 == deviceId
      && decide (level ≤ bytesLe cert 0x10 1 ∧ bytesLe cert 0x10 1 ≤ 3) && allZero ((cert.drop 0x11).take 7) && allZero ((cert.drop 0x80).take 32)
      && decide (s.opsec ≤ bytesLe cert 0x18 8) && Config.sha384 key == s.mc.dbgHash
      && Config.sigValid (beNat ses) (leBytes 48 n.toNat ++ deviceId ++ [BitVec.ofNat 8 level]) (beNat sig)
  | _, _ => false
/-- The grant of a Cz cell: secret regions of all K-PEs zeroise, and every non-root context whose descriptor has CAD is killed. -/
def State.dbgZero (s : State) : State :=
  ((s.ctxs.filter (fun x => x.2.cad && !isRoot x.1)).map (·.1)).foldl (fun s k => s.startKill k none) ((s.zeroSecret 0).zeroSecret 1)
def State.grant (s : State) (q : McAsk) (level cell : Nat) (opsec : Option Nat) : State :=
  let s := (s.setMc (fun m => { m with session := some ⟨level, q.ch, opsec, s.now, []⟩ })).showSession
  (if cell = 3 then s.dbgZero else s).done q
/-- DBG_OPEN. After LC_RETIRE it is refused until the power-on from which the module is RETIRED (DEDUCED from R488's row, log 49). -/
def State.dbgOpenCmd (s : State) (q : McAsk) (d : List Byte) : State :=
  let level := bytesLe d 0 1
  let cell := dbgCell s.mc.life level s.power
  let t := s.setMc (fun m => { m with dbgNonce := none })
  if d.length < 8 ∨ level < 1 ∨ 3 < level ∨ !allZero ((d.take 8).drop 1) then t.respond q 2 []
  else if cell = 0 ∨ (s.mc.lcRet = 7 ∧ s.mc.life ≠ 3) then t.respond q 3 []
  else if d.length ≠ (if cell = 1 then 8 else 360) then t.respond q 2 []
  else if s.mc.session.isSome then t.respond q 7 []
  else if cell = 1 then t.grant q level 1 none
  else if s.certOk level ((d.drop 8).take 256) (d.drop 264) then t.grant q level cell (some (bytesLe d (8 + 0x18) 8))
  else t.respond q 3 []
/-- The session, when it was opened on the command's channel. -/
def State.sessionOn (s : State) (ch : Nat) : Option Session := match s.mc.session with
  | some x => if x.ch = ch then some x else none
  | none => none
def State.dbgCloseCmd (s : State) (q : McAsk) (d : List Byte) : State :=
  if d ≠ [] then s.respond q 2 [] else if (s.sessionOn q.ch).isSome then (s.endSession).done q else s.respond q 7 []

/-! DBG_OP. -/

/-- Whether a PE is powered and within the session's scope. -/
def State.peReach (s : State) (n : Nat) : Bool :=
  decide (n < 276) && (if n < 272 then s.dieOn (peCluster n) && s.clState (peCluster n) != 3 else s.power != 2)
/-- A register that a session reaches: powered, in the scope of the power state, and open to its level (R482, R486). -/
def State.dbgReg (s : State) (level a : Nat) (wr : Bool) : Bool :=
  let b := regBlock a
  inRegBlock a && s.reachable a && (b != 0x61 || (level == 3 && !wr)) && (level != 1 || (!wr && !isSecretReg a))
    && (s.power == 0 || (s.power == 1 && !decide (0x52 ≤ b ∧ b < 0x60)) || b == 0x47 || decide (0x60 ≤ b))
/-- A memory word that an INVASIVE session reaches, as its plain-view address: nothing where it must not. -/
def State.dbgMem (s : State) (a : Nat) (wr : Bool) : Option Nat :=
  let on (c : Nat) : Bool := s.dieOn c && s.clState c != 3
  if a < 28 * 2 ^ 30 ∨ (0x000800000000 ≤ a ∧ a < 0x000900000000) then if s.power = 2 then none else some (plainOf a)
  else if 0x001000000000 ≤ a ∧ a < 0x001000000000 + 64 * 0x100000 then
    let c := (a - 0x001000000000) / 0x100000
    if on c && !(wr && s.reservedArea c (a % 0x80000)) then some (plainOf a) else none
  else if 0x002000000000 ≤ a ∧ a < 0x002000000000 + 276 * 0x100000 then
    let n := (a - 0x002000000000) / 0x100000
    if s.peReach n && decide (a % 0x100000 < lsBytes n) then some (lsBase (pairPe n) + a % 0x100000) else none
  else if 0x003000000000 ≤ a ∧ a < 0x003000000000 + 276 * 0x100000 then
    let n := (a - 0x003000000000) / 0x100000
    if s.peReach n && decide (a % 0x100000 < 8 * imemWords n) then some (imemBase (pairPe n) + a % 0x100000) else none
  else none
/-- A word of a keeper's secret region, at a plain-view address (R255). -/
def State.secretAt (s : State) (a : Nat) : Bool :=
  [0, 1].any (fun p =>
    let lo := lsBase (pairNo p) + s.secretBase p
    decide (lo < a + 8 ∧ a < lo + s.secretSize p))
/-- An access to a cluster in FREEWHEEL wakes it (R495). -/
def State.dbgWake (s : State) (a : Nat) : State :=
  let c := if a < 0x002000000000 then (a - 0x001000000000) / 0x100000 else peCluster (a % 0x001000000000 / 0x100000)
  if 0x001000000000 ≤ a ∧ (a < 0x002000000000 ∨ a % 0x001000000000 / 0x100000 < 272) ∧ s.clState c = 2 then
    s.accessWake c
  else s
/-- Read the word at a plain-view address: its value, and whether a local store or instruction memory reports an error (R279). -/
def State.dbgRead (s : State) (a : Nat) : Word × Bool × State :=
  let s := s.dbgWake a
  if imemBase 0 ≤ a then
    let n := (a - imemBase 0) / 0x100000
    let w := a % 0x100000 / 8
    if (s.pe n).imemBad.contains w then (0, true, s.peUe (peEndpoint n) n a true) else (s.imemAt n w, false, s)
  else if lsBase 0 ≤ a then
    let n := (a - lsBase 0) / 0x100000
    match s.eccAt a with
    | .ok => (s.word a, false, s)
    | .ce => (s.word a, false, (s.setEcc a .ok).log (peEndpoint n) .lsCe .corrected (BitVec.ofNat 64 a) (some n))
    | .ue => (0, true, s.peUe (peEndpoint n) n a false)
    | .poison => (s.word a, true, s)
  else
    let e := if a < 0x001000000000 then 64 else (a - 0x001000000000) / 0x100000
    let s := if e < 64 then s.touchScratch e (a % 0x80000) else s.touchMem a false
    let r := s.readPlain e a 8
    (lo64 r.1, false, r.2.2)
/-- Write the word at a plain-view address. -/
def State.dbgWrite (s : State) (a : Nat) (v : Word) : State :=
  let s := s.dbgWake a
  if imemBase 0 ≤ a then
    let n := (a - imemBase 0) / 0x100000
    let w := a % 0x100000 / 8
    (s.setImem n w v).updPe n (fun p => { p with imemBad := p.imemBad.filter (· ≠ w) })
  else
    let s := if lsBase 0 ≤ a then s else if a < 0x001000000000 then s.touchMem a true else s.touchScratch ((a - 0x001000000000) / 0x100000) (a % 0x80000)
    s.putBytes a (leBytes 8 v.toNat)
/-- One word read through the session; the flag tells a denial, a second one an error. -/
def State.dbgGet (s : State) (level a : Nat) : Word × Bool × State :=
  if regBase ≤ a then
    let t := s.wakeFor a
    let r := if 2 ≤ level then t.mcRead a else t.regRead a
    (r.1, false, r.2)
  else match s.dbgMem a false with
    | some p => s.dbgRead p
    | none => (0, true, s)
def State.dbgReads (s : State) (level a : Nat) : Nat → List Word × Bool × State
  | 0 => ([], false, s)
  | n + 1 =>
    let r := s.dbgGet level a
    let t := r.2.2.dbgReads level (a + 8) n
    (r.1 :: t.1, r.2.1 || t.2.1, t.2.2)
def State.dbgPuts (s : State) (a : Nat) : List Word → State
  | [] => s
  | v :: r =>
    let s := if regBase ≤ a then s.regWrite .invasive a v else match s.dbgMem a true with
      | some p => s.dbgWrite p v
      | none => s
    s.dbgPuts (a + 8) r
/-- Whether a word may be accessed. -/
def State.dbgMay (s : State) (level a : Nat) (wr : Bool) : Bool :=
  if regBase ≤ a then s.dbgReg level a wr
  else decide (2 ≤ level) && (match s.dbgMem a wr with
    | some p => !s.secretAt p
    | none => false)
def State.dbgSecret (s : State) (a : Nat) : Bool := match s.dbgMem a false with
  | some p => decide (a < regBase) && s.secretAt p
  | none => false
/-- The session was used now. -/
def State.touchSession (s : State) : State := s.setMc (fun m => { m with session := m.session.map (fun x => { x with used := s.now }) })
def State.dbgRd (s : State) (q : McAsk) (level a n : Nat) : State :=
  let l := (List.range (n / 8)).map (fun i => a + 8 * i)
  if !l.all (fun x => s.dbgMay level x false) then
    (s.noteSecret (l.any s.dbgSecret)).respond q 3 []
  else
    let r := s.dbgReads level a (n / 8)
    if r.2.1 then r.2.2.respond q 7 [] else r.2.2.respond q 0 (wordsBytes r.1)
/-- Whether a word is a reserved one of a cluster's scratch: a write of it is refused there (R263). -/
def State.reservedWord (s : State) (a : Nat) : Option Nat :=
  let c := (a - 0x001000000000) / 0x100000
  if 0x001000000000 ≤ a ∧ c < 64 ∧ s.reservedArea c (a % 0x80000) then some c else none
/-- A word of memory whose presence state is DEFERRED: a plain-view write faults and stores nothing (R68). The frame that asks for it answers
STATE (DESIGN CHOICE, log 49). -/
def State.deferredWord (s : State) (a : Nat) : Bool := match s.dbgMem a true with
  | some p => decide (a < regBase ∧ p < lsBase 0) && s.presAt p == .deferred
  | none => false
def State.dbgWr (s : State) (q : McAsk) (level a : Nat) (d : List Byte) : State :=
  let n := d.length / 8
  let l := (List.range n).map (fun i => a + 8 * i)
  if !l.all (fun x => s.dbgMay level x true) then
    (match l.findSome? s.reservedWord with
      | some c => if level < 2 then s else s.bump (aScStat c ssDENIED)
      | none => s).respond q 3 []
  else if l.any s.deferredWord then s.respond q 7 []
  else (s.dbgPuts a ((List.range n).map (fun i => BitVec.ofNat 64 (bytesLe d (8 * i) 8)))).done q
/-- HALT: the pair halts together. -/
def State.dbgHaltPe (s : State) (n : Nat) : State :=
  let n := pairPe n
  if (s.pe n).halt = .run then
    (s.updPe n (fun p => { p with halt := .requested, useq := { p.useq with haltTrap := true } })).setMc (fun m =>
      { m with session := m.session.map (fun x => { x with halted := x.halted ++ [n] }) })
  else s
def State.dbgResumePe (s : State) (n : Nat) : State :=
  let n := pairPe n
  (s.updPe n (fun p => { p with halt := .run, useq := p.useq.endHalt })).setMc (fun m =>
    { m with session := m.session.map (fun x => { x with halted := x.halted.filter (· ≠ n) }) })
/-- DBG_OP of operation `op`, over Ethernet with at most 1,440 bytes to read (DESIGN CHOICE, log 53): a frame that names another operation is not this command's. -/
def State.dbgOp (s : State) (op : Nat) (q : McAsk) (d : List Byte) : State :=
  let o := bytesLe d 0 1
  let n := bytesLe d 2 2
  let k := bytesLe d 4 4
  let a := bytesLe d 8 6
  let pe := decide (o ≤ 3)
  let bad := d.length ≠ (if o = 5 then 16 + k else 16) ∨ !allZero ((d.take 2).drop 1) ∨ !allZero ((d.take 16).drop 14)
    ∨ (pe ∧ (k ≠ 0 ∨ a ≠ 0)) ∨ (!pe ∧ (n ≠ 0 ∨ k < 8 ∨ 2016 < k ∨ (o = 4 ∧ respMax q.ch < k) ∨ k % 8 ≠ 0 ∨ a % 8 ≠ 0))
  if 1 ≤ o ∧ o ≤ 5 ∧ o ≠ op then s
  else if o < 1 ∨ 5 < o ∨ bad then s.respond q 2 []
  else match s.sessionOn q.ch with
    | none => s.respond q 3 []
    | some x =>
      let s := s.touchSession
      if o = 4 then s.dbgRd q x.level a k
      else if x.level < 2 then s.respond q 3 []
      else if o = 5 then s.dbgWr q x.level a (d.drop 16)
      else if !s.peReach n then s.respond q 3 []
      else if o = 1 then (s.dbgHaltPe n).done q
      else if o = 2 then
        if (s.pe n).halt = .halted then (s.updPe n (fun p => { p with halt := .step })).done q else s.respond q 7 []
      else (s.dbgResumePe n).done q

/-! TRACE. -/

/-- TRACE start or stop, over Ethernet within a session. -/
def State.traceCmd (s : State) (start : Bool) (q : McAsk) (d : List Byte) : State :=
  let o := bytesLe d 0 1
  let v := bytesLe d 1 1
  if o ≤ 1 ∧ (o == 1) ≠ start then s
  else if d.length ≠ 8 ∨ 1 < o ∨ 4 < v ∨ !allZero (d.drop 2) then s.respond q 2 []
  else if q.ch ≠ 1 ∨ (s.sessionOn 1).isNone then s.respond q 3 []
  else (s.setMc (fun m => { m with trace := if start then some (v, 0) else none })).done q

/-! Timeouts, restarts and the generator. -/

/-- MC_WATCHDOG_RESTART: frames in progress go, the session ends, an update is aborted, a graph start that was interrupted is stopped. -/
def State.mcRestart (s : State) : State :=
  if !s.mc.up then s
  else
    let s := (s.endSession.dcqFlush (aMcDcq 0)).dcqFlush (aMcDcq 1)
    let s := s.setMc (fun m => { m with update := none, windows := [], lcNonce := none, dbgNonce := none, trace := none })
    let s := (s.atTime (s.now + 54 * msec)).chooseFirmware
    let s := if s.mc.up then s.logFree 67 .mcRestart .deferred else s
    match s.mc.graph with
    | some g => if g.starting ∧ s.mc.up then (s.graphKill g ⟨0, 0, 0, 0, 0⟩).logFree 67 .graphStartLost .deferred else s
    | none => s
/-- RNG_FAIL: a health test fails. -/
def State.rngFail (s : State) : State :=
  if s.mc.up ∧ s.mc.rngOk then (s.setMc (fun m => { m with rngOk := false })).logFree 67 .rngFail .deferred else s

/-! PMBus (R452): the word that the target returns stands in `pmbus`. -/

def State.pmAnswer (s : State) (v : BitVec 16) : State := if s.mc.up then s.setMc (fun m => { m with pmbus := v.toNat }) else s
/-- Millivolts and milliamperes of input i. -/
def State.inMv (s : State) (i : Nat) : Nat := s.rfld (aMcVmon i) 15 0
def State.inMa (s : State) (i : Nat) : Nat := s.rfld (aMcVmon i) 47 32 * 10

/-! JTAG (R453): BYPASS 0, IDCODE 1, SAMPLE/PRELOAD 2, EXTEST 3. -/

/-- Select an instruction; leaving EXTEST gives the lands back. -/
def State.tapSet (s : State) (t : Nat) : State := (s.setMc (fun m => { m with tap := t })).driveLands
/-- EXTEST drives the preloaded levels; outside a FACTORY session the TAP does not offer it. -/
def State.extest (s : State) : State :=
  if s.mc.session.any (fun x => x.level == 3) then
    (s.setMc (fun m => { m with tap := 3 })).setRfld aSafeOut 23 16 (Config.boundarySafe s.mc.scan)
  else s.tapSet 0

/-! Commands. -/

def execDbgChallenge (r : McReq) (s : State) : Out := onModule s (fun s => s.mcRun 0x40 clsDEBUG r State.dbgChallenge)
def execDbgOpen (r : McReq) (s : State) : Out := onModule s (fun s => s.mcRun 0x41 clsDEBUG r State.dbgOpenCmd)
def execDbgClose (r : McReq) (s : State) : Out := onModule s (fun s => s.mcRun 0x42 clsDEBUG r State.dbgCloseCmd)
def execDbgHalt (r : McReq) (s : State) : Out := onModule s (fun s => s.mcRun 0x43 clsDEBUG r (fun s q d => s.dbgOp 1 q d))
def execDbgStep (r : McReq) (s : State) : Out := onModule s (fun s => s.mcRun 0x43 clsDEBUG r (fun s q d => s.dbgOp 2 q d))
def execDbgResume (r : McReq) (s : State) : Out := onModule s (fun s => s.mcRun 0x43 clsDEBUG r (fun s q d => s.dbgOp 3 q d))
def execDbgMemRead (r : McReq) (s : State) : Out := onModule s (fun s => s.mcRun 0x43 clsDEBUG r (fun s q d => s.dbgOp 4 q d))
def execDbgMemWrite (r : McReq) (s : State) : Out := onModule s (fun s => s.mcRun 0x43 clsDEBUG r (fun s q d => s.dbgOp 5 q d))
def execTraceStart (r : McReq) (s : State) : Out := onModule s (fun s => s.mcRun 0x44 clsDEBUG r (fun s q d => s.traceCmd true q d))
def execTraceStop (r : McReq) (s : State) : Out := onModule s (fun s => s.mcRun 0x44 clsDEBUG r (fun s q d => s.traceCmd false q d))
/-- DEBUG_SESSION_TIMEOUT: IDLE seconds without a DBG_OP, or OPSEC past OPSEC_MAX. -/
def execDebugSessionTimeout (s : State) : Out := onModule s (fun s => s.endSession)
def execMcWatchdogRestart (s : State) : Out := onModule s (fun s => s.mcRestart)
def execRngFail (s : State) : Out := onModule s (fun s => s.rngFail)
/-- RNG_RETEST: the retest passes or fails. -/
def execRngRetest (ok : Bool) (s : State) : Out :=
  onModule s (fun s => if s.mc.up ∧ ok then s.setMc (fun m => { m with rngOk := true }) else s)
def execPmbusReadVin (s : State) : Out := onModule s (fun s => s.pmAnswer (Config.linear11 (max (s.inMv 0) (s.inMv 1))))
def execPmbusReadIin (s : State) : Out := onModule s (fun s => s.pmAnswer (Config.linear11 (s.inMa 0 + s.inMa 1)))
def execPmbusReadPin (s : State) : Out :=
  onModule s (fun s => s.pmAnswer (Config.linear11 ((s.inMv 0 * s.inMa 0 + s.inMv 1 * s.inMa 1) / 1000)))
def execPmbusReadTemperature1 (s : State) : Out :=
  onModule s (fun s => s.pmAnswer (Config.linear11 (Config.pmbusTemp ((List.range 24).map (fun i => s.reg (aMcTemp i))))))
def execPmbusStatusWord (s : State) : Out := onModule s (fun s => s.pmAnswer (Config.statusWord [s.reg aPwStatus, s.reg aPwState]))
def execJtagBypass (s : State) : Out := onModule s (fun s => if s.powered then s.tapSet 0 else s)
/-- JTAG_IDCODE: the TAP shifts out SEC_IDCODE. -/
def execJtagIdcode (s : State) : Out :=
  onModule s (fun s => if s.powered then { s.tapSet 1 with rdata := [s.reg aSecIdcode] } else s)
/-- JTAG_SAMPLE_PRELOAD: the lands are captured, and v is preloaded. -/
def execJtagSamplePreload (v : Nat) (s : State) : Out :=
  onModule s (fun s =>
    if s.powered then
      let d := s.draw
      { (d.2.tapSet 2).setMc (fun m => { m with scan := v }) with rdata := [BitVec.ofNat 64 (Config.boundary d.1)] }
    else s)
def execJtagExtest (s : State) : Out := onModule s (fun s => if s.powered then s.extest else s)
/-- A frame ends at the management Ethernet receive DCQ, of 2,048 words: a longer one is OVERSIZE (R390), one above 1,522 bytes or with a wrong
frame check sequence is rewound (R389), and neither reaches Beynas (R395). The check sequence is the CRC-32 of the frame before it, lowest byte
first (PRESUMED, log 53: IEEE 802.3). -/
def State.ethFrame (s : State) (frame : List Byte) : State :=
  let n := frame.length
  if 16384 < n then s.oversize (aMcDcq 2) (srcOf 91 2) (crossDetail 93 91 0 2)
  else if 1522 < n ∨ n < 4 ∨ leNat (frame.drop (n - 4)) ≠ crc32 (frame.take (n - 4)) then s.rewound (aMcDcq 2)
  else if s.mc.up then s.setMc (fun m => { m with resp := (0, Config.netAnswer (frame.take (n - 4))) })
  else s
/-- ARP_ICMP_ECHO: the answer to a frame, which is given with its frame check sequence. -/
def execArpIcmpEcho (frame : List Byte) (s : State) : Out := onModule s (fun s => if s.powered then s.ethFrame frame else s)

end Sys2Proof.Machine
end

