-- ==== Sys2Proof/Machine/FloatOps.lean ====
section
/-! DEFINITION. The floating-point group (R168 to R171, R205 to R214). -/

namespace Sys2Proof.Machine

/-- The operand of a format in a register: the whole of it, or bits 31:0 (R168). -/
def Fmt.arg (m : Fmt) (w : Word) : Nat := w.toNat % 2 ^ m.width
def Fmt.val (m : Fmt) (w : Word) : FVal := m.read (m.arg w)

/-- An FP instruction with two sources. -/
def fpAB (m : Fmt) (code unit : Nat) (op : Nat → FVal → FVal → FRes) : State → Nat → Act → Fields → Issued :=
  semAB code (fun a x y p d =>
    let r := op a.rm (m.val x) (m.val y)
    fpResult a d x y 0 (BitVec.ofNat 64 r.bits) r.fl r.tiny p unit)

/-- A fused operation with three sources. -/
def fpABC (m : Fmt) (code : Nat) (op : Nat → FVal → FVal → FVal → FRes) : State → Nat → Act → Fields → Issued :=
  fun _ _ a f =>
    if isDst f.d && isSrc f.a && isSrc f.b && isSrc f.c then
      let r := op a.rm (m.val (a.src f.a)) (m.val (a.src f.b)) (m.val (a.src f.c))
      fpResult a f.d (a.src f.a) (a.src f.b) (a.src f.c) (BitVec.ofNat 64 r.bits) r.fl r.tiny
        (a.poisoned f.a || a.poisoned f.b || a.poisoned f.c) uFmul
    else badWord code f

/-- FMIN and FMAX (R212). -/
def fpMinMax (m : Fmt) (code : Nat) (mx : Bool) : State → Nat → Act → Fields → Issued :=
  semAB code (fun a x y p d =>
    let r := m.minmax mx (m.val x) (m.val y) (m.arg x) (m.arg y)
    fpResult a d x y 0 (BitVec.ofNat 64 r.bits) r.fl r.tiny p uDup)

/-- A conversion with one source, its result given as a word and flags. -/
def fpCvt (code : Nat) (op : Nat → Word → Flagged × Bool) : State → Nat → Act → Fields → Issued :=
  semA code (fun a x p d =>
    let r := op a.rm x
    fpResult a d x 0 0 r.1.val r.1.fl r.2 p uDup)

def ofFRes (r : FRes) : Flagged × Bool := (⟨BitVec.ofNat 64 r.bits, r.fl⟩, r.tiny)

def opFp2 (code : Nat) : Op := opDAB code
def opFp3 (code : Nat) : Op := ⟨code, usesDABC, fun f => [f.a, f.b, f.c], false, allKinds⟩
/-- FCMP and FSGN: SC is a modifier. -/
def opFpM (code : Nat) : Op := ⟨code, usesDABC, fun f => [f.a, f.b], false, allKinds⟩

def fsubOp (m : Fmt) (rm : Nat) (x y : FVal) : FRes := m.add rm x y.negate
def fmsOp (m : Fmt) (rm : Nat) (x y z : FVal) : FRes := m.fma rm x y z.negate
def fnmaOp (m : Fmt) (rm : Nat) (x y z : FVal) : FRes := m.fma rm x.negate y z

/-- FCMP (R169). -/
def fpCmp (m : Fmt) (code : Nat) : State → Nat → Act → Fields → Issued :=
  fun _ _ a f =>
    if isDst f.d && isSrc f.a && isSrc f.b && decide (f.c < 4) then
      let r := fcmpRel f.c (m.val (a.src f.a)) (m.val (a.src f.b))
      fpResult a f.d (a.src f.a) (a.src f.b) 0 r.val r.fl false (a.poisoned f.a || a.poisoned f.b) uDup
    else badWord code f

/-- FSGN (R170): SB is used with modifiers 2 and 3 only. -/
def fpSgn (m : Fmt) (code : Nat) : State → Nat → Act → Fields → Issued :=
  fun _ _ a f =>
    if isDst f.d && isSrc f.a && isSrc f.b && decide (f.c < 4) && (decide (2 ≤ f.c) || f.b == 0) then
      fpResult a f.d (a.src f.a) (a.src f.b) 0 (BitVec.ofNat 64 (m.fsgn f.c (m.arg (a.src f.a)) (m.arg (a.src f.b)))) 0 false
        (a.poisoned f.a || (decide (2 ≤ f.c) && a.poisoned f.b)) uDup
    else badWord code f

/-- FSGN reads SB only with modifiers 2 and 3. -/
def opFsgn (code : Nat) : Op :=
  ⟨code, usesDABC, fun f => f.a :: (if 2 ≤ f.c then [f.b] else []), false, allKinds⟩

def execFaddD (pe : Nat) (f : Fields) (s : State) : Out := runOp pe (opFp2 0x80) f (fpAB fmtD 0x80 uFadd fmtD.add) s
def execFsubD (pe : Nat) (f : Fields) (s : State) : Out := runOp pe (opFp2 0x81) f (fpAB fmtD 0x81 uFadd (fsubOp fmtD)) s
def execFmulD (pe : Nat) (f : Fields) (s : State) : Out := runOp pe (opFp2 0x82) f (fpAB fmtD 0x82 uFmul fmtD.mul) s
def execFmaD (pe : Nat) (f : Fields) (s : State) : Out := runOp pe (opFp3 0x83) f (fpABC fmtD 0x83 fmtD.fma) s
def execFmsD (pe : Nat) (f : Fields) (s : State) : Out := runOp pe (opFp3 0x84) f (fpABC fmtD 0x84 (fmsOp fmtD)) s
def execFnmaD (pe : Nat) (f : Fields) (s : State) : Out := runOp pe (opFp3 0x85) f (fpABC fmtD 0x85 (fnmaOp fmtD)) s
def execFminD (pe : Nat) (f : Fields) (s : State) : Out := runOp pe (opFp2 0x86) f (fpMinMax fmtD 0x86 false) s
def execFmaxD (pe : Nat) (f : Fields) (s : State) : Out := runOp pe (opFp2 0x87) f (fpMinMax fmtD 0x87 true) s
def execFcmpD (pe : Nat) (f : Fields) (s : State) : Out := runOp pe (opFpM 0x88) f (fpCmp fmtD 0x88) s
def execFcvtDS (pe : Nat) (f : Fields) (s : State) : Out :=
  runOp pe (opDA 0x89) f (fpCvt 0x89 (fun rm x => ofFRes (cvtFmt fmtS fmtD rm (fmtS.val x)))) s
def execFcvtSD (pe : Nat) (f : Fields) (s : State) : Out :=
  runOp pe (opDA 0x8A) f (fpCvt 0x8A (fun rm x => ofFRes (cvtFmt fmtD fmtS rm (fmtD.val x)))) s
def execFcvtDI (pe : Nat) (f : Fields) (s : State) : Out :=
  runOp pe (opDA 0x8B) f (fpCvt 0x8B (fun rm x => ofFRes (fmtD.ofInt rm x.toInt 0))) s
def execFcvtID (pe : Nat) (f : Fields) (s : State) : Out :=
  runOp pe (opDA 0x8C) f (fpCvt 0x8C (fun rm x => (toInt64 rm 0 0x8000000000000000 (fmtD.val x), false))) s
def execFcvtDQ (pe : Nat) (f : Fields) (s : State) : Out :=
  runOp pe (opDA 0x8D) f (fpCvt 0x8D (fun rm x => ofFRes (fmtD.ofInt rm x.toInt (-63)))) s
def execFcvtQD (pe : Nat) (f : Fields) (s : State) : Out :=
  runOp pe (opDA 0x8E) f (fpCvt 0x8E (fun rm x => (toInt64 rm (-63) 0 (fmtD.val x), false))) s
def execFsgnD (pe : Nat) (f : Fields) (s : State) : Out := runOp pe (opFsgn 0x8F) f (fpSgn fmtD 0x8F) s
def execFaddS (pe : Nat) (f : Fields) (s : State) : Out := runOp pe (opFp2 0x90) f (fpAB fmtS 0x90 uFadd fmtS.add) s
def execFsubS (pe : Nat) (f : Fields) (s : State) : Out := runOp pe (opFp2 0x91) f (fpAB fmtS 0x91 uFadd (fsubOp fmtS)) s
def execFmulS (pe : Nat) (f : Fields) (s : State) : Out := runOp pe (opFp2 0x92) f (fpAB fmtS 0x92 uFmul fmtS.mul) s
def execFmaS (pe : Nat) (f : Fields) (s : State) : Out := runOp pe (opFp3 0x93) f (fpABC fmtS 0x93 fmtS.fma) s
def execFmsS (pe : Nat) (f : Fields) (s : State) : Out := runOp pe (opFp3 0x94) f (fpABC fmtS 0x94 (fmsOp fmtS)) s
def execFnmaS (pe : Nat) (f : Fields) (s : State) : Out := runOp pe (opFp3 0x95) f (fpABC fmtS 0x95 (fnmaOp fmtS)) s
def execFminS (pe : Nat) (f : Fields) (s : State) : Out := runOp pe (opFp2 0x96) f (fpMinMax fmtS 0x96 false) s
def execFmaxS (pe : Nat) (f : Fields) (s : State) : Out := runOp pe (opFp2 0x97) f (fpMinMax fmtS 0x97 true) s
def execFcmpS (pe : Nat) (f : Fields) (s : State) : Out := runOp pe (opFpM 0x98) f (fpCmp fmtS 0x98) s
/-- FCLASS (R170): SC selects the format. -/
def execFclass (pe : Nat) (f : Fields) (s : State) : Out :=
  runOp pe ⟨0x99, ⟨true, true, false, true, false⟩, fun f => [f.a], false, allKinds⟩ f
    (fun _ _ a f =>
      if isDst f.d && isSrc f.a && decide (f.c < 2) then
        let m := if f.c = 0 then fmtD else fmtS
        fpResult a f.d (a.src f.a) 0 0 (BitVec.ofNat 64 (m.classify (m.val (a.src f.a)))) 0 false (a.poisoned f.a) uDup
      else badWord 0x99 f) s
def execFcvtSI (pe : Nat) (f : Fields) (s : State) : Out :=
  runOp pe (opDA 0x9A) f (fpCvt 0x9A (fun rm x => ofFRes (fmtS.ofInt rm x.toInt 0))) s
def execFcvtIS (pe : Nat) (f : Fields) (s : State) : Out :=
  runOp pe (opDA 0x9B) f (fpCvt 0x9B (fun rm x => (toInt64 rm 0 0x8000000000000000 (fmtS.val x), false))) s
def execFsgnS (pe : Nat) (f : Fields) (s : State) : Out := runOp pe (opFsgn 0x9C) f (fpSgn fmtS 0x9C) s

end Sys2Proof.Machine
end

