-- ==== Sys2Proof/Machine/Engine.lean ====
section
/-! DEFINITION. The arithmetic engine of a cluster (R165 to R167, R193, R202 to R204, R218 to R222). -/

namespace Sys2Proof.Machine

def State.ae (s : State) (c : Nat) : Ae := Tbl.get Ae.init s.aes c
def State.setAe (s : State) (c : Nat) (v : Ae) : State := { s with aes := Tbl.set Ae.init s.aes c v }
/-- Whether an operation runs on the 128-bit multiplier and not on a recurrence unit (R167). -/
def AeOp.isMul : AeOp → Bool
  | .mul128S | .mul128U => true
  | _ => false

/-- A binary floating-point result as a flagged word. -/
def FRes.flagged (r : FRes) : Flagged := ⟨BitVec.ofNat 64 r.bits, r.fl⟩
/-- Result and flags of an operation other than a 128-bit multiply (R193, R204, R209 to R211). -/
def AeReq.result (r : AeReq) : Flagged :=
  let a := r.a.toNat
  let b := r.b.toNat
  match r.op with
  | .divS => divSigned r.a r.b
  | .divU => divUnsigned r.a r.b
  | .remS => remSigned r.a r.b
  | .remU => remUnsigned r.a r.b
  | .divq => divQ r.fxrm r.sat r.a r.b
  | .fdivD => (fmtD.div r.rm (fmtD.read a) (fmtD.read b)).flagged
  | .fdivS => (fmtS.div r.rm (fmtS.read a) (fmtS.read b)).flagged
  | .fsqrtD => (fmtD.sqrt r.rm (fmtD.read a)).flagged
  | .fsqrtS => (fmtS.sqrt r.rm (fmtS.read a)).flagged
  | .isqrt => ⟨isqrtWord r.a, 0⟩
  | .mul128S | .mul128U => ⟨0, 0⟩
/-- The reply value (R166). -/
def AeReq.value (r : AeReq) : Wide :=
  match r.op with
  | .mul128S => mulSigned r.a r.b
  | .mul128U => mulUnsigned r.a r.b
  | _ =>
    let v := r.result
    mkWide (BitVec.ofNat 64 (put 5 5 (decide (v.fl &&& r.ten ≠ 0)).toNat + put 4 0 v.fl)) v.val

/-- Start waiting requests: each kind in acceptance order on its own units (R167). -/
def Ae.start (a : Ae) : Ae :=
  let m := a.queue.filter (fun r => r.op.isMul)
  let q := a.queue.filter (fun r => !r.op.isMul)
  let a := { a with queue := q, pipe := a.pipe ++ m }
  match a.unit0, a.unit1, q with
  | none, none, x :: y :: r => { a with queue := r, unit0 := some x, unit1 := some y }
  | none, _, x :: r => { a with queue := r, unit0 := some x }
  | some _, none, x :: r => { a with queue := r, unit1 := some x }
  | _, _, _ => a

/-- AE_REQUEST_ACCEPT: the AE takes the request at the head of PE n's outbound queue while its queue has room. -/
def State.aeAccept (s : State) (n : Nat) : State :=
  match s.nextOut n with
  | some (m, p) =>
    match m.ae with
    | some r =>
      let c := peEndpoint n
      let a := s.ae c
      if a.queue.length < 16 then (s.setPe n p).setAe c ({ a with queue := a.queue ++ [r] }).start else s
    | none => s
  | none => s

/-- The request whose time on unit u has passed: units 0 and 1 are the recurrence units, 2 the multiplier. -/
def Ae.atUnit (a : Ae) (u : Nat) : Option AeReq :=
  match u with
  | 0 => a.unit0
  | 1 => a.unit1
  | _ => a.pipe.head?
def Ae.putUnit (a : Ae) (u : Nat) (r : Option AeReq) : Ae :=
  match u with
  | 0 => { a with unit0 := r }
  | 1 => { a with unit1 := r }
  | _ => { a with pipe := r.toList ++ a.pipe.tail }

/-- Whether the injection register of cluster c corrupts the next result of unit u (R222). -/
def State.aeArmed (s : State) (c u : Nat) : Bool :=
  bitAt (s.reg (aAeResInject c)) 0 && s.rfld (aAeResInject c) 3 1 == (if u < 2 then 0 else 1)

/-- AE_REPLY: the residue check, a rerun after a first mismatch, ARITH_CHECK after a second (R220), otherwise the reply token.
`mismatch` says that the hardware's residue check failed by itself. -/
def State.aeReply (s : State) (c u : Nat) (mismatch : Bool) : State :=
  let a := s.ae c
  match a.atUnit u with
  | none => s
  | some r =>
    let armed := s.aeArmed c u
    let s := if armed then s.setRfld (aAeResInject c) 0 0 0 else s
    if armed || mismatch then
      if r.rerun then
        (((s.setAe c (a.putUnit u none).start).bump (aAeStat c 1)).logFree c .arithCheck .deferred (some r.pe) (some (tCtx r.tag))).deliverTo (issuerOf c r.reply) c none
          r.reply true .arithCheck 0 1
      else (s.setAe c (a.putUnit u (some { r with rerun := true }))).bump (aAeStat c 0)
    else (s.setAe c (a.putUnit u none).start).replyToken c r.reply r.value false

def execAeRequestAccept (pe : Nat) (s : State) : Out := onPe pe s (fun s => s.aeAccept pe)
def execAeReply (c u : Nat) (mismatch : Bool) (s : State) : Out := onCluster c s (fun s => if u < 3 then s.aeReply c u mismatch else s)

end Sys2Proof.Machine
end

