-- ==== Sys2Proof/Machine/FixedOps.lean ====
section
/-! DEFINITION. Fixed point and guarded accumulators (R163, R164), and the multiplies of group 0b011 (R143, R199). -/

namespace Sys2Proof.Machine

/-- Fixed-point result of one or two G sources at distance 2. -/
def fixAB (code : Nat) (op : Act → Word → Word → FxRes 64) := semAB code (fun a x y p d => fxResult d 2 (op a x y) p uFix 0)
def fixA (code : Nat) (op : Act → Word → FxRes 64) := semA code (fun a x p d => fxResult d 2 (op a x) p uFix 0)
/-- A fixed-point shift: PE_RES_INJECT counts it under the fixed-point ALU, as every GA operation, moves and ACCQ among them (R222 names an ALU and
a multiplier and no shifter; DESIGN CHOICE, log 53). -/
def fixAI (code : Nat) (op : Act → Word → Nat → FxRes 64) :=
  semAI code (fun i => decide (i < 64)) (fun a x i p d => fxResult d 2 (op a x i) p uFix 0)

def execAddq (pe : Nat) (f : Fields) (s : State) : Out := runOp pe (opDAB 0x40) f (fixAB 0x40 (fun a x y => fxAdd a.sat x y)) s
def execSubq (pe : Nat) (f : Fields) (s : State) : Out := runOp pe (opDAB 0x41) f (fixAB 0x41 (fun a x y => fxSub a.sat x y)) s
def execNegq (pe : Nat) (f : Fields) (s : State) : Out := runOp pe (opDA 0x42) f (fixA 0x42 (fun a x => fxNeg a.sat x)) s
def execAbsq (pe : Nat) (f : Fields) (s : State) : Out := runOp pe (opDA 0x43) f (fixA 0x43 (fun a x => fxAbs a.sat x)) s
def execAddq32 (pe : Nat) (f : Fields) (s : State) : Out :=
  runOp pe (opDAB 0x44) f (fixAB 0x44 (fun a x y => fxAdd32 a.sat x y)) s
def execSubq32 (pe : Nat) (f : Fields) (s : State) : Out :=
  runOp pe (opDAB 0x45) f (fixAB 0x45 (fun a x y => fxSub32 a.sat x y)) s
def execShlq (pe : Nat) (f : Fields) (s : State) : Out := runOp pe (opDAI 0x46) f (fixAI 0x46 (fun a x i => fxShl a.sat x i)) s
def execShrq (pe : Nat) (f : Fields) (s : State) : Out := runOp pe (opDAI 0x47) f (fixAI 0x47 (fun a x i => fxShr a.fxrm x i)) s

/-- An accumulation into GA[d], which reads GA[d] chained (R125), in the fixed-point ALU (R222; DESIGN CHOICE, log 53). -/
def accGa (code : Nat) (op : Act → BitVec 80 → Word → Word → FxRes 80) : State → Nat → Act → Fields → Issued :=
  fun _ _ a f =>
    if isGa f.d && isSrc f.a && isSrc f.b then
      let g := a.chained f.d
      fxResult f.d 4 (op a g.1 (a.src f.a) (a.src f.b)) (g.2 || a.poisoned f.a || a.poisoned f.b) uFix 0
    else badWord code f

def execAccq (pe : Nat) (f : Fields) (s : State) : Out :=
  runOp pe (opDAB 0x48) f (accGa 0x48 (fun a g x y => gaAcc a.fxrm a.sat false g x y)) s
def execAccqn (pe : Nat) (f : Fields) (s : State) : Out :=
  runOp pe (opDAB 0x49) f (accGa 0x49 (fun a g x y => gaAcc a.fxrm a.sat true g x y)) s
def execAccq32 (pe : Nat) (f : Fields) (s : State) : Out :=
  runOp pe (opDAB 0x4A) f (accGa 0x4A (fun a g x y => gaAcc32 a.sat g x y)) s

/-- GAADD: both accumulators are read unchained (R164). -/
def execGaadd (pe : Nat) (f : Fields) (s : State) : Out :=
  runOp pe (opDAB 0x4B) f
    (fun _ _ a f =>
      if isGa f.d && isGa f.a && isGa f.b then
        fxResult f.d 4 (gaAdd a.sat (a.gaAt f.a) (a.gaAt f.b)) (a.poisoned f.a || a.poisoned f.b) uFix 0
      else badWord 0x4B f) s
def execMovsGa (pe : Nat) (f : Fields) (s : State) : Out :=
  runOp pe (opDA 0x4C) f
    (fun _ _ a f => if isDst f.d && isGa f.a then fxResult f.d 4 (gaToQ63 a.sat (a.gaAt f.a)) (a.poisoned f.a) uFix 0
      else badWord 0x4C f) s
def execMovsQ31 (pe : Nat) (f : Fields) (s : State) : Out :=
  runOp pe (opDA 0x4D) f
    (fun _ _ a f => if isDst f.d && isGa f.a then fxResult f.d 4 (gaToQ31 a.fxrm a.sat (a.gaAt f.a)) (a.poisoned f.a) uFix 0
      else badWord 0x4D f) s
def execMovtsGa (pe : Nat) (f : Fields) (s : State) : Out :=
  runOp pe (opDA 0x4E) f
    (fun _ _ a f => if isGa f.d && isSrc f.a then fxResult f.d 4 ⟨gaFromQ63 (a.src f.a), 0⟩ (a.poisoned f.a) uFix 0
      else badWord 0x4E f) s
/-- GASHR, in the fixed-point ALU (R222; DESIGN CHOICE, log 53). -/
def execGashr (pe : Nat) (f : Fields) (s : State) : Out :=
  runOp pe (opDAI 0x4F) f
    (fun _ _ a f => if isGa f.d && isGa f.a && decide (f.i < 64) then
        fxResult f.d 4 (gaShr a.fxrm (a.gaAt f.a) f.i) (a.poisoned f.a) uFix 0
      else badWord 0x4F f) s

/-- Latency of the iterative multiplier for SB on PE n: chunks on an A-PE outside cadence mode, else 4 (R143, R199, R200). -/
def mulLatency (n : Nat) (cad signed : Bool) (b : Word) : Nat :=
  if peKind n = .a && !cad then (if signed then chunksSigned b else chunksUnsigned b) else 4

def opMul (code : Nat) : Op := ⟨code, usesDAB, fun f => [f.a, f.b], true, allKinds⟩

/-- A group 0b011 multiply: the result lands after the multiplier's latency on an A-PE, at distance 4 elsewhere. -/
def mulAB (code : Nat) (signed q32 : Bool) (op : Act → Word → Word → FxRes 64) : State → Nat → Act → Fields → Issued :=
  fun _ n a f =>
    if isDst f.d && isSrc f.a && isSrc f.b then
      let lat := mulLatency n a.cad signed (if q32 then sext64 32 (a.src f.b).toNat else a.src f.b)
      fxResult f.d lat (op a (a.src f.a) (a.src f.b)) (a.poisoned f.a || a.poisoned f.b) uMul lat
    else badWord code f

def execMull (pe : Nat) (f : Fields) (s : State) : Out :=
  runOp pe (opMul 0x60) f (mulAB 0x60 true false (fun _ x y => ⟨lo64 (mulSigned x y), 0⟩)) s
def execMulhs (pe : Nat) (f : Fields) (s : State) : Out :=
  runOp pe (opMul 0x61) f (mulAB 0x61 true false (fun _ x y => ⟨hi64 (mulSigned x y), 0⟩)) s
def execMulhu (pe : Nat) (f : Fields) (s : State) : Out :=
  runOp pe (opMul 0x62) f (mulAB 0x62 false false (fun _ x y => ⟨hi64 (mulUnsigned x y), 0⟩)) s
def execMulq (pe : Nat) (f : Fields) (s : State) : Out :=
  runOp pe (opMul 0x63) f (mulAB 0x63 true false (fun a x y => fxMul a.fxrm a.sat x y)) s
def execMulq32 (pe : Nat) (f : Fields) (s : State) : Out :=
  runOp pe (opMul 0x64) f (mulAB 0x64 true true (fun a x y => fxMul32 a.fxrm a.sat x y)) s

end Sys2Proof.Machine
end

