-- ==== Sys2Proof/Machine/ExtOps.lean ====
section
/-! DEFINITION. The A-PE and K-PE extensions (R187 to R190, R228 to R239, R250, R252). -/

namespace Sys2Proof.Machine

def usesAB : Uses := ⟨false, true, true, false, false⟩

/-! A-PE. -/

/-- MUL.S and MUL.U write MH:ML. Those carry no poison bit (R122), and a poisoned operand raises no fault (R123): the poison ends here
(log 26). -/
def semMulWide (code : Nat) (signed : Bool) : State → Nat → Act → Fields → Issued :=
  fun _ n a f =>
    if isSrc f.a && isSrc f.b then
      let lat := mulLatency n a.cad signed (a.src f.b)
      .ok [⟨lat, .product (if signed then mulSigned (a.src f.a) (a.src f.b) else mulUnsigned (a.src f.a) (a.src f.b))⟩] .next false
        (some uMul) lat
    else badWord code f

def opApe (code : Nat) (mul : Bool) : Op := ⟨code, usesAB, fun f => [f.a, f.b], mul, [.a]⟩

def execMulS (pe : Nat) (f : Fields) (s : State) : Out := runOp pe (opApe 0xE0 true) f (semMulWide 0xE0 true) s
def execMulU (pe : Nat) (f : Fields) (s : State) : Out := runOp pe (opApe 0xE1 true) f (semMulWide 0xE1 false) s

/-- Bound state and owner of an LACC as issue sees it: an LCLR on its way has bound it. -/
def laccOwner (s : State) (n : Nat) (a : Act) (k : Nat) : Option Nat :=
  if a.flights.any (fun f => f.eff == .lclr k) then some (tCtx a.tag)
  else if (s.lacc n k).bound then some (s.lacc n k).owner else none

/-- The fault of an LACC operation by the binding rules (R230), counted in PE_STAT_LACCDENY. -/
def laccFault (s : State) (n : Nat) (a : Act) (k : Nat) (w : Word) (bind : Bool) : Option Issued :=
  match laccOwner s n a k with
  | some o => if o = tCtx a.tag then none else some (.bad .accessDenied o (some psLACCDENY))
  | none => if bind then none else some (.bad .illegalSequence (wordDetail w) (some psLACCDENY))

/-- MAC.X and MAC.XN: exact accumulation; IV for a signalling NaN or 0 × ∞, sticky or trapping (R231, R232). -/
def semMacX (code : Nat) (neg : Bool) : State → Nat → Act → Fields → Issued :=
  fun s n a f =>
    let k := fld a.lsel 1 0
    let x := a.src f.a
    let y := a.src f.b
    if !(isSrc f.a && isSrc f.b) then badWord code f
    else match laccFault s n a k (packWord code f) false with
      | some e => e
      | none =>
        let iv := (macProduct x y).iv
        match (if iv then trapExc a flIV false else none) with
        | some exc => .ok [⟨4, .trap 63 x y 0 (BitVec.ofNat 64 fmtD.defNan) exc a.delay a.rep a.rcDue⟩] .next true (some uFmul) 0
        | none => .ok (⟨1, .mac k (.x neg x y)⟩ :: (if iv then [⟨1, .flags flIV 0⟩] else [])) .next true (some uFmul) 0

def execMacX (pe : Nat) (f : Fields) (s : State) : Out := runOp pe (opApe 0xE2 false) f (semMacX 0xE2 false) s
def execMacXn (pe : Nat) (f : Fields) (s : State) : Out := runOp pe (opApe 0xE3 false) f (semMacX 0xE3 true) s

/-- MAC.Q and MAC.QN: exact Q2.126 products through the iterative multiplier. -/
def semMacQ (code : Nat) (neg : Bool) : State → Nat → Act → Fields → Issued :=
  fun s n a f =>
    let k := fld a.lsel 1 0
    if !(isSrc f.a && isSrc f.b) then badWord code f
    else match laccFault s n a k (packWord code f) false with
      | some e => e
      | none =>
        let lat := mulLatency n a.cad true (a.src f.b)
        .ok [⟨lat, .mac k (.q neg (a.src f.a) (a.src f.b))⟩] .next true (some uMul) lat

def execMacQ (pe : Nat) (f : Fields) (s : State) : Out := runOp pe (opApe 0xE4 true) f (semMacQ 0xE4 false) s
def execMacQn (pe : Nat) (f : Fields) (s : State) : Out := runOp pe (opApe 0xE5 true) f (semMacQ 0xE5 true) s

/-- LRD starts a readout in the micro-sequencer with the modes of its issue (R188, R236). -/
def execLrd (pe : Nat) (f : Fields) (s : State) : Out :=
  runOp pe ⟨0xE6, ⟨true, false, false, false, false⟩, fun _ => [], false, [.a]⟩ f
    (fun s n a f =>
      let k := fld a.lsel 1 0
      if !isDst f.d then badWord 0xE6 f
      else match laccFault s n a k (packWord 0xE6 f) false with
        | some e => e
        | none => .ok [] (.lrd ⟨f.d, k, a.lsel, a.rm, a.fxrm, a.sat, a.slot, a.off, packWord 0xE6 f⟩) false none 0) s

/-- LCLR clears the selected LACC, binding it when it is unbound (R230). -/
def execLclr (pe : Nat) (f : Fields) (s : State) : Out :=
  runOp pe ⟨0xE7, usesNone, fun _ => [], false, [.a]⟩ f
    (fun s n a f =>
      let k := fld a.lsel 1 0
      match laccFault s n a k (packWord 0xE7 f) true with
      | some e => e
      | none => .ok [⟨1, .lclr k⟩] .next true none 0) s

/-! K-PE. -/

/-- The bit-serial divide: 66 slots, one divide at a time (R129, R194, R252). A divide 66 slots after an earlier one is not within them (DESIGN
CHOICE, log 53). No unit of PE_RES_INJECT is the divider (R222; DESIGN CHOICE, log 53). -/
def semDivk (code : Nat) (op : Word → Word → Flagged) : State → Nat → Act → Fields → Issued :=
  fun _ _ a f =>
    if !(isDst f.d && isSrc f.a && isSrc f.b) then badWord code f
    else if a.slot < a.divUntil then .bad .illegalSequence (wordDetail (packWord code f)) none
    else .ok [⟨66, .reg f.d ((op (a.src f.a) (a.src f.b)).val.setWidth 80) (a.poisoned f.a || a.poisoned f.b)⟩] .next false none 0

def opKpe (code : Nat) : Op := ⟨code, usesDAB, fun f => [f.a, f.b], false, [.k]⟩

def execDivkS (pe : Nat) (f : Fields) (s : State) : Out := runOp pe (opKpe 0xF0) f (semDivk 0xF0 divSigned) s
def execDivkU (pe : Nat) (f : Fields) (s : State) : Out := runOp pe (opKpe 0xF1) f (semDivk 0xF1 divUnsigned) s
def execRemkS (pe : Nat) (f : Fields) (s : State) : Out := runOp pe (opKpe 0xF2) f (semDivk 0xF2 remSigned) s
def execRemkU (pe : Nat) (f : Fields) (s : State) : Out := runOp pe (opKpe 0xF3) f (semDivk 0xF3 remUnsigned) s

/-- KZERO (R190). -/
def execKzero (pe : Nat) (f : Fields) (s : State) : Out :=
  runOp pe ⟨0xF4, ⟨false, true, false, false, true⟩, fun f => [f.a], false, [.k]⟩ f
    (fun _ n a f =>
      let v := (a.src f.a).toNat
      if !isSrc f.a then badWord 0xF4 f
      else if a.poisoned f.a then .bad .tokenCorrupt (poisonDetail f.a) none
      else if decide (v % 8 ≠ 0) || decide (f.i % 8 ≠ 0) || decide (f.i < 8) || decide (32768 < f.i) || decide (2 ^ 15 ≤ v) then badWord 0xF4 f
      else if decide (lsBytes n < v + f.i) then .bad .addressFault (lsBase n + v) none
      else .ok [⟨0, .zero (lsBase (pairPe n) + v) f.i⟩] .next true none 0) s

/-- SAFEW (R190, R250): with AW = 0 an unowned land faults at issue, with AW = 1 at the write-back point. -/
def execSafew (pe : Nat) (f : Fields) (s : State) : Out :=
  runOp pe ⟨0xF5, ⟨false, false, false, false, true⟩, fun _ => [], false, [.k]⟩ f
    (fun s n a f =>
      if decide (2 ^ 16 ≤ f.i) then badWord 0xF5 f
      else if !a.aw && s.safeUnowned (pairOf n) f.i then .bad .accessDenied f.i none
      else .ok [⟨0, .safew f.i⟩] .next true none 0) s

end Sys2Proof.Machine
end

