-- ==== Sys2Proof/Machine/IntOps.lean ====
section
/-! DEFINITION. The integer ALU group (R161, R162). -/

namespace Sys2Proof.Machine

def anyImm (_ : Nat) : Bool := true
/-- A shift count: IMM[31:6] must be zero (R162). -/
def shiftImm (i : Nat) : Bool := decide (i < 64)
/-- EXTU: IMM[31:13] zero and a width of 1 to 64 (R162). -/
def extuImm (i : Nat) : Bool := decide (i < 8192) && decide (1 ≤ i / 64) && decide (i / 64 ≤ 64)

def execAdd (pe : Nat) (f : Fields) (s : State) : Out := runOp pe (opDAB 0x20) f (intAB 0x20 uInt aluAdd) s
def execAddi (pe : Nat) (f : Fields) (s : State) : Out :=
  runOp pe (opDAI 0x21) f (intAI 0x21 uInt anyImm (fun x i => x + sext64 32 i)) s
def execSub (pe : Nat) (f : Fields) (s : State) : Out := runOp pe (opDAB 0x22) f (intAB 0x22 uInt aluSub) s
def execAndd (pe : Nat) (f : Fields) (s : State) : Out := runOp pe (opDAB 0x23) f (intAB 0x23 uDup (· &&& ·)) s
def execAndi (pe : Nat) (f : Fields) (s : State) : Out :=
  runOp pe (opDAI 0x24) f (intAI 0x24 uDup anyImm (fun x i => x &&& BitVec.ofNat 64 i)) s
def execOrr (pe : Nat) (f : Fields) (s : State) : Out := runOp pe (opDAB 0x25) f (intAB 0x25 uDup (· ||| ·)) s
def execOri (pe : Nat) (f : Fields) (s : State) : Out :=
  runOp pe (opDAI 0x26) f (intAI 0x26 uDup anyImm (fun x i => x ||| BitVec.ofNat 64 i)) s
def execXor (pe : Nat) (f : Fields) (s : State) : Out := runOp pe (opDAB 0x27) f (intAB 0x27 uDup (· ^^^ ·)) s
def execXori (pe : Nat) (f : Fields) (s : State) : Out :=
  runOp pe (opDAI 0x28) f (intAI 0x28 uDup anyImm (fun x i => x ^^^ BitVec.ofNat 64 i)) s
def execShl (pe : Nat) (f : Fields) (s : State) : Out := runOp pe (opDAB 0x29) f (intAB 0x29 uDup aluShl) s
def execShr (pe : Nat) (f : Fields) (s : State) : Out := runOp pe (opDAB 0x2A) f (intAB 0x2A uDup aluShr) s
def execSar (pe : Nat) (f : Fields) (s : State) : Out := runOp pe (opDAB 0x2B) f (intAB 0x2B uDup aluSar) s
def execShli (pe : Nat) (f : Fields) (s : State) : Out :=
  runOp pe (opDAI 0x2C) f (intAI 0x2C uDup shiftImm (fun x i => aluShl x (BitVec.ofNat 64 i))) s
def execShri (pe : Nat) (f : Fields) (s : State) : Out :=
  runOp pe (opDAI 0x2D) f (intAI 0x2D uDup shiftImm (fun x i => aluShr x (BitVec.ofNat 64 i))) s
def execSari (pe : Nat) (f : Fields) (s : State) : Out :=
  runOp pe (opDAI 0x2E) f (intAI 0x2E uDup shiftImm (fun x i => aluSar x (BitVec.ofNat 64 i))) s
def execClz (pe : Nat) (f : Fields) (s : State) : Out := runOp pe (opDA 0x2F) f (intA 0x2F uInt aluClz) s
def execCmpeq (pe : Nat) (f : Fields) (s : State) : Out :=
  runOp pe (opDAB 0x30) f (intAB 0x30 uDup (fun x y => boolWord (x == y))) s
def execCmplt (pe : Nat) (f : Fields) (s : State) : Out :=
  runOp pe (opDAB 0x31) f (intAB 0x31 uDup (fun x y => boolWord (decide (x.toInt < y.toInt)))) s
def execCmpltu (pe : Nat) (f : Fields) (s : State) : Out :=
  runOp pe (opDAB 0x32) f (intAB 0x32 uDup (fun x y => boolWord (decide (x.toNat < y.toNat)))) s
def execMin (pe : Nat) (f : Fields) (s : State) : Out := runOp pe (opDAB 0x33) f (intAB 0x33 uDup aluMin) s
def execMax (pe : Nat) (f : Fields) (s : State) : Out := runOp pe (opDAB 0x34) f (intAB 0x34 uDup aluMax) s
def execMinu (pe : Nat) (f : Fields) (s : State) : Out := runOp pe (opDAB 0x35) f (intAB 0x35 uDup aluMinu) s
def execMaxu (pe : Nat) (f : Fields) (s : State) : Out := runOp pe (opDAB 0x36) f (intAB 0x36 uDup aluMaxu) s
/-- SEL: SA when SC is not zero, else SB; the result is poisoned when any of the three is (R122). -/
def execSel (pe : Nat) (f : Fields) (s : State) : Out :=
  runOp pe ⟨0x37, usesDABC, fun f => [f.a, f.b, f.c], false, allKinds⟩ f
    (fun _ _ a f =>
      if isDst f.d && isSrc f.a && isSrc f.b && isSrc f.c then
        regResult f.d 2 (if a.src f.c = 0 then a.src f.b else a.src f.a) (a.poisoned f.a || a.poisoned f.b || a.poisoned f.c) uDup
      else badWord 0x37 f) s
def execMovi (pe : Nat) (f : Fields) (s : State) : Out :=
  runOp pe ⟨0x38, usesDI, fun _ => [], false, allKinds⟩ f
    (fun _ _ _ f => if isDst f.d then regResult f.d 2 (sext64 32 f.i) false uDup else badWord 0x38 f) s
def execMovhi (pe : Nat) (f : Fields) (s : State) : Out :=
  runOp pe (opDAI 0x39) f (intAI 0x39 uDup anyImm (fun x i => aluMovhi x (BitVec.ofNat 32 i))) s
def execPopc (pe : Nat) (f : Fields) (s : State) : Out := runOp pe (opDA 0x3A) f (intA 0x3A uInt aluPopc) s
def execExtu (pe : Nat) (f : Fields) (s : State) : Out :=
  runOp pe (opDAI 0x3B) f (intAI 0x3B uDup extuImm (fun x i => aluExtu x (i % 64) (i / 64))) s

end Sys2Proof.Machine
end

