-- ==== Sys2Proof/Machine/Dispatch.lean ====
section
/-! DEFINITION. One arm per command: a direct call of its meaning. -/

namespace Sys2Proof.Machine

def exec (i : Instr) (s : State) : Host.Outcome State Fault Refusal :=
  match i with
  | .nop pe w => Sys2Proof.Machine.execNop pe w s
  | .endBlk pe f => Sys2Proof.Machine.execEndBlk pe f s
  | .br pe f => Sys2Proof.Machine.execBr pe f s
  | .brc pe f => Sys2Proof.Machine.execBrc pe f s
  | .repI pe f => Sys2Proof.Machine.execRepI pe f s
  | .repN pe f => Sys2Proof.Machine.execRepN pe f s
  | .fenceW pe f => Sys2Proof.Machine.execFenceW pe f s
  | .fenceA pe f => Sys2Proof.Machine.execFenceA pe f s
  | .resume pe f => Sys2Proof.Machine.execResume pe f s
  | .add pe f => Sys2Proof.Machine.execAdd pe f s
  | .addi pe f => Sys2Proof.Machine.execAddi pe f s
  | .sub pe f => Sys2Proof.Machine.execSub pe f s
  | .andd pe f => Sys2Proof.Machine.execAndd pe f s
  | .andi pe f => Sys2Proof.Machine.execAndi pe f s
  | .orr pe f => Sys2Proof.Machine.execOrr pe f s
  | .ori pe f => Sys2Proof.Machine.execOri pe f s
  | .xor pe f => Sys2Proof.Machine.execXor pe f s
  | .xori pe f => Sys2Proof.Machine.execXori pe f s
  | .shl pe f => Sys2Proof.Machine.execShl pe f s
  | .shr pe f => Sys2Proof.Machine.execShr pe f s
  | .sar pe f => Sys2Proof.Machine.execSar pe f s
  | .shli pe f => Sys2Proof.Machine.execShli pe f s
  | .shri pe f => Sys2Proof.Machine.execShri pe f s
  | .sari pe f => Sys2Proof.Machine.execSari pe f s
  | .clz pe f => Sys2Proof.Machine.execClz pe f s
  | .cmpeq pe f => Sys2Proof.Machine.execCmpeq pe f s
  | .cmplt pe f => Sys2Proof.Machine.execCmplt pe f s
  | .cmpltu pe f => Sys2Proof.Machine.execCmpltu pe f s
  | .min pe f => Sys2Proof.Machine.execMin pe f s
  | .max pe f => Sys2Proof.Machine.execMax pe f s
  | .minu pe f => Sys2Proof.Machine.execMinu pe f s
  | .maxu pe f => Sys2Proof.Machine.execMaxu pe f s
  | .sel pe f => Sys2Proof.Machine.execSel pe f s
  | .movi pe f => Sys2Proof.Machine.execMovi pe f s
  | .movhi pe f => Sys2Proof.Machine.execMovhi pe f s
  | .popc pe f => Sys2Proof.Machine.execPopc pe f s
  | .extu pe f => Sys2Proof.Machine.execExtu pe f s
  | .addq pe f => Sys2Proof.Machine.execAddq pe f s
  | .subq pe f => Sys2Proof.Machine.execSubq pe f s
  | .negq pe f => Sys2Proof.Machine.execNegq pe f s
  | .absq pe f => Sys2Proof.Machine.execAbsq pe f s
  | .addq32 pe f => Sys2Proof.Machine.execAddq32 pe f s
  | .subq32 pe f => Sys2Proof.Machine.execSubq32 pe f s
  | .shlq pe f => Sys2Proof.Machine.execShlq pe f s
  | .shrq pe f => Sys2Proof.Machine.execShrq pe f s
  | .accq pe f => Sys2Proof.Machine.execAccq pe f s
  | .accqn pe f => Sys2Proof.Machine.execAccqn pe f s
  | .accq32 pe f => Sys2Proof.Machine.execAccq32 pe f s
  | .gaadd pe f => Sys2Proof.Machine.execGaadd pe f s
  | .movsGa pe f => Sys2Proof.Machine.execMovsGa pe f s
  | .movsQ31 pe f => Sys2Proof.Machine.execMovsQ31 pe f s
  | .movtsGa pe f => Sys2Proof.Machine.execMovtsGa pe f s
  | .gashr pe f => Sys2Proof.Machine.execGashr pe f s
  | .mull pe f => Sys2Proof.Machine.execMull pe f s
  | .mulhs pe f => Sys2Proof.Machine.execMulhs pe f s
  | .mulhu pe f => Sys2Proof.Machine.execMulhu pe f s
  | .mulq pe f => Sys2Proof.Machine.execMulq pe f s
  | .mulq32 pe f => Sys2Proof.Machine.execMulq32 pe f s
  | .divS pe f => Sys2Proof.Machine.execDivS pe f s
  | .divU pe f => Sys2Proof.Machine.execDivU pe f s
  | .remS pe f => Sys2Proof.Machine.execRemS pe f s
  | .remU pe f => Sys2Proof.Machine.execRemU pe f s
  | .mul128S pe f => Sys2Proof.Machine.execMul128S pe f s
  | .mul128U pe f => Sys2Proof.Machine.execMul128U pe f s
  | .divq pe f => Sys2Proof.Machine.execDivq pe f s
  | .fdivD pe f => Sys2Proof.Machine.execFdivD pe f s
  | .fdivS pe f => Sys2Proof.Machine.execFdivS pe f s
  | .fsqrtD pe f => Sys2Proof.Machine.execFsqrtD pe f s
  | .fsqrtS pe f => Sys2Proof.Machine.execFsqrtS pe f s
  | .isqrt pe f => Sys2Proof.Machine.execIsqrt pe f s
  | .faddD pe f => Sys2Proof.Machine.execFaddD pe f s
  | .fsubD pe f => Sys2Proof.Machine.execFsubD pe f s
  | .fmulD pe f => Sys2Proof.Machine.execFmulD pe f s
  | .fmaD pe f => Sys2Proof.Machine.execFmaD pe f s
  | .fmsD pe f => Sys2Proof.Machine.execFmsD pe f s
  | .fnmaD pe f => Sys2Proof.Machine.execFnmaD pe f s
  | .fminD pe f => Sys2Proof.Machine.execFminD pe f s
  | .fmaxD pe f => Sys2Proof.Machine.execFmaxD pe f s
  | .fcmpD pe f => Sys2Proof.Machine.execFcmpD pe f s
  | .fcvtDS pe f => Sys2Proof.Machine.execFcvtDS pe f s
  | .fcvtSD pe f => Sys2Proof.Machine.execFcvtSD pe f s
  | .fcvtDI pe f => Sys2Proof.Machine.execFcvtDI pe f s
  | .fcvtID pe f => Sys2Proof.Machine.execFcvtID pe f s
  | .fcvtDQ pe f => Sys2Proof.Machine.execFcvtDQ pe f s
  | .fcvtQD pe f => Sys2Proof.Machine.execFcvtQD pe f s
  | .fsgnD pe f => Sys2Proof.Machine.execFsgnD pe f s
  | .faddS pe f => Sys2Proof.Machine.execFaddS pe f s
  | .fsubS pe f => Sys2Proof.Machine.execFsubS pe f s
  | .fmulS pe f => Sys2Proof.Machine.execFmulS pe f s
  | .fmaS pe f => Sys2Proof.Machine.execFmaS pe f s
  | .fmsS pe f => Sys2Proof.Machine.execFmsS pe f s
  | .fnmaS pe f => Sys2Proof.Machine.execFnmaS pe f s
  | .fminS pe f => Sys2Proof.Machine.execFminS pe f s
  | .fmaxS pe f => Sys2Proof.Machine.execFmaxS pe f s
  | .fcmpS pe f => Sys2Proof.Machine.execFcmpS pe f s
  | .fclass pe f => Sys2Proof.Machine.execFclass pe f s
  | .fcvtSI pe f => Sys2Proof.Machine.execFcvtSI pe f s
  | .fcvtIS pe f => Sys2Proof.Machine.execFcvtIS pe f s
  | .fsgnS pe f => Sys2Proof.Machine.execFsgnS pe f s
  | .ldl pe f => Sys2Proof.Machine.execLdl pe f s
  | .stl pe f => Sys2Proof.Machine.execStl pe f s
  | .movs pe f => Sys2Proof.Machine.execMovs pe f s
  | .movts pe f => Sys2Proof.Machine.execMovts pe f s
  | .send pe f => Sys2Proof.Machine.execSend pe f s
  | .sendw pe f => Sys2Proof.Machine.execSendw pe f s
  | .read pe f => Sys2Proof.Machine.execRead pe f s
  | .write pe f => Sys2Proof.Machine.execWrite pe f s
  | .iread pe f => Sys2Proof.Machine.execIread pe f s
  | .iwrite pe f => Sys2Proof.Machine.execIwrite pe f s
  | .atom pe f => Sys2Proof.Machine.execAtom pe f s
  | .newctx pe f => Sys2Proof.Machine.execNewctx pe f s
  | .freectx pe f => Sys2Proof.Machine.execFreectx pe f s
  | .freectxI pe f => Sys2Proof.Machine.execFreectxI pe f s
  | .killctx pe f => Sys2Proof.Machine.execKillctx pe f s
  | .acq pe f => Sys2Proof.Machine.execAcq pe f s
  | .rel pe f => Sys2Proof.Machine.execRel pe f s
  | .event pe f => Sys2Proof.Machine.execEvent pe f s
  | .mulS pe f => Sys2Proof.Machine.execMulS pe f s
  | .mulU pe f => Sys2Proof.Machine.execMulU pe f s
  | .macX pe f => Sys2Proof.Machine.execMacX pe f s
  | .macXn pe f => Sys2Proof.Machine.execMacXn pe f s
  | .macQ pe f => Sys2Proof.Machine.execMacQ pe f s
  | .macQn pe f => Sys2Proof.Machine.execMacQn pe f s
  | .lrd pe f => Sys2Proof.Machine.execLrd pe f s
  | .lclr pe f => Sys2Proof.Machine.execLclr pe f s
  | .divkS pe f => Sys2Proof.Machine.execDivkS pe f s
  | .divkU pe f => Sys2Proof.Machine.execDivkU pe f s
  | .remkS pe f => Sys2Proof.Machine.execRemkS pe f s
  | .remkU pe f => Sys2Proof.Machine.execRemkU pe f s
  | .kzero pe f => Sys2Proof.Machine.execKzero pe f s
  | .safew pe f => Sys2Proof.Machine.execSafew pe f s
  | .activationDispatch pe => Sys2Proof.Machine.execActivationDispatch pe s
  | .preemption pe => Sys2Proof.Machine.execPreemption pe s
  | .preciseTrap pe => Sys2Proof.Machine.execPreciseTrap pe s
  | .residueMismatch pe slot => Sys2Proof.Machine.execResidueMismatch pe slot s
  | .divkLanding pe => Sys2Proof.Machine.execDivkLanding pe s
  | .lrdLanding x => Sys2Proof.Machine.execLrdLanding x s
  | .keeperMismatch p point => Sys2Proof.Machine.execKeeperMismatch p point s
  | .tokenMatch pe => Sys2Proof.Machine.execTokenMatch pe s
  | .deepStoreLookupReply pe => Sys2Proof.Machine.execDeepStoreLookupReply pe s
  | .fillComplete pe => Sys2Proof.Machine.execFillComplete pe s
  | .shadowCopyComplete pe => Sys2Proof.Machine.execShadowCopyComplete pe s
  | .microTrap m => Sys2Proof.Machine.execMicroTrap m s
  | .ucodeFault m read => Sys2Proof.Machine.execUcodeFault m read s
  | .aeRequestAccept pe => Sys2Proof.Machine.execAeRequestAccept pe s
  | .aeReply c u mismatch => Sys2Proof.Machine.execAeReply c u mismatch s
  | .niPacketEject e => Sys2Proof.Machine.execNiPacketEject e s
  | .windowCacheAnswer e k => Sys2Proof.Machine.execWindowCacheAnswer e k s
  | .windowAdvance e k => Sys2Proof.Machine.execWindowAdvance e k s
  | .cmNewctxRequest e => Sys2Proof.Machine.execCmNewctxRequest e s
  | .spawnQueueAdmit e => Sys2Proof.Machine.execSpawnQueueAdmit e s
  | .cmFreectxRequest e => Sys2Proof.Machine.execCmFreectxRequest e s
  | .cmFreectxIRequest e => Sys2Proof.Machine.execCmFreectxIRequest e s
  | .cmKillctxRequest e => Sys2Proof.Machine.execCmKillctxRequest e s
  | .killArrival u k => Sys2Proof.Machine.execKillArrival u k s
  | .killAckArrival e u k => Sys2Proof.Machine.execKillAckArrival e u k s
  | .drainReqArrival e src => Sys2Proof.Machine.execDrainReqArrival e src s
  | .drainMarkArrival e => Sys2Proof.Machine.execDrainMarkArrival e s
  | .drainDoneArrival e => Sys2Proof.Machine.execDrainDoneArrival e s
  | .cmResumeRequest e => Sys2Proof.Machine.execCmResumeRequest e s
  | .mcEventRequest => Sys2Proof.Machine.execMcEventRequest s
  | .stallExamination e => Sys2Proof.Machine.execStallExamination e s
  | .ctxCounterWriteback e => Sys2Proof.Machine.execCtxCounterWriteback e s
  | .ctxVictim => Sys2Proof.Machine.execCtxVictim s
  | .targetRead e => Sys2Proof.Machine.execTargetRead e s
  | .targetWrite e same => Sys2Proof.Machine.execTargetWrite e same s
  | .targetIread x => Sys2Proof.Machine.execTargetIread x s
  | .targetIwrite e same => Sys2Proof.Machine.execTargetIwrite e same s
  | .deferredReplyRelease e => Sys2Proof.Machine.execDeferredReplyRelease e s
  | .targetAtom e => Sys2Proof.Machine.execTargetAtom e s
  | .targetIclr x => Sys2Proof.Machine.execTargetIclr x s
  | .lockAcqRequest => Sys2Proof.Machine.execLockAcqRequest s
  | .lockRelRequest => Sys2Proof.Machine.execLockRelRequest s
  | .lkAcqRead n ep ctx observe => Sys2Proof.Machine.execLkAcqRead n ep ctx observe s
  | .lkRelWrite n ep ctx => Sys2Proof.Machine.execLkRelWrite n ep ctx s
  | .lockLeaseExpired n => Sys2Proof.Machine.execLockLeaseExpired n s
  | .boostArrival e => Sys2Proof.Machine.execBoostArrival e s
  | .boostEndArrival e => Sys2Proof.Machine.execBoostEndArrival e s
  | .respArrival e => Sys2Proof.Machine.execRespArrival e s
  | .nackArrival e => Sys2Proof.Machine.execNackArrival e s
  | .responseSlotTimeout e k => Sys2Proof.Machine.execResponseSlotTimeout e k s
  | .routerHop r c vn => Sys2Proof.Machine.execRouterHop r c vn s
  | .flitReceiveCheck r p flit => Sys2Proof.Machine.execFlitReceiveCheck r p flit s
  | .bounceArrival e => Sys2Proof.Machine.execBounceArrival e s
  | .hbShiftGo => Sys2Proof.Machine.execHbShiftGo s
  | .shiftArrival e => Sys2Proof.Machine.execShiftArrival e s
  | .epochMarkArrival e => Sys2Proof.Machine.execEpochMarkArrival e s
  | .markAckArrival e => Sys2Proof.Machine.execMarkAckArrival e s
  | .markRetransmit e => Sys2Proof.Machine.execMarkRetransmit e s
  | .shiftDoneArrival => Sys2Proof.Machine.execShiftDoneArrival s
  | .rtPortDis r p => Sys2Proof.Machine.execRtPortDis r p s
  | .rtPortEn r p => Sys2Proof.Machine.execRtPortEn r p s
  | .rtPortRetrain r p => Sys2Proof.Machine.execRtPortRetrain r p s
  | .linkRetrain r p => Sys2Proof.Machine.execLinkRetrain r p s
  | .retrainPostponeRetry r p => Sys2Proof.Machine.execRetrainPostponeRetry r p s
  | .linkDown r p => Sys2Proof.Machine.execLinkDown r p s
  | .frameReceive p frame => Sys2Proof.Machine.execFrameReceive p frame s
  | .replayTimeout p => Sys2Proof.Machine.execReplayTimeout p s
  | .reorderTimeout p v => Sys2Proof.Machine.execReorderTimeout p v s
  | .openPacketTimeout p vn => Sys2Proof.Machine.execOpenPacketTimeout p vn s
  | .egressPacket p vn => Sys2Proof.Machine.execEgressPacket p vn s
  | .egressCreditTimeout p vn => Sys2Proof.Machine.execEgressCreditTimeout p vn s
  | .partnerInfoArrival => Sys2Proof.Machine.execPartnerInfoArrival s
  | .portTrainDone p rxrev txrev pol => Sys2Proof.Machine.execPortTrainDone p rxrev txrev pol s
  | .portTrainFail p cause => Sys2Proof.Machine.execPortTrainFail p cause s
  | .portTrainRetry p => Sys2Proof.Machine.execPortTrainRetry p s
  | .blockLockLost p => Sys2Proof.Machine.execBlockLockLost p s
  | .noValidFrame p => Sys2Proof.Machine.execNoValidFrame p s
  | .portRecoveryTimeout p => Sys2Proof.Machine.execPortRecoveryTimeout p s
  | .portAutoOpen p => Sys2Proof.Machine.execPortAutoOpen p s
  | .portCmd r => Sys2Proof.Machine.execPortCmd r s
  | .ptCtlTrain p => Sys2Proof.Machine.execPtCtlTrain p s
  | .ptCtlSuspend p => Sys2Proof.Machine.execPtCtlSuspend p s
  | .ptCtlResume p => Sys2Proof.Machine.execPtCtlResume p s
  | .ptCtlRetrain p => Sys2Proof.Machine.execPtCtlRetrain p s
  | .ptCtlReset p => Sys2Proof.Machine.execPtCtlReset p s
  | .ptOpenGo p => Sys2Proof.Machine.execPtOpenGo p s
  | .ptMapW0Commit p w => Sys2Proof.Machine.execPtMapW0Commit p w s
  | .dcqFlush a => Sys2Proof.Machine.execDcqFlush a s
  | .dcqPtrMismatch a => Sys2Proof.Machine.execDcqPtrMismatch a s
  | .creditResetDone a => Sys2Proof.Machine.execCreditResetDone a s
  | .dcqStall mech src dst a => Sys2Proof.Machine.execDcqStall mech src dst a s
  | .cdcResumed mech src dst a => Sys2Proof.Machine.execCdcResumed mech src dst a s
  | .cdcUnstable mech src dst idx => Sys2Proof.Machine.execCdcUnstable mech src dst idx s
  | .pulseCrossing src dst idx ends => Sys2Proof.Machine.execPulseCrossing src dst idx ends s
  | .beaconLaunch => Sys2Proof.Machine.execBeaconLaunch s
  | .beaconAccept d here => Sys2Proof.Machine.execBeaconAccept d here s
  | .collectorForward k => Sys2Proof.Machine.execCollectorForward k s
  | .progressMark k => Sys2Proof.Machine.execProgressMark k s
  | .eventSeqAssign => Sys2Proof.Machine.execEventSeqAssign s
  | .collectorSilent k => Sys2Proof.Machine.execCollectorSilent k s
  | .logPersist => Sys2Proof.Machine.execLogPersist s
  | .mbDoorbell ep => Sys2Proof.Machine.execMbDoorbell ep s
  | .mailboxWindowRelease ep => Sys2Proof.Machine.execMailboxWindowRelease ep s
  | .getInfo r => Sys2Proof.Machine.execGetInfo r s
  | .getSensors r => Sys2Proof.Machine.execGetSensors r s
  | .logRead r => Sys2Proof.Machine.execLogRead r s
  | .regRead r => Sys2Proof.Machine.execRegRead r s
  | .attest r => Sys2Proof.Machine.execAttest r s
  | .graphStart r => Sys2Proof.Machine.execGraphStart r s
  | .graphStop r => Sys2Proof.Machine.execGraphStop r s
  | .kickstandEnter r => Sys2Proof.Machine.execKickstandEnter r s
  | .kickstandExit r => Sys2Proof.Machine.execKickstandExit r s
  | .kickstandAutoexitTemp => Sys2Proof.Machine.execKickstandAutoexitTemp s
  | .warmReset r => Sys2Proof.Machine.execWarmReset r s
  | .standbyEnter r => Sys2Proof.Machine.execStandbyEnter r s
  | .keeperCtl r => Sys2Proof.Machine.execKeeperCtl r s
  | .faultClear r => Sys2Proof.Machine.execFaultClear r s
  | .imgBegin r => Sys2Proof.Machine.execImgBegin r s
  | .imgData r => Sys2Proof.Machine.execImgData r s
  | .imgEnd r => Sys2Proof.Machine.execImgEnd r s
  | .imgAbort r => Sys2Proof.Machine.execImgAbort r s
  | .minverRaise r => Sys2Proof.Machine.execMinverRaise r s
  | .ksecretLoad r => Sys2Proof.Machine.execKsecretLoad r s
  | .lcProvision r => Sys2Proof.Machine.execLcProvision r s
  | .lcSecure r => Sys2Proof.Machine.execLcSecure r s
  | .lcRetire r => Sys2Proof.Machine.execLcRetire r s
  | .lcChallenge r => Sys2Proof.Machine.execLcChallenge r s
  | .dbgChallenge r => Sys2Proof.Machine.execDbgChallenge r s
  | .dbgOpen r => Sys2Proof.Machine.execDbgOpen r s
  | .dbgClose r => Sys2Proof.Machine.execDbgClose r s
  | .dbgHalt r => Sys2Proof.Machine.execDbgHalt r s
  | .dbgStep r => Sys2Proof.Machine.execDbgStep r s
  | .dbgResume r => Sys2Proof.Machine.execDbgResume r s
  | .dbgMemRead r => Sys2Proof.Machine.execDbgMemRead r s
  | .dbgMemWrite r => Sys2Proof.Machine.execDbgMemWrite r s
  | .traceStart r => Sys2Proof.Machine.execTraceStart r s
  | .traceStop r => Sys2Proof.Machine.execTraceStop r s
  | .debugSessionTimeout => Sys2Proof.Machine.execDebugSessionTimeout s
  | .mcWatchdogRestart => Sys2Proof.Machine.execMcWatchdogRestart s
  | .rngRetest ok => Sys2Proof.Machine.execRngRetest ok s
  | .pmbusReadVin => Sys2Proof.Machine.execPmbusReadVin s
  | .pmbusReadIin => Sys2Proof.Machine.execPmbusReadIin s
  | .pmbusReadTemperature1 => Sys2Proof.Machine.execPmbusReadTemperature1 s
  | .pmbusReadPin => Sys2Proof.Machine.execPmbusReadPin s
  | .pmbusStatusWord => Sys2Proof.Machine.execPmbusStatusWord s
  | .jtagBypass => Sys2Proof.Machine.execJtagBypass s
  | .jtagIdcode => Sys2Proof.Machine.execJtagIdcode s
  | .jtagSamplePreload v => Sys2Proof.Machine.execJtagSamplePreload v s
  | .jtagExtest => Sys2Proof.Machine.execJtagExtest s
  | .kpPairHalt p => Sys2Proof.Machine.execKpPairHalt p s
  | .kpPairRestart p => Sys2Proof.Machine.execKpPairRestart p s
  | .keeperZeroiseDone p => Sys2Proof.Machine.execKeeperZeroiseDone p s
  | .keeperWdog p => Sys2Proof.Machine.execKeeperWdog p s
  | .peLaccUnbind pe m => Sys2Proof.Machine.execPeLaccUnbind pe m s
  | .peLaccInjectArm pe acc => Sys2Proof.Machine.execPeLaccInjectArm pe acc s
  | .peResInjectArm pe u => Sys2Proof.Machine.execPeResInjectArm pe u s
  | .aeResInjectArm c u => Sys2Proof.Machine.execAeResInjectArm c u s
  | .peStatCtlClr pe => Sys2Proof.Machine.execPeStatCtlClr pe s
  | .aeStatCtlClr c => Sys2Proof.Machine.execAeStatCtlClr c s
  | .scCtlClr c => Sys2Proof.Machine.execScCtlClr c s
  | .mmCtlClr ch => Sys2Proof.Machine.execMmCtlClr ch s
  | .niStatCtlClr c => Sys2Proof.Machine.execNiStatCtlClr c s
  | .rtStatCtlClr c => Sys2Proof.Machine.execRtStatCtlClr c s
  | .ptStatCtlClr p => Sys2Proof.Machine.execPtStatCtlClr p s
  | .lkStatCtlClr => Sys2Proof.Machine.execLkStatCtlClr s
  | .statOvfClear a => Sys2Proof.Machine.execStatOvfClear a s
  | .rclRead a => Sys2Proof.Machine.execRclRead a s
  | .lockBitSet a => Sys2Proof.Machine.execLockBitSet a s
  | .lockBitUnlock a => Sys2Proof.Machine.execLockBitUnlock a s
  | .cmCtxqSelWrite c lid => Sys2Proof.Machine.execCmCtxqSelWrite c lid s
  | .hbPstatSelWrite ep => Sys2Proof.Machine.execHbPstatSelWrite ep s
  | .tbDomSelWrite d => Sys2Proof.Machine.execTbDomSelWrite d s
  | .lkSelWrite n => Sys2Proof.Machine.execLkSelWrite n s
  | .mcEvtClear => Sys2Proof.Machine.execMcEvtClear s
  | .registerWrite a v => Sys2Proof.Machine.execRegisterWrite a v s
  | .clusterReqActive c => Sys2Proof.Machine.execClusterReqActive c s
  | .clusterReqFreewheel c => Sys2Proof.Machine.execClusterReqFreewheel c s
  | .freewheelEntry c => Sys2Proof.Machine.execFreewheelEntry c s
  | .freewheelWake c => Sys2Proof.Machine.execFreewheelWake c s
  | .freewheelAutoReturn c => Sys2Proof.Machine.execFreewheelAutoReturn c s
  | .clusterReqOff c => Sys2Proof.Machine.execClusterReqOff c s
  | .fenceDone c => Sys2Proof.Machine.execFenceDone c s
  | .offTokenPark => Sys2Proof.Machine.execOffTokenPark s
  | .clusterReset c => Sys2Proof.Machine.execClusterReset c s
  | .peReset pe => Sys2Proof.Machine.execPeReset pe s
  | .vinRise a b => Sys2Proof.Machine.execVinRise a b s
  | .vinSoftStartAbort => Sys2Proof.Machine.execVinSoftStartAbort s
  | .vinLost k v => Sys2Proof.Machine.execVinLost k v s
  | .vinDip a b => Sys2Proof.Machine.execVinDip a b s
  | .vinRecover a b => Sys2Proof.Machine.execVinRecover a b s
  | .vinUndervolt a b => Sys2Proof.Machine.execVinUndervolt a b s
  | .holdupFail => Sys2Proof.Machine.execHoldupFail s
  | .vinSurge => Sys2Proof.Machine.execVinSurge s
  | .resetNAssert => Sys2Proof.Machine.execResetNAssert s
  | .dieFault d => Sys2Proof.Machine.execDieFault d s
  | .sensorSample kind k valid v w => Sys2Proof.Machine.execSensorSample kind k valid v w s
  | .thermalGovernorTick => Sys2Proof.Machine.execThermalGovernorTick s
  | .thermalKickstand d => Sys2Proof.Machine.execThermalKickstand d s
  | .agingGuardbandUpdate lost => Sys2Proof.Machine.execAgingGuardbandUpdate lost s
  | .refclkLost => Sys2Proof.Machine.execRefclkLost s
  | .refclkRestored => Sys2Proof.Machine.execRefclkRestored s
  | .ppsEdge err => Sys2Proof.Machine.execPpsEdge err s
  | .ppsLockLost => Sys2Proof.Machine.execPpsLockLost s
  | .refLockChange on => Sys2Proof.Machine.execRefLockChange on s
  | .patrolScrub addr upset => Sys2Proof.Machine.execPatrolScrub addr upset s
  | .bgTestSegmentStart c => Sys2Proof.Machine.execBgTestSegmentStart c s
  | .bgTestRelease c rows => Sys2Proof.Machine.execBgTestRelease c rows s
  | .bankRetentionEntry c b => Sys2Proof.Machine.execBankRetentionEntry c b s
  | .scRetMaskWrite c v => Sys2Proof.Machine.execScRetMaskWrite c v s
  | .refreshRateCheck ch rate => Sys2Proof.Machine.execRefreshRateCheck ch rate s
  | .mmInitDone ch => Sys2Proof.Machine.execMmInitDone ch s
  | .repairRecordUpdate => Sys2Proof.Machine.execRepairRecordUpdate s
  | .portRecoveryDone p recov next => Sys2Proof.Machine.execPortRecoveryDone p recov next s
  | .dieEdgeTrainingDone r x => Sys2Proof.Machine.execDieEdgeTrainingDone r x s
  | .spillEngineRequest => Sys2Proof.Machine.execSpillEngineRequest s
  | .windowQuery e k => Sys2Proof.Machine.execWindowQuery e k s
  | .rngFail => Sys2Proof.Machine.execRngFail s
  | .holdupCharged on => Sys2Proof.Machine.execHoldupCharged on s
  | .vinInputOk k v => Sys2Proof.Machine.execVinInputOk k v s
  | .ppsOutEdge rise => Sys2Proof.Machine.execPpsOutEdge rise s
  | .arpIcmpEcho frame => Sys2Proof.Machine.execArpIcmpEcho frame s

end Sys2Proof.Machine
end

