-- ==== Sys2Proof/WellFormed.lean ====
section
/-! DEFINITION. Well-formed commands: the unit that a command names exists in the module (R10 to R18). A command that is not
well-formed is refused by name. -/

namespace Sys2Proof

/-- A context manager: a cluster's, or the keeper block's as endpoint 69 (R38). -/
def isOwner (e : Nat) : Bool := decide (e < 64) || e == 69
/-- An A-PE, the only kind with long accumulators (R14, R15). -/
def isApe (n : Nat) : Bool := decide (256 ≤ n ∧ n < 272)

/-- Whether the unit a command names exists. -/
def Instr.wf : Instr → Bool
  | .nop pe _ => decide (pe < 276)
  | .endBlk pe _ => decide (pe < 276)
  | .br pe _ => decide (pe < 276)
  | .brc pe _ => decide (pe < 276)
  | .repI pe _ => decide (pe < 276)
  | .repN pe _ => decide (pe < 276)
  | .fenceW pe _ => decide (pe < 276)
  | .fenceA pe _ => decide (pe < 276)
  | .resume pe _ => decide (pe < 276)
  | .add pe _ => decide (pe < 276)
  | .addi pe _ => decide (pe < 276)
  | .sub pe _ => decide (pe < 276)
  | .andd pe _ => decide (pe < 276)
  | .andi pe _ => decide (pe < 276)
  | .orr pe _ => decide (pe < 276)
  | .ori pe _ => decide (pe < 276)
  | .xor pe _ => decide (pe < 276)
  | .xori pe _ => decide (pe < 276)
  | .shl pe _ => decide (pe < 276)
  | .shr pe _ => decide (pe < 276)
  | .sar pe _ => decide (pe < 276)
  | .shli pe _ => decide (pe < 276)
  | .shri pe _ => decide (pe < 276)
  | .sari pe _ => decide (pe < 276)
  | .clz pe _ => decide (pe < 276)
  | .cmpeq pe _ => decide (pe < 276)
  | .cmplt pe _ => decide (pe < 276)
  | .cmpltu pe _ => decide (pe < 276)
  | .min pe _ => decide (pe < 276)
  | .max pe _ => decide (pe < 276)
  | .minu pe _ => decide (pe < 276)
  | .maxu pe _ => decide (pe < 276)
  | .sel pe _ => decide (pe < 276)
  | .movi pe _ => decide (pe < 276)
  | .movhi pe _ => decide (pe < 276)
  | .popc pe _ => decide (pe < 276)
  | .extu pe _ => decide (pe < 276)
  | .addq pe _ => decide (pe < 276)
  | .subq pe _ => decide (pe < 276)
  | .negq pe _ => decide (pe < 276)
  | .absq pe _ => decide (pe < 276)
  | .addq32 pe _ => decide (pe < 276)
  | .subq32 pe _ => decide (pe < 276)
  | .shlq pe _ => decide (pe < 276)
  | .shrq pe _ => decide (pe < 276)
  | .accq pe _ => decide (pe < 276)
  | .accqn pe _ => decide (pe < 276)
  | .accq32 pe _ => decide (pe < 276)
  | .gaadd pe _ => decide (pe < 276)
  | .movsGa pe _ => decide (pe < 276)
  | .movsQ31 pe _ => decide (pe < 276)
  | .movtsGa pe _ => decide (pe < 276)
  | .gashr pe _ => decide (pe < 276)
  | .mull pe _ => decide (pe < 276)
  | .mulhs pe _ => decide (pe < 276)
  | .mulhu pe _ => decide (pe < 276)
  | .mulq pe _ => decide (pe < 276)
  | .mulq32 pe _ => decide (pe < 276)
  | .divS pe _ => decide (pe < 276)
  | .divU pe _ => decide (pe < 276)
  | .remS pe _ => decide (pe < 276)
  | .remU pe _ => decide (pe < 276)
  | .mul128S pe _ => decide (pe < 276)
  | .mul128U pe _ => decide (pe < 276)
  | .divq pe _ => decide (pe < 276)
  | .fdivD pe _ => decide (pe < 276)
  | .fdivS pe _ => decide (pe < 276)
  | .fsqrtD pe _ => decide (pe < 276)
  | .fsqrtS pe _ => decide (pe < 276)
  | .isqrt pe _ => decide (pe < 276)
  | .faddD pe _ => decide (pe < 276)
  | .fsubD pe _ => decide (pe < 276)
  | .fmulD pe _ => decide (pe < 276)
  | .fmaD pe _ => decide (pe < 276)
  | .fmsD pe _ => decide (pe < 276)
  | .fnmaD pe _ => decide (pe < 276)
  | .fminD pe _ => decide (pe < 276)
  | .fmaxD pe _ => decide (pe < 276)
  | .fcmpD pe _ => decide (pe < 276)
  | .fcvtDS pe _ => decide (pe < 276)
  | .fcvtSD pe _ => decide (pe < 276)
  | .fcvtDI pe _ => decide (pe < 276)
  | .fcvtID pe _ => decide (pe < 276)
  | .fcvtDQ pe _ => decide (pe < 276)
  | .fcvtQD pe _ => decide (pe < 276)
  | .fsgnD pe _ => decide (pe < 276)
  | .faddS pe _ => decide (pe < 276)
  | .fsubS pe _ => decide (pe < 276)
  | .fmulS pe _ => decide (pe < 276)
  | .fmaS pe _ => decide (pe < 276)
  | .fmsS pe _ => decide (pe < 276)
  | .fnmaS pe _ => decide (pe < 276)
  | .fminS pe _ => decide (pe < 276)
  | .fmaxS pe _ => decide (pe < 276)
  | .fcmpS pe _ => decide (pe < 276)
  | .fclass pe _ => decide (pe < 276)
  | .fcvtSI pe _ => decide (pe < 276)
  | .fcvtIS pe _ => decide (pe < 276)
  | .fsgnS pe _ => decide (pe < 276)
  | .ldl pe _ => decide (pe < 276)
  | .stl pe _ => decide (pe < 276)
  | .movs pe _ => decide (pe < 276)
  | .movts pe _ => decide (pe < 276)
  | .send pe _ => decide (pe < 276)
  | .sendw pe _ => decide (pe < 276)
  | .read pe _ => decide (pe < 276)
  | .write pe _ => decide (pe < 276)
  | .iread pe _ => decide (pe < 276)
  | .iwrite pe _ => decide (pe < 276)
  | .atom pe _ => decide (pe < 276)
  | .newctx pe _ => decide (pe < 276)
  | .freectx pe _ => decide (pe < 276)
  | .freectxI pe _ => decide (pe < 276)
  | .killctx pe _ => decide (pe < 276)
  | .acq pe _ => decide (pe < 276)
  | .rel pe _ => decide (pe < 276)
  | .event pe _ => decide (pe < 276)
  | .mulS pe _ => decide (pe < 276)
  | .mulU pe _ => decide (pe < 276)
  | .macX pe _ => decide (pe < 276)
  | .macXn pe _ => decide (pe < 276)
  | .macQ pe _ => decide (pe < 276)
  | .macQn pe _ => decide (pe < 276)
  | .lrd pe _ => decide (pe < 276)
  | .lclr pe _ => decide (pe < 276)
  | .divkS pe _ => decide (pe < 276)
  | .divkU pe _ => decide (pe < 276)
  | .remkS pe _ => decide (pe < 276)
  | .remkU pe _ => decide (pe < 276)
  | .kzero pe _ => decide (pe < 276)
  | .safew pe _ => decide (pe < 276)
  | .activationDispatch pe => decide (pe < 276)
  | .preemption pe => decide (pe < 276)
  | .preciseTrap pe => decide (pe < 276)
  | .residueMismatch pe _ => decide (pe < 276)
  | .divkLanding pe => decide (pe < 276)
  | .lrdLanding x => decide (x.pe < 276)
  | .keeperMismatch p _ => decide (p < 2)
  | .tokenMatch pe => decide (pe < 276)
  | .deepStoreLookupReply pe => decide (pe < 276)
  | .fillComplete pe => decide (pe < 276)
  | .shadowCopyComplete pe => decide (pe < 276)
  | .microTrap m => decide (m.pe < 276)
  | .ucodeFault m _ => decide (m.pe < 276)
  | .aeRequestAccept pe => decide (pe < 276)
  | .aeReply c _ _ => decide (c < 64)
  | .niPacketEject e => decide (e < 70)
  | .windowCacheAnswer e _ => isOwner e
  | .windowAdvance e _ => isOwner e
  | .cmNewctxRequest e => isOwner e
  | .spawnQueueAdmit e => isOwner e
  | .cmFreectxRequest e => isOwner e
  | .cmFreectxIRequest e => isOwner e
  | .cmKillctxRequest e => isOwner e
  | .killArrival _ _ => true
  | .killAckArrival e _ _ => isOwner e
  | .drainReqArrival e _ => isOwner e
  | .drainMarkArrival e => isOwner e
  | .drainDoneArrival e => isOwner e
  | .cmResumeRequest e => isOwner e
  | .mcEventRequest => true
  | .stallExamination e => isOwner e
  | .ctxCounterWriteback e => isOwner e
  | .ctxVictim => true
  | .targetRead e => decide (e < 70)
  | .targetWrite e _ => decide (e < 70)
  | .targetIread x => decide (x.e < 70)
  | .targetIwrite e _ => decide (e < 70)
  | .deferredReplyRelease e => decide (e < 70)
  | .targetAtom e => decide (e < 70)
  | .targetIclr x => decide (x.e < 70)
  | .lockAcqRequest => true
  | .lockRelRequest => true
  | .lkAcqRead n _ _ _ => decide (n < 1024)
  | .lkRelWrite n _ _ => decide (n < 1024)
  | .lockLeaseExpired n => decide (n < 1024)
  | .boostArrival e => decide (e < 70)
  | .boostEndArrival e => decide (e < 70)
  | .respArrival e => decide (e < 70)
  | .nackArrival e => decide (e < 70)
  | .responseSlotTimeout e _ => decide (e < 70)
  | .routerHop r _ _ => decide (r < 65)
  | .flitReceiveCheck r _ _ => decide (r < 65)
  | .bounceArrival e => decide (e < 70)
  | .hbShiftGo => true
  | .shiftArrival e => decide (e < 70)
  | .epochMarkArrival e => decide (e < 70)
  | .markAckArrival e => decide (e < 70)
  | .markRetransmit e => decide (e < 70)
  | .shiftDoneArrival => true
  | .rtPortDis r _ => decide (r < 64)
  | .rtPortEn r _ => decide (r < 64)
  | .rtPortRetrain r _ => decide (r < 64)
  | .linkRetrain r _ => decide (r < 64)
  | .retrainPostponeRetry r _ => decide (r < 64)
  | .linkDown r _ => decide (r < 64)
  | .frameReceive p _ => decide (p < 16)
  | .replayTimeout p => decide (p < 16)
  | .reorderTimeout p _ => decide (p < 16)
  | .openPacketTimeout p _ => decide (p < 16)
  | .egressPacket p _ => decide (p < 16)
  | .egressCreditTimeout p _ => decide (p < 16)
  | .partnerInfoArrival => true
  | .portTrainDone p _ _ _ => decide (p < 16)
  | .portTrainFail p _ => decide (p < 16)
  | .portTrainRetry p => decide (p < 16)
  | .blockLockLost p => decide (p < 16)
  | .noValidFrame p => decide (p < 16)
  | .portRecoveryTimeout p => decide (p < 16)
  | .portAutoOpen p => decide (p < 16)
  | .portCmd _ => true
  | .ptCtlTrain p => decide (p < 16)
  | .ptCtlSuspend p => decide (p < 16)
  | .ptCtlResume p => decide (p < 16)
  | .ptCtlRetrain p => decide (p < 16)
  | .ptCtlReset p => decide (p < 16)
  | .ptOpenGo p => decide (p < 16)
  | .ptMapW0Commit p _ => decide (p < 16)
  | .dcqFlush _ => true
  | .dcqPtrMismatch _ => true
  | .creditResetDone _ => true
  | .dcqStall _ _ _ _ => true
  | .cdcResumed _ _ _ _ => true
  | .cdcUnstable _ _ _ _ => true
  | .pulseCrossing _ _ _ _ => true
  | .beaconLaunch => true
  | .beaconAccept _ _ => true
  | .collectorForward k => decide (k < 6)
  | .progressMark k => decide (k < 6)
  | .eventSeqAssign => true
  | .collectorSilent k => decide (k < 6)
  | .logPersist => true
  | .mbDoorbell _ => true
  | .mailboxWindowRelease _ => true
  | .getInfo _ => true
  | .getSensors _ => true
  | .logRead _ => true
  | .regRead _ => true
  | .attest _ => true
  | .graphStart _ => true
  | .graphStop _ => true
  | .kickstandEnter _ => true
  | .kickstandExit _ => true
  | .kickstandAutoexitTemp => true
  | .warmReset _ => true
  | .standbyEnter _ => true
  | .keeperCtl _ => true
  | .faultClear _ => true
  | .imgBegin _ => true
  | .imgData _ => true
  | .imgEnd _ => true
  | .imgAbort _ => true
  | .minverRaise _ => true
  | .ksecretLoad _ => true
  | .lcProvision _ => true
  | .lcSecure _ => true
  | .lcRetire _ => true
  | .lcChallenge _ => true
  | .dbgChallenge _ => true
  | .dbgOpen _ => true
  | .dbgClose _ => true
  | .dbgHalt _ => true
  | .dbgStep _ => true
  | .dbgResume _ => true
  | .dbgMemRead _ => true
  | .dbgMemWrite _ => true
  | .traceStart _ => true
  | .traceStop _ => true
  | .debugSessionTimeout => true
  | .mcWatchdogRestart => true
  | .rngRetest _ => true
  | .pmbusReadVin => true
  | .pmbusReadIin => true
  | .pmbusReadTemperature1 => true
  | .pmbusReadPin => true
  | .pmbusStatusWord => true
  | .jtagBypass => true
  | .jtagIdcode => true
  | .jtagSamplePreload _ => true
  | .jtagExtest => true
  | .kpPairHalt p => decide (p < 2)
  | .kpPairRestart p => decide (p < 2)
  | .keeperZeroiseDone p => decide (p < 2)
  | .keeperWdog p => decide (p < 2)
  | .peLaccUnbind pe _ => isApe pe
  | .peLaccInjectArm pe _ => isApe pe
  | .peResInjectArm pe _ => decide (pe < 276)
  | .aeResInjectArm c _ => decide (c < 64)
  | .peStatCtlClr pe => decide (pe < 276)
  | .aeStatCtlClr c => decide (c < 64)
  | .scCtlClr c => decide (c < 64)
  | .mmCtlClr ch => decide (ch < 4)
  | .niStatCtlClr c => decide (c < 64)
  | .rtStatCtlClr c => decide (c < 64)
  | .ptStatCtlClr p => decide (p < 16)
  | .lkStatCtlClr => true
  | .statOvfClear _ => true
  | .rclRead _ => true
  | .lockBitSet _ => true
  | .lockBitUnlock _ => true
  | .cmCtxqSelWrite c _ => decide (c < 64)
  | .hbPstatSelWrite _ => true
  | .tbDomSelWrite _ => true
  | .lkSelWrite _ => true
  | .mcEvtClear => true
  | .registerWrite _ _ => true
  | .clusterReqActive c => decide (c < 64)
  | .clusterReqFreewheel c => decide (c < 64)
  | .freewheelEntry c => decide (c < 64)
  | .freewheelWake c => decide (c < 64)
  | .freewheelAutoReturn c => decide (c < 64)
  | .clusterReqOff c => decide (c < 64)
  | .fenceDone c => decide (c < 64)
  | .offTokenPark => true
  | .clusterReset c => decide (c < 64)
  | .peReset pe => decide (pe < 276)
  | .vinRise _ _ => true
  | .vinSoftStartAbort => true
  | .vinLost _ _ => true
  | .vinDip _ _ => true
  | .vinRecover _ _ => true
  | .vinUndervolt _ _ => true
  | .holdupFail => true
  | .vinSurge => true
  | .resetNAssert => true
  | .dieFault d => decide (d < 4)
  | .sensorSample _ _ _ _ _ => true
  | .thermalGovernorTick => true
  | .thermalKickstand d => decide (d < 4)
  | .agingGuardbandUpdate _ => true
  | .refclkLost => true
  | .refclkRestored => true
  | .ppsEdge _ => true
  | .ppsLockLost => true
  | .refLockChange _ => true
  | .patrolScrub _ _ => true
  | .bgTestSegmentStart c => decide (c < 64)
  | .bgTestRelease c _ => decide (c < 64)
  | .bankRetentionEntry c _ => decide (c < 64)
  | .scRetMaskWrite c _ => decide (c < 64)
  | .refreshRateCheck ch _ => decide (ch < 4)
  | .mmInitDone ch => decide (ch < 4)
  | .repairRecordUpdate => true
  | .portRecoveryDone p _ _ => decide (p < 16)
  | .dieEdgeTrainingDone r _ => decide (r < 64)
  | .spillEngineRequest => true
  | .windowQuery e _ => isOwner e
  | .rngFail => true
  | .holdupCharged _ => true
  | .vinInputOk _ _ => true
  | .ppsOutEdge _ => true
  | .arpIcmpEcho _ => true

end Sys2Proof
end

