-- ==== Sys2Proof/Safety.lean ====
section
/-! DEFINITION. What a safe run is, in the terms the statements use: every command that waits names a unit that exists, so that no step
stops; the canonical form of memory; when a PE takes an instruction of block code in its next slot, and what that leaves alone. -/

namespace Sys2Proof.Machine

/-- Every waiting command is well-formed. -/
def State.queueWf (s : State) : Bool := s.pending.all Instr.wf

/-- Memory in canonical form: addresses strictly rising, no entry equal to what an unlisted address reads as. -/
def Memory.wf (m : List Host.Cell) : Bool := Tbl.wf 0 m

/-- PE n runs activation a with nothing in flight, between instructions that neither branch nor repeat, not at its last offset, and
nothing holds issue: no fence, no debug halt, no running readout, no uncorrectable word, no armed residue injection. -/
structure State.CanIssue (s : State) (n : Nat) (a : Act) : Prop where
  pe : n < 276
  act : s.act n = some a
  fence : a.fence = none
  halt : (s.pe n).halt = .run
  lrd : a.lrd = none
  flights : a.flights = []
  delay : a.delay = none
  rep : a.rep = none
  off : a.off < a.len
  mul : a.mulFree ≤ a.slot + 1
  word : (s.pe n).imemBad.contains (a.base + a.off) = false
  armed : bitAt (s.reg (aPeResInject (pairPe n))) 0 = false

/-- A register of the statistics group of PE n (R109, R516). -/
def isPeStat (n r : Nat) : Bool :=
  decide (peStats (pairPe n) ≤ r ∧ r < peStats (pairPe n) + 0x200) || r == aPeStatCtl (pairPe n)

/-- s and t agree on everything but PE n, its statistics, and event records (a counter that saturates logs one). -/
structure State.OnlyPe (n : Nat) (s t : State) : Prop where
  rest : t = { s with regs := t.regs, coll := t.coll, pes := t.pes }
  pe : ∀ m, pairPe m ≠ pairPe n → t.pe m = s.pe m
  reg : ∀ r, isPeStat n r = false → t.reg r = s.reg r

/-- Effects put in flight by the instruction word w of activation a, issued in a's next slot: each lands its distance later, in an AW
block every one but a divide 4 slots later (R124, R133). -/
def Act.inFlight (a : Act) (w : Word) (l : List Timed) : List Flight :=
  l.map (fun e => ⟨a.slot + 1, a.slot + 1 + (if a.aw && e.dist != 66 then 4 else e.dist), a.off, w, e.dist == 66, e.eff⟩)

/-- The activation after an instruction that goes on to the next offset, with what it put in flight. -/
def Act.issued (a : Act) (w : Word) (l : List Timed) (vis : Bool) : Act :=
  { a with slot := a.slot + 1, off := a.off + 1, visible := a.visible || vis, flights := a.inFlight w l }

/-- Command c runs and leaves the state of the units as in s', but for PE n, which holds p and took a slot, and its statistics. -/
def IssuesFrom (c : Instr) (s : State) (n : Nat) (s' : State) (p : Pe) : Prop :=
  ∃ t, exec c s = .next t ∧ State.OnlyPe n s' t ∧ t.pe n = { p with clk := (s.pe n).clk + 1 }

/-- Command c runs, changes nothing but PE n and its statistics, and leaves PE n with p but for the slot it took. -/
def IssuesPe (c : Instr) (s : State) (n : Nat) (p : Pe) : Prop := IssuesFrom c s n s p

/-- Command c runs, changes nothing but the activation of PE n and its statistics, and leaves the activation x. -/
def IssuesAct (c : Instr) (s : State) (n : Nat) (x : Option Act) : Prop := IssuesPe c s n { s.pe n with act := x }

/-- Command c, of instruction word w, runs and queues message m at PE n: at once, or in an AW block 4 slots later (R133,
R186); `vis` tells whether that is a visible effect (R219). -/
def IssuesMsg (c : Instr) (s : State) (n : Nat) (a : Act) (w : Word) (m : Msg) (vis : Bool := true) : Prop :=
  if a.aw then IssuesAct c s n (some (a.issued w [⟨0, .send m⟩] vis))
  else IssuesPe c s n { s.pe n with act := some (a.issued w [] vis), outQ := (s.pe n).outQ ++ [m] }

/-- Command c runs, takes activation a off PE n and sends the FAULT token of the fault to the handler of its context (R144 to R146). -/
def FaultsWith (c : Instr) (s : State) (n : Nat) (a : Act) (fc : FaultCode) (detail : Nat) : Prop :=
  ∃ t, exec c s = .next t ∧ t.act n = none ∧
    (a.handles = none → (s.ctx a.key).hv = true → (s.ctx a.key).state ≠ .free →
      (t.pe n).outQ = (s.pe n).outQ ++
        [tokenMsg (peEndpoint (s.ctx a.key).hpe)
          (mkTag (tPri a.tag) (tCad a.tag) false true (tCtx a.tag) (tIter a.tag) (s.ctx a.key).hpe (s.ctx a.key).hip 0)
          (faultValue a.tag false fc.code a.off detail) 0 .none false true])

/-- Command c runs to a next state of which P holds. -/
def Runs (c : Instr) (s : State) (P : State → Prop) : Prop := ∃ t, exec c s = .next t ∧ P t

end Sys2Proof.Machine
end

