-- ==== Sys2Proof/Certificates/Slice0/Obligations.lean ====
section
/-! DEFINITION. The statements for the provers. -/

open Sys2Proof Sys2Proof.Machine

/-! The block as a whole. -/

/-- A step takes the command at the front of the queue and runs it with the queue's rest. -/
def Obligations.StepRunsFrontCommand : Prop :=
  ∀ (s : State) (c : Instr) (r : List Instr), s.pending = c :: r → step s = exec c { s with pending := r }

/-! Block code: integers (R161, R162). -/

/-- Two-source integer instructions: the result R161 gives is in flight at distance 2 (4 in an AW block), poisoned when a source is; the PE goes
on to the next offset, and nothing else changes. -/
def Obligations.IntTwoSourceResults : Prop :=
  ∀ (s : State) (n : Nat) (a : Act) (f : Fields), s.CanIssue n a → isDst f.d → isSrc f.a → isSrc f.b → f.sc = 0 → f.imm = 0 →
    ∀ e ∈ ([(Instr.add, 0x20, fun x y => x + y), (Instr.sub, 0x22, fun x y => x - y), (Instr.andd, 0x23, fun x y => x &&& y),
        (Instr.orr, 0x25, fun x y => x ||| y), (Instr.xor, 0x27, fun x y => x ^^^ y),
        (Instr.shl, 0x29, fun x y => BitVec.ofNat 64 (x.toNat * 2 ^ (y.toNat % 64))),
        (Instr.shr, 0x2A, fun x y => BitVec.ofNat 64 (x.toNat / 2 ^ (y.toNat % 64))),
        (Instr.sar, 0x2B, fun x y => BitVec.ofInt 64 (x.toInt / 2 ^ (y.toNat % 64))),
        (Instr.cmpeq, 0x30, fun x y => if x = y then 1 else 0), (Instr.cmplt, 0x31, fun x y => if x.toInt < y.toInt then 1 else 0),
        (Instr.cmpltu, 0x32, fun x y => if x.toNat < y.toNat then 1 else 0),
        (Instr.min, 0x33, fun x y => if x.toInt < y.toInt then x else y), (Instr.max, 0x34, fun x y => if x.toInt < y.toInt then y else x),
        (Instr.minu, 0x35, fun x y => if x.toNat < y.toNat then x else y), (Instr.maxu, 0x36, fun x y => if x.toNat < y.toNat then y else x)]
        : List ((Nat → Fields → Instr) × Nat × (Word → Word → Word))),
      IssuesAct (e.1 n f) s n (some (a.issued (packWord e.2.1 f)
        [⟨2, .reg f.d ((e.2.2 (a.src f.a) (a.src f.b)).setWidth 80) (a.poisoned f.a || a.poisoned f.b)⟩] false))

/-- One-source integer instructions, with and without an immediate, and MOVI (R161). -/
def Obligations.IntOneSourceResults : Prop :=
  ∀ (s : State) (n : Nat) (a : Act) (f : Fields), s.CanIssue n a → isDst f.d →
    (isSrc f.a → f.sb = 0 → f.sc = 0 →
      (∀ e ∈ ([(Instr.addi, 0x21, fun x i => x + BitVec.signExtend 64 i), (Instr.andi, 0x24, fun x i => x &&& BitVec.zeroExtend 64 i),
          (Instr.ori, 0x26, fun x i => x ||| BitVec.zeroExtend 64 i), (Instr.xori, 0x28, fun x i => x ^^^ BitVec.zeroExtend 64 i),
          (Instr.movhi, 0x39, fun x i => i ++ BitVec.truncate 32 x)] : List ((Nat → Fields → Instr) × Nat × (Word → BitVec 32 → Word))),
        IssuesAct (e.1 n f) s n (some (a.issued (packWord e.2.1 f)
          [⟨2, .reg f.d ((e.2.2 (a.src f.a) f.imm).setWidth 80) (a.poisoned f.a)⟩] false))) ∧
      (f.imm = 0 → ∀ e ∈ ([(Instr.clz, 0x2F, fun x => BitVec.ofNat 64 (64 - Nat.size x.toNat)),
          (Instr.popc, 0x3A, fun x => BitVec.ofNat 64 ((List.range 64).filter (fun k => x.toNat.testBit k)).length)]
          : List ((Nat → Fields → Instr) × Nat × (Word → Word))),
        IssuesAct (e.1 n f) s n (some (a.issued (packWord e.2.1 f)
          [⟨2, .reg f.d ((e.2.2 (a.src f.a)).setWidth 80) (a.poisoned f.a)⟩] false)))) ∧
    (f.sa = 0 → f.sb = 0 → f.sc = 0 →
      IssuesAct (.movi n f) s n (some (a.issued (packWord 0x38 f) [⟨2, .reg f.d ((BitVec.signExtend 64 f.imm).setWidth 80) false⟩] false)))

/-- Shift counts and extraction (R162): a register count uses bits 5:0 of SB alone; an immediate count must be below 64 and EXTU needs a
width of 1 to 64 and IMM[31:13] zero, else the instruction faults with ILLEGAL_FIELD; bits EXTU selects above bit 63 read as zero. SEL lands at distance 2
whichever source it takes. -/
def Obligations.ShiftAndExtractRules : Prop :=
  (∀ (s : State) (n : Nat) (a : Act) (f : Fields), s.CanIssue n a → isDst f.d → isSrc f.a → isSrc f.b → isSrc f.c → f.imm = 0 →
    IssuesAct (.sel n f) s n (some (a.issued (packWord 0x37 f) [⟨2, .reg f.d ((if a.src f.c ≠ 0 then a.src f.a else a.src f.b).setWidth 80)
      (a.poisoned f.a || a.poisoned f.b || a.poisoned f.c)⟩] false))) ∧
  ∀ (s : State) (n : Nat) (a : Act) (f : Fields), s.CanIssue n a → isDst f.d → isSrc f.a → f.sc = 0 →
    (∀ e ∈ ([(Instr.shl, 0x29, fun x k => BitVec.ofNat 64 (x.toNat * 2 ^ k)), (Instr.shr, 0x2A, fun x k => BitVec.ofNat 64 (x.toNat / 2 ^ k)),
        (Instr.sar, 0x2B, fun x k => BitVec.ofInt 64 (x.toInt / 2 ^ k))] : List ((Nat → Fields → Instr) × Nat × (Word → Nat → Word))),
      isSrc f.b → f.imm = 0 → ∀ hi lo, (a.src f.b).toNat = hi * 64 + lo → lo < 64 →
        IssuesAct (e.1 n f) s n (some (a.issued (packWord e.2.1 f)
          [⟨2, .reg f.d ((e.2.2 (a.src f.a) lo).setWidth 80) (a.poisoned f.a || a.poisoned f.b)⟩] false))) ∧
    (f.sb = 0 → ∀ e ∈ ([(Instr.shli, 0x2C, fun x k => BitVec.ofNat 64 (x.toNat * 2 ^ k)),
        (Instr.shri, 0x2D, fun x k => BitVec.ofNat 64 (x.toNat / 2 ^ k)), (Instr.sari, 0x2E, fun x k => BitVec.ofInt 64 (x.toInt / 2 ^ k))]
        : List ((Nat → Fields → Instr) × Nat × (Word → Nat → Word))),
      if f.i < 64 then IssuesAct (e.1 n f) s n (some (a.issued (packWord e.2.1 f)
          [⟨2, .reg f.d ((e.2.2 (a.src f.a) f.i).setWidth 80) (a.poisoned f.a)⟩] false))
      else FaultsWith (e.1 n f) s n a .illegalField (wordDetail (packWord e.2.1 f))) ∧
    (f.sb = 0 → ∀ sh w, f.i = w * 64 + sh → sh < 64 →
      if 1 ≤ w ∧ w ≤ 64 then IssuesAct (.extu n f) s n (some (a.issued (packWord 0x3B f)
          [⟨2, .reg f.d ((BitVec.ofNat 64 ((a.src f.a).toNat / 2 ^ sh % 2 ^ w)).setWidth 80) (a.poisoned f.a)⟩] false))
      else FaultsWith (.extu n f) s n a .illegalField (wordDetail (packWord 0x3B f)))

/-! Block code: fixed point and multiplies (R163, R164, R196 to R199). -/

/-- The value of R198 for an exact result v in a signed format of w bits: v itself when it fits; else the nearer extreme with FXS.SAT (1) when SAT
is 1, or its low w bits with FXS.OV (2). -/
def Sys2Proof.Machine.inRange (w : Nat) (sat : Bool) (v : Int) : Int × Nat :=
  if -(2 ^ (w - 1)) ≤ v ∧ v < 2 ^ (w - 1) then (v, 0)
  else if sat then (if v < 0 then -(2 ^ (w - 1)) else 2 ^ (w - 1) - 1, 1) else ((BitVec.ofInt w v).toInt, 2)

/-- A fixed-point result and the flags it sets, landing together. -/
def Sys2Proof.Machine.fixEffects (d dist : Nat) (v : BitVec 80) (p : Bool) (fxs : Nat) : List Timed :=
  ⟨dist, .reg d v p⟩ :: (if fxs = 0 then [] else [⟨dist, .flags 0 fxs⟩])

/-- Q1.63 and Q1.31 instructions on G registers: the exact value, range-checked by R198. -/
def Obligations.FixedPointResults : Prop :=
  ∀ (s : State) (n : Nat) (a : Act) (f : Fields), s.CanIssue n a → isDst f.d → isSrc f.a → f.sc = 0 →
    let x := (a.src f.a).toInt
    let y := (a.src f.b).toInt
    let x32 := ((a.src f.a).setWidth 32).toInt
    let y32 := ((a.src f.b).setWidth 32).toInt
    let pa := a.poisoned f.a
    let pab := a.poisoned f.a || a.poisoned f.b
    let out (c : Instr) (code w : Nat) (v : Int) (p : Bool) : Prop :=
      IssuesAct c s n (some (a.issued (packWord code f)
        (fixEffects f.d 2 ((BitVec.ofInt 64 (inRange w a.sat v).1).setWidth 80) p (inRange w a.sat v).2) false))
    (isSrc f.b → f.imm = 0 →
      out (.addq n f) 0x40 64 (x + y) pab ∧ out (.subq n f) 0x41 64 (x - y) pab ∧
      out (.addq32 n f) 0x44 32 (x32 + y32) pab ∧ out (.subq32 n f) 0x45 32 (x32 - y32) pab) ∧
    (f.sb = 0 → f.imm = 0 → out (.negq n f) 0x42 64 (-x) pa ∧ out (.absq n f) 0x43 64 |x| pa) ∧
    (f.sb = 0 → f.i < 64 →
      out (.shlq n f) 0x46 64 (x * 2 ^ f.i) pa ∧
      IssuesAct (.shrq n f) s n (some (a.issued (packWord 0x47 f)
        [⟨2, .reg f.d ((BitVec.ofInt 64 (fxRound a.fxrm f.i x)).setWidth 80) pa⟩] false)))

/-- Guarded accumulators (Q17.63): accumulation, addition, shift and the moves to and from G registers. -/
def Obligations.GuardedAccumulatorResults : Prop :=
  ∀ (s : State) (n : Nat) (a : Act) (f : Fields), s.CanIssue n a → f.sc = 0 →
    let x := (a.src f.a).toInt
    let y := (a.src f.b).toInt
    let g (r : Nat) := (a.gaAt r).toInt
    let p (r : Nat) := a.poisoned r
    let to80 (c : Instr) (code : Nat) (v : Int) (q : Bool) : Prop :=
      IssuesAct c s n (some (a.issued (packWord code f) (fixEffects f.d 4 (BitVec.ofInt 80 (inRange 80 a.sat v).1) q (inRange 80 a.sat v).2) false))
    let to64 (c : Instr) (code w : Nat) (v : Int) : Prop :=
      IssuesAct c s n (some (a.issued (packWord code f)
        (fixEffects f.d 4 ((BitVec.ofInt 64 (inRange w a.sat v).1).setWidth 80) (p f.a) (inRange w a.sat v).2) false))
    (isGa f.d → isSrc f.a → isSrc f.b → f.imm = 0 →
      to80 (.accq n f) 0x48 (g f.d + fxRound a.fxrm 63 (x * y)) (p f.d || p f.a || p f.b) ∧
      to80 (.accqn n f) 0x49 (g f.d - fxRound a.fxrm 63 (x * y)) (p f.d || p f.a || p f.b) ∧
      to80 (.accq32 n f) 0x4A (g f.d + 2 * (((a.src f.a).setWidth 32).toInt * ((a.src f.b).setWidth 32).toInt)) (p f.d || p f.a || p f.b)) ∧
    (isGa f.d → isGa f.a → isGa f.b → f.imm = 0 → to80 (.gaadd n f) 0x4B (g f.a + g f.b) (p f.a || p f.b)) ∧
    (isDst f.d → isGa f.a → f.sb = 0 → f.imm = 0 →
      to64 (.movsGa n f) 0x4C 64 (g f.a) ∧ to64 (.movsQ31 n f) 0x4D 32 (fxRound a.fxrm 32 (g f.a))) ∧
    (isGa f.d → isSrc f.a → f.sb = 0 → f.imm = 0 →
      IssuesAct (.movtsGa n f) s n (some (a.issued (packWord 0x4E f) [⟨4, .reg f.d (BitVec.ofInt 80 x) (p f.a)⟩] false))) ∧
    (isGa f.d → isGa f.a → f.sb = 0 → f.i < 64 →
      IssuesAct (.gashr n f) s n (some (a.issued (packWord 0x4F f) [⟨4, .reg f.d (BitVec.ofInt 80 (fxRound a.fxrm f.i (g f.a))) (p f.a)⟩] false)))

/-- Distance of a multiply: 4, but on an A-PE outside cadence mode one slot for each 16-bit chunk of the multiplier operand that is not
a sign or zero extension of those below it (R199, R200). -/
def Sys2Proof.Machine.mulSlots (n : Nat) (cad : Bool) (v : Int) (lo hi : Nat → Int) : Nat :=
  if 256 ≤ n ∧ n < 272 ∧ cad = false then
    (if lo 16 ≤ v ∧ v < hi 16 then 1 else if lo 32 ≤ v ∧ v < hi 32 then 2 else if lo 48 ≤ v ∧ v < hi 48 then 3 else 4)
  else 4

/-- The multiplies of group 0b011: the product, and the multiplier stays busy until it lands. -/
def Obligations.MultiplyResults : Prop :=
  ∀ (s : State) (n : Nat) (a : Act) (f : Fields), s.CanIssue n a → isDst f.d → isSrc f.a → isSrc f.b → f.sc = 0 → f.imm = 0 →
    let x := a.src f.a
    let y := a.src f.b
    let sg := mulSlots n a.cad y.toInt (fun k => -(2 ^ (k - 1))) (fun k => 2 ^ (k - 1))
    let us := mulSlots n a.cad y.toNat (fun _ => 0) (fun k => 2 ^ k)
    let s32 := mulSlots n a.cad (y.setWidth 32).toInt (fun k => -(2 ^ (k - 1))) (fun k => 2 ^ (k - 1))
    let q63 := inRange 64 a.sat (fxRound a.fxrm 63 (x.toInt * y.toInt))
    let q31 := inRange 32 a.sat (fxRound a.fxrm 31 ((x.setWidth 32).toInt * (y.setWidth 32).toInt))
    let out (c : Instr) (code lat : Nat) (v : Word) (fxs : Nat) : Prop :=
      IssuesAct c s n (some { a.issued (packWord code f) (fixEffects f.d lat (v.setWidth 80) (a.poisoned f.a || a.poisoned f.b) fxs) false with
        mulFree := a.slot + 1 + lat })
    out (.mull n f) 0x60 sg (x * y) 0 ∧
    out (.mulhs n f) 0x61 sg (BitVec.ofInt 64 (x.toInt * y.toInt / 2 ^ 64)) 0 ∧
    out (.mulhu n f) 0x62 us (BitVec.ofNat 64 (x.toNat * y.toNat / 2 ^ 64)) 0 ∧
    out (.mulq n f) 0x63 sg (BitVec.ofInt 64 q63.1) q63.2 ∧
    out (.mulq32 n f) 0x64 s32 (BitVec.ofInt 64 q31.1) q31.2

/-! Block code: floating point (R168 to R171, R205 to R214). -/

/-- An FP result and the sticky flags it sets, landing together at distance 4. -/
def Sys2Proof.Machine.fpEffects (d : Nat) (v : Word) (p : Bool) (fps : Nat) : List Timed :=
  ⟨4, .reg d (v.setWidth 80) p⟩ :: (if fps = 0 then [] else [⟨4, .flags fps 0⟩])

/-- Two-source and fused FP instructions in both formats, in a block where no exception is enabled to trap: one rounding by FPS.RM, sticky flags
in FPS. -/
def Obligations.FpArithmeticResults : Prop :=
  ∀ (s : State) (n : Nat) (a : Act) (f : Fields), s.CanIssue n a → isDst f.d → isSrc f.a → isSrc f.b → f.imm = 0 →
    (a.aw = false ∨ a.ten = 0) →
    (f.sc = 0 → ∀ e ∈ ([(Instr.faddD, 0x80, fmtD, fun m rm x y => m.add rm x y), (Instr.fsubD, 0x81, fmtD, fun m rm x y => m.add rm x y.negate),
        (Instr.fmulD, 0x82, fmtD, fun m rm x y => m.mul rm x y), (Instr.faddS, 0x90, fmtS, fun m rm x y => m.add rm x y),
        (Instr.fsubS, 0x91, fmtS, fun m rm x y => m.add rm x y.negate), (Instr.fmulS, 0x92, fmtS, fun m rm x y => m.mul rm x y)]
        : List ((Nat → Fields → Instr) × Nat × Fmt × (Fmt → Nat → FVal → FVal → FRes))),
      IssuesAct (e.1 n f) s n (some (a.issued (packWord e.2.1 f)
        (fpEffects f.d (BitVec.ofNat 64 (e.2.2.2 e.2.2.1 a.rm (e.2.2.1.val (a.src f.a)) (e.2.2.1.val (a.src f.b))).bits)
          (a.poisoned f.a || a.poisoned f.b)
          (e.2.2.2 e.2.2.1 a.rm (e.2.2.1.val (a.src f.a)) (e.2.2.1.val (a.src f.b))).fl) false))) ∧
    (isSrc f.c → ∀ e ∈ ([(Instr.fmaD, 0x83, fmtD, fun m rm x y z => m.fma rm x y z), (Instr.fmsD, 0x84, fmtD, fun m rm x y z => m.fma rm x y z.negate),
        (Instr.fnmaD, 0x85, fmtD, fun m rm x y z => m.fma rm x.negate y z), (Instr.fmaS, 0x93, fmtS, fun m rm x y z => m.fma rm x y z),
        (Instr.fmsS, 0x94, fmtS, fun m rm x y z => m.fma rm x y z.negate), (Instr.fnmaS, 0x95, fmtS, fun m rm x y z => m.fma rm x.negate y z)]
        : List ((Nat → Fields → Instr) × Nat × Fmt × (Fmt → Nat → FVal → FVal → FVal → FRes))),
      IssuesAct (e.1 n f) s n (some (a.issued (packWord e.2.1 f)
        (fpEffects f.d
          (BitVec.ofNat 64 (e.2.2.2 e.2.2.1 a.rm (e.2.2.1.val (a.src f.a)) (e.2.2.1.val (a.src f.b)) (e.2.2.1.val (a.src f.c))).bits)
          (a.poisoned f.a || a.poisoned f.b || a.poisoned f.c)
          (e.2.2.2 e.2.2.1 a.rm (e.2.2.1.val (a.src f.a)) (e.2.2.1.val (a.src f.b)) (e.2.2.1.val (a.src f.c))).fl) false)))

/-- Comparisons, minimum and maximum, sign operations and classification in both formats; conversions between formats, and between a format and a 64-bit integer or
Q1.63 (R171, R213). -/
def Obligations.FpCompareAndConvert : Prop :=
  (∀ (s : State) (n : Nat) (a : Act) (f : Fields), s.CanIssue n a → isDst f.d → isSrc f.a → f.imm = 0 → (a.aw = false ∨ a.ten = 0) →
    ∀ m : Fmt, m = fmtD ∨ m = fmtS →
      let x := m.val (a.src f.a)
      let y := m.val (a.src f.b)
      let out (c : Instr) (code : Nat) (v fl : Nat) (p : Bool) : Prop :=
        IssuesAct c s n (some (a.issued (packWord code f) (fpEffects f.d (BitVec.ofNat 64 v) p fl) false))
      let pab := a.poisoned f.a || a.poisoned f.b
      (isSrc f.b → f.sc = 0 →
        (let r := m.minmax false x y (m.arg (a.src f.a)) (m.arg (a.src f.b))
         if m = fmtD then out (.fminD n f) 0x86 r.bits r.fl pab else out (.fminS n f) 0x96 r.bits r.fl pab) ∧
        (let r := m.minmax true x y (m.arg (a.src f.a)) (m.arg (a.src f.b))
         if m = fmtD then out (.fmaxD n f) 0x87 r.bits r.fl pab else out (.fmaxS n f) 0x97 r.bits r.fl pab)) ∧
      (isSrc f.b → f.c < 4 →
        let un := x.isNan || y.isNan
        let sig := x.isSig || y.isSig
        let v : Bool := if f.c = 0 then !un && fcmp x y == 0 else if f.c = 1 then !un && decide (fcmp x y < 0)
          else if f.c = 2 then !un && decide (fcmp x y ≤ 0) else un
        let fl := if (f.c = 1 ∨ f.c = 2) ∧ un ∨ sig then 16 else 0
        if m = fmtD then out (.fcmpD n f) 0x88 v.toNat fl pab else out (.fcmpS n f) 0x98 v.toNat fl pab) ∧
      (f.c < 4 → (if 2 ≤ f.c then isSrc f.b else f.sb = 0) →
        let w := m.width
        let sx := (a.src f.a).toNat.testBit (w - 1)
        let sy := (a.src f.b).toNat.testBit (w - 1)
        let sg : Bool := if f.c = 0 then false else if f.c = 1 then !sx else if f.c = 2 then sy else !sy
        let v := (if sg then 2 ^ (w - 1) else 0) + (a.src f.a).toNat % 2 ^ (w - 1)
        let p := a.poisoned f.a || (decide (2 ≤ f.c) && a.poisoned f.b)
        if m = fmtD then out (.fsgnD n f) 0x8F v 0 p else out (.fsgnS n f) 0x9C v 0 p) ∧
      (f.sb = 0 → f.c = (if m = fmtD then 0 else 1) → out (.fclass n f) 0x99 (m.classify x) 0 (a.poisoned f.a))) ∧
  (∀ (s : State) (n : Nat) (a : Act) (f : Fields), s.CanIssue n a → isDst f.d → isSrc f.a → f.sb = 0 → f.sc = 0 → f.imm = 0 →
    (a.aw = false ∨ a.ten = 0) →
    let x := a.src f.a
    let out (c : Instr) (code : Nat) (v : Word) (fl : Nat) : Prop :=
      IssuesAct c s n (some (a.issued (packWord code f) (fpEffects f.d v (a.poisoned f.a) fl) false))
    let outF (c : Instr) (code : Nat) (r : FRes) : Prop := out c code (BitVec.ofNat 64 r.bits) r.fl
    let outI (c : Instr) (code : Nat) (r : Flagged) : Prop := out c code r.val r.fl
    outF (.fcvtDS n f) 0x89 (cvtFmt fmtS fmtD a.rm (fmtS.val x)) ∧ outF (.fcvtSD n f) 0x8A (cvtFmt fmtD fmtS a.rm (fmtD.val x)) ∧
    outF (.fcvtDI n f) 0x8B (fmtD.ofInt a.rm x.toInt 0) ∧ outF (.fcvtDQ n f) 0x8D (fmtD.ofInt a.rm x.toInt (-63)) ∧
    outF (.fcvtSI n f) 0x9A (fmtS.ofInt a.rm x.toInt 0) ∧
    outI (.fcvtID n f) 0x8C (toInt64 a.rm 0 0x8000000000000000 (fmtD.val x)) ∧ outI (.fcvtQD n f) 0x8E (toInt64 a.rm (-63) 0 (fmtD.val x)) ∧
    outI (.fcvtIS n f) 0x9B (toInt64 a.rm 0 0x8000000000000000 (fmtS.val x)))

/-- An FP exception enabled in CTL.TEN (R135, R214): in an AW block the instruction writes neither result nor flag; its precise trap is in flight
to its write-back point. Shown for the two-source instructions, with an exception other than an exact tiny result. -/
def Obligations.FpEnabledExceptionTraps : Prop :=
  ∀ (s : State) (n : Nat) (a : Act) (f : Fields), s.CanIssue n a → isDst f.d → isSrc f.a → isSrc f.b → f.sc = 0 → f.imm = 0 → a.aw = true →
    ∀ e ∈ ([(Instr.faddD, 0x80, fmtD, fun m rm x y => m.add rm x y), (Instr.fsubD, 0x81, fmtD, fun m rm x y => m.add rm x y.negate),
        (Instr.fmulD, 0x82, fmtD, fun m rm x y => m.mul rm x y), (Instr.faddS, 0x90, fmtS, fun m rm x y => m.add rm x y),
        (Instr.fsubS, 0x91, fmtS, fun m rm x y => m.add rm x y.negate), (Instr.fmulS, 0x92, fmtS, fun m rm x y => m.mul rm x y)]
        : List ((Nat → Fields → Instr) × Nat × Fmt × (Fmt → Nat → FVal → FVal → FRes))),
      let r := e.2.2.2 e.2.2.1 a.rm (e.2.2.1.val (a.src f.a)) (e.2.2.1.val (a.src f.b))
      r.tiny = false → r.fl &&& a.ten ≠ 0 →
      IssuesAct (e.1 n f) s n (some (a.issued (packWord e.2.1 f)
        [⟨4, .trap f.d (a.src f.a) (a.src f.b) 0 (BitVec.ofNat 64 r.bits) r.fl none none a.rc⟩] false))

/-! Block code: the arithmetic engine (R165). -/

/-- Requests to the arithmetic engine of the PE's cluster: the operands and the modes read at issue, with the reply tag of the descriptor. -/
def Obligations.EngineRequests : Prop :=
  ∀ (s : State) (n : Nat) (a : Act) (f : Fields), s.CanIssue n a → n < 272 → (s.pe n).outQ.length < 64 → isSrc f.a → f.dst = 0 → f.sc = 0 →
    descOk .reply f → dPe f.i ≤ 275 →
    let req (op : AeOp) (y : Word) (p : Bool) : Msg :=
      { dest := peEndpoint n, opc := .control, pri := tPri a.tag, spec := 0, body := [], act := a.serial, cls := .a,
        ae := some { op := op, a := a.src f.a, b := y, poison := p, rm := a.rm, fxrm := a.fxrm, sat := a.sat, ten := a.ten, cad := a.cad,
                     tag := a.tag, reply := setFld (replyTag s n a f true) 59 59 p.toNat, pe := n, rerun := false } }
    (isSrc f.b → ∀ e ∈ ([(Instr.divS, 0x68, .divS), (Instr.divU, 0x69, .divU), (Instr.remS, 0x6A, .remS), (Instr.remU, 0x6B, .remU),
        (Instr.mul128S, 0x6C, .mul128S), (Instr.mul128U, 0x6D, .mul128U), (Instr.divq, 0x6E, .divq), (Instr.fdivD, 0x6F, .fdivD),
        (Instr.fdivS, 0x70, .fdivS)] : List ((Nat → Fields → Instr) × Nat × AeOp)),
      IssuesMsg (e.1 n f) s n a (packWord e.2.1 f) (req e.2.2 (a.src f.b) (a.poisoned f.a || a.poisoned f.b)) false) ∧
    (f.sb = 0 → ∀ e ∈ ([(Instr.fsqrtD, 0x71, .fsqrtD), (Instr.fsqrtS, 0x72, .fsqrtS), (Instr.isqrt, 0x73, .isqrt)]
        : List ((Nat → Fields → Instr) × Nat × AeOp)),
      IssuesMsg (e.1 n f) s n a (packWord e.2.1 f) (req e.2.2 0 (a.poisoned f.a)) false)

/-! Block code: local store and special registers (R172 to R174). -/

/-- Where LDL and STL reach (R172, R173): the offset of the word's address in the PE's local store. -/
def Sys2Proof.Machine.lsAddr (n : Nat) (a : Act) (f : Fields) : Nat := lsBase (pairPe n) + lsEa a f

/-- LDL, STL and their range: the bytes at the effective address, extended, land at distance 3; the low bytes of SB are stored there, in an AW block 4
slots later, and every other byte stays; an access off its alignment or beyond the local store faults with ADDRESS_FAULT (R172, R173). -/
def Obligations.LocalMemory : Prop :=
  (∀ (s : State) (n : Nat) (a : Act) (f : Fields), s.CanIssue n a → isDst f.d → f.sb = 0 → lsFields true f → (f.c % 2 = 1 → a.poisoned f.a = false) →
    lsRange n (lsEa a f) (lsSize f.c) → s.eccAt (lsAddr n a f) = .ok →
    let raw := s.load (lsAddr n a f) (lsSize f.c)
    IssuesAct (.ldl n f) s n (some (a.issued (packWord 0xA0 f)
      [⟨3, .reg f.d ((if f.c / 8 % 2 = 1 then sext64 (8 * lsSize f.c) raw else BitVec.ofNat 64 raw).setWidth 80) false⟩] false))) ∧
  (∀ (s : State) (n : Nat) (a : Act) (f : Fields), s.CanIssue n a → isSrc f.b → f.dst = 0 → lsFields false f → (f.c % 2 = 1 → a.poisoned f.a = false) →
    lsRange n (lsEa a f) (lsSize f.c) →
    let addr := lsAddr n a f
    let size := lsSize f.c
    let v := a.src f.b
    let p := a.poisoned f.b
    if a.aw then IssuesAct (.stl n f) s n (some (a.issued (packWord 0xA1 f) [⟨0, .store addr size v p⟩] true))
    else ∃ t, exec (.stl n f) s = .next t ∧ State.OnlyPe n ((s.store addr size v.toNat).setEcc addr (s.mergedEcc addr size p)) t ∧
      t.act n = some (a.issued (packWord 0xA1 f) [] true) ∧ t.load addr size = v.toNat % 256 ^ size ∧
      ∀ x, x < addr ∨ addr + size ≤ x → t.byte x = s.byte x) ∧
  (∀ (s : State) (n : Nat) (a : Act) (f : Fields), s.CanIssue n a → (f.c % 2 = 1 → a.poisoned f.a = false) →
    (lsEa a f % lsSize f.c ≠ 0 ∨ lsBytes n < lsEa a f + lsSize f.c) →
    (isDst f.d → f.sb = 0 → lsFields true f → FaultsWith (.ldl n f) s n a .addressFault ((lsBase n + lsEa a f) % 2 ^ 48)) ∧
    (isSrc f.b → f.dst = 0 → lsFields false f → FaultsWith (.stl n f) s n a .addressFault ((lsBase n + lsEa a f) % 2 ^ 48)))

/-- MOVS reads a special register or the high half of an input; MOVTS of a value within the register's rules is in flight at distance 2. -/
def Obligations.SpecialRegisterMoves : Prop :=
  ∀ (s : State) (n : Nat) (a : Act) (f : Fields), s.CanIssue n a → f.sb = 0 → f.imm = 0 →
    (isDst f.d → f.sc = 0 → ∀ e ∈ ([(24, a.tag), (25, a.rc.setWidth 64), (26, a.fps), (27, a.fxs), (28, a.ctl)] : List (Nat × Word)),
      f.a = e.1 → IssuesAct (.movs n f) s n (some (a.issued (packWord 0xA2 f) [⟨2, .reg f.d (e.2.setWidth 80) false⟩] false))) ∧
    (isDst f.d → f.sc = 0 → 256 ≤ n → n < 272 → ∀ e ∈ ([(29, a.mh), (30, a.ml), (31, a.lsel)] : List (Nat × Word)),
      f.a = e.1 → IssuesAct (.movs n f) s n (some (a.issued (packWord 0xA2 f) [⟨2, .reg f.d (e.2.setWidth 80) false⟩] false))) ∧
    (isDst f.d → f.sc = 1 → ∀ k t, f.a = 16 + k → k < 4 → a.ins[k]? = some t →
      IssuesAct (.movs n f) s n (some (a.issued (packWord 0xA2 f) [⟨2, .reg f.d ((hi64 t.val).setWidth 80) (a.poisoned f.a)⟩] false))) ∧
    (f.sc = 0 → isSrc f.a → a.poisoned f.a = false → (25 ≤ f.d ∧ f.d ≤ 28 ∨ f.d = 31 ∧ 256 ≤ n ∧ n < 272) → specialOk a f.d (a.src f.a) →
      (f.d = 28 → bitAt (a.src f.a) 3 → a.cad = false → s.cadBarred = false) →
      IssuesAct (.movts n f) s n (some (a.issued (packWord 0xA3 f) [⟨2, .special f.d (a.src f.a)⟩] (f.d == 31))))

/-! Block code: control (R130 to R139, R159, R160, R65, R66). -/

/-- NOP, BR, BRC, END, REP.I, REP.N and the fences: a branch opens one delay slot, END ends the activation, a repeat holds its count for the next
instruction and a register count of zero skips it; at a fence the activation stands while what it waits for is outstanding, else it goes on some slots
later (free, log 5). Each of them completes on every state that can issue it and on every operand the encoding admits. Every other opcode of the map
is its command on the PEs that have it, and none on the others. -/
def Obligations.ControlInstructions : Prop :=
  (∀ (s : State) (n : Nat) (a : Act) (f : Fields), s.CanIssue n a →
    (f = ⟨0, 0, 0, 0, 0⟩ →
      (∃ t, exec (.endBlk n f) s = .next t ∧ t.act n = none) ∧
      (∃ t b, exec (.fenceW n f) s = .next t ∧ t.act n = some b ∧ b.off = a.off + 1) ∧
      (∃ t b, exec (.fenceA n f) s = .next t ∧ t.act n = some b ∧ b.off = a.off + 1)) ∧
    (f.dst = 0 → f.sa = 0 → f.sb = 0 → f.sc = 0 → 1 ≤ f.i → f.i ≤ a.len →
      ∃ t b, exec (.br n f) s = .next t ∧ t.act n = some b ∧ b.off = a.off + 1 ∧ b.delay = some (some f.i)) ∧
    (f.dst = 0 → f.sb = 0 → isSrc f.a → a.poisoned f.a = false → f.c < 8 → 1 ≤ f.i → f.i ≤ a.len →
      ∃ t b, exec (.brc n f) s = .next t ∧ t.act n = some b ∧ b.off = a.off + 1 ∧ b.delay = some (if brcTaken f.c (a.src f.a) then some f.i else none)) ∧
    (f.dst = 0 → f.sb = 0 → f.sc = 0 → repBarred (s.imemAt n (a.base + a.off + 1)) = false → f.sa = 0 → 1 ≤ f.i → f.i < 65536 →
      (∃ t b, exec (.repI n f) s = .next t ∧ t.act n = some b ∧ b.off = a.off + 1 ∧ b.rep = some ⟨true, f.i, 0⟩) ∧
      (f.i ≤ 256 → ∃ t b, exec (.repN n f) s = .next t ∧ t.act n = some b ∧ b.off = a.off + 1 ∧ b.rep = some ⟨false, f.i, 0⟩))) ∧
  (∀ (s : State) (n : Nat) (a : Act) (f : Fields), s.CanIssue n a →
    IssuesAct (.nop n 0) s n (some (a.issued 0 [] false)) ∧
    (f.dst = 0 → f.sa = 0 → f.sb = 0 → f.sc = 0 → 1 ≤ f.i → f.i ≤ a.len →
      IssuesAct (.br n f) s n (some { a.issued (packWord 0x02 f) [] false with delay := some (some f.i) })) ∧
    (f.dst = 0 → f.sb = 0 → isSrc f.a → a.poisoned f.a = false → 1 ≤ f.i → f.i ≤ a.len →
      ∀ e ∈ ([(0, fun v => v = 0), (1, fun v => v ≠ 0), (2, fun v => v.toInt < 0), (3, fun v => 0 ≤ v.toInt), (4, fun v => 0 < v.toInt),
          (5, fun v => v.toInt ≤ 0), (6, fun v => v.toNat % 2 = 1), (7, fun v => v.toNat % 2 = 0)] : List (Nat × (Word → Prop))),
        f.c = e.1 →
        (e.2 (a.src f.a) → IssuesAct (.brc n f) s n (some { a.issued (packWord 0x03 f) [] false with delay := some (some f.i) })) ∧
        (¬ e.2 (a.src f.a) → IssuesAct (.brc n f) s n (some { a.issued (packWord 0x03 f) [] false with delay := some none }))) ∧
    (f.dst = 0 → f.sa = 0 → f.sb = 0 → f.sc = 0 → f.imm = 0 → IssuesAct (.endBlk n f) s n none)) ∧
  (∀ (s : State) (n : Nat) (a : Act) (f : Fields), s.CanIssue n a → f.dst = 0 → f.sb = 0 → f.sc = 0 →
    repBarred (s.imemAt n (a.base + a.off + 1)) = false →
    (f.sa = 0 → 1 ≤ f.i → f.i < 65536 →
      IssuesAct (.repI n f) s n (some { a.issued (packWord 0x04 f) [] false with rep := some ⟨true, f.i, 0⟩ }) ∧
      (f.i ≤ 256 → IssuesAct (.repN n f) s n (some { a.issued (packWord 0x05 f) [] false with rep := some ⟨false, f.i, 0⟩ }))) ∧
    (isSrc f.a → a.poisoned f.a = false → f.i = 65536 → a.off + 1 < a.len → a.src f.a = 0 →
      IssuesAct (.repI n f) s n (some { a.issued (packWord 0x04 f) [] false with off := a.off + 2 }) ∧
      IssuesAct (.repN n f) s n (some { a.issued (packWord 0x05 f) [] false with off := a.off + 2 }))) ∧
  (∀ (n : Nat) (f : Fields), ∀ e ∈ opMap, (e.1 = 0xC8 → f.c % 2 = 0) →
    wordInstr n (packWord e.1 f) = if opOnPe e.1 n then some (e.2 n f) else none) ∧
  (∀ (s : State) (n : Nat) (a : Act) (f : Fields), s.CanIssue n a → f = ⟨0, 0, 0, 0, 0⟩ →
    ∀ e ∈ ([(Instr.fenceW, 0x06, .w), (Instr.fenceA, 0x07, .a)] : List ((Nat → Fields → Instr) × Nat × FenceKind)),
      (s.outstanding n a.serial e.2.2 = true →
        IssuesAct (e.1 n f) s n (some { a.issued (packWord e.2.1 f) [] false with fence := some e.2.2 })) ∧
      (s.outstanding n a.serial e.2.2 = false → ∃ k t, exec (e.1 n f) s = .next t ∧ State.OnlyPe n { s with free := s.free + 1 } t ∧
        t.pe n = { s.pe n with clk := (s.pe n).clk + 1 + k,
                               act := some { a.issued (packWord e.2.1 f) [] false with slot := a.slot + 1 + k } }))

/-! Block code: messages (R30, R175 to R186, R151). -/

/-- The tag of an outgoing token (R30): PRI and CAD from the descriptor or the activation, CTX and ITER from the activation or, with XT, from SC. -/
def Sys2Proof.Machine.sentTag (a : Act) (f : Fields) (wide poison : Bool) : Word :=
  let i := f.i
  let x := a.src f.c
  mkTag (if dPv i then dPri i else tPri a.tag) (a.cad || dCd i) poison wide (if dXt i then fld x 55 36 else tCtx a.tag)
    (if dXt i then fld x 35 24 else tIter a.tag) (i / 2 ^ 15 % 2 ^ 9) (i / 4 % 2 ^ 13) (i % 4)

/-- SEND and SENDW queue a token for the PE that the descriptor names, when a route leads there: the tag of R30, poisoned when a value is; to a PE
that does not exist, or without a valid route, SEND faults with ROUTE_MISS (R18, R314). -/
def Obligations.TokenSendOps : Prop :=
  (∀ (s : State) (n : Nat) (a : Act) (f : Fields), s.CanIssue n a → (s.pe n).outQ.length < 64 → isSrc f.a → f.dst = 0 → descOk .token f →
    dEpm f.i = false → (dXt f.i → a.poisoned f.c = false) → dPe f.i ≤ 275 → s.noRoute (peEndpoint n) (peEndpoint (dPe f.i)) = false →
    (f.sb = 0 → IssuesMsg (.send n f) s n a (packWord 0xC0 f)
      (tokenMsg (peEndpoint (dPe f.i)) (sentTag a f false (a.poisoned f.a)) (mkWide 0 (a.src f.a)) a.serial .a)) ∧
    (isSrc f.b → IssuesMsg (.sendw n f) s n a (packWord 0xC1 f)
      (tokenMsg (peEndpoint (dPe f.i)) (sentTag a f true (a.poisoned f.a || a.poisoned f.b)) (mkWide (a.src f.b) (a.src f.a)) a.serial .a))) ∧
  (∀ (s : State) (n : Nat) (a : Act) (f : Fields), s.CanIssue n a → isSrc f.a → f.sb = 0 → f.dst = 0 → descOk .token f →
    dEpm f.i = false → (dXt f.i → a.poisoned f.c = false) →
    (275 < dPe f.i → FaultsWith (.send n f) s n a .routeMiss (2 ^ 47 + dPe f.i)) ∧
    (dPe f.i ≤ 275 → s.noRoute (peEndpoint n) (peEndpoint (dPe f.i)) = true →
      FaultsWith (.send n f) s n a .routeMiss (peEndpoint (dPe f.i))))

/-- READ, WRITE, IREAD, IWRITE and ATOM queue a request for the unit that owns the address, with the reply tag of the descriptor or, with NR, none; the address
classes of R177 that no message reaches fault with ACCESS_DENIED or ADDRESS_FAULT. -/
def Obligations.MemoryRequestOps : Prop :=
  (∀ (s : State) (n : Nat) (a : Act) (f : Fields), s.CanIssue n a → (s.pe n).outQ.length < 64 → isSrc f.a → a.poisoned f.a = false → dPe f.i ≤ 275 →
    let v := a.src f.a
    let nr := dNr f.i
    let tag (wide : Bool) : Word := if nr then outTag s n a { f with sc := 0, imm := 0 } false false else replyTag s n a f wide
    let msg (dest : Nat) (opc : Opc) (spec : Nat) (wide : Bool) (more : List Wide) (cls : FenceClass) : Msg :=
      { dest := dest, opc := opc, pri := tPri a.tag, spec := spec + put 7 7 nr.toNat,
        body := mkWide (tag wide) (BitVec.ofNat 64 (fld v 47 0)) :: more, act := a.serial, cls := cls, ae := none }
    let goes (iview r8 : Bool) (size dest : Nat) : Prop := s.target iview r8 v size = .inr dest ∧ s.noRoute (peEndpoint n) dest = false
    (f.dst = 0 → f.sb = 0 → f.c ≤ 4 → descOk .reply f → ∀ d, goes false (f.c == 0) (Machine.sizeOf f.c) d →
      IssuesMsg (.read n f) s n a (packWord 0xC2 f) (msg d .read (put 11 9 f.c) (f.c == 4) [] .a)) ∧
    (f.dst = 0 → isSrc f.b → f.c ≤ 3 → descOk .replyNr f → ∀ d, goes false false (Machine.sizeOf f.c) d →
      IssuesMsg (.write n f) s n a (packWord 0xC3 f)
        (msg d .write (put 11 9 f.c + put 8 8 (a.poisoned f.b).toNat) false [mkWide 0 (a.src f.b)] .w)) ∧
    (f.dst = 0 → f.sb = 0 → f.sc = 0 → descOk .reply f → ∀ d, goes true false 8 d →
      IssuesMsg (.iread n f) s n a (packWord 0xC4 f) (msg d .iread 0 false [] .a)) ∧
    (f.dst = 0 → isSrc f.b → f.sc = 0 → descOk .replyNr f → ∀ d, goes true false 8 d →
      IssuesMsg (.iwrite n f) s n a (packWord 0xC5 f) (msg d .iwrite (put 8 8 (a.poisoned f.b).toNat) false [mkWide 0 (a.src f.b)] .w)) ∧
    (isSrc f.b → f.c ≤ 9 → descOk .reply f → (if f.c = 1 then isSrc f.d ∧ a.poisoned f.d = false else f.dst = 0) → ∀ d, goes false false 8 d →
      IssuesMsg (.atom n f) s n a (packWord 0xC6 f) (msg d .atom (put 12 9 f.c + put 8 8 (a.poisoned f.b).toNat) false
        [mkWide (if f.c = 1 then a.src f.d else 0) (a.src f.b)] .w)) ∧
    (f.dst = 0 → f.sb = 0 → f.c = 10 → descOk .reply f → ∀ d, goes true false 8 d →
      IssuesMsg (.atom n f) s n a (packWord 0xC6 f) (msg d .atom (put 12 9 10) false [0] .w))) ∧
  (∀ (s : State) (n : Nat) (a : Act) (f : Fields), s.CanIssue n a → isSrc f.a → a.poisoned f.a = false → f.dst = 0 → f.sb = 0 → f.sc = 0 →
    descOk .reply f → (a.src f.a).toNat < 2 ^ 48 →
    (s.classify (a.src f.a).toNat = .barred → FaultsWith (.read n f) s n a .accessDenied (a.src f.a).toNat) ∧
    (s.classify (a.src f.a).toNat = .none → FaultsWith (.read n f) s n a .addressFault (a.src f.a).toNat))

/-- Services: NEWCTX, FREECTX in both forms, KILLCTX, RESUME and EVENT queue a SERVICE request; ACQ and REL queue a LOCK request. -/
def Obligations.ServiceRequests : Prop :=
  ∀ (s : State) (n : Nat) (a : Act) (f : Fields), s.CanIssue n a → n < 272 → (s.pe n).outQ.length < 64 → isSrc f.a → a.poisoned f.a = false → f.dst = 0 →
    let x := a.src f.a
    let y := a.src f.b
    let free (d : Nat) : Prop := s.noRoute (peEndpoint n) d = false
    let svc (d sub : Nat) (psn : Bool) (tag argA argB : Word) (two : Bool) (cls : FenceClass) : Msg :=
      serviceMsg d sub (tPri a.tag) psn tag argA argB two a.serial cls
    (isSrc f.b → a.poisoned f.b = false → f.sc = 0 → descOk .reply f → dPe f.i ≤ 275 → fld x 32 20 = 0 → fld x 59 56 ≤ 12 → fld y 63 32 = 0 →
      fld y 31 24 < 64 → free (fld y 31 24) →
      IssuesMsg (.newctx n f) s n a (packWord 0xC7 f) (svc (fld y 31 24) 0 false (replyTag s n a f false) x y true .none)) ∧
    (f.sb = 0 → f.c = 0 → f.imm = 0 → x.toNat < 2 ^ 20 → x.toNat % 16384 ≠ 0 → free (x.toNat / 16384) →
      IssuesMsg (.freectx n f) s n a (packWord 0xC8 f) (svc (x.toNat / 16384) 1 false a.tag x 0 false .none)) ∧
    (isSrc f.b → a.poisoned f.b = false → f.c = 1 → f.imm = 0 → x.toNat < 2 ^ 20 → fld y 63 12 = 0 → free (x.toNat / 16384) →
      IssuesMsg (.freectxI n f) s n a (packWord 0xC8 f) (svc (x.toNat / 16384) 2 false a.tag x y true .none)) ∧
    (f.sb = 0 → f.c = 0 → descOk .reply f → dPe f.i ≤ 275 → x.toNat < 2 ^ 20 → x.toNat % 16384 ≠ 0 → free (x.toNat / 16384) →
      IssuesMsg (.killctx n f) s n a (packWord 0xC9 f) (svc (x.toNat / 16384) 3 false (replyTag s n a f false) x 0 false .none)) ∧
    (f.sb = 0 → f.c ≤ 2 → f.imm = 0 → fld x 63 57 = 0 → fld x 56 48 ≤ 275 → x.toNat % 512 = 0 →
      IssuesMsg (.resume n f) s n a (packWord 0x08 f)
        (svc (peEndpoint (fld x 56 48)) 4 false a.tag x (BitVec.ofNat 64 f.c) true .a)) ∧
    (f.sb = 0 → f.sc = 0 → (f.i / 65536 = 0 ∨ f.i / 65536 = 2) → free 67 →
      IssuesMsg (.event n f) s n a (packWord 0xCC f) (svc 67 5 false a.tag x (BitVec.ofNat 64 f.i) true .none)) ∧
    (f.sb = 0 → f.sc = 0 → x.toNat < 1024 → dPe f.i ≤ 275 → free 65 →
      let lock (rel : Bool) : Msg :=
        { dest := 65, opc := .lock, pri := tPri a.tag, spec := put 7 7 (dNr f.i).toNat + put 9 9 rel.toNat + put 19 10 x.toNat,
          body := [mkWide (if dNr f.i then outTag s n a { f with sc := 0, imm := 0 } false false else replyTag s n a f false) 0],
          act := a.serial, cls := .a, ae := none }
      (descOk .reply f → IssuesMsg (.acq n f) s n a (packWord 0xCA f) (lock false)) ∧
      (descOk .replyNr f → IssuesMsg (.rel n f) s n a (packWord 0xCB f) (lock true)))

/-- The outbound queue (R186): with 64 messages in it, the 32 oldest move to the backlog before the next one enters. -/
def Obligations.OutboundBacklog : Prop :=
  ∀ (s : State) (n : Nat) (m : Msg), (s.pe n).outQ.length = 64 →
    ((s.pushOut n m).pe n).outQ = (s.pe n).outQ.drop 32 ++ [m] ∧
    ((s.pushOut n m).pe n).outBack = (s.pe n).outBack ++ (s.pe n).outQ.take 32

/-! Block code: the A-PE and K-PE extensions (R187 to R190, R228 to R239, R250, R252). -/

/-- K-PE: the bit-serial divides land 66 slots later and occupy the divider until then; KZERO zeroes words of the local store; SAFEW writes the
masked safe-state requests of its pair. -/
def Obligations.KeeperExtensions : Prop :=
  ∀ (s : State) (n : Nat) (a : Act) (f : Fields), s.CanIssue n a → 272 ≤ n →
    let x := a.src f.a
    let y := a.src f.b
    let v := x.toNat
    let div (c : Instr) (code : Nat) (r : Word) : Prop :=
      IssuesAct c s n (some { a.issued (packWord code f) [⟨66, .reg f.d (r.setWidth 80) (a.poisoned f.a || a.poisoned f.b)⟩] false with
        divUntil := a.slot + 67 })
    (isDst f.d → isSrc f.a → isSrc f.b → f.sc = 0 → f.imm = 0 → a.divUntil ≤ a.slot + 1 →
      div (.divkS n f) 0xF0 (if y = 0 then (if x.toInt < 0 then 0x8000000000000000 else 0x7FFFFFFFFFFFFFFF) else BitVec.ofInt 64 (x.toInt.tdiv y.toInt)) ∧
      div (.divkU n f) 0xF1 (if y = 0 then 0xFFFFFFFFFFFFFFFF else BitVec.ofNat 64 (x.toNat / y.toNat)) ∧
      div (.remkS n f) 0xF2 (if y = 0 then x else BitVec.ofInt 64 (x.toInt.tmod y.toInt)) ∧
      div (.remkU n f) 0xF3 (if y = 0 then x else BitVec.ofNat 64 (x.toNat % y.toNat))) ∧
    (isSrc f.a → a.poisoned f.a = false → f.dst = 0 → f.sb = 0 → f.sc = 0 → v % 8 = 0 → f.i % 8 = 0 → 8 ≤ f.i → v + f.i ≤ 32768 →
      if a.aw then IssuesAct (.kzero n f) s n (some (a.issued (packWord 0xF4 f) [⟨0, .zero (lsBase (pairPe n) + v) f.i⟩] true))
      else ∃ t, exec (.kzero n f) s = .next t ∧ t.act n = some (a.issued (packWord 0xF4 f) [] true) ∧
        (∀ b, lsBase (pairPe n) + v ≤ b → b < lsBase (pairPe n) + v + f.i → t.byte b = 0) ∧
        (∀ b, b < lsBase (pairPe n) + v ∨ lsBase (pairPe n) + v + f.i ≤ b → t.byte b = s.byte b)) ∧
    (f.dst = 0 → f.sa = 0 → f.sb = 0 → f.sc = 0 → f.i < 65536 → s.safeUnowned (pairOf n) f.i = false →
      if a.aw then IssuesAct (.safew n f) s n (some (a.issued (packWord 0xF5 f) [⟨0, .safew f.i⟩] true))
      else ∃ t, exec (.safew n f) s = .next t ∧ t.act n = some (a.issued (packWord 0xF5 f) [] true) ∧
        ∀ k, k < 8 → (t.safeReq (pairOf n)).testBit k = if (f.i / 256).testBit k then f.i.testBit k else (s.safeReq (pairOf n)).testBit k)

/-! Landing (R124, R130). -/

/-- A result in flight becomes visible in the slot it lands in, and a store in flight reaches memory there: shown with a NOP issued in that slot. -/
def Obligations.ResultsLand : Prop :=
  ∀ (s : State) (n : Nat) (a : Act) (g : Flight), s.CanIssue n a → g.divk = false → g.land = a.slot + 1 →
    (∀ r v p, r < 16 → g.eff = .reg r v p →
      ∃ t b, exec (.nop n 0) (s.setAct n (some { a with flights := [g] })) = .next t ∧ t.act n = some b ∧
        b.src r = v.setWidth 64 ∧ b.poisoned r = p ∧ b.flights = [] ∧ (∀ q, q < 16 → q ≠ r → b.src q = a.src q) ∧ b.off = a.off + 1) ∧
    (∀ p x, g.eff = .flags p x →
      ∃ t b, exec (.nop n 0) (s.setAct n (some { a with flights := [g] })) = .next t ∧ t.act n = some b ∧
        b.fps = a.fps ||| BitVec.ofNat 64 p ∧ b.fxs = a.fxs ||| BitVec.ofNat 64 x ∧ b.g = a.g) ∧
    (∀ addr size v p, g.eff = .store addr size v p →
      ∃ t, exec (.nop n 0) (s.setAct n (some { a with flights := [g] })) = .next t ∧ t.load addr size = v.toNat % 256 ^ size ∧
        ∀ b, b < addr ∨ addr + size ≤ b → t.byte b = s.byte b)

/-! Matching and dispatch (R28 to R36, R75 to R86, R99 to R108). -/

/-- PE n's matching stage can take token t: its pair, if it has one, runs, nothing is being searched, no kill filter, a good header word with a body
(R35, R57, R80, R247). -/
structure Sys2Proof.Machine.State.CanMatch (s : State) (n : Nat) (t : Token) : Prop where
  pe : n < 276
  pair : s.pairRuns n = true
  lookups : (s.pe n).lookups = []
  filter : (s.pe n).killFilter = [] ∧ (s.pe n).killStage = []
  word : (s.pe n).imemBad.contains (blockAddr n t.tag) = false
  base : blockAddr n t.tag < imemWords n
  head : opOf (s.imemAt n (blockAddr n t.tag)) = 0x10
  port : tPort t.tag ≤ fld (s.imemAt n (blockAddr n t.tag)) 47 46
  fault : t.fault = true → fld (s.imemAt n (blockAddr n t.tag)) 47 46 = 0
  pressure : s.pressure = false

/-- TOKEN_MATCH: the only input of a block of arity 1 enables its activation; the first of several inputs makes a record in the matching store; the
last one makes the record READY; an activation that finds the ready list full goes to the end of its backlog (R101); a pair that does not run takes no
token; a token for a port beyond the arity or for a word that is no header is refused with a unit fault (R35). -/
def Obligations.TokenMatching : Prop :=
  (∀ (s : State) (n : Nat) (t : Token) (r : List Token), s.CanMatch n t → (s.pe n).inbox = t :: r → tPoison t.tag = false →
    let p := s.pe n
    let k := tagCtxKey n (tCtx t.tag)
    let pri := max (s.ctx k).pri (tPri t.tag)
    let arity := fld (s.imemAt n (blockAddr n t.tag)) 47 46 + 1
    let key := matchKey t.tag
    (arity = 1 → p.ready.length = p.readyLim → s.auxRoom (peEndpoint n) .pes 64 = true → Runs (.tokenMatch n) s fun u =>
      (u.pe n).inbox = r ∧ (u.pe n).ready = p.ready ∧ ∃ e, (u.pe n).backlog = p.backlog ++ [e] ∧ e.src = .one t ∧ e.key = key) ∧
    (arity = 1 → p.backlog = [] → p.ready.length < p.readyLim → Runs (.tokenMatch n) s fun u =>
      (u.pe n).inbox = r ∧ (u.pe n).ready = p.ready ++ [⟨max pri (p.boostOf k), pri, p.clk + 1, p.clk + 1, key, .one t⟩] ∧
      (u.ctx k).fires = min ((s.ctx k).fires + 1) (2 ^ 48 - 1) ∧ u.mem = s.mem) ∧
    (1 < arity → (∀ q ∈ p.recs, q.key ≠ key ∧ q.keyBad = false) → p.lowCount (s.setOf n t.tag) .deep = 0 →
      p.waysUsed (s.setOf n t.tag) + (if tWide t.tag then 2 else 1) ≤ 4 → Runs (.tokenMatch n) s fun u =>
      (u.pe n).inbox = r ∧ (u.pe n).ready = p.ready ∧
      (u.pe n).recs = p.recs ++ [{ key := key, arity := arity, toks := [(tPort t.tag, t)], ready := false, poison := false, keyBad := false,
                                   arrived := fld s.tb 31 0, level := .store, set := s.setOf n t.tag }]) ∧
    (arity = 2 → ∀ q x, p.recs = [q] → q.key = key → q.keyBad = false → q.poison = false → q.level = .store → q.arity = 2 →
      q.toks = [(1 - tPort t.tag, x)] → tPoison x.tag = false → tWide t.tag = false → p.backlog = [] → p.ready.length < p.readyLim →
      Runs (.tokenMatch n) s fun u =>
        (u.pe n).inbox = r ∧ (∃ y, (u.pe n).recs = [{ q with toks := y, ready := true }] ∧ y.length = 2 ∧ (tPort t.tag, t) ∈ y ∧ (1 - tPort t.tag, x) ∈ y) ∧
        ∃ e, (u.pe n).ready = p.ready ++ [e] ∧ e.src = .record key ∧ e.key = key)) ∧
  (∀ (s : State) (n : Nat), n < 276 → s.pairRuns n = false → exec (.tokenMatch n) s = .next s) ∧
  (∀ (s : State) (n : Nat) (t : Token) (r : List Token), n < 276 → s.pairRuns n = true → (s.pe n).lookups = [] → (s.pe n).killFilter = [] →
    (s.pe n).killStage = [] → (s.pe n).imemBad = [] → s.pressure = false → (s.pe n).inbox = t :: r → t.fault = false →
    blockAddr n t.tag < imemWords n →
    (opOf (s.imemAt n (blockAddr n t.tag)) ≠ 0x10 ∨ fld (s.imemAt n (blockAddr n t.tag)) 47 46 < tPort t.tag) →
    (s.ctx (tKey t.tag)).hv = true → (s.ctx (tKey t.tag)).state ≠ .free →
    Runs (.tokenMatch n) s fun u =>
      (u.pe n).inbox = r ∧ (u.pe n).ready = (s.pe n).ready ∧ (u.pe n).recs = (s.pe n).recs ∧
      ∃ m, (u.pe n).outQ = (s.pe n).outQ ++ [m] ∧ m.fault = true ∧ m.dest = peEndpoint (s.ctx (tKey t.tag)).hpe)

/-- ACTIVATION_DISPATCH: the best ready entry's activation runs with a fresh register file (R36, R99, R102, R113, R120). -/
def Obligations.Dispatch : Prop :=
  ∀ (s : State) (n : Nat) (r : ReadyE) (t : Token), n < 276 → (s.pe n).act = none → (s.pe n).halt = .run → s.mayDispatch n = true →
    bestReady (s.pe n).ready = some r → r.src = .one t → (s.pe n).imemBad.contains (blockAddr n r.key) = false →
    headerOk n (blockAddr n r.key) (s.imemAt n (blockAddr n r.key)) = true → s.cadBarred = false →
    let hdr := s.imemAt n (blockAddr n r.key)
    let cad := tCad t.tag || (s.ctx (tagCtxKey n (tCtx r.key))).cad || bitAt hdr 44
    Runs (.activationDispatch n) s fun u => ∃ a, u.act n = some a ∧
      a.tag = setFld (setFld r.key 63 61 r.base) 60 60 cad.toNat ∧ a.hdr = hdr ∧ a.base = blockAddr n r.key ∧ a.ins = [t] ∧ a.off = 1 ∧
      a.flights = [] ∧ (∀ q, q < 16 → a.src q = 0) ∧ a.src 16 = lo64 t.val ∧ a.fps = 0 ∧ a.fxs = 0 ∧ a.gp = 0 ∧
      (u.pe n).ready.length + (u.pe n).backlog.length + 1 = (s.pe n).ready.length + (s.pe n).backlog.length

/-- The order of dispatch (R99): no ready entry has a higher priority than the one chosen, and none of its priority an earlier stamp. -/
def Obligations.DispatchOrder : Prop :=
  ∀ (l : List ReadyE) (r : ReadyE), bestReady l = some r →
    r ∈ l ∧ ∀ q ∈ l, q.pri ≤ r.pri ∧ (q.pri = r.pri → r.stamp ≤ q.stamp)

/-- The lower levels and their traffic: a search of the deep store is answered and its token placed; a READY record's inputs reach the fill buffer;
the shadow bank takes the inputs of the next entry. -/
def Obligations.LowerLevels : Prop :=
  (∀ (s : State) (p : Packet) (r : List Packet), s.reqAt 66 = p :: r → p.opc = .spill → p.vn = 1 → s.pressure = false →
    Runs .spillEngineRequest s fun u => u.reqAt 66 = r ∧ ∃ m, (u.ni 66).outQ = (s.ni 66).outQ ++ [m] ∧ m.dest = p.src ∧ m.opc = .spill ∧
      m.spec = p.rslot ∧ m.body = p.body ∧ m.seq = some p.seq) ∧
  (∀ (s : State) (n : Nat) (t : Token) (p : Packet) (r : List Packet) (b : Bool), s.CanMatch n t →
    s.reqAt (peEndpoint n) = p :: r → p.opc = .spill → p.vn = 2 → p.spillPe = pairPe n → p.rtag = t.tag →
    1 ≤ fld (s.imemAt n (blockAddr n t.tag)) 47 46 → (∀ q ∈ (s.pe n).recs, q.key ≠ matchKey t.tag ∧ q.keyBad = false) →
    (s.pe n).waysUsed (s.setOf n t.tag) + (if tWide t.tag then 2 else 1) ≤ 4 →
    Runs (.deepStoreLookupReply n) (s.updPe n (fun x => { x with lookups := [⟨t, s.setOf n t.tag, true, b⟩] })) fun u =>
      u.reqAt (peEndpoint n) = r ∧ (u.pe n).lookups = [] ∧ ∃ q, (u.pe n).recs = (s.pe n).recs ++ [q] ∧ q.key = matchKey t.tag ∧
        q.toks = [(tPort t.tag, t)] ∧ q.level = .store) ∧
  (∀ (s : State) (n : Nat) (q : MRec), n < 276 → s.pressure = false →
    (s.pe n).recs.find? (fun q => q.ready && (s.pe n).fillBuf.contains q.key && q.level != .fill) = some q → q.keyBad = false →
    Runs (.fillComplete n) s fun u =>
      (u.pe n).recs = (s.pe n).recs.map (fun x => if x.key = q.key then { q with level := .fill } else x)) ∧
  (∀ (s : State) (n : Nat) (r : ReadyE), n < 276 → bestReady (s.pe n).ready = some r →
    Runs (.shadowCopyComplete n) s fun u => (u.pe n).shadow = some r.src ∧ (u.pe n).ready = (s.pe n).ready)

/-! Suspension and resumption (R104, R129, R135, R141, R150 to R154, R219, R238). -/

/-- PREEMPTION at an iteration boundary of a REP.I, and PRECISE_TRAP at the write-back point of the trapping instruction: the activation goes to a
save frame; an entry for it joins the ready list, or the handler gets FP_TRAP with the resumable flag and what issued after the instruction is undone.
-/
def Obligations.Suspension : Prop :=
  (∀ (s : State) (n : Nat) (a : Act) (r : Rep) (x : ReadyE) (fr : Nat), n < 276 → s.act n = some a → a.flights = [] → a.rep = some r →
    r.interruptible = true → r.done ≠ 0 → a.lrd = none → (s.pe n).halt = .run → x ∈ (s.pe n).ready → 6 ≤ x.pri → actPri (s.pe n) a < x.pri →
    (s.pe n).ready.length < 256 → (s.pe n).backlog = [] → (s.pe n).freeFrame true = some fr →
    Runs (.preemption n) s fun u => u.act n = none ∧
      (∃ y, (u.pe n).frame fr = some y ∧ y.preempt = true ∧ y.inReady = true ∧ y.act = a) ∧
      ∃ e, (u.pe n).ready = (s.pe n).ready ++ [e] ∧ e.src = .frame fr ∧ e.key = a.tag ∧ e.stamp = a.stamp) ∧
  (∀ (s : State) (n : Nat) (a : Act) (g : Flight) (dst : Nat) (opa opb opc res : Word) (exc fr : Nat), n < 276 → s.act n = some a →
    a.flights = [g] → g.divk = false → g.eff = .trap dst opa opb opc res exc none none a.rc → (s.pe n).freeFrame false = some fr → a.handles = none →
    (s.ctx a.key).hv = true → (s.ctx a.key).state ≠ .free →
    Runs (.preciseTrap n) s fun u => u.act n = none ∧
      (∃ y, (u.pe n).frame fr = some y ∧ y.preempt = false ∧ y.act.off = g.offset ∧ y.act.g = a.g ∧ y.act.fps = a.fps ∧ y.result = res ∧ y.exc = exc) ∧
      ∃ m w, (u.pe n).outQ = (s.pe n).outQ ++ [m] ∧ m.fault = true ∧ m.dest = peEndpoint (s.ctx a.key).hpe ∧
        m.body = tokenBody w (faultValue a.tag false 4 g.offset (s.frameAddr n fr / 512 * 512 + 2 * exc + 1)))

/-- RESIDUE_MISMATCH (R219): with nothing visible issued the block starts again once; otherwise the activation faults. DIVK_LANDING during a fence and LRD_LANDING:
the results reach their registers. -/
def Obligations.Checks : Prop :=
  (∀ (s : State) (n : Nat) (a : Act) (g : Flight) (r : Nat) (v : BitVec 80) (p : Bool), n < 276 → s.act n = some a → a.flights = [g] →
    g.eff = .reg r v p →
    (a.visible = false → a.retried = false → a.resumed = false → Runs (.residueMismatch n g.issue) s fun u =>
      ∃ b, u.act n = some b ∧ b.retried = true ∧ b.off = 1 ∧ b.flights = [] ∧ b.tag = a.tag ∧ b.ins = a.ins ∧ ∀ q, q < 16 → b.src q = 0) ∧
    ((a.visible = true ∨ a.retried = true ∨ a.resumed = true) → Runs (.residueMismatch n g.issue) s fun u => u.act n = none)) ∧
  ((∀ (s : State) (n : Nat) (a : Act) (g : Flight) (r : Nat) (v : BitVec 80) (p : Bool) (k : FenceKind), n < 276 → s.act n = some a →
    a.flights = [g] → g.divk = true → g.eff = .reg r v p → r < 16 → a.fence = some k → a.slot < g.land →
    Runs (.divkLanding n) s fun u => ∃ b, u.act n = some b ∧ b.src r = v.setWidth 64 ∧ b.flights = [] ∧ b.slot = g.land ∧ b.fence = some k ∧
      ∀ q, q < 16 → q ≠ r → b.src q = a.src q) ∧
  (∀ (s : State) (n : Nat) (a : Act) (r : LrdRun) (v : Word) (fps fxs up : Nat), 256 ≤ n → n < 272 → s.act n = some a → a.lrd = some r → r.dst < 16 →
    let t := max a.slot (r.issue + (s.lacc n r.acc).cycles a.cad)
    (∀ g ∈ a.flights, t ≤ g.land) → (s.lacc n r.acc).residueBad = false → (s.lacc n r.acc).err = 0 → a.off ≤ a.len →
    (up ≤ 1 → (s.lacc n r.acc).readout r.lsel r.rm r.fxrm r.sat = some (v, fps, fxs) →
      Runs (.lrdLanding ⟨n, up⟩) s fun u => ∃ b, u.act n = some b ∧ b.src r.dst = v ∧ b.poisoned r.dst = false ∧ b.lrd = none ∧ b.slot = t ∧
        b.fps = a.fps ||| BitVec.ofNat 64 fps ∧ b.fxs = a.fxs ||| BitVec.ofNat 64 fxs ∧ u.lacc n r.acc = s.lacc n r.acc) ∧
    (2 ≤ up → a.flights = [] → Runs (.lrdLanding ⟨n, up⟩) s fun u => u.act n = none ∧ (u.lacc n r.acc).corrupt = true)))

/-- A-PE: wide multiplies, accumulation into the selected LACC, its clearing and the start of a readout, for an LACC bound to the activation's context (LCLR also for
an unbound one); another context's is ACCESS_DENIED (R230); a cleared accumulator reads as zero and a corrupt one gives no result (R229, R236). -/
def Obligations.LongAccumulators : Prop :=
  (∀ (s : State) (n : Nat) (a : Act) (f : Fields), s.CanIssue n a → 256 ≤ n → n < 272 → (a.aw = false ∨ a.ten = 0) →
    let x := a.src f.a
    let y := a.src f.b
    let k := fld a.lsel 1 0
    let sg := mulSlots n a.cad y.toInt (fun k => -(2 ^ (k - 1))) (fun k => 2 ^ (k - 1))
    let us := mulSlots n a.cad y.toNat (fun _ => 0) (fun k => 2 ^ k)
    let mine : Prop := (s.lacc n k).bound = true ∧ (s.lacc n k).owner = tCtx a.tag
    (isSrc f.a → isSrc f.b → f.dst = 0 → f.sc = 0 → f.imm = 0 →
      IssuesAct (.mulS n f) s n (some { a.issued (packWord 0xE0 f) [⟨sg, .product (BitVec.ofInt 128 (x.toInt * y.toInt))⟩] false with mulFree := a.slot + 1 + sg }) ∧
      IssuesAct (.mulU n f) s n (some { a.issued (packWord 0xE1 f) [⟨us, .product (BitVec.ofNat 128 (x.toNat * y.toNat))⟩] false with mulFree := a.slot + 1 + us }) ∧
      (mine →
        let iv : List Timed := if (macProduct x y).iv then [⟨1, .flags flIV 0⟩] else []
        IssuesAct (.macX n f) s n (some (a.issued (packWord 0xE2 f) (⟨1, .mac k (.x false x y)⟩ :: iv) true)) ∧
        IssuesAct (.macXn n f) s n (some (a.issued (packWord 0xE3 f) (⟨1, .mac k (.x true x y)⟩ :: iv) true)) ∧
        IssuesAct (.macQ n f) s n (some { a.issued (packWord 0xE4 f) [⟨sg, .mac k (.q false x y)⟩] true with mulFree := a.slot + 1 + sg }) ∧
        IssuesAct (.macQn n f) s n (some { a.issued (packWord 0xE5 f) [⟨sg, .mac k (.q true x y)⟩] true with mulFree := a.slot + 1 + sg }))) ∧
    (isDst f.d → f.sa = 0 → f.sb = 0 → f.sc = 0 → f.imm = 0 → mine →
      IssuesAct (.lrd n f) s n (some { a.issued (packWord 0xE6 f) [] false with
        lrd := some ⟨f.d, k, a.lsel, a.rm, a.fxrm, a.sat, a.slot + 1, a.off, packWord 0xE6 f⟩ })) ∧
    (f = ⟨0, 0, 0, 0, 0⟩ → (mine ∨ (s.lacc n k).bound = false) →
      IssuesAct (.lclr n f) s n (some (a.issued (packWord 0xE7 f) [⟨1, .lclr k⟩] true)))) ∧
  (∀ (s : State) (n : Nat) (a : Act) (f : Fields), s.CanIssue n a → 256 ≤ n → n < 272 → isSrc f.a → isSrc f.b → f.dst = 0 → f.sc = 0 → f.imm = 0 →
    (s.lacc n (fld a.lsel 1 0)).bound = true → (s.lacc n (fld a.lsel 1 0)).owner ≠ tCtx a.tag →
    ∃ t, exec (.macX n f) s = .next t ∧ t.act n = none ∧ t.lacc n (fld a.lsel 1 0) = s.lacc n (fld a.lsel 1 0)) ∧
  (∀ (l : Lacc) (lsel : Word) (rm fxrm : Nat) (sat : Bool), fld lsel 4 2 ≤ 4 →
    l.clear.readout lsel rm fxrm sat = some (0, 0, 0) ∧ ({ l with corrupt := true } : Lacc).readout lsel rm fxrm sat = none)

/-- RESUME at the owning PE: RESUME.D frees the frame; RESUME puts the activation back in the ready list. -/
def Obligations.ResumeRequests : Prop :=
  ∀ (s : State) (e n f : Nat) (p : Packet) (r : List Packet) (x : Frame), n < 272 → peEndpoint n = e → s.reqAt e = p :: r → p.opc = .service → p.svc = 4 →
    p.len = 2 → p.src < 64 → p.argA = BitVec.ofNat 64 (s.frameAddr n f + 2 ^ 48 * n) → f < 8 → s.frameAddr n 7 < 2 ^ 48 →
    (s.pe n).frame f = some x → x.preempt = false → x.inReady = false →
    s.frameWord n f 0x100 = x.act.tag → s.frameWord n f 0x140 = x.status → tCtx x.act.tag = tCtx p.rtag → tIter x.act.tag = tIter p.rtag →
    (p.argB = 2 → Runs (.cmResumeRequest e) s fun u => (u.pe n).frame f = none ∧ u.reqAt e = r ∧ (u.pe n).ready = (s.pe n).ready) ∧
    (p.argB = 0 → s.frameOk n f x.act = true → (s.pe n).backlog = [] → (s.pe n).ready.length < (s.pe n).readyLim → Runs (.cmResumeRequest e) s fun u =>
      u.reqAt e = r ∧ (∃ y, (u.pe n).frame f = some y ∧ y.inReady = true ∧ y.act.off = x.act.off ∧ y.act.src 0 = s.frameWord n f 0) ∧
      ∃ q, (u.pe n).ready = (s.pe n).ready ++ [q] ∧ q.src = .frame f)

/-! Engines, micro-sequencers and keeper pairs (R54, R166, R167, R202, R220, R245 to R256, R443 to R446, R508). -/

/-- An event of this code, severity and DETAIL stands at the collector of endpoint e. -/
def Sys2Proof.Machine.Logged (u : State) (e : Nat) (code : Ev) (sev : Sev) (detail : Word) : Prop :=
  ∃ x ∈ Tbl.get [] u.coll (collectorOf e), x.code = code ∧ x.sev = sev ∧ x.detail = detail ∧ x.src = e

/-- Endpoint e has queued one FAULT token, for the handler of context k. -/
def Sys2Proof.Machine.FaultSent (s u : State) (e k : Nat) : Prop :=
  ∃ m, (u.ni e).outQ = (s.ni e).outQ ++ [m] ∧ m.fault = true ∧ m.opc = .token ∧ m.dest = peEndpoint (s.ctx k).hpe

/-- Context k has a handler that can be told. -/
def Sys2Proof.Machine.State.handled (s : State) (k : Nat) : Prop := (s.ctx k).hv = true ∧ (s.ctx k).state ≠ .free

/-- What a PE reset leaves of PE n: nothing that runs or waits inside it, but its input, its kill filter and its instruction words (R508). -/
def Sys2Proof.Machine.PeWasReset (s u : State) (n : Nat) : Prop :=
  (u.pe n).act = none ∧ (u.pe n).recs = [] ∧ (u.pe n).ready = [] ∧ (u.pe n).backlog = [] ∧ (u.pe n).frames = [] ∧ (u.pe n).outQ = [] ∧
    (u.pe n).laccs = [] ∧ (u.pe n).inbox = (s.pe n).inbox ∧ (u.pe n).killFilter = (s.pe n).killFilter ∧ u.imem = s.imem

/-- A reply token with this tag can leave endpoint e at once: it is for another endpoint, nothing of its virtual network goes before it, and there
is a route and space for it. -/
def Sys2Proof.Machine.State.CanReply (s : State) (e : Nat) (tag : Word) (v : Wide) : Prop :=
  let d := peEndpoint (tPe tag)
  d ≠ e ∧ (s.waitVns e).contains 0 = false ∧ (∀ m ∈ (s.ni e).outQ, m.vn ≠ 0) ∧ s.redirect e d .token = false ∧ (s.routeOf e d 0).isSome = true ∧
    (tokenBody tag v).length + 1 ≤ (if e < 64 then s.vcFree e 5 0 else s.vcFree 64 (crossIn e) 0)

/-- That token has left: a TOKEN packet stands last at the local input of the router, or at the endpoint's input of the hub crossbar. -/
def Sys2Proof.Machine.ReplySent (s u : State) (e : Nat) (tag : Word) (v : Wide) (newctxr : Bool) : Prop :=
  let at0 (t : State) : List Hop := if e < 64 then t.vc e 5 0 else t.vc 64 (crossIn e) 0
  (u.ni e).outQ = (s.ni e).outQ ∧ ∃ h, at0 u = at0 s ++ [h] ∧ h.pkt.opc = .token ∧ h.pkt.dest = peEndpoint (tPe tag) ∧ h.pkt.src = e ∧
    h.pkt.spec = newctxr.toNat ∧ h.pkt.body = tokenBody (setFld (setBit tag 56 false) 57 57 0) v

/-- The words whose KIND says that a save frame of PE n is in use (R150). -/
def Sys2Proof.Machine.State.KindWord (s : State) (n a : Nat) : Prop :=
  ∃ x ∈ (s.pe n).frames, x.2.isSome = true ∧ s.frameAddr n x.1 + 0x140 ≤ a ∧ a < s.frameAddr n x.1 + 0x148

/-- The arithmetic engine and the micro-sequencers: a request enters the engine, its reply leaves, a first residue mismatch runs it again, a second
one faults; a halt trap in a trap window keeps the interrupted routine in a save slot, DONE restores it; the next micro-address with its patch,
control-store faults and what a reset of a PE or a cluster discards, its save frames become free in module memory. -/
def Obligations.EnginesAndSequencers : Prop :=
  (∀ (s : State) (n : Nat) (m : Msg) (q : AeReq) (r : List Msg), n < 272 → (s.pe n).outBack = [] → (s.pe n).outQ = m :: r → m.ae = some q →
    let a := s.ae (peEndpoint n)
    (a.queue = [] → Runs (.aeRequestAccept n) s fun u => (u.pe n).outQ = r ∧ (u.pe n).act = (s.pe n).act ∧ u.ae (peEndpoint n) =
      (if q.op.isMul then { a with pipe := a.pipe ++ [q] }
       else if a.unit0 = none then { a with unit0 := some q }
       else if a.unit1 = none then { a with unit1 := some q } else { a with queue := [q] })) ∧
    (16 ≤ a.queue.length → exec (.aeRequestAccept n) s = .next s)) ∧
  (∀ (s : State) (c k : Nat) (q : AeReq), c < 64 → k < 3 → (s.ae c).queue = [] → (s.ae c).atUnit k = some q → s.aeArmed c k = false →
    (s.CanReply c q.reply q.value → Runs (.aeReply c k false) s fun u => u.ae c = (s.ae c).putUnit k none ∧
      ReplySent s u c q.reply q.value false) ∧
    (q.rerun = false → Runs (.aeReply c k true) s fun u => u.ae c = (s.ae c).putUnit k (some { q with rerun := true }) ∧ u.nis = s.nis) ∧
    (q.rerun = true → s.handled (tCtx q.reply) → Runs (.aeReply c k true) s fun u => u.ae c = (s.ae c).putUnit k none ∧
      FaultSent s u c (tCtx q.reply))) ∧
  (∀ (s : State) (n : Nat) (c : BitVec 32) (a : Nat), n < 276 → s.microNext (pairPe n) c = .next a → (s.microHere (pairPe n)).tw = true →
    s.routine (pairPe n) = none → (s.pe n).useq.slots = [] → (s.pe n).useq.killTrap = none → (s.pe n).useq.haltTrap = true →
    Runs (.microTrap ⟨n, c⟩) s fun u => (u.pe n).halt = .halted ∧ (u.pe n).useq.haltTrap = false ∧
      (u.pe n).act = (s.pe n).act ∧ (u.pe n).ready = (s.pe n).ready ∧ (u.pe n).useq.running = some ⟨.halt, 0, 0⟩ ∧
      (u.pe n).useq.slots = [⟨BitVec.ofNat 14 a, (s.pe n).useq.mr, none⟩]) ∧
  (∀ (s : State) (n : Nat) (c : BitVec 32) (x : SaveSlot) (r : List SaveSlot) (y : Routine) (k : Nat), n < 272 → (s.microHere n).seq = 1 →
    (s.pe n).useq.slots = x :: r → (s.pe n).useq.running = some y → (y.kind = .halt ∨ y.kind = .fill ∨ y.kind = .release) →
    Runs (.ucodeFault ⟨n, c⟩ k) s fun u => (u.pe n).useq.mpc = x.mpc ∧ (u.pe n).useq.mr = x.mr ∧ (u.pe n).useq.running = x.routine ∧
      (u.pe n).useq.slots = r ∧ u.regs = s.regs ∧ u.mem = s.mem) ∧
  (∀ (s : State) (n : Nat) (c : BitVec 32) (a : Nat), n < 272 → (s.microHere n).seq = 0 → (s.microHere n).next c = a →
    (a < 0x2000 → s.patchWord n a = none → Runs (.ucodeFault ⟨n, c⟩ 0) s fun u => (u.pe n).useq.mpc.toNat = a ∧ u.regs = s.regs ∧ u.mem = s.mem) ∧
    (∀ k, a < 0x2000 → s.patchWord n a = some k → Runs (.ucodeFault ⟨n, c⟩ 0) s fun u => (u.pe n).useq.mpc.toNat = 0x2000 + k) ∧
    (0x2000 ≤ a → a < 0x2200 → Runs (.ucodeFault ⟨n, c⟩ 0) s fun u => (u.pe n).useq.mpc.toNat = a) ∧
    (a < 0x2200 → Runs (.ucodeFault ⟨n, c⟩ 1) s fun u => (u.pe n).useq.mpc.toNat = s.fetchAddr n a ∧
      Logged u (peEndpoint n) .ucodeCe .corrected (BitVec.ofNat 64 (s.fetchAddr n a))) ∧
    ∀ k, (0x2200 ≤ a ∨ 2 ≤ k) → (∀ e, (s.cm e).gate = []) → Runs (.ucodeFault ⟨n, c⟩ k) s fun u => PeWasReset s u n ∧
      Logged u (peEndpoint n) .ucodeFault .deferred (BitVec.ofNat 64 (if a < 0x2200 then s.fetchAddr n a else a))) ∧
  (∀ (s : State) (n : Nat) (c : BitVec 32) (k : Nat), n < 272 → 2 ≤ (s.microHere n).seq → (∀ e, (s.cm e).gate = []) →
    Runs (.ucodeFault ⟨n, c⟩ k) s fun u =>
    PeWasReset s u n ∧ Logged u (peEndpoint n) .ucodeFault .deferred (BitVec.ofNat 64 (s.pe n).useq.mpc.toNat)) ∧
  (∀ (s : State) (n : Nat), n < 272 → s.clState (peCluster n) < 2 → (∀ e, (s.cm e).gate = []) → Runs (.peReset n) s fun u => PeWasReset s u n ∧
    (∀ a, ¬ s.KindWord n a → u.byte a = s.byte a) ∧
    ∀ x ∈ (s.pe n).frames, x.2.isSome = true → fld (u.word (s.frameAddr n x.1 + 0x140)) 63 62 = 0) ∧
  (∀ (s : State) (c : Nat), c < 64 → s.clState c < 2 → (∀ e, (s.cm e).gate = []) → Runs (.clusterReset c) s fun u => u.ae c = Ae.init ∧
    (∀ n ∈ clusterPes c, PeWasReset s u n) ∧
    (∀ a, scrBase c ≤ a → a < scrBase c + 0x100000 → bounceArea (a - scrBase c) = false → u.byte a = 0) ∧
    (∀ a, a < scrBase c ∨ scrBase c + 0x100000 ≤ a ∨ bounceArea (a - scrBase c) = true → (∀ n ∈ clusterPes c, ¬ s.KindWord n a) →
      u.byte a = s.byte a))

/-- Keeper pairs: a mismatch or a HALT stops a running pair and takes its lands to their safe levels; a restart waits for the secret region to be
zeroised; the watchdog. -/
def Obligations.KeeperPairs : Prop :=
  ∀ (s : State) (p : Nat), p < 2 →
    let st := aPairStatus p
    (s.pairState p = 1 → ∀ e ∈ ([(2, 0, Instr.kpPairHalt p)] ++ (List.range 6).map (fun k => (1, k + 1, Instr.keeperMismatch p (k + 1)))
        : List (Nat × Nat × Instr)),
      Runs e.2.2 s fun u => u.pairState p = 2 ∧ (u.pe (pairNo p)).act = none ∧ u.rfld st 61 58 = e.1 ∧ u.rfld st 57 54 = e.2.1 ∧ (u.pairSt p).zero = true ∧ u.mc.faultN = true ∧
        (e.1 = 1 → Logged u 69 .keeperMismatch .fatalModule (BitVec.ofNat 64 (p + 256 * e.2.1))) ∧
        (s.mc.tap ≠ 3 → ∀ k, k < 8 → s.owns p k = true → bitAt (u.reg aSafeOut) (16 + k) = bitAt (s.reg aSafeCfg) k)) ∧
    (s.pairState p ≠ 1 → Runs (.kpPairHalt p) s fun u => u.pairState p = s.pairState p ∧ bitAt (u.reg aMcEvt) 63 = true ∧
      u.rfld aMcEvt 47 0 = aPairCtl p) ∧
    (s.pairState p = 2 → (s.pairSt p).zero = true → Runs (.kpPairRestart p) s fun u => u.pairState p = 2 ∧ (u.pairSt p).again = true) ∧
    ((s.pairSt p).zero = true → (s.pairSt p).again = false → Runs (.keeperZeroiseDone p) s fun u =>
      (u.pairSt p).zero = false ∧ u.pairState p = s.pairState p ∧
      let secret (n a : Nat) : Prop := lsBase n + s.secretBase p ≤ a ∧ a < lsBase n + min 32768 (s.secretBase p + s.secretSize p)
      ∀ a, (secret (pairNo p) a ∨ secret (pairNo p + 1) a → u.byte a = 0) ∧
        (¬ secret (pairNo p) a → ¬ secret (pairNo p + 1) a → u.byte a = s.byte a)) ∧
    (s.pairState p = 1 → s.rfld (aPairCtl p) 63 32 ≠ 0 → (s.pairSt p).wdogOut = false → Runs (.keeperWdog p) s fun u =>
      (u.pairSt p).wdogOut = true ∧ u.pairState p = 1 ∧
      ∀ k, k < 8 → (u.safeReq p).testBit k = if s.owns p k then bitAt (s.reg aSafeCfg) k else (s.safeReq p).testBit k)

/-! Network interfaces, epochs, routers and links (R292 to R331). -/

/-- What an interface makes of the packets that reach it: requests and tokens leave the ejection queue, a packet larger than the queue is absorbed, responses
and NACKs end or keep the slot they name, a NACK for another endpoint goes on to it, a slot times out unless its response has come, a bounced token
is parked, and leaves the hub again under a newer epoch. -/
def Obligations.NetworkInterfaces : Prop :=
  ∀ (s : State) (e : Nat) (p : Packet) (r : List Packet), e < 70 →
    (s.ejectQ e = p :: r → p.vn < 4 → s.resetting (ejectDcq e p.vn) = false → s.heldAsleep e p = false → ejectDepth e < p.flits → Runs (.niPacketEject e) s fun u => u.ejectQ e = r ∧
      u.reqAt e = s.reqAt e ∧ u.nis = s.nis ∧ ∀ a, ejectDcq e p.vn = some a → u.rfld a 35 24 = min 4095 (s.rfld a 35 24 + 1)) ∧
    (s.ejectQ e = p :: r → p.vn < 4 → p.flits ≤ ejectDepth e → p.bad = [] → p.calcCrc = p.crc → vnOk p = true → specOk p = true → spillOk p = true →
      Tbl.get 0 (s.ni e).lastEpoch (p.src * 4 + p.vn) = 0 → s.heldAsleep e p = false → s.resetting (ejectDcq e p.vn) = false →
      (p.opc ≠ .token → p.opc ≠ .mgtacc → s.domainOff e p = false → Runs (.niPacketEject e) s fun u =>
        u.ejectQ e = r ∧ u.reqAt e = s.reqAt e ++ [p] ∧ u.nis = s.nis) ∧
      (p.opc.isMem = true → s.domainOff e p = true → Runs (.niPacketEject e) s fun u => u.ejectQ e = r ∧ u.reqAt e = s.reqAt e ∧
        (u.ni e).outQ = (s.ni e).outQ ++ [nackMsg p 4]) ∧
      (p.opc = .token → e < 64 → bitAt p.token.tag 56 = false → tPe p.token.tag < 272 → peEndpoint (tPe p.token.tag) = e →
        s.gateDec e p.token = .accept → Runs (.niPacketEject e) s fun u => u.ejectQ e = r ∧
          (u.pe (tPe p.token.tag)).inbox = (s.pe (tPe p.token.tag)).inbox ++ [p.token])) ∧
    (s.reqAt e = p :: r → p.opc = .resp →
      (∀ q, s.slotFor e p = some q → p.spec.testBit 15 = true → s.CanReply e p.token.tag p.token.val → Runs (.respArrival e) s fun u =>
        u.reqAt e = r ∧ (u.ni e).slot p.rslot = none ∧ ReplySent s u e p.token.tag p.token.val (p.spec.testBit 16)) ∧
      (s.slotFor e p = none → Runs (.respArrival e) s fun u => u.reqAt e = r ∧ u.nis = s.nis ∧ u.mem = s.mem)) ∧
    (s.reqAt e = p :: r → p.opc = .nack → e < 64 → p.dest ≠ e → (s.marked e).contains p.vn = false →
      (s.routeOf e p.dest p.vn).isSome = true → p.flits ≤ s.vcFree e 5 p.vn →
      Runs (.nackArrival e) s fun u => u.reqAt e = r ∧ ∃ h, u.vc e 5 p.vn = s.vc e 5 p.vn ++ [h] ∧ h.pkt.opc = .nack ∧
        h.pkt.dest = p.dest ∧ h.pkt.spec = p.spec ∧ h.pkt.body = p.body) ∧
    (s.reqAt e = p :: r → p.opc = .nack → (e < 64 → p.dest = e) → p.body = [] → p.note % 16 < 13 → s.shift.busy = true → s.mc.graph = none →
      ∀ q, s.slotFor e p = some q →
      (fld (BitVec.ofNat 25 p.spec) 10 7 = 2 → q.downs = 0 → q.pkt.epoch = s.activeEpoch e → Runs (.nackArrival e) s fun u =>
        u.reqAt e = r ∧ (u.ni e).slot p.rslot = some { q with downs := 1, waitEpoch := true }) ∧
      (fld (BitVec.ofNat 25 p.spec) 10 7 = 3 → s.handled (issuerOf e q.pkt.rtag) → Runs (.nackArrival e) s fun u =>
        u.reqAt e = r ∧ (u.ni e).slot p.rslot = none ∧ FaultSent s u e (issuerOf e q.pkt.rtag))) ∧
    (∀ k q, k < 128 → (s.ni e).slot k = some q → s.respWaits e k = false → s.handled (issuerOf e q.pkt.rtag) →
      Runs (.responseSlotTimeout e k) s fun u => (u.ni e).slot k = none ∧ FaultSent s u e (issuerOf e q.pkt.rtag)) ∧
    (∀ k, s.respWaits e k = true → exec (.responseSlotTimeout e k) s = .next s) ∧
    (∀ h t, s.reqAt e = p :: r → p.opc = .bounce → p.body = h :: t → (s.ni e).drains = [] → (s.ni e).parked = [] →
      let q := { Packet.ofHead h 0 t with fault := p.fault }
      q.opc = .token → s.pressure = false →
      (e < 64 → s.clState e ≠ 3 → q.epoch = s.activeEpoch e → Runs (.bounceArrival e) s fun u => u.reqAt e = r ∧
        (u.ni e).parked = [⟨q, false, 0, 0⟩] ∧ (u.ni e).outQ = (s.ni e).outQ ∧ u.word (bounceAt e 0) = q.token.tag ∧
        u.word (bounceAt e 0 + 8) = lo64 q.token.val) ∧
      (64 ≤ e → s.auxRoom e .bounce (parkBytes q) = true → q.epoch = s.activeEpoch e → Runs (.bounceArrival e) s fun u => u.reqAt e = r ∧
        (u.ni e).parked = [⟨q, true, 0, 0⟩] ∧ (u.ni e).outQ = (s.ni e).outQ) ∧
      (64 ≤ e → s.auxRoom e .bounce (parkBytes q) = true → q.epoch ≠ s.activeEpoch e → s.marked e = [] → q.dest ≠ e →
        s.redirect e q.dest .token = false →
        (s.routeOf e q.dest 0).isSome = true → q.flits ≤ s.vcFree 64 (crossIn e) 0 → Runs (.bounceArrival e) s fun u => u.reqAt e = r ∧
          (u.ni e).parked = [] ∧ ∃ x, u.vc 64 (crossIn e) 0 = s.vc 64 (crossIn e) 0 ++ [x] ∧ x.pkt.opc = .token ∧ x.pkt.dest = q.dest ∧
            x.pkt.body = q.body ∧ x.pkt.epoch = s.activeEpoch e) ∧
      (64 ≤ e → s.auxRoom e .bounce (parkBytes q) = false → exec (.bounceArrival e) s = .next s))

/-- The course of a route shift: GO swaps the hub's banks and sends SHIFT to every powered source; SHIFT swaps a source's banks and leaves it marks to
send; a mark is recorded and acknowledged; the last acknowledgement sends SHIFT_DONE; the last SHIFT_DONE ends the shift. -/
def Obligations.RouteShifts : Prop :=
  (∀ (s : State), let ep := s.rfld aHbShift 3 0
    (s.shift.busy = false → (∀ e ∈ s.shiftSources, s.rfld (aNiRtCtl e) 7 4 = ep) → (∀ e, 64 ≤ e → e < 70 → (s.ni e).parked = []) →
      Runs .hbShiftGo s fun u =>
      u.shift.epoch = ep ∧ u.rfld (aNiRtCtl 68) 8 8 = 1 - s.rfld (aNiRtCtl 68) 8 8 ∧ u.rfld (aNiRtCtl 68) 3 0 = ep ∧
      u.rfld (aNiRtCtl 68) 7 4 = s.rfld (aNiRtCtl 68) 3 0 ∧
      ∀ e, e < 64 → s.dieOn e = true → u.shift.busy = true ∧ e ∈ u.shift.pending) ∧
    (s.shift.busy = true → Runs .hbShiftGo s fun u => u.shift = s.shift ∧ bitAt (u.reg aMcEvt) 63 = true ∧ u.rfld aMcEvt 47 0 = aHbShift)) ∧
  (∀ (s : State) (e : Nat) (p : Packet) (r : List Packet), e < 64 → s.reqAt e = p :: r → p.opc = .control → p.sub = 0 → s.shift.busy = true →
    (s.ni e).shifting = false →
    (s.activeEpoch e = s.shift.epoch → Runs (.shiftArrival e) s fun u => u.reqAt e = r ∧ u.regs = s.regs ∧
      (u.ni e).outQ = (s.ni e).outQ ++ [controlMsg 68 1 []]) ∧
    (s.activeEpoch e ≠ s.shift.epoch → s.shift.epoch < 16 → (s.ni e).parked = [] → Runs (.shiftArrival e) s fun u => u.reqAt e = r ∧
      u.rfld (aNiRtCtl e) 8 8 = 1 - s.rfld (aNiRtCtl e) 8 8 ∧ u.rfld (aNiRtCtl e) 3 0 = s.shift.epoch ∧
      u.rfld (aNiRtCtl e) 7 4 = s.rfld (aNiRtCtl e) 3 0 ∧
      ∀ vn d, vn < 4 → d ∈ s.affected e vn → (d, vn, s.shift.epoch) ∈ (u.ni e).marks ∧ (u.ni e).shifting = true)) ∧
  (∀ (s : State) (e : Nat) (p : Packet) (r : List Packet), e < 70 → s.reqAt e = p :: r → p.opc = .epochMark → Runs (.epochMarkArrival e) s fun u =>
    u.reqAt e = r ∧ Tbl.get 0 (u.ni e).lastEpoch (p.src * 4 + p.vn) = p.epoch + 1 ∧
    (u.ni e).outQ = (s.ni e).outQ ++ [controlMsg p.src 2 [mkWide 0 (BitVec.ofNat 64 (p.vn + 4 * p.dest))]]) ∧
  (∀ (s : State) (e d vn : Nat) (p : Packet) (r : List Packet), e < 64 → s.reqAt e = p :: r → p.opc = .control → p.sub = 2 →
    p.argA.toNat = 4 * d + vn → vn < 4 → s.shift.busy = true → (s.ni e).shifting = true → s.mc.graph = none →
    let left := (s.ni e).marks.filter (fun m => !(m.1 == d && m.2.1 == vn))
    Runs (.markAckArrival e) s fun u => u.reqAt e = r ∧ (u.ni e).marks = left ∧ (u.ni e).shifting = !left.isEmpty ∧
      (u.ni e).outQ = (s.ni e).outQ ++ (if left = [] then [controlMsg 68 1 []] else [])) ∧
  (∀ (s : State) (e : Nat), e < 70 → Runs (.markRetransmit e) s fun u => (u.ni e).marks = (s.ni e).marks ∧
    (u.ni e).formed.length = (s.ni e).formed.length + (s.ni e).marks.length ∧
    ∀ m ∈ (s.ni e).marks, ∃ q ∈ (u.ni e).formed, q.1.opc = .epochMark ∧ q.1.dest = m.1 ∧ q.1.vn = m.2.1 ∧ q.1.epoch = m.2.2) ∧
  (∀ (s : State) (p : Packet) (r : List Packet), s.reqAt 68 = p :: r → p.opc = .control → p.sub = 1 → s.shift.busy = true →
    p.src ∈ s.shift.pending → s.pw.goal = [] → s.mc.graph = none → s.mc.reroute = false → Runs .shiftDoneArrival s fun u => u.reqAt 68 = r ∧
      u.shift.pending = s.shift.pending.erase p.src ∧
      (u.shift.busy = false ↔ s.shift.pending = [p.src]) ∧
      (s.shift.pending = [p.src] → Logged u 68 .shiftDone .info (BitVec.ofNat 64 s.shift.epoch)))

/-- The spares in use on the channel that end (r, p) of a link receives; the hub's end of a spoke is (64, p). -/
def Sys2Proof.Machine.State.sparesAt (s : State) (r p : Nat) : Nat := if r = 64 then (s.link r p).spares else s.rfld (aPortStatus r p) 21 20

/-- Routers and links: a hop, when it is the turn of its virtual network, shifts the route by one code; a flit without error enters its virtual
network's buffer; a port is disabled, enabled, retrained, lost and up again, at both ends of its link, with spares for the wires of either channel
that failed their training. -/
def Obligations.RoutersAndLinks : Prop :=
  (∀ (s : State) (r c vn i : Nat) (h : Hop) (t : List Hop), r < 64 → c < 8 → vn < 4 → i < 6 → s.vc r i vn = h :: t →
    (∀ j, j < 6 → j ≠ i → s.vc r j vn = []) → h.pkt.route.toNat % 8 = c → h.pkt.vn = vn → turnBad r i vn c = false →
    s.inject r = s → s.turnOf r c vn (List.range 6) (s.hopHead r c) = true →
    let q := { h.pkt with route := BitVec.ofNat 30 (h.pkt.route.toNat / 8) }
    (c = 0 → s.ejectRoom r h.pkt = true → Runs (.routerHop r c vn) s fun u => (u.vc r i vn).map (·.pkt) = t.map (·.pkt) ∧
      u.ejectQ r = s.ejectQ r ++ [q]) ∧
    (1 ≤ c → c ≤ 4 → s.portState r (c - 1) = 2 → h.pkt.flits + 17 ≤ s.vcFree (nbrOf r (c - 1)) (oppPort (c - 1)) vn →
      Runs (.routerHop r c vn) s fun u => (u.vc r i vn).map (·.pkt) = t.map (·.pkt) ∧ ∃ x, x.pkt = q ∧
        u.vc (nbrOf r (c - 1)) (oppPort (c - 1)) vn = s.vc (nbrOf r (c - 1)) (oppPort (c - 1)) vn ++ [x])) ∧
  (∀ (s : State) (r p : Nat) (x f : Flit), r < 64 → hasPort r p = true → decodeFlit x = some (f, none) → bitAt f 139 = false → fld f 141 140 = 3 →
    Tbl.get none s.openPkts (vcKey r p (fld f 143 142)) = none → s.resetting (inDcq r p (fld f 143 142)) = false →
    (∀ a, inDcq r p (fld f 143 142) = some a → s.flushes.contains a = false) → Runs (.flitReceiveCheck r p x) s fun u =>
      ∃ h, u.vc r p (fld f 143 142) = s.vc r p (fld f 143 142) ++ [h] ∧ h.pkt = Packet.ofHead (BitVec.ofNat 128 f.toNat) (fld f 143 142) []) ∧
  (∀ (s : State) (r p : Nat), r < 64 → hasPort r p = true →
    let both (u : State) (v : Nat) : Prop := u.portState r p = v ∧ (p < 4 → u.portState (nbrOf r p) (oppPort p) = v)
    (s.openOn r p = 0 → s.headComes r p = false → 10 ≤ s.idleUs r p → Runs (.rtPortDis r p) s fun u => both u 0) ∧
    (s.openOn r p ≠ 0 ∨ s.headComes r p = true ∨ s.idleUs r p < 10 → Runs (.rtPortDis r p) s fun u => u.portState r p = s.portState r p ∧
      u.rfld aMcEvt 47 0 = aPortCtl r p) ∧
    (s.portState r p = 0 → Runs (.rtPortEn r p) s fun u => both u (if dieEdge r p then 1 else 2)) ∧
    (dieEdge r p = true →
      (s.portState r p = 2 → Runs (.rtPortRetrain r p) s fun u => both u 3) ∧
      (s.portState r p = 3 → (s.link r p).running = false → (s.link r p).worn = [] → (s.link (farEnd r p).1 (farEnd r p).2).worn = [] →
        (s.quiet r p = true → Runs (.linkRetrain r p) s fun u => (u.link r p).running = true ∧ (u.link r p).postponed = false ∧
          u.rfld (aPortStatus r p) 15 0 = min 65535 (s.rfld (aPortStatus r p) 15 0 + 1)) ∧
        (s.quiet r p = false → Runs (.linkRetrain r p) s fun u => (u.link r p).running = false ∧ (u.link r p).postponed = true) ∧
        (s.quiet r p = true → (s.link r p).postponed = true → Runs (.retrainPostponeRetry r p) s fun u =>
          (u.link r p).running = true ∧ (u.link r p).postponed = false)) ∧
      (s.portState r p ≠ 0 → Runs (.linkDown r p) s fun u => both u 0 ∧
        ∀ v, v < 4 → Tbl.get none u.openPkts (vcKey r p v) = none) ∧
      ((s.portState r p = 1 ∨ s.portState r p = 3 ∧ (s.link r p).running = true) → ∀ bad,
        let e := farEnd r p
        let n := s.sparesAt r p
        let m := s.sparesAt e.1 e.2
        Runs (.dieEdgeTrainingDone r ⟨p, bad⟩) s fun u =>
          if (bad % 64 = 0 ∨ n + bad % 64 ≤ 2) ∧ (bad / 64 = 0 ∨ m + bad / 64 ≤ 2) then
            both u 2 ∧ u.sparesAt r p = n + bad % 64 ∧ u.sparesAt e.1 e.2 = m + bad / 64
          else both u 0)))

/-! Contexts (R37 to R61, R87 to R98, R110, R182 to R184, R304). -/

/-- Windows: the owner answers a query and keeps the asker among its copies; an answer and an advance enter the cache and release what they let in;
the oldest iteration's FREECTX.I moves BASE, another of the window is kept. -/
def Obligations.Windows : Prop :=
  (∀ (s : State) (g k : Nat), g < 64 ∨ g = 69 → k ∈ (s.cm g).asked → Runs (.windowQuery g k) s fun u =>
    (u.cm g).asked = (s.cm g).asked.erase k ∧ (u.cm g).answers = (s.cm g).answers ++ [(k, (s.ctx k).base)] ∧ g ∈ (u.ctx k).copies ∧
    (u.ctx k).base = (s.ctx k).base) ∧
  (∀ (s : State) (g k b : Nat), g < 64 ∨ g = 69 → (s.cm g).answers = [(k, b)] → (s.cm g).cache.length < 64 →
    ((s.cm g).gate = [] → Runs (.windowCacheAnswer g k) s fun u => Tbl.get 0 (u.cm g).cache k = b + 1 ∧ (u.cm g).answers = []) ∧
    (∀ t x, (s.cm g).gate = [⟨t, x⟩] → tKey t.tag = k → ctxOwner k ≠ g → (s.ctx k).state = .live → t.fault = false → s.pressure = false →
      winDist (tIter t.tag) b < 2 ^ (s.ctx k).itw → tPe t.tag < 272 → Runs (.windowCacheAnswer g k) s fun u =>
        (u.cm g).gate = [] ∧ (u.pe (tPe t.tag)).inbox = (s.pe (tPe t.tag)).inbox ++ [t])) ∧
  (∀ (s : State) (g k b : Nat), g < 64 ∨ g = 69 → (s.cm g).advances = [(k, b)] → (s.cm g).answers = [] → (s.cm g).gate = [] →
    Tbl.get 0 (s.cm g).cache k ≠ 0 → Runs (.windowAdvance g k) s fun u =>
      Tbl.get 0 (u.cm g).cache k = b + 1 ∧ (u.cm g).advances = []) ∧
  (∀ (s : State) (e k : Nat) (p : Packet) (r : List Packet), e < 64 ∨ e = 69 → s.reqAt e = p :: r → p.opc = .service → p.svc = 2 →
    fld p.argB 63 12 = 0 → p.len = 2 → p.ctxArg e = some k → (s.ctx k).state = .live → (s.ctx k).retired = [] → s.pressure = false →
    (fld p.argB 11 0 = (s.ctx k).base → (s.ctx k).copies = [] → (s.cm e).gate = [] → Runs (.cmFreectxIRequest e) s fun u =>
      (u.ctx k).base = ((s.ctx k).base + 1) % 4096 ∧ (u.ctx k).retired = [] ∧ u.reqAt e = r ∧
      (u.ni e).outQ = (s.ni e).outQ ++ [respMsg p 0 none false]) ∧
    (fld p.argB 11 0 ≠ (s.ctx k).base → (s.ctx k).base < 4096 → winDist (fld p.argB 11 0) (s.ctx k).base < 2 ^ (s.ctx k).itw →
      Runs (.cmFreectxIRequest e) s fun u => (u.ctx k).base = (s.ctx k).base ∧ (u.ctx k).retired = [fld p.argB 11 0] ∧
        (u.ni e).outQ = (s.ni e).outQ ++ [respMsg p 0 none false]))

/-- The life of a context: NEWCTX creates one with the lowest free id and takes its credits, or waits in the spawn queue; FREECTX and KILLCTX begin
its kill; KILL takes it out of a PE; the last acknowledgement puts it in QUARANTINE and returns its credits. -/
def Obligations.ContextLife : Prop :=
  ∀ (s : State) (e : Nat) (p : Packet) (r : List Packet), e < 64 ∨ e = 69 →
    (s.pressure = false → p.newOk e = true → fld p.argA 19 0 ≤ s.rfld (aCredit e) 55 32 →
      (s.reqAt e = p :: r → p.opc = .service → p.svc = 0 →
        (∀ i, (s.cm e).spawn = [] → s.admitId e p = some i → Runs (.cmNewctxRequest e) s fun u => u.reqAt e = r ∧
          u.ctx (ownKey e i) = p.newCtx (p.creator e) s.tb ∧ u.avail e = s.avail e - fld p.argA 19 0 ∧
          (u.ni e).outQ = (s.ni e).outQ ++
            [respMsg p 0 (some (p.rtag, statusVal 0 (put 55 55 (decide (e = 69)).toNat + ctxId (ownKey e i)))) true]) ∧
        (s.admitId e p = none → (s.cm e).spawn.length < 64 ∨ s.auxRoom e .spawn 64 = true → Runs (.cmNewctxRequest e) s fun u => u.reqAt e = r ∧ u.ctxs = s.ctxs ∧ (u.cm e).spawn = (s.cm e).spawn ++ [p] ∧
          (u.ni e).outQ = (s.ni e).outQ ++ [respMsg p 2 none false])) ∧
      (∀ i, (s.cm e).spawn = [p] → s.admitId e p = some i → Runs (.spawnQueueAdmit e) s fun u => (u.cm e).spawn = [] ∧
        u.ctx (ownKey e i) = p.newCtx (p.creator e) s.tb ∧ u.avail e = s.avail e - fld p.argA 19 0 ∧
        (u.ni e).outQ = (s.ni e).outQ ++ [newReply p (statusVal 0 (put 55 55 (decide (e = 69)).toNat + ctxId (ownKey e i)))])) ∧
    (∀ k, s.reqAt e = p :: r → p.opc = .service → p.ctxArg e = some k → isRoot k = false → (s.ctx k).state = .live →
      (p.svc = 1 → s.waiting k = 0 → Runs (.cmFreectxRequest e) s fun u => u.reqAt e = r ∧ (u.ctx k).state = .killing ∧
        (u.cm e).kills = (s.cm e).kills ++ [⟨k, killUnits, [], none⟩] ∧ (u.ni e).outQ = (s.ni e).outQ ++ [respMsg p 0 none false]) ∧
      (p.svc = 3 → Runs (.cmKillctxRequest e) s fun u => u.reqAt e = r ∧ (u.ctx k).state = .killing ∧
        (u.cm e).kills = (s.cm e).kills ++ [⟨k, killUnits, [], some p⟩] ∧ u.nis = s.nis)) ∧
    (∀ k, s.reqAt e = p :: r → p.opc = .service → p.svc = 3 → p.ctxArg e = some k → isRoot k = false → (s.ctx k).state ≠ .live →
      Runs (.cmKillctxRequest e) s fun u => u.ctxs = s.ctxs ∧
        (u.ni e).outQ = (s.ni e).outQ ++ [respMsg p 0 (some (p.rtag, statusVal 1 0)) false]) ∧
    (∀ k n x, n < 276 → s.killOf k = some x → UnitId.pe n ∈ x.toReach → s.routine n = none → s.pressure = false →
      (s.pe n).killFilter.length < 64 → Runs (.killArrival n k) s fun u => (u.pe n).killFilter = (s.pe n).killFilter ++ [k] ∧
        (∀ a, u.act n = some a → s.act n = some a ∧ tagCtxKey n (tCtx a.tag) ≠ k) ∧ (∀ q ∈ (u.pe n).ready, tagCtxKey n (tCtx q.key) ≠ k) ∧
        (∀ q ∈ (u.pe n).recs, q ∈ (s.pe n).recs ∧ tagCtxKey n (tCtx q.key) ≠ k) ∧ (u.pe n).inbox = (s.pe n).inbox ∧
        ∃ y, u.killOf k = some y ∧ y.toReach = x.toReach.erase (.pe n) ∧ y.toAck = x.toAck ++ [.pe n]) ∧
    (∀ k n, n < 276 → ctxOwner k = e → (s.cm e).kills = [⟨k, [], [.pe n], none⟩] → s.avail e + (s.ctx k).credits < 2 ^ 24 →
      Runs (.killAckArrival e n k) s fun u => (u.ctx k).state = .quarantine ∧ (u.cm e).kills = [] ∧
        u.avail e = s.avail e + (s.ctx k).credits ∧ (u.cm e).drain.isSome = true)

/-- Drain rounds and the examinations of a context manager: a source marks its traffic and drops what it parked, a mark is recorded, a complete round
frees its contexts; a context that waits without firing runs towards its stall limit; counters are written back and read out; a victim is killed. -/
def Obligations.DrainsAndStalls : Prop :=
  (∀ (s : State) (e src : Nat) (d : Drain), e < 64 ∨ e = 69 → src < 64 → (s.cm e).drain = some d → src ∈ d.toReq → s.unsentOf src d.ctxs = false →
    Runs (.drainReqArrival e src) s fun u => (u.cm e).drain = some { d with toReq := d.toReq.erase src } ∧
      (u.ni src).drains = (s.ni src).drains ++ [(e, d.ctxs)] ∧ (u.ni src).outQ = (s.ni src).outQ ++ d.dests.map (fun x => drainMsg x d.number) ∧
      ∀ x ∈ (u.ni src).parked, x ∈ (s.ni src).parked ∧ (x.pkt.opc = .token → x.pkt.toModule = true → tKey x.pkt.token.tag ∉ d.ctxs)) ∧
  (∀ (s : State) (e o : Nat) (d : Drain) (p : Packet) (r : List Packet), e < 64 ∨ e = 69 → s.reqAt e = p :: r → p.opc = .drainMark →
    s.roundOwner (p.spec % 65536) = some o → (s.cm o).drain = some d → Runs (.drainMarkArrival e) s fun u => u.reqAt e = r ∧
      ∃ x, (u.cm o).drain = some x ∧ (p.src, e) ∈ x.seen ∧ (∀ y ∈ d.seen, y ∈ x.seen) ∧ x.ctxs = d.ctxs ∧ x.toReq = d.toReq) ∧
  (∀ (s : State) (e : Nat) (d : Drain), e < 64 ∨ e = 69 → (s.cm e).drain = some d → d.complete = true → Runs (.drainDoneArrival e) s fun u =>
    ∀ k ∈ d.ctxs, u.ctx k = Ctx.init) ∧
  (∀ (s : State) (e k : Nat) (c : Ctx), e < 64 → s.ctxs = [(k, c)] → ctxOwner k = e → c.state = .live → c.fired = false → s.waiting k ≠ 0 →
    (c.stallRun + 100 < c.stallLimit → Runs (.stallExamination e) s fun u => (u.ctx k).stallRun = c.stallRun + 100 ∧
      (u.ctx k).stallTime = min (c.stallTime + 100) (2 ^ 48 - 1) ∧ u.nis = s.nis) ∧
    (c.stallLimit ≤ c.stallRun + 100 → c.stallLimit ≠ 0 → c.hv = true → Runs (.stallExamination e) s fun u => (u.ctx k).stallRun = 0 ∧
      FaultSent s u e k ∧ (u.cm e).snapIdx = ((s.cm e).snapIdx + 1) % 16)) ∧
  (∀ (s : State) (e : Nat), e < 64 → Runs (.ctxCounterWriteback e) s fun u => u.ctxs = s.ctxs ∧ ∀ k ∈ s.ctxs.map (·.1), ctxOwner k = e →
    ∀ i, i < 8 → u.word (s.rfld (aCtxtBase e) 47 20 * 2 ^ 20 + k % 16384 * 64 + 8 * i) = ((s.descWords k)[i]?).getD 0) ∧
  (∀ (s : State) (k : Nat) (c : Ctx), s.ctxs = [(k, c)] → k < 2 ^ 20 → isRoot k = false → c.state = .live → s.pressure = true →
    s.rfld aPressCfg 1 0 ≠ 3 → Runs .ctxVictim s fun u => (u.ctx k).state = .killing ∧ Logged u 66 .ctxVictim .fatalContext (BitVec.ofNat 64 k)) ∧
  (∀ (s : State) (c i : Nat), c < 64 → i < 16384 →
    let x := s.ctx (c * 16384 + i)
    Runs (.cmCtxqSelWrite c i) s fun u => u.rfld (aCtxqSel c) 13 0 = i ∧ u.ctxs = s.ctxs ∧
      (bitAt (u.reg (aCtxqSel c)) 63 = true ↔ x.state ≠ .free) ∧
      (x.state ≠ .free → u.rfld (aCtxqVal c 0) 47 0 = min x.fires (2 ^ 48 - 1) ∧ u.rfld (aCtxqVal c 2) 47 0 = min x.stallTime (2 ^ 48 - 1)))

/-! Memory targets (R63, R67 to R71, R177 to R181, R262 to R281). -/

/-- Requests at a memory target that passes its checks, at a scratch the one that wins its bank or that port B takes: a READ answers with the bytes
stored; a WRITE, an IWRITE of an EMPTY word and an ATOM store what their rules give and leave every other byte; presence follows IREAD, IWRITE and
ICLR, and an IWRITE that comes in the cycle of an IREAD of its EMPTY word goes first; a filled word's deferred replies leave one by one. -/
def Obligations.MemoryTargets : Prop :=
  ∀ (s : State) (e : Nat) (p : Packet) (r : List Packet), e < 70 → e ≠ 68 → s.reqAt e = p :: r → p.nr = false → p.src ≠ e → p.src < 256 →
    (e < 64 → portB e p = true ∨ s.bankWinner e p.bank = some p) →
    let a := plainOf p.addr
    let sends (u : State) (st : Nat) (v : Wide) : Prop := (u.ni e).outQ = (s.ni e).outQ ++ [respMsg p st (some (p.rtag, v)) false]
    let only (u : State) (k : Nat) : Prop := ∀ b, b < a ∨ a + k ≤ b → u.byte b = s.byte b
    (p.opc = .read → s.targetCheck e p.addr p.size false = none → s.eccAt a = .ok → s.presAt a ≠ .deferred →
      (p.size = 16 → s.eccAt (a + 8) = .ok ∧ s.presAt (a + 8) ≠ .deferred) → a % p.size = 0 →
      Runs (.targetRead e) s fun u => u.reqAt e = r ∧ u.mem = s.mem ∧ sends u 0 (BitVec.ofNat 128 (s.load a p.size))) ∧
    (p.opc = .write → s.targetCheck e p.addr p.size false = none → s.eccAt a ≠ .ue → s.presAt a ≠ .deferred → p.size ≤ 8 → a % p.size = 0 →
      Runs (.targetWrite e false) s fun u => u.reqAt e = r ∧ sends u 0 (statusVal 0 0) ∧ u.load a p.size = p.argB.toNat % 256 ^ p.size ∧ only u p.size) ∧
    (p.opc = .atom → p.form ≤ 9 → s.targetCheck e p.addr 8 false = none → s.eccAt a = .ok → s.presAt a ≠ .deferred → p.dpsn = false →
      let x := s.word a
      let b := p.argB
      ∀ f ∈ ([(0, b), (1, if x = p.argC then b else x), (2, x + b), (3, x &&& b), (4, x ||| b), (5, x ^^^ b), (6, if b.toInt < x.toInt then b else x),
          (7, if x.toInt < b.toInt then b else x), (8, if b.toNat < x.toNat then b else x), (9, if x.toNat < b.toNat then b else x)] : List (Nat × Word)),
        p.form = f.1 → Runs (.targetAtom e) s fun u => u.reqAt e = r ∧ sends u 0 (mkWide 0 x) ∧ u.word a = f.2 ∧ only u 8) ∧
    (s.targetCheck e p.addr 8 true = none →
      (p.opc = .iread → s.presAt a = .full → s.eccAt a = .ok → Runs (.targetIread ⟨e, false⟩) s fun u => u.reqAt e = r ∧ sends u 0 (mkWide 0 (s.word a)) ∧
        u.presAt a = .full) ∧
      (∀ v, p.opc = .iread → s.presAt a = .empty ∨ s.presAt a = .deferred → s.deferLevel e = some v → Runs (.targetIread ⟨e, false⟩) s fun u =>
        u.reqAt e = r ∧ u.presAt a = .deferred ∧ (∃ k, Tbl.get [] u.defers a = Tbl.get [] s.defers a ++ [⟨p.rtag, p.src, v, false, k, false⟩] ∧
          (e < 64 → v = false → u.word (poolAt e k) = p.rtag)) ∧
        (u.ni e).outQ = (s.ni e).outQ ++ [respMsg p 2 none false]) ∧
      (∀ q, p.opc = .iread → s.presAt a = .empty → r = [q] → q.opc = .iwrite → q.addr = p.addr → q.nr = false → q.src ≠ e → q.src < 256 → q.dpsn = false →
        Runs (.targetIread ⟨e, true⟩) s fun u => u.reqAt e = [] ∧ u.presAt a = .full ∧ u.word a = q.argB ∧
          (u.ni e).outQ = (s.ni e).outQ ++ [respMsg q 0 (some (q.rtag, statusVal 0 0)) false, respMsg p 0 (some (p.rtag, mkWide 0 q.argB)) false]) ∧
      (p.opc = .iwrite → s.presAt a = .empty → Runs (.targetIwrite e false) s fun u => u.reqAt e = r ∧ sends u 0 (statusVal 0 0) ∧
        u.presAt a = .full ∧ u.word a = p.argB ∧ only u 8) ∧
      (p.opc = .iwrite → s.presAt a = .deferred → Tbl.get [] s.rels e = [] → Runs (.targetIwrite e false) s fun u => u.presAt a = .full ∧
        u.word a = p.argB ∧ Tbl.get [] u.defers a = [] ∧ ∃ n, Tbl.get [] u.rels e = [⟨a, p.argB, p.dpsn, Tbl.get [] s.defers a, 0, n⟩]) ∧
      (p.opc = .iwrite → s.presAt a = .full → s.handled p.issuerKey → Runs (.targetIwrite e false) s fun u => u.mem = s.mem ∧ u.presAt a = .full ∧
        ∃ m, (u.ni e).outQ = (s.ni e).outQ ++ [respMsg p 3 none false, m] ∧ m.fault = true ∧ m.dest = peEndpoint (s.ctx p.issuerKey).hpe) ∧
      (p.opc = .atom → p.form = 10 → ∀ f ∈ ([(.full, 0, .empty), (.empty, 1, .empty), (.deferred, 2, .deferred)] : List (Presence × Nat × Presence)),
        s.presAt a = f.1 → Runs (.targetIclr ⟨e, false⟩) s fun u => u.reqAt e = r ∧ sends u 0 (statusVal f.2.1 0) ∧ u.presAt a = f.2.2 ∧ u.mem = s.mem)) ∧
    (∀ q d, Tbl.get [] s.rels e = [q] → q.pe = none → q.list = [d] → d.void = false → d.ep < 256 → q.poison = false →
      (e < 64 → d.ovf = false → s.eccAt (poolAt e d.slot) = .ok) → d.bad = false →
      Runs (.deferredReplyRelease e) s fun u => Tbl.get [] u.rels e = [] ∧
        (u.ni e).outQ = (s.ni e).outQ ++ [tokenMsg (peEndpoint (tPe d.tag)) d.tag (mkWide 0 q.val) 0 .none])

/-- Whatever request a memory target takes, memory keeps its canonical form, and instruction memory and the locks stay as they are; shown for a
module without an uncorrectable word, presence code or deferral entry (one may set off KICKSTAND). -/
def Obligations.MemoryStaysCanonical : Prop :=
  ∀ (s t : State) (e : Nat) (b : Bool), Memory.wf s.mem = true → (∀ a, s.eccAt a ≠ .ue) → (∀ a, s.presAt a ≠ .lost) →
    (∀ x ∈ s.rels, ∀ q ∈ x.2, ∀ d ∈ q.list, d.bad = false) →
    ∀ c ∈ [Instr.targetRead e, Instr.targetWrite e b, Instr.targetIread ⟨e, b⟩, Instr.targetIwrite e b, Instr.targetAtom e, Instr.targetIclr ⟨e, b⟩,
        Instr.deferredReplyRelease e], exec c s = .next t → Memory.wf t.mem = true ∧ t.imem = s.imem ∧ t.locks = s.locks

/-! Locks (R409 to R425). -/

/-- The lock unit: a free lock is granted, its holder's lease begins again, another asker waits; a release frees the lock or passes it on, one by
another identity is refused; a lease that runs out abandons the hold; boosts reach the holder's endpoint and end there. -/
def Obligations.LockUnit : Prop :=
  (∀ (s : State) (p : Packet) (r : List Packet), s.reqAt 65 = p :: r → p.opc = .lock →
    let n := p.lockNo
    let l := s.lock n
    let w := p.waiter
    (p.isRel = false → l.holder = none → l.waiters = [] → Runs .lockAcqRequest s fun u => u.reqAt 65 = r ∧
      (u.lock n).holder = some w ∧ (u.lock n).gen = (l.gen + 1) % 2 ^ 32 ∧ (u.lock n).abandoned = false ∧ (u.lock n).since = s.now ∧
      (u.ni 65).outQ = (s.ni 65).outQ ++ [respMsg p 0 (some (p.rtag, mkWide 0 (BitVec.ofNat 64
        (2 ^ 63 + (if l.abandoned then 2 ^ 62 else 0) + w.owner * 2 ^ 32 + (l.gen + 1) % 2 ^ 32)))) false]) ∧
    (∀ h, p.isRel = false → l.holder = some h → h.ep = w.ep → h.ctx = w.ctx → Runs .lockAcqRequest s fun u => (u.lock n).holder = some h ∧
      (u.lock n).gen = l.gen ∧ (u.lock n).since = s.now ∧ (u.lock n).waiters = l.waiters) ∧
    (∀ h, p.isRel = false → l.holder = some h → (h.ep ≠ w.ep ∨ h.ctx ≠ w.ctx) →
      (l.waiters.length < 8 → s.waitersInUse < 4096 → (∀ v ∈ l.waiters, v.ep ≠ w.ep ∨ v.ctx ≠ w.ctx) → Runs .lockAcqRequest s fun u =>
        u.reqAt 65 = r ∧ (u.lock n).holder = some h ∧ (u.lock n).waiters = l.waiters ++ [w]) ∧
      (8 ≤ l.waiters.length → Runs .lockAcqRequest s fun u => (u.lock n) = l ∧ ∃ m, (u.ni 65).outQ = (s.ni 65).outQ ++ [m] ∧ m.opc = .resp)) ∧
    (∀ h, p.isRel = true → p.nr = true → l.holder = some h → h.ep = w.ep → h.ctx = w.ctx →
      (l.waiters = [] → Runs .lockRelRequest s fun u => u.reqAt 65 = r ∧ (u.lock n).holder = none ∧ (u.lock n).abandoned = false) ∧
      (∀ v, l.waiters = [v] → Runs .lockRelRequest s fun u => (u.lock n).holder = some v ∧ (u.lock n).waiters = [] ∧
        (u.lock n).gen = (l.gen + 1) % 2 ^ 32)) ∧
    (p.isRel = true → (∀ h, l.holder = some h → h.ep ≠ w.ep ∨ h.ctx ≠ w.ctx) → p.src < 256 → s.handled p.issuerKey →
      Runs .lockRelRequest s fun u => u.lock n = l ∧ ∃ m, (u.ni 65).outQ = (s.ni 65).outQ ++ [respMsg p 3 none false, m] ∧ m.fault = true)) ∧
  (∀ (s : State) (n ep ctx : Nat), n < 1024 →
    let l := s.lock n
    let w : Waiter := ⟨ep, ctx, 0x1FF, 7, 0⟩
    Runs (.lkAcqRead n ep ctx true) s (fun u => u.rdata = [l.status] ∧ u.locks = s.locks) ∧
    (l.holder = none → Runs (.lkAcqRead n ep ctx false) s fun u => (u.lock n).holder = some w ∧ (u.lock n).gen = (l.gen + 1) % 2 ^ 32 ∧
      u.rdata = [BitVec.ofNat 64 (2 ^ 63 + (if l.abandoned then 2 ^ 62 else 0) + w.owner * 2 ^ 32 + (l.gen + 1) % 2 ^ 32)]) ∧
    (∀ h, l.holder = some h → h.ep = ep → h.ctx = ctx → Runs (.lkAcqRead n ep ctx false) s fun u => (u.lock n).holder = some h ∧
      (u.lock n).gen = l.gen ∧ (u.lock n).since = s.now ∧ (u.lock n).waiters = l.waiters ∧ ∃ x : Word, u.rdata = [x] ∧ bitAt x 63 = true) ∧
    (∀ h, l.holder = some h → (h.ep ≠ ep ∨ h.ctx ≠ ctx) → Runs (.lkAcqRead n ep ctx false) s (fun u => u.locks = s.locks ∧
        ∃ x : Word, u.rdata = [x] ∧ bitAt x 63 = false) ∧
      Runs (.lkRelWrite n ep ctx) s fun u => u.lock n = l ∧ u.rdata = [BitVec.ofNat 64 stDENIED]) ∧
    (∀ h, l.holder = some h → h.ep = ep → h.ctx = ctx → l.waiters = [] → Runs (.lkRelWrite n ep ctx) s fun u =>
      (u.lock n).holder = none ∧ u.rdata = [0]) ∧
    (∀ h, l.holder = some h → l.waiters = [] → Runs (.lockLeaseExpired n) s fun u => (u.lock n).holder = none ∧ (u.lock n).abandoned = true ∧
      (u.lock n).gen = l.gen)) ∧
  (∀ (s : State) (e : Nat) (p : Packet) (r : List Packet), e < 64 → s.reqAt e = p :: r → p.opc = .control →
    let k := fld p.argA 19 0
    let n := fld p.argA 29 20
    let v := fld p.argA 34 32
    (p.sub = 8 → (s.ni e).boosts = [] → v ≠ 0 → Runs (.boostArrival e) s fun u => u.reqAt e = r ∧ (u.ni e).boosts = [(k, n, v)] ∧
      ∀ m ∈ clusterPes e, (k, v) ∈ (u.pe m).boosts ∧
        (u.pe m).ready = (s.pe m).ready.map (fun q => if tCtx q.key = k then { q with pri := max q.base v } else q)) ∧
    (p.sub = 9 → (s.ni e).boosts = [(k, n, v)] → Runs (.boostEndArrival e) s fun u => u.reqAt e = r ∧ (u.ni e).boosts = [] ∧
      ∀ m ∈ clusterPes e, ∀ x ∈ (u.pe m).boosts, x.1 ≠ k))

/-! Etryn-X ports (R336 to R380). -/

/-- Port p stands in state v, and the memories, contexts and locks of the module, and every other port, are as before. -/
def Sys2Proof.Machine.PortNow (s u : State) (p v : Nat) : Prop :=
  u.ptState p = v ∧ u.mem = s.mem ∧ u.imem = s.imem ∧ u.ctxs = s.ctxs ∧ u.locks = s.locks ∧ ∀ q, q < 16 → q ≠ p → u.ptState q = s.ptState q ∧ u.port q = s.port q

/-- A rejected configuration write stands in MC_EVT with its address. -/
def Sys2Proof.Machine.Rejected (u : State) (a : Nat) : Prop := bitAt (u.reg aMcEvt) 63 = true ∧ u.rfld aMcEvt 47 0 = a

/-- The states of a port: training, opening, suspension, recovery and DOWN, each from the states the manual allows and with the cause it shows; a command in
another state is rejected; a mapping entry is committed from its two words, at once or after the packet that is open at ingress. -/
def Obligations.PortStates : Prop :=
  ∀ (s : State) (p : Nat), p < 16 →
    let st := aPtStatus p
    (∀ e ∈ ([(Instr.ptCtlTrain p, [0], 1), (.ptCtlSuspend p, [3], 4), (.ptCtlResume p, [4], 3), (.ptCtlRetrain p, [2, 3, 4], 5)] : List (Instr × List Nat × Nat)),
      (s.ptState p ∈ e.2.1 → Runs e.1 s fun u => PortNow s u p e.2.2) ∧
      (s.ptState p ∉ e.2.1 → Runs e.1 s fun u => PortNow s u p (s.ptState p) ∧
        u.port p = { s.port p with lanes := [] } ∧ Rejected u (aPtCtl p))) ∧
    (s.ptState p = 1 →
      (∀ rx tx pol, pol < 16 → Runs (.portTrainDone p rx tx pol) s fun u => PortNow s u p 2 ∧ u.rfld st 56 56 = rx.toNat ∧ u.rfld st 55 55 = tx.toNat ∧
        u.rfld st 54 51 = pol ∧ (u.port p).held = [] ∧ (u.port p).rxNext = 0 ∧ (u.port p).grant = [0, 0, 0, 0]) ∧
      (∀ c ∈ [1, 8, 9], let x := (s.port p).train
        Runs (.portTrainFail p c) s fun u => PortNow s u p 0 ∧ u.rfld st 60 57 = (if x.partner then 1 else if x.peer then 8 else c) ∧
          Logged u (portSrc true p) .portTrainFail .deferred (BitVec.ofNat 64 p))) ∧
    (s.ptState p = 0 → s.rfld st 60 57 ∈ [1, 7, 8, 9] →
      Runs (.portTrainRetry p) s fun u => PortNow s u p (if bitAt (s.reg (aPtCfg p)) 6 then 1 else 0)) ∧
    (s.ptState p = 2 → ∀ c ∈ [Instr.ptOpenGo p, .portAutoOpen p], 
        (c = .portAutoOpen p → bitAt (s.reg (aPtOpen p)) 63 = true ∧ s.pw.begun + s.rfld (aPtOpen p) 31 16 * 1000000 ≤ s.now) →
      (p < 2 ∨ s.power ≠ 1 → Runs c s fun u => u.ptState p = 3 ∧ (u.port p).grant = (s.port p).grant.map (fun g => (g + 256) % 1024) ∧
        (u.port p).windows = []) ∧
      (2 ≤ p → s.power = 1 → Runs c s fun u => u.ptState p = 4 ∧ (u.port p).grant = (s.port p).grant ∧ (u.port p).windows = [])) ∧
    (2 ≤ s.ptState p → s.ptState p ≤ 4 → ∀ e ∈ ([(Instr.blockLockLost p, 2), (.noValidFrame p, 4), (.ptCtlRetrain p, 5)] : List (Instr × Nat)),
      Runs e.1 s fun u => PortNow s u p 5 ∧ u.rfld st 60 57 = e.2 ∧ (u.port p).prev = s.ptState p ∧
        u.rfld st 15 0 = min 65535 (s.rfld st 15 0 + 1) ∧ Logged u (portSrc true p) .portRecovery .corrected (BitVec.ofNat 64 p)) ∧
    (s.ptState p = 5 →
      (∀ n, 2 ≤ (s.port p).prev → (s.port p).prev ≤ 4 → Runs (.portRecoveryDone p true n) s fun u => u.ptState p = (s.port p).prev) ∧
      (∀ n, Runs (.portRecoveryDone p false n) s fun u => u.ptState p = 2 ∧ (u.port p).held = [] ∧ (u.port p).rxNext = 0) ∧
      Runs (.portRecoveryTimeout p) s fun u => u.ptState p = 0 ∧ u.rfld st 60 57 = 7 ∧ (u.port p).held = [] ∧ (u.port p).windows = [] ∧
        Logged u (portSrc true p) .linkDown .deferred (BitVec.ofNat 64 p)) ∧
    (Runs (.ptCtlReset p) s fun u => u.ptState p = 0 ∧ u.rfld st 60 57 = 6 ∧ (u.port p).held = [] ∧ (u.port p).windows = []) ∧
    (∀ w, let v := s.rfld (aMapSel p) 7 0
      (bitAt (s.reg (aPtLock p)) 0 = false → mMGTR w ≠ 3 → fld w 51 0 = 0 → mORD w = false → (s.port p).mapDue = [] →
        ((s.port p).openOf v = false → Runs (.ptMapW0Commit p w) s fun u => (u.port p).mapDue = [] ∧
          (u.port p).w0 v = w ∧ (u.port p).w1 v = (s.port p).stage ∧ ∀ k, k ≠ v → (u.port p).w0 k = (s.port p).w0 k ∧ (u.port p).w1 k = (s.port p).w1 k) ∧
        ((s.port p).openOf v = true → Runs (.ptMapW0Commit p w) s fun u => (u.port p).mapDue = [(v, w, (s.port p).stage)] ∧
          (u.port p).map0 = (s.port p).map0 ∧ (u.port p).map1 = (s.port p).map1)) ∧
      (mMGTR w = 3 ∨ fld w 51 0 ≠ 0 → Runs (.ptMapW0Commit p w) s fun u => u.ports = s.ports ∧ Rejected u (aMapW0 p)))

/-- Frames and packets of a port: the blocks of a frame that one port sends are that frame at a port whose descramblers stand as the sender's
scramblers; a bad frame, or blocks that make none, is answered by a NAK, an acknowledgement frees the frames it covers, the frame expected is taken;
while the port trains, a stripe counts for block lock, then for what the port finds of its partner, and 16 TS2 without a change end the training;
replays, reorder windows, open packets, egress and its credit timeout; what partners report, and events that programs record. -/
def Obligations.PortTraffic : Prop :=
  (∀ (s r : State) (p q n : Nat) (nak : Bool) (fs : List Flit), (s.port p).lanes = [] → (s.port p).txScr.length = 4 → (r.port q).rxScr = (s.port p).txScr →
    bitAt (s.reg (aPtStatus p)) 55 = false → bitAt (r.reg (aPtStatus q)) 56 = false → fld (r.reg (aPtStatus q)) 54 51 = 0 →
    let t := s.sendFrame p n nak fs
    r.rxFrame q (t.port p).lanes = some (s.frameBits p n nak fs, (t.port p).txScr)) ∧
  (∀ (s : State) (p : Nat) (l : List (List (BitVec 66))), p < 16 →
    (s.ptState p = 0 → exec (.frameReceive p l) s = .next (s.sendAnew p)) ∧
    (∀ bs, s.ptState p = 1 → l = [bs] →
      let x := { (s.port p).train with locks := locksAfter (s.port p).train.locks bs }
      let y := x.take bs
      let z := if y.found then { y with sent := min 16 (y.sent + 1) } else y
      ((∃ n ∈ x.locks, n < 64) → Runs (.frameReceive p l) s fun u => u.ptState p = 1 ∧ (u.port p).train = x ∧ u.regs = s.regs) ∧
      ((∀ n ∈ x.locks, 64 ≤ n) → bs.length = 4 → s.rfld (aPtStatus p) 54 51 = 0 → (∀ b ∈ bs, Block.isTs (~~~b) = false) →
        Runs (.frameReceive p l) s fun u => u.ptState p = (if z.over then 2 else 1) ∧ (z.over = false → (u.port p).train = z) ∧
          (bs.all Block.isTs = true → u.rfld (aPtStatus p) 56 56 = (bs.map (fun b => fld (Block.payload b) 9 8) == [3, 2, 1, 0]).toNat) ∧
          let n := (bs.filter (fun b => Block.sync b == 2 && !tsValid (Block.payload b) && fld (Block.payload b) 7 0 != 0x4B)).length
          u.rfld (aPtStat p 6) 47 0 = min (2 ^ 48 - 1) (s.rfld (aPtStat p 6) 47 0 + n))) ∧
    (s.linkUp p = true → s.rxFrame p l = none → (∃ bs ∈ l, isAlign (s.fixStripe p bs) = false) → (s.port p).nakAt = none → (s.port p).due = [] →
      Runs (.frameReceive p l) s fun u =>
      (u.port p).nakAt = some s.now ∧ (u.port p).held = (s.port p).held ∧ (u.port p).rxNext = (s.port p).rxNext)) ∧
  (∀ (s : State) (p : Nat) (l : List (List (BitVec 66))) (f : BitVec 1280) (scr : List (BitVec 58)), p < 16 → s.rxFrame p l = some (f, scr) →
    let t := frameTrailer f
    let fv := fld t 95 88
    let fs := ((List.range 8).filter (fun k => fv.testBit k)).map (frameSlot f)
    (s.port p).due = [] →
    let plain := 1 ≤ fld t 127 124 ∧ fld t 127 124 ≤ 3 ∧ bitAt t 96 = false ∧ fld t 47 16 = 0 ∧ fvOk fv = true ∧ bitAt t 98 = false
    (s.linkUp p = true → frameCrc f ≠ fld t 15 0 → (s.port p).nakAt = none → Runs (.frameReceive p l) s fun u => (u.port p).rxScr = scr ∧
      (u.port p).nakAt = some s.now ∧ (u.port p).held = (s.port p).held ∧ (u.port p).rxNext = (s.port p).rxNext) ∧
    (s.linkUp p = true → frameCrc f = fld t 15 0 → plain → fv = 0 → bitAt t 99 = true → Runs (.frameReceive p l) s fun u => (u.port p).rxScr = scr ∧
      (u.port p).held = (s.port p).held.filter (fun h => seqNewer h.1 (fld t 111 100)) ∧ (u.port p).rxNext = (s.port p).rxNext) ∧
    (s.linkUp p = true → frameCrc f = fld t 15 0 → plain → fv ≠ 0 → bitAt t 99 = false →
      (fld t 123 112 = (s.port p).rxNext → (s.port p).used.length = 4 →
        (∀ v, v < 4 → vcFlits fs v ≤ (((s.port p).grant[v]?).getD 0 + 1024 - ((s.port p).used[v]?).getD 0) % 1024) → Runs (.frameReceive p l) s fun u =>
        (u.port p).rxNext = ((s.port p).rxNext + 1) % 4096 ∧ (u.port p).nakAt = none ∧
        ∀ v, v < 4 → (u.port p).used[v]? = some ((((s.port p).used[v]?).getD 0 + vcFlits fs v) % 1024)) ∧
      (seqNewer (fld t 123 112) (s.port p).rxNext = true → (s.port p).nakAt = none → Runs (.frameReceive p l) s fun u =>
        (u.port p).rxNext = (s.port p).rxNext ∧ (u.port p).nakAt = some s.now))) ∧
  (∀ (s : State) (p : Nat), p < 16 → s.linkUp p = true → (s.port p).held ≠ [] →
    ((s.port p).replays < 7 → Runs (.replayTimeout p) s fun u => u.ptState p = s.ptState p ∧ (u.port p).held = (s.port p).held ∧
      (u.port p).replays = (s.port p).replays + 1) ∧
    (7 ≤ (s.port p).replays → Runs (.replayTimeout p) s fun u => u.ptState p = 5 ∧ u.rfld (aPtStatus p) 60 57 = 3 ∧ (u.port p).held = (s.port p).held)) ∧
  (∀ (s : State) (p v e n : Nat) (q : Packet), p < 16 → (s.port p).window v = { (s.port p).window v with expected := some e, held := [(n, q)] } →
    voidPkt q = false → Runs (.reorderTimeout p v) s fun u =>
      ((u.port p).window v).held = [] ∧ ((u.port p).window v).expected = some ((n + 1) % 2 ^ 32) ∧
      Logged u (portSrc false p) .streamGap .info (BitVec.ofNat 64 (put 31 0 e + put 63 32 (seqDist n e))) ∧
      ∃ h, u.vc 64 (16 + p) q.vn = s.vc 64 (16 + p) q.vn ++ [h] ∧ h.pkt.dest = q.dest ∧ h.pkt.opc = q.opc ∧ h.pkt.body = q.body) ∧
  (∀ (s : State) (p vn : Nat) (o : RxPkt), p < 16 → (s.port p).openAt vn = some o → Runs (.openPacketTimeout p vn) s fun u =>
    (u.port p).openAt vn = none ∧ vn ∈ (u.port p).skip ∧ u.mem = s.mem ∧ u.ctxs = s.ctxs) ∧
  (∀ (s : State) (p vn : Nat) (h : Hop) (r : List Hop), p < 16 → vn < 4 → s.egressQ p vn = h :: r → h.pkt.vn = vn → h.pkt.opc ≠ .epochMark → h.pkt.opc ≠ .drainMark →
    (s.ptState p = 3 → (s.port p).stalled = [] → 256 ≤ h.pkt.dest →
      (h.pkt.flits ≤ (s.port p).credit vn → (s.port p).held.length + (framesOf h.pkt.outward.toFlits).length ≤ 32 → Runs (.egressPacket p vn) s fun u =>
        u.egressQ p vn = r ∧ (u.port p).held.map (·.2) = (s.port p).held.map (·.2) ++ framesOf h.pkt.outward.toFlits) ∧
      ((s.port p).credit vn < h.pkt.flits → exec (.egressPacket p vn) s = .next (s.sendAnew p))) ∧
    (s.ptState p = 2 → vn = 0 → Runs (.egressPacket p vn) s fun u => u.egressQ p vn = r ∧ (u.port p).held = (s.port p).held ∧
      u.rfld (aPtStat p 11) 47 0 = min (2 ^ 48 - 1) (s.rfld (aPtStat p 11) 47 0 + 1)) ∧
    (s.ptState p = 3 → (s.port p).credit vn < h.pkt.flits → Runs (.egressCreditTimeout p vn) s fun u => u.egressQ p vn = [] ∧
      vn ∈ (u.port p).stalled ∧ Logged u (portSrc false p) .partnerStall .deferred (BitVec.ofNat 64 p))) ∧
  (∀ (s : State) (q : Packet) (r : List Packet), s.reqAt 67 = q :: r →
    (q.opc = .control → q.sub = 0x0A → Runs .partnerInfoArrival s fun u => u.reqAt 67 = r ∧
      u.reg (aPinfo (epPort q.src)) = BitVec.ofNat 64 (2 ^ 63 + fld q.argA 47 0) ∧ Logged u 67 .partnerInfo .info (BitVec.ofNat 64 (fld q.argA 47 0))) ∧
    (q.opc = .service → q.svc = 5 → fld q.argB 63 19 = 0 → ∀ e ∈ ([(0, .info), (2, .deferred)] : List (Nat × Sev)), fld q.argB 18 16 = e.1 →
      Runs .mcEventRequest s fun u => u.reqAt 67 = r ∧ Logged u 67 (.program (fld q.argB 15 0)) e.2 q.argA ∧
        (u.ni 67).outQ = (s.ni 67).outQ ++ [respMsg q 0 none false]))

/-! Crossings and the event path (R385 to R407, R426 to R429, R463 to R466). -/

/-- Dual-clock queues, pulses and beacons: a flush empties its queue, differing pointers begin a credit reset, stalls and their ends are shown and
logged, of a value or pulse crossing too; a pulse crosses, waits or is lost; a beacon holds the timebase, and a domain's counter takes its correction. -/
def Obligations.Crossings : Prop :=
  (∀ (s : State) (a : Nat) (d : Dcq), dcqOf a = some d →
    (bitAt (s.reg a) 62 = true → exec (.dcqFlush a) s = .next s) ∧
    (bitAt (s.reg a) 62 = false →
      (∀ p vn, d.store = .egress p vn → Runs (.dcqFlush a) s fun u => u.egressQ p vn = [] ∧ u.regs = s.regs ∧ u.mem = s.mem) ∧
      (∀ r i vn, d.store = .input r i vn → r < 64 → Runs (.dcqFlush a) s fun u => u.vc r i vn = [] ∧ u.regs = s.regs ∧ u.mem = s.mem ∧
        u.openPkts = s.openPkts ∧
        u.flushes = (if s.dcqOpen d = true ∧ s.flushes.contains a = false then s.flushes ++ [a] else s.flushes) ∧
        ∀ j v, j < 64 → v < 4 → vn < 4 → (j ≠ i ∨ v ≠ vn) → u.vc r j v = s.vc r j v) ∧
      (∀ e vn, d.store = .eject e vn → Runs (.dcqPtrMismatch a) s fun u => bitAt (u.reg a) 62 = true ∧
        u.rfld a 43 36 = min 255 (s.rfld a 43 36 + 1) ∧ Logged u d.unit .dcqPtrMismatch .deferred d.detail)) ∧
    (bitAt (s.reg a) 62 = true → Runs (.dcqPtrMismatch a) s fun u => u.regs = s.regs ∧ Logged u d.unit .dcqPtrMismatch .deferred d.detail) ∧
    (Runs (.creditResetDone a) s fun u => bitAt (u.reg a) 62 = false ∧ u.rfld a 61 0 = s.rfld a 61 0) ∧
    (∀ m ∈ ([(0, d.dst), (4, d.src)] : List (Nat × Nat)),
      (s.armed d.src d.dst = true → bitAt (s.reg a) 63 = false → ∀ x y, Runs (.dcqStall m.1 x y a) s fun u => bitAt (u.reg a) 63 = true ∧
        Logged u (srcOf m.2 d.idx) .dcqStall .deferred d.detail) ∧
      (bitAt (s.reg a) 63 = true → ∀ x y, Runs (.cdcResumed m.1 x y a) s fun u => bitAt (u.reg a) 63 = false ∧
        Logged u (srcOf m.2 d.idx) .cdcResumed .info d.detail))) ∧
  (∀ (s : State) (x y i m : Nat), m = 1 ∨ m = 2 →
    let k := stopKey m x y i
    (s.armed x y = true → k ∉ s.stopped → Runs (.dcqStall m x y i) s fun u => u.stopped = s.stopped ++ [k] ∧ u.regs = s.regs ∧
      Logged u (srcOf y i) .cdcTimeout .deferred (crossDetail x y m i)) ∧
    (k ∈ s.stopped → (exec (.dcqStall m x y i) s = .next s) ∧ Runs (.cdcResumed m x y i) s fun u => u.stopped = s.stopped.erase k ∧ u.regs = s.regs ∧
      Logged u (srcOf y i) .cdcResumed .info (crossDetail x y m i)) ∧
    (k ∉ s.stopped → exec (.cdcResumed m x y i) s = .next s)) ∧
  (∀ (s : State) (x y i : Nat),
    Runs (.cdcUnstable 3 x y i) s (fun u => (u.dom y).unstable = true ∧ Logged u (srcOf y i) .cdcUnstable .deferred (crossDetail x y 3 i)) ∧
    (let k := pulseKey x y i
     let p (s : State) : Pulse := Tbl.get Pulse.init s.pulses k
     ((p s).busy = false → Runs (.pulseCrossing x y i false) s fun u => p u = { p s with busy := true, delivered := (p s).delivered + 1 }) ∧
     ((p s).busy = true → (p s).pending < 15 → Runs (.pulseCrossing x y i false) s fun u => p u = { p s with pending := (p s).pending + 1 }) ∧
     ((p s).busy = true → 15 ≤ (p s).pending → Runs (.pulseCrossing x y i false) s fun u => p u = { p s with lost := true } ∧
       Logged u (srcOf x i) .pulseLost .deferred (crossDetail x y 2 i)) ∧
     ((p s).busy = true → (p s).pending = 0 → Runs (.pulseCrossing x y i true) s fun u => p u = { p s with busy := false }) ∧
     ((p s).busy = true → 0 < (p s).pending → Runs (.pulseCrossing x y i true) s fun u =>
       p u = { p s with pending := (p s).pending - 1, delivered := (p s).delivered + 1 }))) ∧
  (∀ (s : State), s.powered = true → Runs .beaconLaunch s fun u => u.now = s.now + 64 ∧ u.beacon = BitVec.ofNat 64 ((s.now + 64) * 2 ^ 32 / 10 ^ 9) ∧
    u.mem = s.mem ∧ u.regs = s.regs) ∧
  (∀ (s : State) (d x : Nat), d ≤ 93 → d ≠ 92 →
    let v := s.beacon.toNat + Config.beaconLatency d
    let here := s.counterAt d x
    let e : Int := v - here
    let stepped (u : State) : Prop := (u.dom d).steps = min 65535 ((s.dom d).steps + 1) ∧ Logged u (srcOf d 0) .timeStep .corrected (crossDetail 92 d 3 0)
    ((s.dom d).loaded = false → Runs (.beaconAccept d x) s fun u => (u.dom d).val = BitVec.ofNat 64 v ∧ (u.dom d).loaded = true ∧ (u.dom d).err = 0) ∧
    ((s.dom d).loaded = true → (s.dom d).held = false →
      (-4096 ≤ e → e ≤ 4096 → Runs (.beaconAccept d x) s fun u => (u.dom d).val = BitVec.ofNat 64 here ∧ (u.dom d).err = e ∧ (u.dom d).corr = e ∧
        (u.dom d).steps = (s.dom d).steps) ∧
      (4096 < e → Runs (.beaconAccept d x) s fun u => (u.dom d).val = BitVec.ofNat 64 v ∧ stepped u) ∧
      (e < -4096 → Runs (.beaconAccept d x) s fun u => (u.dom d).val = BitVec.ofNat 64 here ∧ (u.dom d).held = true)) ∧
    ((s.dom d).loaded = true → (s.dom d).held = true →
      (0 ≤ e → Runs (.beaconAccept d x) s fun u => (u.dom d).val = BitVec.ofNat 64 v ∧ (u.dom d).held = false ∧ stepped u) ∧
      (e < 0 → Runs (.beaconAccept d x) s fun u => (u.dom d).val = (s.dom d).val ∧ (u.dom d).held = true ∧ (u.dom d).steps = (s.dom d).steps)))

/-- A record of the event log: collectors forward what is 2 µs old, in order; a progress mark and silence decide which collectors are live; the lowest key that
every live collector has passed takes the next SEQ and enters the ring; the queue is persisted in flash. -/
def Obligations.EventPath : Prop :=
  (∀ (s : State) (k : Nat) (r : EvRec), k < 6 → earliest (Tbl.get [] s.coll k) = some r →
    (∀ q ∈ Tbl.get [] s.coll k, r.tb ≤ q.tb) ∧
    (r.time + 2000 ≤ s.now → Runs (.collectorForward k) s fun u => Tbl.get [] u.coll k = (Tbl.get [] s.coll k).erase r ∧
      u.ev.merge = s.ev.merge ++ [⟨k, r⟩] ∧ Tbl.get 0 u.ev.lseqs k = s.nextLseq k) ∧
    (s.now < r.time + 2000 → exec (.collectorForward k) s = .next s) ∧
    (Runs (.progressMark k) s fun u => Tbl.get 0 u.ev.marks k = min r.tb (s.localTime (collDom k) - lsbOf 2000) + 1 ∧
      u.ev.silent = s.ev.silent.erase k ∧ u.ev.merge = s.ev.merge ∧ u.coll = s.coll)) ∧
  (∀ (s : State) (k : Nat), k < 6 → k ∉ s.ev.silent → Runs (.collectorSilent k) s fun u => u.ev.silent = s.ev.silent ++ [k] ∧
    Logged u 68 .collectorSilent .deferred (BitVec.ofNat 64 k)) ∧
  (∀ (s : State) (r : FwdRec), lowestRec s.ev.merge = some r →
    (∀ q ∈ s.ev.merge, keyLt q.key r.key = false) ∧
    ((∀ k ∈ s.liveColls, r.ev.tb + 1 < Tbl.get 0 s.ev.marks k) → s.ev.ring.length < 16384 → s.mc.trace = none → Runs .eventSeqAssign s fun u =>
      u.ev.merge = s.ev.merge.erase r ∧ u.ev.seq = (s.ev.seq + 1) % 2 ^ 64 ∧ u.ev.ring = s.ev.ring ++ [⟨s.ev.seq, keyLt r.key s.ev.top, r.ev⟩] ∧
      u.reg aLogNewest = BitVec.ofNat 64 s.ev.seq) ∧
    (∀ k ∈ s.liveColls, Tbl.get 0 s.ev.marks k ≤ r.ev.tb + 1 → exec .eventSeqAssign s = .next s)) ∧
  (∀ (s : State), s.mc.up = true → s.ev.flash.length + s.ev.persist.length ≤ 262144 → Runs .logPersist s fun u =>
    u.ev.flash = s.ev.flash ++ s.ev.persist ∧ u.ev.persist = [] ∧ u.ev.ring = s.ev.ring ∧ u.mem = s.mem)

/-! The management controller (R452 to R488). -/

/-- Request r carries a frame of this opcode with payload d that Beynas lets through to its effect (R454, R455, R457, R470): the controller runs, the
form is right, the channel has the class, a tag that is needed is right, and neither missing images nor a shutdown bar the class. -/
structure Sys2Proof.Machine.State.LetIn (s : State) (op cls : Nat) (r : McReq) (d : List Byte) : Prop where
  up : s.mc.up = true
  frame : ∃ q z, s.mcFrame op r = some (q, z, d) ∧ allZero z = true ∧ (s.tagNeeded r.ch cls = true → s.tagGood op q z d r.tag = true)
  len : d.length ≤ (if r.ch = 1 then 1440 else 2032)
  right : s.chanRight r.ch r.ep cls = true
  clear : s.mc.causes = [] ∧ s.rfld aPwState 61 61 = 0

/-- The command runs and the controller answers with this status and payload, and P holds of the state it leaves. -/
def Sys2Proof.Machine.Answers (c : Instr) (s : State) (st : Nat) (pl : List Byte) (P : State → Prop) : Prop :=
  Runs c s fun u => u.mc.resp = (st, pl) ∧ P u

/-- READ commands: what GET_INFO, GET_SENSORS, LOG_READ, REG_READ and ATTEST answer; and who may command at all: form, right and tag of a frame, shown
with KICKSTAND_ENTER. -/
def Obligations.ManagementReads : Prop :=
  (∀ (s : State) (r : McReq) (d : List Byte),
    (s.LetIn 0x01 0 r d →
      (d = [] → Runs (.getInfo r) s fun u => ∃ pl, u.mc.resp = (0, pl) ∧ pl.length = 208 ∧ pl.take 8 = deviceId ∧ pl[8]? = some 0xB0 ∧
        pl[9]? = some (BitVec.ofNat 8 s.mc.life) ∧ u.regs = s.regs ∧ u.mem = s.mem) ∧
      (d ≠ [] → Answers (.getInfo r) s 2 [] fun u => u.regs = s.regs)) ∧
    (s.LetIn 0x02 0 r d → d = [] → Runs (.getSensors r) s fun u => ∃ pl, u.mc.resp = (0, pl) ∧ pl.length = 944 ∧
      pl.take 8 = leBytes 8 (s.regShown (aMcTemp 0)).toNat ∧ u.mem = s.mem) ∧
    (s.LetIn 0x03 0 r d → s.ev.flash = [] → ∀ q n, d = leBytes 8 q ++ leBytes 8 n → q < 2 ^ 64 → 1 ≤ n → n ≤ 63 →
      let l := (s.ev.ring.filter (fun x => decide (q ≤ x.seq))).take (if r.ch = 1 then min n 44 else n)
      Answers (.logRead r) s 0 (leBytes 8 ((l.head?.map (·.seq)).getD 0) ++ leBytes 8 l.length ++ l.flatMap LogRec.bytes) fun u => u.ev = s.ev ∧ u.regs = s.regs) ∧
    (s.LetIn 0x04 0 r d → ∀ a, a < 2 ^ 48 → d = leBytes 2 1 ++ leBytes 6 0 ++ leBytes 6 a →
      ((regSpec a).isSome = true → regBlock a ≠ 0x61 → isSecretReg a = false → s.reachable a = true → (∀ n, n < 1024 → a ≠ aLkAcq n) →
        Answers (.regRead r) s 0 (leBytes 8 (s.regShown a).toNat) fun u => u.mem = s.mem) ∧
      ((regSpec a).isNone = true ∨ regBlock a = 0x61 ∨ isSecretReg a = true ∨ s.reachable a = false →
        Answers (.regRead r) s 3 [] fun u => u.regs = s.regs) ∧
      (∀ n, n < 1024 → a = aLkAcq n → (s.lock n).holder = none →
        Answers (.regRead r) s 0 (leBytes 8 ((s.lkAcqRead n 67 Config.mcLockCtx false).1).toNat) fun u => ∃ h, (u.lock n).holder = some h ∧ h.ep = 67 ∧ h.ctx = Config.mcLockCtx ∧ u.mem = s.mem)) ∧
    (s.LetIn 0x05 0 r d → d.length = 48 → Runs (.attest r) s fun u => ∃ pl, u.mc.resp = (0, pl) ∧ pl.length = 256 ∧ pl.take 48 = d ∧ u.regs = s.regs)) ∧
  (∀ (s : State) (r : McReq) (q : Nat) (z d : List Byte), s.mcFrame 0x13 r = some (q, z, d) → d.length ≤ 1440 →
    (s.mc.up = false → exec (.kickstandEnter r) s = .next s) ∧
    (s.mc.up = true →
      (allZero z = false → Answers (.kickstandEnter r) s 2 [] fun u => u.regs = s.regs) ∧
      (allZero z = true → s.chanRight r.ch r.ep 1 = false → Answers (.kickstandEnter r) s 3 [] fun u => u.regs = s.regs ∧ u.mc.ethSeq = s.mc.ethSeq) ∧
      (allZero z = true → s.chanRight r.ch r.ep 1 = true → s.tagNeeded r.ch 1 = true →
        (s.tagGood 0x13 q z d r.tag = false → Answers (.kickstandEnter r) s 4 [] fun u => u.regs = s.regs ∧ u.mc.ethSeq = s.mc.ethSeq) ∧
        (s.tagGood 0x13 q z d r.tag = true → Runs (.kickstandEnter r) s fun u => u.mc.ethSeq = q))))

/-- OPERATE commands: each has its effect in the states the manual allows and is refused with STATE in the others. -/
def Obligations.OperateCommands : Prop :=
  ∀ (s : State) (r : McReq) (d : List Byte),
    (s.LetIn 0x10 1 r d → s.power ≠ 2 → ∀ p a, p < 16 → d = leBytes 1 p ++ leBytes 1 a ++ leBytes 6 0 →
      (∀ e ∈ ([(1, [0], 1), (2, [3], 4), (3, [4], 3), (4, [2, 3, 4], 5), (5, [0, 1, 2, 3, 4, 5], 0), (16, [2], 3)] : List (Nat × List Nat × Nat)), a = e.1 →
        s.ptState p ∈ e.2.1 → (a = 16 → s.power = 0 ∨ p < 2) → Answers (.portCmd r) s 0 [] fun u => u.ptState p = e.2.2) ∧
      (a = 1 → s.ptState p ≠ 0 → Answers (.portCmd r) s 7 [] fun u => u.ports = s.ports ∧ u.regs = s.regs)) ∧
    (s.LetIn 0x13 1 r d → d = [] →
      (s.power = 0 → Answers (.kickstandEnter r) s 0 [] fun u => u.power = 1 ∧ u.rfld aPwState 51 48 = 0 ∧ u.reg aKsCause = 16 ∧ u.mc.kickN = true ∧
        u.mc.pwrGood = false ∧ u.mc.graph = none ∧ (∀ k, k < 2 ^ 20 → u.ctx k = Ctx.init) ∧ (∀ n, n < 272 → u.pe n = Pe.init) ∧
        (∀ p, p < 16 → 2 ≤ p → s.ptState p = 3 → u.ptState p = 4) ∧ ∀ a, u.byte a = if dieAddr a then 0 else s.byte a) ∧
      (s.power ≠ 0 → Answers (.kickstandEnter r) s 7 [] fun u => u.regs = s.regs ∧ u.mem = s.mem)) ∧
    (s.LetIn 0x14 1 r d → d = [] → s.power = 1 →
      (s.rfld aKsCause 3 2 = 0 ∨ s.mc.faultN = false → bitAt (s.reg aKsCfg) 1 = false → s.mc.repairs = [] → s.mc.unrecorded = [] →
        Answers (.kickstandExit r) s 0 [] fun u => u.power = 0 ∧ u.rfld aPwState 51 48 = 15 ∧ u.mc.kickN = false ∧ u.mc.pwrGood = true ∧
          s.now + 120000000 ≤ u.now ∧ ∀ p, p < 16 → 2 ≤ p → s.ptState p = 4 → u.ptState p = 3) ∧
      (s.rfld aKsCause 3 2 ≠ 0 → s.mc.faultN = true → Answers (.kickstandExit r) s 7 [] fun u => u.regs = s.regs)) ∧
    (s.LetIn 0x15 1 r d → d = [] →
      (s.power = 0 → s.mc.settings = [] → s.mc.repairs = [] → s.mc.unrecorded = [] → Answers (.warmReset r) s 0 [] fun u => u.power = 0 ∧
        u.rfld aPwState 39 32 = 3 ∧ u.mc.graph = none ∧ s.now + 190000000 ≤ u.now ∧ ∀ p, p < 16 → u.ptState p = s.ptState p) ∧
      (s.power = 1 → Answers (.warmReset r) s 7 [] fun u => u.regs = s.regs)) ∧
    (s.LetIn 0x16 1 r d → d = [] →
      (s.power ≠ 2 → Answers (.standbyEnter r) s 0 [] fun u => u.power = 2 ∧ u.rfld aPwState 51 48 = 0 ∧ u.mem = [] ∧ u.ctxs = [] ∧ u.pes = [] ∧
        u.mc.kickN = false ∧ u.mc.pwrGood = false ∧ u.now = s.now ∧ u.ev.ring = s.ev.ring) ∧
      (s.power = 2 → Answers (.standbyEnter r) s 7 [] fun u => u.regs = s.regs)) ∧
    (s.LetIn 0x17 1 r d → s.power ≠ 2 → ∀ p, p < 2 →
      (d = leBytes 1 p ++ leBytes 1 1 ++ leBytes 6 0 → s.pairState p = 1 → Answers (.keeperCtl r) s 0 [] fun u => u.pairState p = 2) ∧
      (d = leBytes 1 p ++ leBytes 1 2 ++ leBytes 6 0 → s.pairState p = 2 → (s.pairSt p).zero = true → Answers (.keeperCtl r) s 0 [] fun u =>
        (u.pairSt p).again = true)) ∧
    (s.LetIn 0x18 1 r d → d = [] →
      (s.faultStands = false → Answers (.faultClear r) s 0 [] fun u => u.mc.faultN = false ∧ u.regs = s.regs) ∧
      (s.faultStands = true → Answers (.faultClear r) s 7 [] fun u => u.mc.faultN = s.mc.faultN))

/-- GRAPH_START and GRAPH_STOP: a valid copy of the graph image is taken into use, and BAD_IMAGE answers when no copy is valid; a stop kills the contexts of the
image's clusters and ends once none is left. -/
def Obligations.GraphCommands : Prop :=
  ∀ (s : State) (r : McReq) (d : List Byte),
    (s.LetIn 0x11 1 r d → d = [] →
      (s.power ≠ 0 ∨ s.mc.graph.isSome = true → Answers (.graphStart r) s 7 [] fun u => u.mc.graph = s.mc.graph) ∧
      (s.power = 0 → s.mc.graph = none → (∀ a, s.eccAt a ≠ .ue) → Runs (.graphStart r) s fun u =>
        if s.chooseCopy 5 = 0 then u.mc.resp = (5, []) ∧ u.mc.graph = none
        else ∃ g, u.mc.graph = some g ∧ g.used = s.graphUsed (s.chooseCopy 5) ∧ g.ape = s.graphApe (s.chooseCopy 5) ∧ g.id = s.graphId (s.chooseCopy 5) ∧
          g.stopping = false)) ∧
    (s.LetIn 0x12 1 r d → d = [] →
      (s.mc.graph = none → Answers (.graphStop r) s 7 [] fun u => u.ctxs = s.ctxs) ∧
      (∀ g, s.mc.graph = some g → g.starting = false → g.stopping = false →
        (s.ctxs = [] → Answers (.graphStop r) s 0 [] fun u => u.mc.graph = none) ∧
        (∀ k c, s.ctxs = [(k, c)] → c.state = .live → ctxOwner k < 64 → g.used.testBit (ctxOwner k) = true → Runs (.graphStop r) s fun u =>
          (u.ctx k).state = .killing ∧ ∃ g', u.mc.graph = some g' ∧ g'.stopping = true ∧ g'.used = g.used)))

/-- UPDATE commands: an update erases the copy it will write, takes its data once, and ends with the check of the copy; a minimum version rises; a secret reaches its
pair as the tokens its plaintext gives. -/
def Obligations.UpdateCommands : Prop :=
  ∀ (s : State) (r : McReq) (d : List Byte),
    (s.LetIn 0x20 2 r d → ∀ t n, 1 ≤ t → t ≤ 6 → n ≤ imgRegion t → d = leBytes 1 t ++ leBytes 3 0 ++ leBytes 4 n →
      (s.openUpdate = none → Answers (.imgBegin r) s 0 (leBytes 8 (s.targetCopy t)) fun u =>
        u.mc.update = some ⟨t, s.targetCopy t, n, [], false⟩ ∧
        ∀ a, u.flashAt a = if imgBase t (s.targetCopy t) ≤ a ∧ a < imgBase t (s.targetCopy t) + imgRegion t then 0xFF else s.flashAt a) ∧
      (s.openUpdate.isSome = true → Answers (.imgBegin r) s 1 [] fun u => u.mc.flash = s.mc.flash ∧ u.mc.update = s.mc.update)) ∧
    (s.LetIn 0x21 2 r d → ∀ x o b, s.openUpdate = some x → d = leBytes 4 o ++ leBytes 4 0 ++ b → o < 2 ^ 32 →
      (o % 8 = 0 → b.length % 8 = 0 → 8 ≤ b.length → o + b.length ≤ x.total → (∀ q ∈ x.ranges, q.2 ≤ o ∨ o + b.length ≤ q.1) →
        Answers (.imgData r) s 0 [] fun u => u.flashBytes (imgBase x.type x.copy + o) b.length = b ∧
          u.mc.update = some { x with ranges := x.ranges ++ [(o, o + b.length)] } ∧
          ∀ a, a < imgBase x.type x.copy + o ∨ imgBase x.type x.copy + o + b.length ≤ a → u.flashAt a = s.flashAt a) ∧
      (x.total < o + b.length → Answers (.imgData r) s 2 [] fun u => u.mc.flash = s.mc.flash ∧ u.mc.update = s.mc.update)) ∧
    (s.LetIn 0x22 2 r d → d = [] →
      (s.openUpdate = none → Answers (.imgEnd r) s 7 [] fun u => u.mc.flash = s.mc.flash) ∧
      (∀ x, s.openUpdate = some x → Runs (.imgEnd r) s fun u =>
        let k := s.imgCheck x.type x.copy s.mc.life
        if k ≠ 0 ∨ (s.inUse x.type ≠ 0 ∧ s.copySeq x.type x.copy ≤ s.copySeq x.type (s.inUse x.type)) then
          u.mc.resp = (if k = 5 then 6 else 5, []) ∧ u.mc.update = none ∧ ∀ i, i < 512 → u.flashAt (imgBase x.type x.copy + i) = 0xFF
        else u.mc.resp = (0, []) ∧ u.mc.update = some { x with done := true } ∧ u.mc.flash = s.mc.flash)) ∧
    (s.LetIn 0x23 2 r d → d = [] →
      (s.mc.update = none → Answers (.imgAbort r) s 7 [] fun u => u.mc.update = none) ∧
      (∀ x, s.mc.update = some x → Answers (.imgAbort r) s (if x.done then 17 else 16) [] fun u => u.mc.update = if x.done then some x else none)) ∧
    (s.LetIn 0x24 2 r d → ∀ t, 1 ≤ t → t ≤ 5 → d = leBytes 1 t ++ leBytes 7 0 → s.openUpdate = none → s.mc.minver.length = 5 → s.inUse t ≠ 0 →
      (s.mc.clean = true → 350000000 ≤ s.now → s.minVer t < s.imgSvn t (s.inUse t) → Answers (.minverRaise r) s 0 [] fun u =>
        u.minVer t = s.imgSvn t (s.inUse t) ∧ ∀ k, 1 ≤ k → k ≠ t → u.minVer k = s.minVer k) ∧
      (s.imgSvn t (s.inUse t) ≤ s.minVer t ∨ s.mc.clean = false → Answers (.minverRaise r) s 7 [] fun u => u.mc.minver = s.mc.minver)) ∧
    (s.LetIn 0x25 2 r d → ∀ p k ip b, p < 2 → k < 256 → ip < 2 ^ 13 → 132 ≤ b.length → b.length ≤ 2012 → b.length % 8 = 4 →
      d = leBytes 1 p ++ leBytes 3 0 ++ leBytes 4 k ++ leBytes 2 ip ++ leBytes 6 0 ++ b →
      (s.pairState p ≠ 1 → Answers (.ksecretLoad r) s 7 [] fun u => u.nis = s.nis) ∧
      (s.pairState p = 1 → Runs (.ksecretLoad r) s fun u =>
        let key := (Config.sha384 (beBytes 48 (Config.ecdhKey (beNat (b.take 96))) ++ deviceId)).toNat / 2 ^ 128
        match Config.decrypt (key + 1) (d.take 16) ((b.drop 96).take 12) ((b.drop 108).take 16) (b.drop 124) with
        | none => u.mc.resp = (4, []) ∧ u.nis = s.nis
        | some t => u.mc.resp = (0, []) ∧ (u.ni 67).outQ = (s.ni 67).outQ ++ (List.range (t.length / 8)).map (fun i =>
            tokenMsg 69 (mkTag 0 true false true k 0 (272 + 2 * p) ip 0) (mkWide (BitVec.ofNat 64 i) (BitVec.ofNat 64 (leNat ((t.drop (8 * i)).take 8)))) 0 .none)))

/-- LIFECYCLE commands: a challenge draws a nonce; the transitions burn their fuses in the lifecycles that allow them, by the owner's signature where it is asked. -/
def Obligations.LifecycleCommands : Prop :=
  ∀ (s : State) (r : McReq) (d : List Byte),
    (s.LetIn 0x33 3 r d → d = [] →
      (s.mc.rngOk = true → Runs (.lcChallenge r) s fun u => ∃ n, u.mc.lcNonce = some (n, s.now) ∧ u.mc.resp = (0, leBytes 48 n.toNat)) ∧
      (s.mc.rngOk = false → Answers (.lcChallenge r) s 1 [] fun u => u.mc.lcNonce = s.mc.lcNonce)) ∧
    (s.LetIn 0x30 3 r d → ∀ (a b : BitVec 384) (k : BitVec 256), d = beBytes 48 a.toNat ++ beBytes 48 b.toNat ++ beBytes 32 k.toNat →
      (s.mc.life = 0 → s.mc.imgHash &&& ~~~a = 0 → s.mc.dbgHash &&& ~~~b = 0 → s.mc.ethKey &&& ~~~k = 0 → Answers (.lcProvision r) s 0 [] fun u =>
        u.mc.imgHash = a ∧ u.mc.dbgHash = b ∧ u.mc.ethKey = k ∧ u.mc.lcProv = 7 ∧ u.mc.session = none ∧ u.mc.lcSec = s.mc.lcSec) ∧
      (s.mc.life ≠ 0 → Answers (.lcProvision r) s 7 [] fun u => u.mc.imgHash = s.mc.imgHash ∧ u.mc.lcProv = s.mc.lcProv)) ∧
    (s.LetIn 0x31 3 r d → d.length = 96 → Runs (.lcSecure r) s fun u => u.mc.lcNonce = none ∧
      if s.mc.life = 1 ∧ s.ownerSigned d = true ∧ s.readyToSecure = true then u.mc.resp = (0, []) ∧ u.mc.lcSec = 7 ∧ u.mc.session = none
      else u.mc.resp = (7, []) ∧ u.mc.lcSec = s.mc.lcSec) ∧
    (s.LetIn 0x32 3 r d → d.length = (if s.mc.life = 2 then 96 else 0) → s.mc.graph = none → Runs (.lcRetire r) s fun u => u.mc.lcNonce = none ∧
      if s.mc.life = 2 ∧ s.ownerSigned d = false then u.mc.resp = (7, []) ∧ u.mc.lcRet = s.mc.lcRet ∧ u.mem = s.mem
      else u.mc.resp = (0, []) ∧ u.mc.lcRet = 7 ∧ u.mc.keysGone = true ∧ u.mc.ethKey = BitVec.allOnes 256 ∧
        (∀ n w, 272 ≤ n → n < 276 → w < 16384 → u.imemAt n w = 0) ∧ ∀ a, u.byte a =
          if [272, 273, 274, 275].any (fun n => decide (lsBase n ≤ a ∧ a < lsBase n + 32768)) then 0 else s.byte a)

/-- Debug sessions: a challenge draws a nonce; a session opens by the cell of lifecycle, level and power state, and closes on its channel; none opens
between LC_RETIRE and the next power-on (the model's reading, log 49); a timeout lets every PE that it halted run again; traces. -/
def Obligations.DebugSessions : Prop :=
  (∀ (s : State) (r : McReq) (d : List Byte),
    (s.LetIn 0x40 4 r d → d = [] →
      (s.mc.rngOk = true → Runs (.dbgChallenge r) s fun u => ∃ n, u.mc.dbgNonce = some (n, s.now) ∧ u.mc.resp = (0, leBytes 48 n.toNat)) ∧
      (s.mc.rngOk = false → Answers (.dbgChallenge r) s 1 [] fun u => u.mc.dbgNonce = s.mc.dbgNonce)) ∧
    (s.LetIn 0x41 4 r d → (s.mc.lcRet ≠ 7 ∨ s.mc.life = 3) → ∀ l b, 1 ≤ l → l ≤ 3 → d = leBytes 1 l ++ leBytes 7 0 ++ b →
      let cell := dbgCell s.mc.life l s.power
      (cell = 0 → Answers (.dbgOpen r) s 3 [] fun u => u.mc.session = s.mc.session ∧ u.mc.dbgNonce = none) ∧
      (cell = 1 → b = [] → s.mc.session = none → Answers (.dbgOpen r) s 0 [] fun u => u.mc.session = some ⟨l, r.ch, none, s.now, []⟩ ∧
        u.rfld aSecStatus 5 4 = l ∧ u.rfld aSecStatus 10 8 = r.ch ∧ u.mc.dbgNonce = none ∧ u.mem = s.mem) ∧
      (2 ≤ cell → b.length = 352 → s.mc.session = none → Runs (.dbgOpen r) s fun u => u.mc.dbgNonce = none ∧
        if s.certOk l (b.take 256) (b.drop 256) = true then
          u.mc.resp = (0, []) ∧ u.mc.session = some ⟨l, r.ch, some (bytesLe b 24 8), s.now, []⟩ ∧ (cell = 3 → s.ctxs = [] → ∀ p, p < 2 → ∀ a,
            lsBase (pairNo p) + s.secretBase p ≤ a → a < lsBase (pairNo p) + min 32768 (s.secretBase p + s.secretSize p) → u.byte a = 0)
        else u.mc.resp = (3, []) ∧ u.mc.session = none ∧ u.mem = s.mem) ∧
      (1 ≤ cell → s.mc.session.isSome = true → b.length = (if cell = 1 then 0 else 352) → Answers (.dbgOpen r) s 7 [] fun u => u.mc.session = s.mc.session)) ∧
    (s.LetIn 0x41 4 r d → s.mc.lcRet = 7 → s.mc.life ≠ 3 → ∀ l b, 1 ≤ l → l ≤ 3 → d = leBytes 1 l ++ leBytes 7 0 ++ b →
      Answers (.dbgOpen r) s 3 [] fun u => u.mc.session = s.mc.session) ∧
    (s.LetIn 0x42 4 r d → d = [] →
      ((s.sessionOn r.ch).isSome = true → Answers (.dbgClose r) s 0 [] fun u => u.mc.session = none ∧ u.mc.trace = none) ∧
      ((s.sessionOn r.ch).isSome = false → Answers (.dbgClose r) s 7 [] fun u => u.mc.session = s.mc.session)) ∧
    (s.LetIn 0x44 4 r d → r.ch = 1 → (s.sessionOn 1).isSome = true → ∀ v, v ≤ 4 →
      (d = leBytes 1 1 ++ leBytes 1 v ++ leBytes 6 0 → Answers (.traceStart r) s 0 [] fun u => u.mc.trace = some (v, 0)) ∧
      (d = leBytes 1 0 ++ leBytes 1 v ++ leBytes 6 0 → Answers (.traceStop r) s 0 [] fun u => u.mc.trace = none))) ∧
  (∀ (s : State) (x : Session), s.mc.session = some x → Runs .debugSessionTimeout s fun u => u.mc.session = none ∧ u.mc.trace = none ∧
    u.rfld aSecStatus 5 4 = 0 ∧ (∀ n ∈ x.halted, (u.pe n).halt = .run) ∧ u.mem = s.mem)

/-- DBG_OP within a session on its channel (R482, R483): HALT, STEP and RESUME of a PE in reach, and words of a local store read and written; without a session every
operation is refused. -/
def Obligations.DebugOperations : Prop :=
  ∀ (s : State) (r : McReq) (d : List Byte), s.LetIn 0x43 4 r d →
    let pe (o n : Nat) : List Byte := leBytes 1 o ++ leBytes 1 0 ++ leBytes 2 n ++ leBytes 12 0
    let mem (o a : Nat) : List Byte := leBytes 1 o ++ leBytes 3 0 ++ leBytes 4 8 ++ leBytes 6 a ++ leBytes 2 0
    (s.sessionOn r.ch = none →
      (∀ n, n < 276 → ∀ e ∈ [(1, Instr.dbgHalt r), (2, .dbgStep r), (3, .dbgResume r)], d = pe e.1 n → Answers e.2 s 3 [] fun u => u.pes = s.pes) ∧
      (∀ a, a < 2 ^ 48 → a % 8 = 0 → d = mem 4 a → Answers (.dbgMemRead r) s 3 [] fun u => u.mem = s.mem)) ∧
    (∀ x, s.sessionOn r.ch = some x → 2 ≤ x.level →
      (∀ n, s.peReach n = true →
        (d = pe 1 n → (s.pe n).halt = .run → Answers (.dbgHalt r) s 0 [] fun u => (u.pe n).halt = .requested ∧ (u.pe n).useq.haltTrap = true ∧
          u.mc.session = some { x with used := s.now, halted := x.halted ++ [pairPe n] } ∧ u.mem = s.mem) ∧
        (d = pe 2 n →
          ((s.pe n).halt = .halted → Answers (.dbgStep r) s 0 [] fun u => (u.pe n).halt = .step ∧ u.mem = s.mem) ∧
          ((s.pe n).halt = .run → Answers (.dbgStep r) s 7 [] fun u => u.pes = s.pes)) ∧
        (d = pe 3 n → Answers (.dbgResume r) s 0 [] fun u => (u.pe n).halt = .run ∧ (u.pe n).useq.haltTrap = false ∧ u.mem = s.mem)) ∧
      (∀ n o, n < 272 → s.peReach n = true → o % 8 = 0 → o < lsBytes n →
        let a := lsBase n + o
        (d = mem 4 a → s.eccAt a = .ok → Answers (.dbgMemRead r) s 0 (leBytes 8 (s.word a).toNat) fun u => u.mem = s.mem) ∧
        (∀ v : Word, d = mem 5 a ++ leBytes 8 v.toNat → Answers (.dbgMemWrite r) s 0 [] fun u => u.word a = v ∧
          ∀ b, b < a ∨ a + 8 ≤ b → u.byte b = s.byte b)))

/-- Every register but a holds what it held, and so do the memories and contexts. -/
def Sys2Proof.Machine.OnlyReg (s u : State) (a : Nat) : Prop :=
  (∀ b, b ≠ a → u.reg b = s.reg b) ∧ u.mem = s.mem ∧ u.imem = s.imem ∧ u.ctxs = s.ctxs ∧ u.pes = s.pes

/-- Services of the management controller and its pins: the watchdog's restart, the random number generator, PMBus words, JTAG instructions, ARP and ICMP, and the
windows of the command mailbox (R452, R453, R456, R461, R478). -/
def Obligations.ControllerServices : Prop :=
  (∀ s : State,
    (s.mc.up = true → s.mc.graph = none → bitAt (s.reg (aMcDcq 0)) 62 = false → Runs .mcWatchdogRestart s fun u => u.mc.session = none ∧ u.mc.update = none ∧ u.mc.windows = [] ∧ u.mc.lcNonce = none ∧
      u.mc.dbgNonce = none ∧ u.mc.trace = none ∧ s.now + 54000000 ≤ u.now ∧ u.ejectQ 67 = [] ∧ u.mem = s.mem) ∧
    (s.mc.up = true → s.mc.rngOk = true → Runs .rngFail s fun u => u.mc.rngOk = false ∧ u.regs = s.regs) ∧
    (s.mc.up = true → Runs (.rngRetest true) s (fun u => u.mc.rngOk = true ∧ u.regs = s.regs) ∧ exec (.rngRetest false) s = .next s) ∧
    (s.mc.up = true → ∀ e ∈ ([(Instr.pmbusReadVin, Config.linear11 (max (s.inMv 0) (s.inMv 1))), (.pmbusReadIin, Config.linear11 (s.inMa 0 + s.inMa 1)),
        (.pmbusReadPin, Config.linear11 ((s.inMv 0 * s.inMa 0 + s.inMv 1 * s.inMa 1) / 1000)),
        (.pmbusReadTemperature1, Config.linear11 (Config.pmbusTemp ((List.range 24).map (fun i => s.reg (aMcTemp i))))),
        (.pmbusStatusWord, Config.statusWord [s.reg aPwStatus, s.reg aPwState])] : List (Instr × BitVec 16)),
      Runs e.1 s fun u => u.mc.pmbus = e.2.toNat ∧ u.regs = s.regs ∧ u.mem = s.mem) ∧
    (s.powered = true →
      Runs .jtagBypass s (fun u => u.mc.tap = 0 ∧ u.mem = s.mem) ∧
      Runs .jtagIdcode s (fun u => u.mc.tap = 1 ∧ u.rdata = [s.reg aSecIdcode]) ∧
      (∀ v, Runs (.jtagSamplePreload v) s fun u => u.mc.tap = 2 ∧ u.mc.scan = v ∧ u.rdata = [BitVec.ofNat 64 (Config.boundary s.free)]) ∧
      (∀ x, s.mc.session = some x →
        (x.level = 3 → Runs .jtagExtest s fun u => u.mc.tap = 3 ∧ u.rfld aSafeOut 23 16 = Config.boundarySafe s.mc.scan % 256) ∧
        (x.level ≠ 3 → Runs .jtagExtest s fun u => u.mc.tap = 0))) ∧
    (s.powered = true → ∀ f : List Byte,
      let good : Prop := 4 ≤ f.length ∧ f.length ≤ 1522 ∧ leNat (f.drop (f.length - 4)) = crc32 (f.take (f.length - 4))
      (s.mc.up = true → good → Runs (.arpIcmpEcho f) s fun u => u.mc.resp = (0, Config.netAnswer (f.take (f.length - 4))) ∧ u.regs = s.regs) ∧
      (¬good → f.length ≤ 16384 → Runs (.arpIcmpEcho f) s fun u => u.mc = s.mc ∧
        u.rfld (aMcDcq 2) 15 0 = min 65535 (s.rfld (aMcDcq 2) 15 0 + 1) ∧ OnlyReg s u (aMcDcq 2))) ∧
    (s.powered = false → ∀ f, exec (.arpIcmpEcho f) s = .next s)) ∧
  (∀ (s : State) (ep : Nat) (w : MbWin), s.window ep = some w → w.busy = false →
    (s.mc.up = true → Runs (.mbDoorbell ep) s fun u => ∃ x, u.window ep = some x ∧ x.req = w.req ∧
      (if knownOp (leNat (w.bytes 0 2)) = true then x.busy = true ∧ x.done = false else x.busy = false ∧ x.done = true ∧ x.status = 2)) ∧
    ((∀ x ∈ s.mc.windows, x.ep = ep → x.busy = false) → Runs (.mailboxWindowRelease ep) s fun u => u.window ep = none ∧
      ∀ e, e ≠ ep → u.window e = s.window e)) ∧
  (∀ (s : State) (ep : Nat) (w : MbWin), s.window ep = some w → w.busy = true → exec (.mbDoorbell ep) s = .next s)

/-! Registers (R5 to R7, R109, R424, R512 to R523). -/

/-- Register accesses by the controller: a write sets the fields it may write, a locked field keeps its value and the write is reported, nothing
stands where no register is; a read of an RCL field clears it; an event of the same cycle is kept (R6); lock bits; selectors; error injection; groups
of statistics clear together. -/
def Obligations.RegisterCommands : Prop :=
  ∀ s : State,
    (∀ a v, (regSpec (canonReg a)).isNone = true → exec (.registerWrite ⟨a, 0⟩ v) s = .next s) ∧
    (∀ v : Word, 10 ≤ fld v 15 0 →
      (bitAt (s.reg aMcLock) 0 = false → Runs (.registerWrite ⟨aDbgCfg, 0⟩ v) s fun u => u.rfld aDbgCfg 15 0 = fld v 15 0 ∧ OnlyReg s u aDbgCfg) ∧
      (bitAt (s.reg aMcLock) 0 = true → fld v 15 0 ≠ s.rfld aDbgCfg 15 0 → Runs (.registerWrite ⟨aDbgCfg, 0⟩ v) s fun u => OnlyReg s u aMcEvt ∧
        Rejected u aDbgCfg)) ∧
    (∀ p (v : Word), p < 16 →
      (s.power ≠ 2 → Runs (.registerWrite ⟨(aTsAdj p), 0⟩ v) s fun u => u.rfld (aTsAdj p) 15 0 = fld v 15 0 ∧ OnlyReg s u (aTsAdj p)) ∧
      (s.power = 2 → Runs (.registerWrite ⟨(aTsAdj p), 0⟩ v) s fun u => OnlyReg s u aMcEvt ∧ Rejected u (aTsAdj p))) ∧
    (∀ i, i < 24 → Runs (.rclRead ⟨(aMcTemp i), 0⟩) s fun u => u.rdata = [s.reg (aMcTemp i)] ∧ u.rfld (aMcTemp i) 31 16 = 0x8000 ∧
      u.rfld (aMcTemp i) 15 0 = s.rfld (aMcTemp i) 15 0 ∧ OnlyReg s u (aMcTemp i)) ∧
    (∀ v hw : Word, bitAt hw 63 = true → Runs (.registerWrite ⟨aMcEvt, hw⟩ v) s fun u => bitAt (u.reg aMcEvt) 63 = true ∧ OnlyReg s u aMcEvt) ∧
    (∀ i (hw : Word), i < 24 → Runs (.rclRead ⟨(aMcTemp i), hw⟩) s fun u => u.rdata = [s.reg (aMcTemp i)] ∧
      ∀ k, 16 ≤ k → k < 32 → bitAt hw k = true → bitAt (u.reg (aMcTemp i)) k = true) ∧
    (∀ a ∈ [aHbLock, aMcLock, aPwLock], Runs (.lockBitSet a) s (fun u => bitAt (u.reg a) 0 = true ∧ OnlyReg s u a) ∧
      Runs (.lockBitUnlock a) s (fun u => bitAt (u.reg a) 0 = false ∧ OnlyReg s u a)) ∧
    (∀ c, c < 64 → s.dieOn c = true →
      (s.mc.graph = none → Runs (.lockBitUnlock (aClLock c)) s fun u => bitAt (u.reg (aClLock c)) 0 = false) ∧
      (s.mc.graph.isSome = true → exec (.lockBitUnlock (aClLock c)) s = .next s)) ∧
    (let zero (c : Instr) (lo hi : Nat) : Prop := Runs c s fun u => (∀ a, lo ≤ a → a < hi → u.reg a = regReset a) ∧ u.mem = s.mem ∧ u.ctxs = s.ctxs ∧ u.pes = s.pes
     (∀ n, n < 272 → s.dieOn (peCluster n) = true → s.clState (peCluster n) ≤ 1 → zero (.peStatCtlClr n) (peStats n) (peStats n + 0x200)) ∧
     (∀ c, c < 64 → s.dieOn c = true → s.clState c ≤ 1 →
       zero (.aeStatCtlClr c) (clBlock c + 0x610) (clBlock c + 0x620) ∧ zero (.scCtlClr c) (clBlock c + 0x1D00) (clBlock c + 0x1D48) ∧
       zero (.niStatCtlClr c) (clBlock c + 0x1A00) (clBlock c + 0x1B20) ∧ zero (.rtStatCtlClr c) (clBlock c + 0x1C00) (clBlock c + 0x1CB8)) ∧
     (∀ h, h < 4 → zero (.mmCtlClr h) (aMmCtl h + 0x10) (aMmCtl h + 0x40)) ∧
     (∀ p, p < 16 → s.power ≠ 2 → zero (.ptStatCtlClr p) (ptBlock p + 0x100) (ptBlock p + 0x178) ∧
       Runs (.statOvfClear (aPtStatCtl p)) s fun u => u.rfld (aPtStatCtl p) 1 1 = 0 ∧ OnlyReg s u (aPtStatCtl p)) ∧
     zero .lkStatCtlClr (lkBlock + 0x20) (lkBlock + 0x58)) ∧
    (∀ e, Runs (.hbPstatSelWrite e) s fun u => u.rfld aPstatSel 12 0 = e % 8192 ∧ (bitAt (u.reg aPstatSel) 63 = true ↔ 256 ≤ e % 8192 ∧ e % 8192 ≤ 4351) ∧
      OnlyReg s u aPstatSel) ∧
    (∀ d, d < 128 → Runs (.tbDomSelWrite d) s fun u => u.rfld aDomSel 6 0 = d ∧ (bitAt (u.reg aDomSel) 63 = true ↔ d ≠ 92 ∧ d < 94) ∧ OnlyReg s u aDomSel) ∧
    (∀ n, n < 1024 → Runs (.lkSelWrite n) s fun u => u.rfld aLkSel 9 0 = n ∧ bitAt (u.reg aLkSel) 63 = true ∧ OnlyReg s u aLkSel) ∧
    Runs .mcEvtClear s (fun u => bitAt (u.reg aMcEvt) 63 = false ∧ u.rfld aMcEvt 55 48 = 0 ∧ OnlyReg s u aMcEvt) ∧
    (∀ n, 256 ≤ n → n < 272 → s.dieOn (peCluster n) = true → s.clState (peCluster n) ≤ 1 →
      (∀ m, s.act n = none → Runs (.peLaccUnbind n m) s fun u => u.regs = s.regs ∧ ∀ k, k < 4 → u.lacc n k = if m.testBit k then Lacc.init else s.lacc n k) ∧
      (∀ k, k < 4 → Runs (.peLaccInjectArm n k) s fun u => bitAt (u.reg (aLaccInject n)) 0 = true ∧ u.rfld (aLaccInject n) 2 1 = k ∧ OnlyReg s u (aLaccInject n))) ∧
    (∀ n k, n < 272 → s.dieOn (peCluster n) = true → s.clState (peCluster n) ≤ 1 →
      (k < 6 → Runs (.peResInjectArm n k) s fun u => bitAt (u.reg (aPeResInject n)) 0 = true ∧ u.rfld (aPeResInject n) 3 1 = k ∧ OnlyReg s u (aPeResInject n)) ∧
      (6 ≤ k → k < 8 → exec (.peResInjectArm n k) s = .next s)) ∧
    (∀ c k, c < 64 → k < 2 → s.dieOn c = true → s.clState c ≤ 1 → Runs (.aeResInjectArm c k) s fun u => bitAt (u.reg (aAeResInject c)) 0 = true ∧
      u.rfld (aAeResInject c) 3 1 = k ∧ OnlyReg s u (aAeResInject c))

/-! Power, clocks and sensors (R489 to R509, R528 to R551), and the upkeep of memories (R274, R278 to R291). -/

/-- Cluster power: the states that requests lead to, FREEWHEEL and its wakes, the commit point of a power-down with and without SAVE, what a wake
restores, and tokens parked for a cluster that is off. -/
def Obligations.ClusterPower : Prop :=
  (∀ (s : State) (c : Nat), c < 64 →
    let now (u : State) (v g : Nat) : Prop := u.clState c = v ∧ u.goal c = g ∧ u.mem = s.mem ∧ u.imem = s.imem ∧ u.pes = s.pes ∧ u.ctxs = s.ctxs
    let saved (u : State) : Prop := ∀ o, o < 0x80000 → u.byte (s.saveArea c + o) = s.byte (scrBase c + o)
    (s.clState c ≤ 1 → Runs (.clusterReqActive c) s (fun u => now u (s.clState c) 0 ∧ u.rfld (aPwrCtl c) 1 0 = 0) ∧
      Runs (.clusterReqFreewheel c) s fun u => now u (s.clState c) 5 ∧ u.rfld (aPwrCtl c) 1 0 = 1) ∧
    (s.clState c = 2 → Runs (.clusterReqActive c) s fun u => now u 0 0) ∧
    (s.clState c ≤ 2 →
      (s.shift.busy = true → Runs (.clusterReqOff c) s fun u => now u (s.clState c) 1 ∧ u.rfld (aPwrCtl c) 1 0 = 2) ∧
      (s.shift.busy = false → s.pw.goal = [] → Runs (.clusterReqOff c) s fun u => u.clState c = 4 ∧ u.goal c = 2 ∧ u.mem = s.mem)) ∧
    (s.clState c = 4 → s.shift.busy = true → Runs (.clusterReqActive c) s fun u => u.clState c = 5 ∧ u.goal c = 3 ∧ u.mem = s.mem ∧ u.imem = s.imem ∧
      u.ctxs = s.ctxs ∧ ∀ n, (u.pe n).recs = (s.pe n).recs ∧ (u.pe n).ready = (s.pe n).ready ∧
        (n ∈ clusterPes c → ∀ x, (u.pe n).useq.running = some x → x.kind ≠ .bulkSpill)) ∧
    (s.clState c = 3 → s.shift.busy = true → (∀ a, s.eccAt a ≠ .ue) → Memory.wf s.mem = true → s.saveArea c + 0x100000 ≤ scrBase 0 →
      (∀ o, o < 0x80000 → s.byte (scrBase c + o) = 0) → Runs (.clusterReqActive c) s fun u => u.clState c = 5 ∧ u.goal c = 3 ∧
        (bitAt (s.reg (aPwrStatus c)) 60 = true → bitAt (u.reg (aPwrStatus c)) 60 = false ∧
          ∀ o, o < 0x80000 → u.byte (scrBase c + o) = s.byte (s.saveArea c + o)) ∧
        (bitAt (s.reg (aPwrStatus c)) 60 = false → u.mem = s.mem)) ∧
    (s.clState c ≤ 1 → s.quiescent c = true →
      (s.goal c = 5 → Runs (.freewheelEntry c) s fun u => now u 2 0) ∧
      (s.goal c = 6 → bitAt (s.reg (aPwrCtl c)) 3 = true → Runs (.freewheelAutoReturn c) s fun u => now u 2 0)) ∧
    (s.quiescent c = false → exec (.freewheelEntry c) s = .next s) ∧
    (s.clState c = 2 → s.ejectQ c ≠ [] → Runs (.freewheelWake c) s fun u => now u 0 6 ∧
      u.rfld (aPwrStatus c) 15 0 = min 65535 (s.rfld (aPwrStatus c) 15 0 + 1)) ∧
    (s.mc.graph = none →
      (s.drained c = false → exec (.fenceDone c) s = .next s) ∧
      (s.goal c = 2 → s.clState c = 4 → s.shift.busy = false → s.drained c = true → s.spillFits c = true →
        s.pressure = false → Memory.wf s.mem = true → s.saveArea c + 0x100000 ≤ scrBase 0 → Runs (.fenceDone c) s fun u => u.clState c = 3 ∧ u.goal c = 0 ∧
          u.rfld (aPwrStatus c) 31 16 = min 65535 (s.rfld (aPwrStatus c) 31 16 + 1) ∧ (∀ o, o < 0x80000 → u.byte (scrBase c + o) = 0) ∧
          (∀ n ∈ clusterPes c, ∀ w, w < 16384 → u.imemAt n w = 0) ∧ (bitAt (s.reg (aPwrCtl c)) 2 = true → saved u)))) ∧
  (∀ (s : State) (p : Packet) (r : List Packet), s.reqAt 66 = p :: r → p.opc = .token → p.dest < 64 →
    let off := bitAt (s.reg (aNiOff 66 (s.activeBank 66))) p.dest
    (off = true → s.auxRoom p.dest .bounce 32 = true → s.pressure = false → Runs .offTokenPark s fun u => u.reqAt 66 = r ∧ Tbl.get [] u.parked p.dest = Tbl.get [] s.parked p.dest ++ [p] ∧ u.nis = s.nis) ∧
    (off = true → s.auxRoom p.dest .bounce 32 = false → exec .offTokenPark s = .next s) ∧
    (off = false → Runs .offTokenPark s fun u => u.reqAt 66 = r ∧ u.parked = s.parked ∧
      ∃ m, (u.ni 66).outQ = (s.ni 66).outQ ++ [m] ∧ m.dest = p.dest ∧ m.opc = .token ∧ m.body = p.body))

/-- Power of the module: the inputs and what PW_STATUS shows of them, soft start, causes of kickstand entry and exits without a command, the begin of an orderly
shutdown, a module reset of a module without firmware, and the repair records. -/
def Obligations.ModulePower : Prop :=
  ∀ (s : State),
    let calm : Prop := s.rfld aPwState 61 61 = 0
    let kicked (u : State) (cause : Nat) : Prop := u.power = 1 ∧ u.rfld aPwState 51 48 = 0 ∧ u.reg aKsCause = BitVec.ofNat 64 cause ∧ u.mc.kickN = true ∧
      u.mc.pwrGood = false ∧ ∀ a, u.byte a = if dieAddr a then 0 else s.byte a
    let exits (bit : Nat) : Prop := s.power = 1 ∧ s.rfld aPwState 61 61 = 0 ∧ bitAt (s.reg aKsCfg) 0 = true ∧ bitAt (s.reg aKsCfg) 1 = false ∧
      bitAt (s.reg aKsCause) bit = true ∧ s.mc.repairs = [] ∧ s.mc.unrecorded = []
    let left (u : State) : Prop := u.power = 0 ∧ u.rfld aPwState 51 48 = 15 ∧ u.mc.kickN = false ∧ u.mc.pwrGood = true ∧ s.now + 120000000 ≤ u.now
    let down (u : State) : Prop := u.rfld aPwState 61 61 = 1 ∧ u.mc.pwrGood = false ∧ u.mc.update = none ∧ u.pairState 0 = 0 ∧ u.pairState 1 = 0 ∧ u.rfld aPwState 51 48 = 0
    (∀ a b, 8500 ≤ max a b →
      (s.powered = false → Runs (.vinRise a b) s fun u => u.pw.soft = true ∧ u.now = 0 ∧ u.pw.vinA = a ∧ u.pw.vinB = b ∧
        u.rfld aPwStatus 5 4 = if a ≤ b + 200 ∧ b ≤ a + 200 then 3 else if b < a then 1 else 2) ∧
      (s.powered = true → exec (.vinRise a b) s = .next s)) ∧
    (s.pw.soft = true → Runs .vinSoftStartAbort s fun u => u.pw.soft = false ∧ u.regs = [] ∧ u.mem = [] ∧ u.mc.flash = s.mc.flash ∧ u.mc.up = false) ∧
    (s.pw.soft = false → exec .vinSoftStartAbort s = .next s) ∧
    (s.powered = true →
      (∀ v, v < 9000 →
        (9000 ≤ s.pw.vinB → Runs (.vinLost 0 v) s fun u => u.pw.vinA = v ∧ u.pw.vinB = s.pw.vinB ∧ u.rfld aPwStatus 2 2 = 0 ∧ u.rfld aPwStatus 3 3 = 1 ∧ u.power = s.power) ∧
        (9000 ≤ s.pw.vinA → Runs (.vinLost 1 v) s fun u => u.pw.vinB = v ∧ u.pw.vinA = s.pw.vinA ∧ u.rfld aPwStatus 3 3 = 0 ∧ u.rfld aPwStatus 2 2 = 1 ∧ u.power = s.power)) ∧
      (∀ v, 9000 ≤ v → Runs (.vinInputOk 0 v) s (fun u => u.pw.vinA = v ∧ u.rfld aPwStatus 2 2 = 1) ∧ Runs (.vinInputOk 1 v) s (fun u => u.pw.vinB = v ∧ u.rfld aPwStatus 3 3 = 1)) ∧
      (∀ a b, max a b < 9000 → s.power = 0 → calm → Runs (.vinDip a b) s fun u => kicked u 1) ∧
      (∀ a b, 9500 ≤ max a b →
        (exits 0 → Runs (.vinRecover a b) s left) ∧
        (bitAt (s.reg aKsCfg) 0 = false → Runs (.vinRecover a b) s fun u => u.power = s.power ∧ u.mem = s.mem)) ∧
      (calm → s.pw.soft = false → (∀ a b, max a b < 7000 → Runs (.vinUndervolt a b) s fun u => down u ∧ u.pw.vinA = a ∧ u.pw.vinB = b) ∧
        Runs .holdupFail s fun u => down u ∧ u.rfld aPwStatus 6 6 = 1) ∧
      (∀ b, Runs (.holdupCharged b) s fun u => u.rfld aPwStatus 7 7 = b.toNat ∧ OnlyReg s u aPwStatus) ∧
      (calm → s.pw.soft = false → s.imgAbsent 1 1 = true → s.imgAbsent 1 2 = true → Runs .resetNAssert s fun u => u.mc.up = false ∧ u.power = 2 ∧
        u.rfld aPwState 39 32 = 2 ∧ u.mem = [] ∧ u.ctxs = [] ∧ u.pes = [] ∧ u.mc.flash = s.mc.flash ∧ u.mc.graph = none ∧ u.ev.ring = s.ev.ring)) ∧
    (s.mc.up = true → Runs .vinSurge s fun u => u.regs = s.regs ∧ ∃ x ∈ Tbl.get [] u.coll 5, x.code = .vinSurge ∧ x.sev = .corrected) ∧
    (s.power = 0 → calm → ∀ d, d < 4 → bitAt (s.reg aPwState) (48 + d) = true → Runs (.dieFault d) s fun u => kicked u (256 * 2 ^ d + 8)) ∧
    ((∀ i ∈ [20, 21, 22, 23], bitAt (s.reg (aMcTemp i)) 63 = true ∧ sx16 (s.rfld (aMcTemp i) 15 0) ≤ 1840) → exits 1 → Runs .kickstandAutoexitTemp s left) ∧
    (s.mc.up = true → s.mc.unrecorded ≠ [] → Runs .repairRecordUpdate s fun u => u.mc.repairs = s.mc.repairs ++ s.mc.unrecorded ∧ u.mc.unrecorded = [] ∧ u.mem = s.mem) ∧
    (s.mc.unrecorded = [] → exec .repairRecordUpdate s = .next s)

/-- Sensors, the thermal governor, aging guardbands and the time inputs. -/
def Obligations.Sensing : Prop :=
  ∀ (s : State),
    (∀ i v w, i < 24 → Runs (.sensorSample 0 i true v w) s (fun u => bitAt (u.reg (aMcTemp i)) 63 = true ∧ u.rfld (aMcTemp i) 15 0 = v % 65536 ∧
        u.rfld (aMcTemp i) 31 16 = (if sx16 (s.rfld (aMcTemp i) 31 16) < sx16 v then v % 65536 else s.rfld (aMcTemp i) 31 16) ∧ OnlyReg s u (aMcTemp i)) ∧
      Runs (.sensorSample 0 i false v w) s fun u => bitAt (u.reg (aMcTemp i)) 63 = false ∧ u.rfld (aMcTemp i) 62 0 = s.rfld (aMcTemp i) 62 0) ∧
    (∀ i v w, i < 22 → Runs (.sensorSample 1 i true v w) s fun u => bitAt (u.reg (aMcVmon i)) 63 = true ∧ u.rfld (aMcVmon i) 15 0 = v % 65536 ∧
      u.rfld (aMcVmon i) 47 32 = w % 65536 ∧ OnlyReg s u (aMcVmon i)) ∧
    (∀ i v w, i < 72 → let f := s.rfld (aMcAge i) 47 32
      f ≠ 0 → Runs (.sensorSample 2 i true v w) s fun u => bitAt (u.reg (aMcAge i)) 63 = true ∧ u.rfld (aMcAge i) 15 0 = v % 65536 ∧
        u.rfld (aMcAge i) 31 16 = min 65535 ((f - v % 65536) * 1000000 / f) ∧ OnlyReg s u (aMcAge i)) ∧
    (Runs .thermalGovernorTick s fun u => u.regs = s.regs ∧ ∀ c, c < 64 →
      let old := Tbl.get 0 s.pw.drop c
      let drop := Tbl.get 0 u.pw.drop c
      let want := if s.junctions (clDie c) = [] then 560000 else nextDrop (hottest (s.junctions (clDie c))) old
      if s.dieOn c = false then drop = old
      else if (List.range 4).any (fun h => s.rfld (aMmStatus h) 3 2 == 3) then ∃ k, drop = min 1050000 (want + 1 + k) else drop = want) ∧
    (∀ t, nextDrop t 0 = (if t ≤ 1760 then 0 else if t ≤ 2176 then ((t - 1760) * 21540 / 16).toNat else 50000) ∧ ∀ n, n ≤ 1050000 → nextDrop t n ≤ 1050000) ∧
    (∀ d t, d < 4 → s.power = 0 → s.rfld aPwState 61 61 = 0 → t ∈ s.junctions d → 2240 < t → (∀ c ∈ dieClusters d, Tbl.get 0 s.pw.drop c = 1050000) →
      Runs (.thermalKickstand d) s fun u => u.power = 1 ∧ u.reg aKsCause = 2 ∧ u.rfld aPwState 51 48 = 0) ∧
    (Runs (.agingGuardbandUpdate []) s fun u => ∀ d, d < 5 →
      let l := (monitorsOf d).filter (fun m => bitAt (s.reg (aMcAge m)) 63 && !s.pw.ageLost.contains m)
      let g := Tbl.get 0 s.pw.guard d
      let h := Tbl.get 0 u.pw.guard d
      h ≤ g + 2000 ∧ g ≤ h + 2000 ∧ (g ≤ 60000 → h ≤ 60000) ∧
        (s.pw.ageLost = [] → h = if l = [] then g else nextGuard g (l.foldl (fun x m => max x (s.rfld (aMcAge m) 31 16)) 0))) ∧
    (s.pw.refOk = true → s.mc.up = true → Runs .refclkLost s fun u => u.pw.refOk = false ∧ u.pw.holdover = true ∧ u.regs = s.regs) ∧
    (Runs .refclkRestored s fun u => u.pw.refOk = true ∧ u.pw.holdover = false ∧ u.regs = s.regs) ∧
    (∀ e : Int, (-100 ≤ e → e ≤ 100 → Runs (.ppsEdge e) s fun u => u.pw.ppsRun = s.pw.ppsRun + 1 ∧ u.pw.ppsAt = s.now ∧
        bitAt (u.reg aTbStatus) 63 = (decide (7 ≤ s.pw.ppsRun) || bitAt (s.reg aTbStatus) 63)) ∧
      (e < -1000 ∨ 1000 < e → Runs (.ppsEdge e) s fun u => u.pw.ppsRun = 0 ∧ bitAt (u.reg aTbStatus) 63 = false)) ∧
    (Runs .ppsLockLost s fun u => bitAt (u.reg aTbStatus) 63 = false ∧ u.pw.ppsRun = 0 ∧ OnlyReg s u aTbStatus) ∧
    (∀ b, Runs (.refLockChange b) s (fun u => bitAt (u.reg aTbStatus) 62 = b ∧ OnlyReg s u aTbStatus) ∧ Runs (.ppsOutEdge b) s fun u => u.pw.ppsOut = b ∧ u.regs = s.regs)

/-- Scrubbing corrects a single error and leaves the contents; the background test borrows a segment and gives it back, with a spare for a failing
row; idle banks are retained; refresh and initialisation of module memory. -/
def Obligations.ScratchUpkeep : Prop :=
  (∀ (s : State) (a : Nat), a % 8 = 0 → s.eccAt a = .ce →
    (a < 28 * 2 ^ 30 → bitAt (s.reg aScrubCtl) 0 = true → Runs (.patrolScrub a 0) s fun u => u.eccAt a = .ok ∧ u.mem = s.mem ∧
      (∀ b, b % 8 = 0 → b ≠ a → u.eccAt b = s.eccAt b) ∧ Logged u (srcOf (87 + channelOf a) (channelOf a)) .memCe .corrected (BitVec.ofNat 64 a)) ∧
    (∀ c o, c < 64 → o < 0x80000 → a = scrBase c + o → Runs (.patrolScrub a 0) s fun u => u.eccAt a = .ok ∧ u.mem = s.mem ∧
      Logged u (bankSrc c a) .scCe .corrected (BitVec.ofNat 64 a)) ∧
    (∀ n o, n < 276 → o < lsBytes n → a = lsBase n + o → Runs (.patrolScrub a 0) s fun u => u.eccAt a = .ok ∧ u.mem = s.mem ∧
      Logged u (peEndpoint n) .lsCe .corrected (BitVec.ofNat 64 a))) ∧
  (∀ (s : State) (c : Nat), c < 64 →
    let st := aScTestStatus c
    (∀ g, bitAt (s.reg (aScTestCtl c)) 0 = true → (s.test c).borrow = none → s.clState c ≤ 1 → s.nextSeg c = some g → (∀ a, s.eccAt a ≠ .ue) → Runs (.bgTestSegmentStart c) s fun u =>
      (u.test c).borrow = some g ∧ u.rfld st 40 40 = 1 ∧ u.rfld st 36 34 = 2 ∧ u.rfld st 24 16 = g % 512 ∧ u.mem = s.mem ∧ s.testable c g = true) ∧
    (bitAt (s.reg (aScTestCtl c)) 0 = false ∨ (s.test c).borrow.isSome = true → exec (.bgTestSegmentStart c) s = .next s) ∧
    (∀ g, (s.test c).borrow = some g →
      Runs (.bgTestRelease c 0) s (fun u => (u.test c).borrow = none ∧ u.rfld st 40 40 = 0 ∧ u.rfld st 36 34 = 0 ∧ u.rfld st 15 0 = s.rfld st 15 0 ∧
        u.mem = s.mem ∧ u.mc.unrecorded = s.mc.unrecorded) ∧
      (∀ k, k < 4 → g < 512 →
        let n := s.rfld (aScRepair c) (4 * (g / 32) + 3) (4 * (g / 32))
        n < 8 → Runs (.bgTestRelease c (2 ^ k)) s fun u => (u.test c).borrow = none ∧
          u.rfld (aScRepair c) (4 * (g / 32) + 3) (4 * (g / 32)) = n + 1 ∧ u.rfld st 15 0 = min 65535 (s.rfld st 15 0 + 1) ∧
          ∃ w, u.mc.unrecorded = s.mc.unrecorded ++ [w] ∧ fld w 63 60 = 1 ∧ fld w 59 51 = c ∧ fld w 50 47 = g / 32 ∧ fld w 46 37 = g % 32 * 4 + k ∧
            fld w 36 34 = n)) ∧
    (∀ b, b < 16 → bitAt (s.reg (aScRet c)) b = true →
      (s.bankIdle c b = true → Runs (.bankRetentionEntry c b) s fun u => u.retained c b = true ∧ OnlyReg s u (aScRet c) ∧
        ∀ k, k < 16 → k ≠ b → u.retained c k = s.retained c k) ∧
      (s.bankIdle c b = false → exec (.bankRetentionEntry c b) s = .next s)) ∧
    (∀ v : Word, (fld v 31 16 = 0 → exec (.scRetMaskWrite c v) s = .next s) ∧
      (fld v 31 16 ≠ 0 → Runs (.scRetMaskWrite c v) s fun u => u.rfld (aScRet c) 31 16 = fld v 31 16 ∧ u.rfld (aScRet c) 15 0 = fld v 15 0 ∧
        OnlyReg s u (aScRet c) ∧ ∀ b, b < 16 → u.retained c b =
          if bitAt v b = true ∧ bitAt (s.reg (aScRet c)) b = false then s.retained c b || s.bankIdle c b
          else if bitAt v b = false ∧ bitAt (s.reg (aScRet c)) b = true ∧ s.clState c ≠ 2 then false else s.retained c b))) ∧
  (∀ (s : State) (h r : Nat), h < 4 → r < 4 → Runs (.refreshRateCheck h r) s (fun u => u.rfld (aMmStatus h) 3 2 = r ∧ OnlyReg s u (aMmStatus h)) ∧
    Runs (.mmInitDone h) s fun u => bitAt (u.reg (aMmInit h)) 63 = true ∧ OnlyReg s u (aMmInit h))

/-! The queue of commands and the module after reset. -/

/-- Some state follows every state whose waiting commands are well-formed: the front command leaves the queue, the rest waits on; the queue after
reset is well-formed. A command runs exactly when the units it names exist; any other is refused by name, and there is no fault. -/
def Obligations.StepsGoOn : Prop :=
  (State.reset.queueWf = true ∧ ∀ s : State, s.queueWf = true → ∃ t, step s = .next t ∧ t.pending = s.pending.tail ∧ t.queueWf = true) ∧
  (∀ (c : Instr) (s : State), (c.wf = true → ∃ t, exec c s = .next t ∧ t.pending = s.pending) ∧ (c.wf = false → ∃ w, exec c s = .refused (.noSuchUnit w)))

/-- Memory keeps its canonical form over every step, whatever command runs: addresses rise and no entry equals what an unlisted address reads as. -/
def Obligations.MemoryCanonical : Prop :=
  ∀ s t : State, Memory.wf s.mem = true → step s = .next t → Memory.wf t.mem = true

/-- On an empty queue (the model's choice, log 20): nothing happens, but for a soft start, which runs on into start-up, an orderly shutdown, which ends with the
power off, the flash and the fuses kept, and new routes once links have changed, whose shift begins. -/
def Obligations.EmptyQueueIdles : Prop :=
  ∀ s : State, s.pending = [] →
    (s.pw.soft = false → s.rfld aPwState 61 61 = 0 → s.rerouteDue = false → step s = .next s) ∧
    (s.pw.soft = false → s.rfld aPwState 61 61 = 0 → s.rerouteDue = true → ∃ t, step s = .next t ∧ t.mc.reroute = false ∧
      t.shift.epoch = (s.activeEpoch 68 + 1) % 16 ∧ t.activeEpoch 68 = (s.activeEpoch 68 + 1) % 16) ∧
    (s.pw.soft = false → s.rfld aPwState 61 61 = 1 → s.mc.unrecorded = [] → ∃ t, step s = .next t ∧ t.regs = [] ∧ t.mem = [] ∧ t.pes = [] ∧ t.ctxs = [] ∧
      t.mc.flash = s.mc.flash ∧ t.mc.minver = s.mc.minver ∧ t.mc.lcSec = s.mc.lcSec ∧ t.pw.refOk = s.pw.refOk) ∧
    (s.pw.soft = true → s.pw.late = [] → s.imgAbsent 1 1 = true → s.imgAbsent 1 2 = true → ∃ t, step s = .next t ∧ t.pw.soft = false ∧ t.mc.up = false ∧ t.power = s.power ∧
      t.rfld aPwState 39 32 = 1 ∧ t.mc.faultN = true ∧ 6000000 ≤ t.now)

/-- The module after reset (R5, R501, R514 to R520): registers at the values of their tables, STANDBY, no activation, context, lock, message or event, memory as
unlisted; a few registers' reset values are written out. -/
def Obligations.ResetValues : Prop :=
  let s := State.reset
  (∀ a, s.reg a = regReset a ∧ s.byte a = 0 ∧ s.eccAt a = .ok ∧ s.presAt a = .empty) ∧
  (∀ n, s.act n = none ∧ (s.pe n).inbox = [] ∧ (s.pe n).ready = [] ∧ (s.pe n).recs = [] ∧ (s.pe n).frames = [] ∧ (s.pe n).laccs = []) ∧
  (∀ k, (s.ctx k).state = .free) ∧ (∀ n, (s.lock n).holder = none ∧ (s.lock n).leaseUs = 10000) ∧ (∀ e, s.reqAt e = [] ∧ s.ejectQ e = [] ∧ (s.ni e).outQ = []) ∧
  s.power = 2 ∧ s.powered = false ∧ s.pending = [] ∧ s.mc.up = false ∧ Memory.wf s.mem = true ∧
  (∀ p, p < 16 → s.ptState p = 0 ∧ s.rfld (aPtCfg p) 63 48 = 100 ∧ s.rfld (aPtCfg p) 6 6 = 1 ∧ s.rfld (aPtOpen p) 31 16 = 350) ∧
  (∀ c, c < 64 → s.clState c = 0 ∧ s.rfld (aCredit c) 55 32 = 229344 ∧ s.rfld (aNiRspCfg c) 23 0 = 10000 ∧ s.rfld (aOvfSize c) 6 0 = 32) ∧
  s.rfld aDbgCfg 15 0 = 600 ∧ s.rfld aQuota 7 0 = 16 ∧ (∀ i, i < 24 → s.rfld (aMcTemp i) 31 16 = 0x8000)
end

