-- ==== Sys2Proof/Laws/Tbl.lean ====
section
/-! SUPPORT. Sparse tables: a read after a write gives the value written, a write leaves every other key alone, and a write keeps the
canonical form. The first two hold of any list. -/

namespace Sys2Proof.Machine

theorem Tbl.get_del_same {α : Type} (d : α) (t : Tbl α) (k : Nat) : Tbl.get d (Tbl.del t k) k = d := by
  induction t with
  | nil => rfl
  | cons e r ih =>
    obtain ⟨k', v⟩ := e
    unfold Tbl.del at *
    by_cases h : k' = k
    · simpa [h] using ih
    · simpa [h, Tbl.get, Ne.symm h] using ih

theorem Tbl.get_del_other {α : Type} (d : α) (t : Tbl α) {k j : Nat} (h : j ≠ k) :
    Tbl.get d (Tbl.del t k) j = Tbl.get d t j := by
  induction t with
  | nil => rfl
  | cons e r ih =>
    obtain ⟨k', v⟩ := e
    unfold Tbl.del at *
    by_cases h' : k' = k
    · subst h'; simpa [Tbl.get, h] using ih
    · by_cases hj : j = k' <;> simp_all [Tbl.get]

theorem Tbl.get_ins_same {α : Type} (d : α) (t : Tbl α) (k : Nat) (v : α) : Tbl.get d (Tbl.ins t k v) k = v := by
  induction t with
  | nil => simp [Tbl.ins, Tbl.get]
  | cons e r ih =>
    obtain ⟨k', w⟩ := e
    rcases Nat.lt_trichotomy k k' with h | h | h
    · simp [Tbl.ins, Tbl.get, h]
    · simp [Tbl.ins, Tbl.get, h]
    · have h1 : ¬ k < k' := by omega
      have h2 : k ≠ k' := by omega
      simpa [Tbl.ins, Tbl.get, h1, h2] using ih

theorem Tbl.get_ins_other {α : Type} (d : α) (t : Tbl α) {k j : Nat} (v : α) (h : j ≠ k) :
    Tbl.get d (Tbl.ins t k v) j = Tbl.get d t j := by
  induction t with
  | nil => simp [Tbl.ins, Tbl.get, h]
  | cons e r ih =>
    obtain ⟨k', w⟩ := e
    rcases Nat.lt_trichotomy k k' with h' | h' | h'
    · simp [Tbl.ins, Tbl.get, h', h]
    · subst h'; simp [Tbl.ins, Tbl.get, h]
    · have h1 : ¬ k < k' := by omega
      have h2 : k ≠ k' := by omega
      simp only [Tbl.ins, if_neg h1, if_neg h2, Tbl.get, ih]

/-- A read after a write to the same key gives the value written. -/
@[simp] theorem Tbl.get_set_same {α : Type} [DecidableEq α] (d : α) (t : Tbl α) (k : Nat) (v : α) :
    Tbl.get d (Tbl.set d t k v) k = v := by
  unfold Tbl.set
  split
  · next h => rw [Tbl.get_del_same, h]
  · exact Tbl.get_ins_same d t k v

/-- A write leaves every other key alone. -/
theorem Tbl.get_set_other {α : Type} [DecidableEq α] (d e : α) (t : Tbl α) {k j : Nat} (v : α) (h : j ≠ k) :
    Tbl.get d (Tbl.set e t k v) j = Tbl.get d t j := by
  unfold Tbl.set
  split
  · exact Tbl.get_del_other d t h
  · exact Tbl.get_ins_other d t v h

theorem Tbl.get_set {α : Type} [DecidableEq α] (d : α) (t : Tbl α) (k j : Nat) (v : α) :
    Tbl.get d (Tbl.set d t k v) j = if j = k then v else Tbl.get d t j := by
  by_cases h : j = k
  · subst h; simp
  · simp [h, Tbl.get_set_other]

/-! The canonical form. -/

/-- Keys strictly rising and above b, no entry equal to the default. -/
def Tbl.above {α : Type} (d : α) : Option Nat → Tbl α → Prop
  | _, [] => True
  | b, (k, v) :: r => (∀ x, b = some x → x < k) ∧ v ≠ d ∧ Tbl.above d (some k) r

theorem Tbl.above_keys {α : Type} (d : α) (r : Tbl α) (k : Nat) (h : Tbl.above d (some k) r) : ∀ e ∈ r, k < e.1 := by
  induction r generalizing k with
  | nil => simp
  | cons e r ih =>
    obtain ⟨k', v⟩ := e
    obtain ⟨h1, _, h3⟩ := h
    have hk := h1 k rfl
    intro x hx
    rcases List.mem_cons.mp hx with rfl | hx
    · exact hk
    · exact lt_trans hk (ih k' h3 x hx)

theorem Tbl.above_weaken {α : Type} (d : α) (r : Tbl α) {k : Nat} {b : Option Nat} (hb : ∀ x, b = some x → x ≤ k)
    (h : Tbl.above d (some k) r) : Tbl.above d b r := by
  cases r with
  | nil => trivial
  | cons e r => exact ⟨fun x hx => lt_of_le_of_lt (hb x hx) (h.1 k rfl), h.2.1, h.2.2⟩

theorem Tbl.above_iff {α : Type} (d : α) (r : Tbl α) (k : Nat) :
    Tbl.above d (some k) r ↔ (∀ e ∈ r, k < e.1) ∧ Tbl.above d none r := by
  constructor
  · exact fun h => ⟨Tbl.above_keys d r k h, Tbl.above_weaken d r (by simp) h⟩
  · intro ⟨h, h'⟩
    cases r with
    | nil => trivial
    | cons e r => exact ⟨fun x hx => by cases hx; exact h e (by simp), h'.2.1, h'.2.2⟩

theorem Tbl.wf_iff_above {α : Type} [DecidableEq α] (d : α) (t : Tbl α) : Tbl.wf d t = true ↔ Tbl.above d none t := by
  induction t with
  | nil => simp [Tbl.wf, Tbl.above]
  | cons e r ih =>
    obtain ⟨k, v⟩ := e
    simp only [Tbl.above, Tbl.above_iff, ← ih]
    simp [Tbl.wf]
    tauto

theorem Tbl.above_del {α : Type} (d : α) (t : Tbl α) (k : Nat) (b : Option Nat) (h : Tbl.above d b t) : Tbl.above d b (Tbl.del t k) := by
  induction t generalizing b with
  | nil => trivial
  | cons e r ih =>
    obtain ⟨k', v⟩ := e
    obtain ⟨h1, h2, h3⟩ := h
    by_cases hk : k' = k
    · have h' : Tbl.above d b r := Tbl.above_weaken d r (fun x hx => le_of_lt (h1 x hx)) h3
      simpa [Tbl.del, hk] using ih b h'
    · simpa [Tbl.del, hk, Tbl.above] using And.intro h1 (And.intro h2 (ih (some k') h3))

theorem Tbl.above_ins {α : Type} (d : α) (t : Tbl α) (k : Nat) (v : α) (hv : v ≠ d) (b : Option Nat) (hb : ∀ x, b = some x → x < k)
    (h : Tbl.above d b t) : Tbl.above d b (Tbl.ins t k v) := by
  induction t generalizing b with
  | nil => exact ⟨hb, hv, trivial⟩
  | cons e r ih =>
    obtain ⟨k', w⟩ := e
    obtain ⟨h1, h2, h3⟩ := h
    rcases Nat.lt_trichotomy k k' with h' | h' | h'
    · simp only [Tbl.ins, if_pos h']
      exact ⟨hb, hv, fun x hx => by cases hx; exact h', h2, h3⟩
    · subst h'
      simp only [Tbl.ins, lt_irrefl, if_false, if_true]
      exact ⟨hb, hv, h3⟩
    · simp only [Tbl.ins, if_neg (not_lt.mpr (le_of_lt h')), if_neg (ne_of_gt h')]
      exact ⟨h1, h2, ih (some k') (fun x hx => by cases hx; exact h') h3⟩

/-- A write keeps the canonical form. -/
theorem Tbl.wf_set {α : Type} [DecidableEq α] (d : α) (t : Tbl α) (k : Nat) (v : α) (h : Tbl.wf d t = true) :
    Tbl.wf d (Tbl.set d t k v) = true := by
  rw [Tbl.wf_iff_above] at *
  unfold Tbl.set
  split
  · exact Tbl.above_del d t k none h
  · next hv => exact Tbl.above_ins d t k v hv none (by simp) h

end Sys2Proof.Machine
end

