-- ==== Sys2Proof/Laws/State.lean ====
section
/-! SUPPORT. One lemma per field and update of State, and what a read of a unit or a register gives after an update of one. -/

namespace Sys2Proof.Machine

/-! setReg changes regs alone. -/
@[simp] theorem State.setReg_pending (s : State) (a : Nat) (v : Word) : (s.setReg a v).pending = s.pending := rfl
@[simp] theorem State.setReg_free (s : State) (a : Nat) (v : Word) : (s.setReg a v).free = s.free := rfl
@[simp] theorem State.setReg_serial (s : State) (a : Nat) (v : Word) : (s.setReg a v).serial = s.serial := rfl
@[simp] theorem State.setReg_now (s : State) (a : Nat) (v : Word) : (s.setReg a v).now = s.now := rfl
@[simp] theorem State.setReg_mem (s : State) (a : Nat) (v : Word) : (s.setReg a v).mem = s.mem := rfl
@[simp] theorem State.setReg_ecc (s : State) (a : Nat) (v : Word) : (s.setReg a v).ecc = s.ecc := rfl
@[simp] theorem State.setReg_pres (s : State) (a : Nat) (v : Word) : (s.setReg a v).pres = s.pres := rfl
@[simp] theorem State.setReg_imem (s : State) (a : Nat) (v : Word) : (s.setReg a v).imem = s.imem := rfl
@[simp] theorem State.setReg_pes (s : State) (a : Nat) (v : Word) : (s.setReg a v).pes = s.pes := rfl
@[simp] theorem State.setReg_ctxs (s : State) (a : Nat) (v : Word) : (s.setReg a v).ctxs = s.ctxs := rfl
@[simp] theorem State.setReg_nis (s : State) (a : Nat) (v : Word) : (s.setReg a v).nis = s.nis := rfl
@[simp] theorem State.setReg_cms (s : State) (a : Nat) (v : Word) : (s.setReg a v).cms = s.cms := rfl
@[simp] theorem State.setReg_reqs (s : State) (a : Nat) (v : Word) : (s.setReg a v).reqs = s.reqs := rfl
@[simp] theorem State.setReg_coll (s : State) (a : Nat) (v : Word) : (s.setReg a v).coll = s.coll := rfl
@[simp] theorem State.setReg_vcs (s : State) (a : Nat) (v : Word) : (s.setReg a v).vcs = s.vcs := rfl
@[simp] theorem State.setReg_openPkts (s : State) (a : Nat) (v : Word) : (s.setReg a v).openPkts = s.openPkts := rfl
@[simp] theorem State.setReg_linkUse (s : State) (a : Nat) (v : Word) : (s.setReg a v).linkUse = s.linkUse := rfl
@[simp] theorem State.setReg_links (s : State) (a : Nat) (v : Word) : (s.setReg a v).links = s.links := rfl
@[simp] theorem State.setReg_flitUeAt (s : State) (a : Nat) (v : Word) : (s.setReg a v).flitUeAt = s.flitUeAt := rfl
@[simp] theorem State.setReg_oversizeAt (s : State) (a : Nat) (v : Word) : (s.setReg a v).oversizeAt = s.oversizeAt := rfl
@[simp] theorem State.setReg_eject (s : State) (a : Nat) (v : Word) : (s.setReg a v).eject = s.eject := rfl
@[simp] theorem State.setReg_defers (s : State) (a : Nat) (v : Word) : (s.setReg a v).defers = s.defers := rfl
@[simp] theorem State.setReg_rels (s : State) (a : Nat) (v : Word) : (s.setReg a v).rels = s.rels := rfl
@[simp] theorem State.setReg_aes (s : State) (a : Nat) (v : Word) : (s.setReg a v).aes = s.aes := rfl
@[simp] theorem State.setReg_shift (s : State) (a : Nat) (v : Word) : (s.setReg a v).shift = s.shift := rfl
@[simp] theorem State.setReg_locks (s : State) (a : Nat) (v : Word) : (s.setReg a v).locks = s.locks := rfl
@[simp] theorem State.setReg_rdata (s : State) (a : Nat) (v : Word) : (s.setReg a v).rdata = s.rdata := rfl
@[simp] theorem State.setReg_parked (s : State) (a : Nat) (v : Word) : (s.setReg a v).parked = s.parked := rfl
@[simp] theorem State.setReg_tests (s : State) (a : Nat) (v : Word) : (s.setReg a v).tests = s.tests := rfl
@[simp] theorem State.setReg_rr (s : State) (a : Nat) (v : Word) : (s.setReg a v).rr = s.rr := rfl
@[simp] theorem State.setReg_banks (s : State) (a : Nat) (v : Word) : (s.setReg a v).banks = s.banks := rfl
@[simp] theorem State.setReg_lsRows (s : State) (a : Nat) (v : Word) : (s.setReg a v).lsRows = s.lsRows := rfl
@[simp] theorem State.setReg_ports (s : State) (a : Nat) (v : Word) : (s.setReg a v).ports = s.ports := rfl
@[simp] theorem State.setReg_pstat (s : State) (a : Nat) (v : Word) : (s.setReg a v).pstat = s.pstat := rfl
@[simp] theorem State.setReg_sat (s : State) (a : Nat) (v : Word) : (s.setReg a v).sat = s.sat := rfl
@[simp] theorem State.setReg_doms (s : State) (a : Nat) (v : Word) : (s.setReg a v).doms = s.doms := rfl
@[simp] theorem State.setReg_flushes (s : State) (a : Nat) (v : Word) : (s.setReg a v).flushes = s.flushes := rfl
@[simp] theorem State.setReg_stopped (s : State) (a : Nat) (v : Word) : (s.setReg a v).stopped = s.stopped := rfl
@[simp] theorem State.setReg_beacon (s : State) (a : Nat) (v : Word) : (s.setReg a v).beacon = s.beacon := rfl
@[simp] theorem State.setReg_pulses (s : State) (a : Nat) (v : Word) : (s.setReg a v).pulses = s.pulses := rfl
@[simp] theorem State.setReg_pairs (s : State) (a : Nat) (v : Word) : (s.setReg a v).pairs = s.pairs := rfl
@[simp] theorem State.setReg_ev (s : State) (a : Nat) (v : Word) : (s.setReg a v).ev = s.ev := rfl
@[simp] theorem State.setReg_mc (s : State) (a : Nat) (v : Word) : (s.setReg a v).mc = s.mc := rfl
@[simp] theorem State.setReg_pw (s : State) (a : Nat) (v : Word) : (s.setReg a v).pw = s.pw := rfl

/-! setPe changes pes alone. -/
@[simp] theorem State.setPe_pending (s : State) (n : Nat) (p : Pe) : (s.setPe n p).pending = s.pending := rfl
@[simp] theorem State.setPe_free (s : State) (n : Nat) (p : Pe) : (s.setPe n p).free = s.free := rfl
@[simp] theorem State.setPe_serial (s : State) (n : Nat) (p : Pe) : (s.setPe n p).serial = s.serial := rfl
@[simp] theorem State.setPe_now (s : State) (n : Nat) (p : Pe) : (s.setPe n p).now = s.now := rfl
@[simp] theorem State.setPe_regs (s : State) (n : Nat) (p : Pe) : (s.setPe n p).regs = s.regs := rfl
@[simp] theorem State.setPe_mem (s : State) (n : Nat) (p : Pe) : (s.setPe n p).mem = s.mem := rfl
@[simp] theorem State.setPe_ecc (s : State) (n : Nat) (p : Pe) : (s.setPe n p).ecc = s.ecc := rfl
@[simp] theorem State.setPe_pres (s : State) (n : Nat) (p : Pe) : (s.setPe n p).pres = s.pres := rfl
@[simp] theorem State.setPe_imem (s : State) (n : Nat) (p : Pe) : (s.setPe n p).imem = s.imem := rfl
@[simp] theorem State.setPe_ctxs (s : State) (n : Nat) (p : Pe) : (s.setPe n p).ctxs = s.ctxs := rfl
@[simp] theorem State.setPe_nis (s : State) (n : Nat) (p : Pe) : (s.setPe n p).nis = s.nis := rfl
@[simp] theorem State.setPe_cms (s : State) (n : Nat) (p : Pe) : (s.setPe n p).cms = s.cms := rfl
@[simp] theorem State.setPe_reqs (s : State) (n : Nat) (p : Pe) : (s.setPe n p).reqs = s.reqs := rfl
@[simp] theorem State.setPe_coll (s : State) (n : Nat) (p : Pe) : (s.setPe n p).coll = s.coll := rfl
@[simp] theorem State.setPe_vcs (s : State) (n : Nat) (p : Pe) : (s.setPe n p).vcs = s.vcs := rfl
@[simp] theorem State.setPe_openPkts (s : State) (n : Nat) (p : Pe) : (s.setPe n p).openPkts = s.openPkts := rfl
@[simp] theorem State.setPe_linkUse (s : State) (n : Nat) (p : Pe) : (s.setPe n p).linkUse = s.linkUse := rfl
@[simp] theorem State.setPe_links (s : State) (n : Nat) (p : Pe) : (s.setPe n p).links = s.links := rfl
@[simp] theorem State.setPe_flitUeAt (s : State) (n : Nat) (p : Pe) : (s.setPe n p).flitUeAt = s.flitUeAt := rfl
@[simp] theorem State.setPe_oversizeAt (s : State) (n : Nat) (p : Pe) : (s.setPe n p).oversizeAt = s.oversizeAt := rfl
@[simp] theorem State.setPe_eject (s : State) (n : Nat) (p : Pe) : (s.setPe n p).eject = s.eject := rfl
@[simp] theorem State.setPe_defers (s : State) (n : Nat) (p : Pe) : (s.setPe n p).defers = s.defers := rfl
@[simp] theorem State.setPe_rels (s : State) (n : Nat) (p : Pe) : (s.setPe n p).rels = s.rels := rfl
@[simp] theorem State.setPe_aes (s : State) (n : Nat) (p : Pe) : (s.setPe n p).aes = s.aes := rfl
@[simp] theorem State.setPe_shift (s : State) (n : Nat) (p : Pe) : (s.setPe n p).shift = s.shift := rfl
@[simp] theorem State.setPe_locks (s : State) (n : Nat) (p : Pe) : (s.setPe n p).locks = s.locks := rfl
@[simp] theorem State.setPe_rdata (s : State) (n : Nat) (p : Pe) : (s.setPe n p).rdata = s.rdata := rfl
@[simp] theorem State.setPe_parked (s : State) (n : Nat) (p : Pe) : (s.setPe n p).parked = s.parked := rfl
@[simp] theorem State.setPe_tests (s : State) (n : Nat) (p : Pe) : (s.setPe n p).tests = s.tests := rfl
@[simp] theorem State.setPe_rr (s : State) (n : Nat) (p : Pe) : (s.setPe n p).rr = s.rr := rfl
@[simp] theorem State.setPe_banks (s : State) (n : Nat) (p : Pe) : (s.setPe n p).banks = s.banks := rfl
@[simp] theorem State.setPe_lsRows (s : State) (n : Nat) (p : Pe) : (s.setPe n p).lsRows = s.lsRows := rfl
@[simp] theorem State.setPe_ports (s : State) (n : Nat) (p : Pe) : (s.setPe n p).ports = s.ports := rfl
@[simp] theorem State.setPe_pstat (s : State) (n : Nat) (p : Pe) : (s.setPe n p).pstat = s.pstat := rfl
@[simp] theorem State.setPe_sat (s : State) (n : Nat) (p : Pe) : (s.setPe n p).sat = s.sat := rfl
@[simp] theorem State.setPe_doms (s : State) (n : Nat) (p : Pe) : (s.setPe n p).doms = s.doms := rfl
@[simp] theorem State.setPe_flushes (s : State) (n : Nat) (p : Pe) : (s.setPe n p).flushes = s.flushes := rfl
@[simp] theorem State.setPe_stopped (s : State) (n : Nat) (p : Pe) : (s.setPe n p).stopped = s.stopped := rfl
@[simp] theorem State.setPe_beacon (s : State) (n : Nat) (p : Pe) : (s.setPe n p).beacon = s.beacon := rfl
@[simp] theorem State.setPe_pulses (s : State) (n : Nat) (p : Pe) : (s.setPe n p).pulses = s.pulses := rfl
@[simp] theorem State.setPe_pairs (s : State) (n : Nat) (p : Pe) : (s.setPe n p).pairs = s.pairs := rfl
@[simp] theorem State.setPe_ev (s : State) (n : Nat) (p : Pe) : (s.setPe n p).ev = s.ev := rfl
@[simp] theorem State.setPe_mc (s : State) (n : Nat) (p : Pe) : (s.setPe n p).mc = s.mc := rfl
@[simp] theorem State.setPe_pw (s : State) (n : Nat) (p : Pe) : (s.setPe n p).pw = s.pw := rfl

/-! setNi changes nis alone. -/
@[simp] theorem State.setNi_pending (s : State) (e : Nat) (v : Ni) : (s.setNi e v).pending = s.pending := rfl
@[simp] theorem State.setNi_free (s : State) (e : Nat) (v : Ni) : (s.setNi e v).free = s.free := rfl
@[simp] theorem State.setNi_serial (s : State) (e : Nat) (v : Ni) : (s.setNi e v).serial = s.serial := rfl
@[simp] theorem State.setNi_now (s : State) (e : Nat) (v : Ni) : (s.setNi e v).now = s.now := rfl
@[simp] theorem State.setNi_regs (s : State) (e : Nat) (v : Ni) : (s.setNi e v).regs = s.regs := rfl
@[simp] theorem State.setNi_mem (s : State) (e : Nat) (v : Ni) : (s.setNi e v).mem = s.mem := rfl
@[simp] theorem State.setNi_ecc (s : State) (e : Nat) (v : Ni) : (s.setNi e v).ecc = s.ecc := rfl
@[simp] theorem State.setNi_pres (s : State) (e : Nat) (v : Ni) : (s.setNi e v).pres = s.pres := rfl
@[simp] theorem State.setNi_imem (s : State) (e : Nat) (v : Ni) : (s.setNi e v).imem = s.imem := rfl
@[simp] theorem State.setNi_pes (s : State) (e : Nat) (v : Ni) : (s.setNi e v).pes = s.pes := rfl
@[simp] theorem State.setNi_ctxs (s : State) (e : Nat) (v : Ni) : (s.setNi e v).ctxs = s.ctxs := rfl
@[simp] theorem State.setNi_cms (s : State) (e : Nat) (v : Ni) : (s.setNi e v).cms = s.cms := rfl
@[simp] theorem State.setNi_reqs (s : State) (e : Nat) (v : Ni) : (s.setNi e v).reqs = s.reqs := rfl
@[simp] theorem State.setNi_coll (s : State) (e : Nat) (v : Ni) : (s.setNi e v).coll = s.coll := rfl
@[simp] theorem State.setNi_vcs (s : State) (e : Nat) (v : Ni) : (s.setNi e v).vcs = s.vcs := rfl
@[simp] theorem State.setNi_openPkts (s : State) (e : Nat) (v : Ni) : (s.setNi e v).openPkts = s.openPkts := rfl
@[simp] theorem State.setNi_linkUse (s : State) (e : Nat) (v : Ni) : (s.setNi e v).linkUse = s.linkUse := rfl
@[simp] theorem State.setNi_links (s : State) (e : Nat) (v : Ni) : (s.setNi e v).links = s.links := rfl
@[simp] theorem State.setNi_flitUeAt (s : State) (e : Nat) (v : Ni) : (s.setNi e v).flitUeAt = s.flitUeAt := rfl
@[simp] theorem State.setNi_oversizeAt (s : State) (e : Nat) (v : Ni) : (s.setNi e v).oversizeAt = s.oversizeAt := rfl
@[simp] theorem State.setNi_eject (s : State) (e : Nat) (v : Ni) : (s.setNi e v).eject = s.eject := rfl
@[simp] theorem State.setNi_defers (s : State) (e : Nat) (v : Ni) : (s.setNi e v).defers = s.defers := rfl
@[simp] theorem State.setNi_rels (s : State) (e : Nat) (v : Ni) : (s.setNi e v).rels = s.rels := rfl
@[simp] theorem State.setNi_aes (s : State) (e : Nat) (v : Ni) : (s.setNi e v).aes = s.aes := rfl
@[simp] theorem State.setNi_shift (s : State) (e : Nat) (v : Ni) : (s.setNi e v).shift = s.shift := rfl
@[simp] theorem State.setNi_locks (s : State) (e : Nat) (v : Ni) : (s.setNi e v).locks = s.locks := rfl
@[simp] theorem State.setNi_rdata (s : State) (e : Nat) (v : Ni) : (s.setNi e v).rdata = s.rdata := rfl
@[simp] theorem State.setNi_parked (s : State) (e : Nat) (v : Ni) : (s.setNi e v).parked = s.parked := rfl
@[simp] theorem State.setNi_tests (s : State) (e : Nat) (v : Ni) : (s.setNi e v).tests = s.tests := rfl
@[simp] theorem State.setNi_rr (s : State) (e : Nat) (v : Ni) : (s.setNi e v).rr = s.rr := rfl
@[simp] theorem State.setNi_banks (s : State) (e : Nat) (v : Ni) : (s.setNi e v).banks = s.banks := rfl
@[simp] theorem State.setNi_lsRows (s : State) (e : Nat) (v : Ni) : (s.setNi e v).lsRows = s.lsRows := rfl
@[simp] theorem State.setNi_ports (s : State) (e : Nat) (v : Ni) : (s.setNi e v).ports = s.ports := rfl
@[simp] theorem State.setNi_pstat (s : State) (e : Nat) (v : Ni) : (s.setNi e v).pstat = s.pstat := rfl
@[simp] theorem State.setNi_sat (s : State) (e : Nat) (v : Ni) : (s.setNi e v).sat = s.sat := rfl
@[simp] theorem State.setNi_doms (s : State) (e : Nat) (v : Ni) : (s.setNi e v).doms = s.doms := rfl
@[simp] theorem State.setNi_flushes (s : State) (e : Nat) (v : Ni) : (s.setNi e v).flushes = s.flushes := rfl
@[simp] theorem State.setNi_stopped (s : State) (e : Nat) (v : Ni) : (s.setNi e v).stopped = s.stopped := rfl
@[simp] theorem State.setNi_beacon (s : State) (e : Nat) (v : Ni) : (s.setNi e v).beacon = s.beacon := rfl
@[simp] theorem State.setNi_pulses (s : State) (e : Nat) (v : Ni) : (s.setNi e v).pulses = s.pulses := rfl
@[simp] theorem State.setNi_pairs (s : State) (e : Nat) (v : Ni) : (s.setNi e v).pairs = s.pairs := rfl
@[simp] theorem State.setNi_ev (s : State) (e : Nat) (v : Ni) : (s.setNi e v).ev = s.ev := rfl
@[simp] theorem State.setNi_mc (s : State) (e : Nat) (v : Ni) : (s.setNi e v).mc = s.mc := rfl
@[simp] theorem State.setNi_pw (s : State) (e : Nat) (v : Ni) : (s.setNi e v).pw = s.pw := rfl

/-! setCm changes cms alone. -/
@[simp] theorem State.setCm_pending (s : State) (c : Nat) (v : Cm) : (s.setCm c v).pending = s.pending := rfl
@[simp] theorem State.setCm_free (s : State) (c : Nat) (v : Cm) : (s.setCm c v).free = s.free := rfl
@[simp] theorem State.setCm_serial (s : State) (c : Nat) (v : Cm) : (s.setCm c v).serial = s.serial := rfl
@[simp] theorem State.setCm_now (s : State) (c : Nat) (v : Cm) : (s.setCm c v).now = s.now := rfl
@[simp] theorem State.setCm_regs (s : State) (c : Nat) (v : Cm) : (s.setCm c v).regs = s.regs := rfl
@[simp] theorem State.setCm_mem (s : State) (c : Nat) (v : Cm) : (s.setCm c v).mem = s.mem := rfl
@[simp] theorem State.setCm_ecc (s : State) (c : Nat) (v : Cm) : (s.setCm c v).ecc = s.ecc := rfl
@[simp] theorem State.setCm_pres (s : State) (c : Nat) (v : Cm) : (s.setCm c v).pres = s.pres := rfl
@[simp] theorem State.setCm_imem (s : State) (c : Nat) (v : Cm) : (s.setCm c v).imem = s.imem := rfl
@[simp] theorem State.setCm_pes (s : State) (c : Nat) (v : Cm) : (s.setCm c v).pes = s.pes := rfl
@[simp] theorem State.setCm_ctxs (s : State) (c : Nat) (v : Cm) : (s.setCm c v).ctxs = s.ctxs := rfl
@[simp] theorem State.setCm_nis (s : State) (c : Nat) (v : Cm) : (s.setCm c v).nis = s.nis := rfl
@[simp] theorem State.setCm_reqs (s : State) (c : Nat) (v : Cm) : (s.setCm c v).reqs = s.reqs := rfl
@[simp] theorem State.setCm_coll (s : State) (c : Nat) (v : Cm) : (s.setCm c v).coll = s.coll := rfl
@[simp] theorem State.setCm_vcs (s : State) (c : Nat) (v : Cm) : (s.setCm c v).vcs = s.vcs := rfl
@[simp] theorem State.setCm_openPkts (s : State) (c : Nat) (v : Cm) : (s.setCm c v).openPkts = s.openPkts := rfl
@[simp] theorem State.setCm_linkUse (s : State) (c : Nat) (v : Cm) : (s.setCm c v).linkUse = s.linkUse := rfl
@[simp] theorem State.setCm_links (s : State) (c : Nat) (v : Cm) : (s.setCm c v).links = s.links := rfl
@[simp] theorem State.setCm_flitUeAt (s : State) (c : Nat) (v : Cm) : (s.setCm c v).flitUeAt = s.flitUeAt := rfl
@[simp] theorem State.setCm_oversizeAt (s : State) (c : Nat) (v : Cm) : (s.setCm c v).oversizeAt = s.oversizeAt := rfl
@[simp] theorem State.setCm_eject (s : State) (c : Nat) (v : Cm) : (s.setCm c v).eject = s.eject := rfl
@[simp] theorem State.setCm_defers (s : State) (c : Nat) (v : Cm) : (s.setCm c v).defers = s.defers := rfl
@[simp] theorem State.setCm_rels (s : State) (c : Nat) (v : Cm) : (s.setCm c v).rels = s.rels := rfl
@[simp] theorem State.setCm_aes (s : State) (c : Nat) (v : Cm) : (s.setCm c v).aes = s.aes := rfl
@[simp] theorem State.setCm_shift (s : State) (c : Nat) (v : Cm) : (s.setCm c v).shift = s.shift := rfl
@[simp] theorem State.setCm_locks (s : State) (c : Nat) (v : Cm) : (s.setCm c v).locks = s.locks := rfl
@[simp] theorem State.setCm_rdata (s : State) (c : Nat) (v : Cm) : (s.setCm c v).rdata = s.rdata := rfl
@[simp] theorem State.setCm_parked (s : State) (c : Nat) (v : Cm) : (s.setCm c v).parked = s.parked := rfl
@[simp] theorem State.setCm_tests (s : State) (c : Nat) (v : Cm) : (s.setCm c v).tests = s.tests := rfl
@[simp] theorem State.setCm_rr (s : State) (c : Nat) (v : Cm) : (s.setCm c v).rr = s.rr := rfl
@[simp] theorem State.setCm_banks (s : State) (c : Nat) (v : Cm) : (s.setCm c v).banks = s.banks := rfl
@[simp] theorem State.setCm_lsRows (s : State) (c : Nat) (v : Cm) : (s.setCm c v).lsRows = s.lsRows := rfl
@[simp] theorem State.setCm_ports (s : State) (c : Nat) (v : Cm) : (s.setCm c v).ports = s.ports := rfl
@[simp] theorem State.setCm_pstat (s : State) (c : Nat) (v : Cm) : (s.setCm c v).pstat = s.pstat := rfl
@[simp] theorem State.setCm_sat (s : State) (c : Nat) (v : Cm) : (s.setCm c v).sat = s.sat := rfl
@[simp] theorem State.setCm_doms (s : State) (c : Nat) (v : Cm) : (s.setCm c v).doms = s.doms := rfl
@[simp] theorem State.setCm_flushes (s : State) (c : Nat) (v : Cm) : (s.setCm c v).flushes = s.flushes := rfl
@[simp] theorem State.setCm_stopped (s : State) (c : Nat) (v : Cm) : (s.setCm c v).stopped = s.stopped := rfl
@[simp] theorem State.setCm_beacon (s : State) (c : Nat) (v : Cm) : (s.setCm c v).beacon = s.beacon := rfl
@[simp] theorem State.setCm_pulses (s : State) (c : Nat) (v : Cm) : (s.setCm c v).pulses = s.pulses := rfl
@[simp] theorem State.setCm_pairs (s : State) (c : Nat) (v : Cm) : (s.setCm c v).pairs = s.pairs := rfl
@[simp] theorem State.setCm_ev (s : State) (c : Nat) (v : Cm) : (s.setCm c v).ev = s.ev := rfl
@[simp] theorem State.setCm_mc (s : State) (c : Nat) (v : Cm) : (s.setCm c v).mc = s.mc := rfl
@[simp] theorem State.setCm_pw (s : State) (c : Nat) (v : Cm) : (s.setCm c v).pw = s.pw := rfl

/-! setCtx changes ctxs alone. -/
@[simp] theorem State.setCtx_pending (s : State) (k : Nat) (v : Ctx) : (s.setCtx k v).pending = s.pending := rfl
@[simp] theorem State.setCtx_free (s : State) (k : Nat) (v : Ctx) : (s.setCtx k v).free = s.free := rfl
@[simp] theorem State.setCtx_serial (s : State) (k : Nat) (v : Ctx) : (s.setCtx k v).serial = s.serial := rfl
@[simp] theorem State.setCtx_now (s : State) (k : Nat) (v : Ctx) : (s.setCtx k v).now = s.now := rfl
@[simp] theorem State.setCtx_regs (s : State) (k : Nat) (v : Ctx) : (s.setCtx k v).regs = s.regs := rfl
@[simp] theorem State.setCtx_mem (s : State) (k : Nat) (v : Ctx) : (s.setCtx k v).mem = s.mem := rfl
@[simp] theorem State.setCtx_ecc (s : State) (k : Nat) (v : Ctx) : (s.setCtx k v).ecc = s.ecc := rfl
@[simp] theorem State.setCtx_pres (s : State) (k : Nat) (v : Ctx) : (s.setCtx k v).pres = s.pres := rfl
@[simp] theorem State.setCtx_imem (s : State) (k : Nat) (v : Ctx) : (s.setCtx k v).imem = s.imem := rfl
@[simp] theorem State.setCtx_pes (s : State) (k : Nat) (v : Ctx) : (s.setCtx k v).pes = s.pes := rfl
@[simp] theorem State.setCtx_nis (s : State) (k : Nat) (v : Ctx) : (s.setCtx k v).nis = s.nis := rfl
@[simp] theorem State.setCtx_cms (s : State) (k : Nat) (v : Ctx) : (s.setCtx k v).cms = s.cms := rfl
@[simp] theorem State.setCtx_reqs (s : State) (k : Nat) (v : Ctx) : (s.setCtx k v).reqs = s.reqs := rfl
@[simp] theorem State.setCtx_coll (s : State) (k : Nat) (v : Ctx) : (s.setCtx k v).coll = s.coll := rfl
@[simp] theorem State.setCtx_vcs (s : State) (k : Nat) (v : Ctx) : (s.setCtx k v).vcs = s.vcs := rfl
@[simp] theorem State.setCtx_openPkts (s : State) (k : Nat) (v : Ctx) : (s.setCtx k v).openPkts = s.openPkts := rfl
@[simp] theorem State.setCtx_linkUse (s : State) (k : Nat) (v : Ctx) : (s.setCtx k v).linkUse = s.linkUse := rfl
@[simp] theorem State.setCtx_links (s : State) (k : Nat) (v : Ctx) : (s.setCtx k v).links = s.links := rfl
@[simp] theorem State.setCtx_flitUeAt (s : State) (k : Nat) (v : Ctx) : (s.setCtx k v).flitUeAt = s.flitUeAt := rfl
@[simp] theorem State.setCtx_oversizeAt (s : State) (k : Nat) (v : Ctx) : (s.setCtx k v).oversizeAt = s.oversizeAt := rfl
@[simp] theorem State.setCtx_eject (s : State) (k : Nat) (v : Ctx) : (s.setCtx k v).eject = s.eject := rfl
@[simp] theorem State.setCtx_defers (s : State) (k : Nat) (v : Ctx) : (s.setCtx k v).defers = s.defers := rfl
@[simp] theorem State.setCtx_rels (s : State) (k : Nat) (v : Ctx) : (s.setCtx k v).rels = s.rels := rfl
@[simp] theorem State.setCtx_aes (s : State) (k : Nat) (v : Ctx) : (s.setCtx k v).aes = s.aes := rfl
@[simp] theorem State.setCtx_shift (s : State) (k : Nat) (v : Ctx) : (s.setCtx k v).shift = s.shift := rfl
@[simp] theorem State.setCtx_locks (s : State) (k : Nat) (v : Ctx) : (s.setCtx k v).locks = s.locks := rfl
@[simp] theorem State.setCtx_rdata (s : State) (k : Nat) (v : Ctx) : (s.setCtx k v).rdata = s.rdata := rfl
@[simp] theorem State.setCtx_parked (s : State) (k : Nat) (v : Ctx) : (s.setCtx k v).parked = s.parked := rfl
@[simp] theorem State.setCtx_tests (s : State) (k : Nat) (v : Ctx) : (s.setCtx k v).tests = s.tests := rfl
@[simp] theorem State.setCtx_rr (s : State) (k : Nat) (v : Ctx) : (s.setCtx k v).rr = s.rr := rfl
@[simp] theorem State.setCtx_banks (s : State) (k : Nat) (v : Ctx) : (s.setCtx k v).banks = s.banks := rfl
@[simp] theorem State.setCtx_lsRows (s : State) (k : Nat) (v : Ctx) : (s.setCtx k v).lsRows = s.lsRows := rfl
@[simp] theorem State.setCtx_ports (s : State) (k : Nat) (v : Ctx) : (s.setCtx k v).ports = s.ports := rfl
@[simp] theorem State.setCtx_pstat (s : State) (k : Nat) (v : Ctx) : (s.setCtx k v).pstat = s.pstat := rfl
@[simp] theorem State.setCtx_sat (s : State) (k : Nat) (v : Ctx) : (s.setCtx k v).sat = s.sat := rfl
@[simp] theorem State.setCtx_doms (s : State) (k : Nat) (v : Ctx) : (s.setCtx k v).doms = s.doms := rfl
@[simp] theorem State.setCtx_flushes (s : State) (k : Nat) (v : Ctx) : (s.setCtx k v).flushes = s.flushes := rfl
@[simp] theorem State.setCtx_stopped (s : State) (k : Nat) (v : Ctx) : (s.setCtx k v).stopped = s.stopped := rfl
@[simp] theorem State.setCtx_beacon (s : State) (k : Nat) (v : Ctx) : (s.setCtx k v).beacon = s.beacon := rfl
@[simp] theorem State.setCtx_pulses (s : State) (k : Nat) (v : Ctx) : (s.setCtx k v).pulses = s.pulses := rfl
@[simp] theorem State.setCtx_pairs (s : State) (k : Nat) (v : Ctx) : (s.setCtx k v).pairs = s.pairs := rfl
@[simp] theorem State.setCtx_ev (s : State) (k : Nat) (v : Ctx) : (s.setCtx k v).ev = s.ev := rfl
@[simp] theorem State.setCtx_mc (s : State) (k : Nat) (v : Ctx) : (s.setCtx k v).mc = s.mc := rfl
@[simp] theorem State.setCtx_pw (s : State) (k : Nat) (v : Ctx) : (s.setCtx k v).pw = s.pw := rfl

/-! setReqs changes reqs alone. -/
@[simp] theorem State.setReqs_pending (s : State) (e : Nat) (l : List Packet) : (s.setReqs e l).pending = s.pending := rfl
@[simp] theorem State.setReqs_free (s : State) (e : Nat) (l : List Packet) : (s.setReqs e l).free = s.free := rfl
@[simp] theorem State.setReqs_serial (s : State) (e : Nat) (l : List Packet) : (s.setReqs e l).serial = s.serial := rfl
@[simp] theorem State.setReqs_now (s : State) (e : Nat) (l : List Packet) : (s.setReqs e l).now = s.now := rfl
@[simp] theorem State.setReqs_regs (s : State) (e : Nat) (l : List Packet) : (s.setReqs e l).regs = s.regs := rfl
@[simp] theorem State.setReqs_mem (s : State) (e : Nat) (l : List Packet) : (s.setReqs e l).mem = s.mem := rfl
@[simp] theorem State.setReqs_ecc (s : State) (e : Nat) (l : List Packet) : (s.setReqs e l).ecc = s.ecc := rfl
@[simp] theorem State.setReqs_pres (s : State) (e : Nat) (l : List Packet) : (s.setReqs e l).pres = s.pres := rfl
@[simp] theorem State.setReqs_imem (s : State) (e : Nat) (l : List Packet) : (s.setReqs e l).imem = s.imem := rfl
@[simp] theorem State.setReqs_pes (s : State) (e : Nat) (l : List Packet) : (s.setReqs e l).pes = s.pes := rfl
@[simp] theorem State.setReqs_ctxs (s : State) (e : Nat) (l : List Packet) : (s.setReqs e l).ctxs = s.ctxs := rfl
@[simp] theorem State.setReqs_nis (s : State) (e : Nat) (l : List Packet) : (s.setReqs e l).nis = s.nis := rfl
@[simp] theorem State.setReqs_cms (s : State) (e : Nat) (l : List Packet) : (s.setReqs e l).cms = s.cms := rfl
@[simp] theorem State.setReqs_coll (s : State) (e : Nat) (l : List Packet) : (s.setReqs e l).coll = s.coll := rfl
@[simp] theorem State.setReqs_vcs (s : State) (e : Nat) (l : List Packet) : (s.setReqs e l).vcs = s.vcs := rfl
@[simp] theorem State.setReqs_openPkts (s : State) (e : Nat) (l : List Packet) : (s.setReqs e l).openPkts = s.openPkts := rfl
@[simp] theorem State.setReqs_linkUse (s : State) (e : Nat) (l : List Packet) : (s.setReqs e l).linkUse = s.linkUse := rfl
@[simp] theorem State.setReqs_links (s : State) (e : Nat) (l : List Packet) : (s.setReqs e l).links = s.links := rfl
@[simp] theorem State.setReqs_flitUeAt (s : State) (e : Nat) (l : List Packet) : (s.setReqs e l).flitUeAt = s.flitUeAt := rfl
@[simp] theorem State.setReqs_oversizeAt (s : State) (e : Nat) (l : List Packet) : (s.setReqs e l).oversizeAt = s.oversizeAt := rfl
@[simp] theorem State.setReqs_eject (s : State) (e : Nat) (l : List Packet) : (s.setReqs e l).eject = s.eject := rfl
@[simp] theorem State.setReqs_defers (s : State) (e : Nat) (l : List Packet) : (s.setReqs e l).defers = s.defers := rfl
@[simp] theorem State.setReqs_rels (s : State) (e : Nat) (l : List Packet) : (s.setReqs e l).rels = s.rels := rfl
@[simp] theorem State.setReqs_aes (s : State) (e : Nat) (l : List Packet) : (s.setReqs e l).aes = s.aes := rfl
@[simp] theorem State.setReqs_shift (s : State) (e : Nat) (l : List Packet) : (s.setReqs e l).shift = s.shift := rfl
@[simp] theorem State.setReqs_locks (s : State) (e : Nat) (l : List Packet) : (s.setReqs e l).locks = s.locks := rfl
@[simp] theorem State.setReqs_rdata (s : State) (e : Nat) (l : List Packet) : (s.setReqs e l).rdata = s.rdata := rfl
@[simp] theorem State.setReqs_parked (s : State) (e : Nat) (l : List Packet) : (s.setReqs e l).parked = s.parked := rfl
@[simp] theorem State.setReqs_tests (s : State) (e : Nat) (l : List Packet) : (s.setReqs e l).tests = s.tests := rfl
@[simp] theorem State.setReqs_rr (s : State) (e : Nat) (l : List Packet) : (s.setReqs e l).rr = s.rr := rfl
@[simp] theorem State.setReqs_banks (s : State) (e : Nat) (l : List Packet) : (s.setReqs e l).banks = s.banks := rfl
@[simp] theorem State.setReqs_lsRows (s : State) (e : Nat) (l : List Packet) : (s.setReqs e l).lsRows = s.lsRows := rfl
@[simp] theorem State.setReqs_ports (s : State) (e : Nat) (l : List Packet) : (s.setReqs e l).ports = s.ports := rfl
@[simp] theorem State.setReqs_pstat (s : State) (e : Nat) (l : List Packet) : (s.setReqs e l).pstat = s.pstat := rfl
@[simp] theorem State.setReqs_sat (s : State) (e : Nat) (l : List Packet) : (s.setReqs e l).sat = s.sat := rfl
@[simp] theorem State.setReqs_doms (s : State) (e : Nat) (l : List Packet) : (s.setReqs e l).doms = s.doms := rfl
@[simp] theorem State.setReqs_flushes (s : State) (e : Nat) (l : List Packet) : (s.setReqs e l).flushes = s.flushes := rfl
@[simp] theorem State.setReqs_stopped (s : State) (e : Nat) (l : List Packet) : (s.setReqs e l).stopped = s.stopped := rfl
@[simp] theorem State.setReqs_beacon (s : State) (e : Nat) (l : List Packet) : (s.setReqs e l).beacon = s.beacon := rfl
@[simp] theorem State.setReqs_pulses (s : State) (e : Nat) (l : List Packet) : (s.setReqs e l).pulses = s.pulses := rfl
@[simp] theorem State.setReqs_pairs (s : State) (e : Nat) (l : List Packet) : (s.setReqs e l).pairs = s.pairs := rfl
@[simp] theorem State.setReqs_ev (s : State) (e : Nat) (l : List Packet) : (s.setReqs e l).ev = s.ev := rfl
@[simp] theorem State.setReqs_mc (s : State) (e : Nat) (l : List Packet) : (s.setReqs e l).mc = s.mc := rfl
@[simp] theorem State.setReqs_pw (s : State) (e : Nat) (l : List Packet) : (s.setReqs e l).pw = s.pw := rfl

/-! setImem changes imem alone. -/
@[simp] theorem State.setImem_pending (s : State) (n w : Nat) (v : Word) : (s.setImem n w v).pending = s.pending := rfl
@[simp] theorem State.setImem_free (s : State) (n w : Nat) (v : Word) : (s.setImem n w v).free = s.free := rfl
@[simp] theorem State.setImem_serial (s : State) (n w : Nat) (v : Word) : (s.setImem n w v).serial = s.serial := rfl
@[simp] theorem State.setImem_now (s : State) (n w : Nat) (v : Word) : (s.setImem n w v).now = s.now := rfl
@[simp] theorem State.setImem_regs (s : State) (n w : Nat) (v : Word) : (s.setImem n w v).regs = s.regs := rfl
@[simp] theorem State.setImem_mem (s : State) (n w : Nat) (v : Word) : (s.setImem n w v).mem = s.mem := rfl
@[simp] theorem State.setImem_ecc (s : State) (n w : Nat) (v : Word) : (s.setImem n w v).ecc = s.ecc := rfl
@[simp] theorem State.setImem_pres (s : State) (n w : Nat) (v : Word) : (s.setImem n w v).pres = s.pres := rfl
@[simp] theorem State.setImem_pes (s : State) (n w : Nat) (v : Word) : (s.setImem n w v).pes = s.pes := rfl
@[simp] theorem State.setImem_ctxs (s : State) (n w : Nat) (v : Word) : (s.setImem n w v).ctxs = s.ctxs := rfl
@[simp] theorem State.setImem_nis (s : State) (n w : Nat) (v : Word) : (s.setImem n w v).nis = s.nis := rfl
@[simp] theorem State.setImem_cms (s : State) (n w : Nat) (v : Word) : (s.setImem n w v).cms = s.cms := rfl
@[simp] theorem State.setImem_reqs (s : State) (n w : Nat) (v : Word) : (s.setImem n w v).reqs = s.reqs := rfl
@[simp] theorem State.setImem_coll (s : State) (n w : Nat) (v : Word) : (s.setImem n w v).coll = s.coll := rfl
@[simp] theorem State.setImem_vcs (s : State) (n w : Nat) (v : Word) : (s.setImem n w v).vcs = s.vcs := rfl
@[simp] theorem State.setImem_openPkts (s : State) (n w : Nat) (v : Word) : (s.setImem n w v).openPkts = s.openPkts := rfl
@[simp] theorem State.setImem_linkUse (s : State) (n w : Nat) (v : Word) : (s.setImem n w v).linkUse = s.linkUse := rfl
@[simp] theorem State.setImem_links (s : State) (n w : Nat) (v : Word) : (s.setImem n w v).links = s.links := rfl
@[simp] theorem State.setImem_flitUeAt (s : State) (n w : Nat) (v : Word) : (s.setImem n w v).flitUeAt = s.flitUeAt := rfl
@[simp] theorem State.setImem_oversizeAt (s : State) (n w : Nat) (v : Word) : (s.setImem n w v).oversizeAt = s.oversizeAt := rfl
@[simp] theorem State.setImem_eject (s : State) (n w : Nat) (v : Word) : (s.setImem n w v).eject = s.eject := rfl
@[simp] theorem State.setImem_defers (s : State) (n w : Nat) (v : Word) : (s.setImem n w v).defers = s.defers := rfl
@[simp] theorem State.setImem_rels (s : State) (n w : Nat) (v : Word) : (s.setImem n w v).rels = s.rels := rfl
@[simp] theorem State.setImem_aes (s : State) (n w : Nat) (v : Word) : (s.setImem n w v).aes = s.aes := rfl
@[simp] theorem State.setImem_shift (s : State) (n w : Nat) (v : Word) : (s.setImem n w v).shift = s.shift := rfl
@[simp] theorem State.setImem_locks (s : State) (n w : Nat) (v : Word) : (s.setImem n w v).locks = s.locks := rfl
@[simp] theorem State.setImem_rdata (s : State) (n w : Nat) (v : Word) : (s.setImem n w v).rdata = s.rdata := rfl
@[simp] theorem State.setImem_parked (s : State) (n w : Nat) (v : Word) : (s.setImem n w v).parked = s.parked := rfl
@[simp] theorem State.setImem_tests (s : State) (n w : Nat) (v : Word) : (s.setImem n w v).tests = s.tests := rfl
@[simp] theorem State.setImem_rr (s : State) (n w : Nat) (v : Word) : (s.setImem n w v).rr = s.rr := rfl
@[simp] theorem State.setImem_banks (s : State) (n w : Nat) (v : Word) : (s.setImem n w v).banks = s.banks := rfl
@[simp] theorem State.setImem_lsRows (s : State) (n w : Nat) (v : Word) : (s.setImem n w v).lsRows = s.lsRows := rfl
@[simp] theorem State.setImem_ports (s : State) (n w : Nat) (v : Word) : (s.setImem n w v).ports = s.ports := rfl
@[simp] theorem State.setImem_pstat (s : State) (n w : Nat) (v : Word) : (s.setImem n w v).pstat = s.pstat := rfl
@[simp] theorem State.setImem_sat (s : State) (n w : Nat) (v : Word) : (s.setImem n w v).sat = s.sat := rfl
@[simp] theorem State.setImem_doms (s : State) (n w : Nat) (v : Word) : (s.setImem n w v).doms = s.doms := rfl
@[simp] theorem State.setImem_flushes (s : State) (n w : Nat) (v : Word) : (s.setImem n w v).flushes = s.flushes := rfl
@[simp] theorem State.setImem_stopped (s : State) (n w : Nat) (v : Word) : (s.setImem n w v).stopped = s.stopped := rfl
@[simp] theorem State.setImem_beacon (s : State) (n w : Nat) (v : Word) : (s.setImem n w v).beacon = s.beacon := rfl
@[simp] theorem State.setImem_pulses (s : State) (n w : Nat) (v : Word) : (s.setImem n w v).pulses = s.pulses := rfl
@[simp] theorem State.setImem_pairs (s : State) (n w : Nat) (v : Word) : (s.setImem n w v).pairs = s.pairs := rfl
@[simp] theorem State.setImem_ev (s : State) (n w : Nat) (v : Word) : (s.setImem n w v).ev = s.ev := rfl
@[simp] theorem State.setImem_mc (s : State) (n w : Nat) (v : Word) : (s.setImem n w v).mc = s.mc := rfl
@[simp] theorem State.setImem_pw (s : State) (n w : Nat) (v : Word) : (s.setImem n w v).pw = s.pw := rfl

/-! setByte changes mem alone. -/
@[simp] theorem State.setByte_pending (s : State) (a : Nat) (v : Byte) : (s.setByte a v).pending = s.pending := rfl
@[simp] theorem State.setByte_free (s : State) (a : Nat) (v : Byte) : (s.setByte a v).free = s.free := rfl
@[simp] theorem State.setByte_serial (s : State) (a : Nat) (v : Byte) : (s.setByte a v).serial = s.serial := rfl
@[simp] theorem State.setByte_now (s : State) (a : Nat) (v : Byte) : (s.setByte a v).now = s.now := rfl
@[simp] theorem State.setByte_regs (s : State) (a : Nat) (v : Byte) : (s.setByte a v).regs = s.regs := rfl
@[simp] theorem State.setByte_ecc (s : State) (a : Nat) (v : Byte) : (s.setByte a v).ecc = s.ecc := rfl
@[simp] theorem State.setByte_pres (s : State) (a : Nat) (v : Byte) : (s.setByte a v).pres = s.pres := rfl
@[simp] theorem State.setByte_imem (s : State) (a : Nat) (v : Byte) : (s.setByte a v).imem = s.imem := rfl
@[simp] theorem State.setByte_pes (s : State) (a : Nat) (v : Byte) : (s.setByte a v).pes = s.pes := rfl
@[simp] theorem State.setByte_ctxs (s : State) (a : Nat) (v : Byte) : (s.setByte a v).ctxs = s.ctxs := rfl
@[simp] theorem State.setByte_nis (s : State) (a : Nat) (v : Byte) : (s.setByte a v).nis = s.nis := rfl
@[simp] theorem State.setByte_cms (s : State) (a : Nat) (v : Byte) : (s.setByte a v).cms = s.cms := rfl
@[simp] theorem State.setByte_reqs (s : State) (a : Nat) (v : Byte) : (s.setByte a v).reqs = s.reqs := rfl
@[simp] theorem State.setByte_coll (s : State) (a : Nat) (v : Byte) : (s.setByte a v).coll = s.coll := rfl
@[simp] theorem State.setByte_vcs (s : State) (a : Nat) (v : Byte) : (s.setByte a v).vcs = s.vcs := rfl
@[simp] theorem State.setByte_openPkts (s : State) (a : Nat) (v : Byte) : (s.setByte a v).openPkts = s.openPkts := rfl
@[simp] theorem State.setByte_linkUse (s : State) (a : Nat) (v : Byte) : (s.setByte a v).linkUse = s.linkUse := rfl
@[simp] theorem State.setByte_links (s : State) (a : Nat) (v : Byte) : (s.setByte a v).links = s.links := rfl
@[simp] theorem State.setByte_flitUeAt (s : State) (a : Nat) (v : Byte) : (s.setByte a v).flitUeAt = s.flitUeAt := rfl
@[simp] theorem State.setByte_oversizeAt (s : State) (a : Nat) (v : Byte) : (s.setByte a v).oversizeAt = s.oversizeAt := rfl
@[simp] theorem State.setByte_eject (s : State) (a : Nat) (v : Byte) : (s.setByte a v).eject = s.eject := rfl
@[simp] theorem State.setByte_defers (s : State) (a : Nat) (v : Byte) : (s.setByte a v).defers = s.defers := rfl
@[simp] theorem State.setByte_rels (s : State) (a : Nat) (v : Byte) : (s.setByte a v).rels = s.rels := rfl
@[simp] theorem State.setByte_aes (s : State) (a : Nat) (v : Byte) : (s.setByte a v).aes = s.aes := rfl
@[simp] theorem State.setByte_shift (s : State) (a : Nat) (v : Byte) : (s.setByte a v).shift = s.shift := rfl
@[simp] theorem State.setByte_locks (s : State) (a : Nat) (v : Byte) : (s.setByte a v).locks = s.locks := rfl
@[simp] theorem State.setByte_rdata (s : State) (a : Nat) (v : Byte) : (s.setByte a v).rdata = s.rdata := rfl
@[simp] theorem State.setByte_parked (s : State) (a : Nat) (v : Byte) : (s.setByte a v).parked = s.parked := rfl
@[simp] theorem State.setByte_tests (s : State) (a : Nat) (v : Byte) : (s.setByte a v).tests = s.tests := rfl
@[simp] theorem State.setByte_rr (s : State) (a : Nat) (v : Byte) : (s.setByte a v).rr = s.rr := rfl
@[simp] theorem State.setByte_banks (s : State) (a : Nat) (v : Byte) : (s.setByte a v).banks = s.banks := rfl
@[simp] theorem State.setByte_lsRows (s : State) (a : Nat) (v : Byte) : (s.setByte a v).lsRows = s.lsRows := rfl
@[simp] theorem State.setByte_ports (s : State) (a : Nat) (v : Byte) : (s.setByte a v).ports = s.ports := rfl
@[simp] theorem State.setByte_pstat (s : State) (a : Nat) (v : Byte) : (s.setByte a v).pstat = s.pstat := rfl
@[simp] theorem State.setByte_sat (s : State) (a : Nat) (v : Byte) : (s.setByte a v).sat = s.sat := rfl
@[simp] theorem State.setByte_doms (s : State) (a : Nat) (v : Byte) : (s.setByte a v).doms = s.doms := rfl
@[simp] theorem State.setByte_flushes (s : State) (a : Nat) (v : Byte) : (s.setByte a v).flushes = s.flushes := rfl
@[simp] theorem State.setByte_stopped (s : State) (a : Nat) (v : Byte) : (s.setByte a v).stopped = s.stopped := rfl
@[simp] theorem State.setByte_beacon (s : State) (a : Nat) (v : Byte) : (s.setByte a v).beacon = s.beacon := rfl
@[simp] theorem State.setByte_pulses (s : State) (a : Nat) (v : Byte) : (s.setByte a v).pulses = s.pulses := rfl
@[simp] theorem State.setByte_pairs (s : State) (a : Nat) (v : Byte) : (s.setByte a v).pairs = s.pairs := rfl
@[simp] theorem State.setByte_ev (s : State) (a : Nat) (v : Byte) : (s.setByte a v).ev = s.ev := rfl
@[simp] theorem State.setByte_mc (s : State) (a : Nat) (v : Byte) : (s.setByte a v).mc = s.mc := rfl
@[simp] theorem State.setByte_pw (s : State) (a : Nat) (v : Byte) : (s.setByte a v).pw = s.pw := rfl

/-! store changes mem alone. -/
@[simp] theorem State.store_pending (s : State) (a k v : Nat) : (s.store a k v).pending = s.pending := rfl
@[simp] theorem State.store_free (s : State) (a k v : Nat) : (s.store a k v).free = s.free := rfl
@[simp] theorem State.store_serial (s : State) (a k v : Nat) : (s.store a k v).serial = s.serial := rfl
@[simp] theorem State.store_now (s : State) (a k v : Nat) : (s.store a k v).now = s.now := rfl
@[simp] theorem State.store_regs (s : State) (a k v : Nat) : (s.store a k v).regs = s.regs := rfl
@[simp] theorem State.store_ecc (s : State) (a k v : Nat) : (s.store a k v).ecc = s.ecc := rfl
@[simp] theorem State.store_pres (s : State) (a k v : Nat) : (s.store a k v).pres = s.pres := rfl
@[simp] theorem State.store_imem (s : State) (a k v : Nat) : (s.store a k v).imem = s.imem := rfl
@[simp] theorem State.store_pes (s : State) (a k v : Nat) : (s.store a k v).pes = s.pes := rfl
@[simp] theorem State.store_ctxs (s : State) (a k v : Nat) : (s.store a k v).ctxs = s.ctxs := rfl
@[simp] theorem State.store_nis (s : State) (a k v : Nat) : (s.store a k v).nis = s.nis := rfl
@[simp] theorem State.store_cms (s : State) (a k v : Nat) : (s.store a k v).cms = s.cms := rfl
@[simp] theorem State.store_reqs (s : State) (a k v : Nat) : (s.store a k v).reqs = s.reqs := rfl
@[simp] theorem State.store_coll (s : State) (a k v : Nat) : (s.store a k v).coll = s.coll := rfl
@[simp] theorem State.store_vcs (s : State) (a k v : Nat) : (s.store a k v).vcs = s.vcs := rfl
@[simp] theorem State.store_openPkts (s : State) (a k v : Nat) : (s.store a k v).openPkts = s.openPkts := rfl
@[simp] theorem State.store_linkUse (s : State) (a k v : Nat) : (s.store a k v).linkUse = s.linkUse := rfl
@[simp] theorem State.store_links (s : State) (a k v : Nat) : (s.store a k v).links = s.links := rfl
@[simp] theorem State.store_flitUeAt (s : State) (a k v : Nat) : (s.store a k v).flitUeAt = s.flitUeAt := rfl
@[simp] theorem State.store_oversizeAt (s : State) (a k v : Nat) : (s.store a k v).oversizeAt = s.oversizeAt := rfl
@[simp] theorem State.store_eject (s : State) (a k v : Nat) : (s.store a k v).eject = s.eject := rfl
@[simp] theorem State.store_defers (s : State) (a k v : Nat) : (s.store a k v).defers = s.defers := rfl
@[simp] theorem State.store_rels (s : State) (a k v : Nat) : (s.store a k v).rels = s.rels := rfl
@[simp] theorem State.store_aes (s : State) (a k v : Nat) : (s.store a k v).aes = s.aes := rfl
@[simp] theorem State.store_shift (s : State) (a k v : Nat) : (s.store a k v).shift = s.shift := rfl
@[simp] theorem State.store_locks (s : State) (a k v : Nat) : (s.store a k v).locks = s.locks := rfl
@[simp] theorem State.store_rdata (s : State) (a k v : Nat) : (s.store a k v).rdata = s.rdata := rfl
@[simp] theorem State.store_parked (s : State) (a k v : Nat) : (s.store a k v).parked = s.parked := rfl
@[simp] theorem State.store_tests (s : State) (a k v : Nat) : (s.store a k v).tests = s.tests := rfl
@[simp] theorem State.store_rr (s : State) (a k v : Nat) : (s.store a k v).rr = s.rr := rfl
@[simp] theorem State.store_banks (s : State) (a k v : Nat) : (s.store a k v).banks = s.banks := rfl
@[simp] theorem State.store_lsRows (s : State) (a k v : Nat) : (s.store a k v).lsRows = s.lsRows := rfl
@[simp] theorem State.store_ports (s : State) (a k v : Nat) : (s.store a k v).ports = s.ports := rfl
@[simp] theorem State.store_pstat (s : State) (a k v : Nat) : (s.store a k v).pstat = s.pstat := rfl
@[simp] theorem State.store_sat (s : State) (a k v : Nat) : (s.store a k v).sat = s.sat := rfl
@[simp] theorem State.store_doms (s : State) (a k v : Nat) : (s.store a k v).doms = s.doms := rfl
@[simp] theorem State.store_flushes (s : State) (a k v : Nat) : (s.store a k v).flushes = s.flushes := rfl
@[simp] theorem State.store_stopped (s : State) (a k v : Nat) : (s.store a k v).stopped = s.stopped := rfl
@[simp] theorem State.store_beacon (s : State) (a k v : Nat) : (s.store a k v).beacon = s.beacon := rfl
@[simp] theorem State.store_pulses (s : State) (a k v : Nat) : (s.store a k v).pulses = s.pulses := rfl
@[simp] theorem State.store_pairs (s : State) (a k v : Nat) : (s.store a k v).pairs = s.pairs := rfl
@[simp] theorem State.store_ev (s : State) (a k v : Nat) : (s.store a k v).ev = s.ev := rfl
@[simp] theorem State.store_mc (s : State) (a k v : Nat) : (s.store a k v).mc = s.mc := rfl
@[simp] theorem State.store_pw (s : State) (a k v : Nat) : (s.store a k v).pw = s.pw := rfl

/-! setEcc changes ecc alone. -/
@[simp] theorem State.setEcc_pending (s : State) (a : Nat) (e : Ecc) : (s.setEcc a e).pending = s.pending := rfl
@[simp] theorem State.setEcc_free (s : State) (a : Nat) (e : Ecc) : (s.setEcc a e).free = s.free := rfl
@[simp] theorem State.setEcc_serial (s : State) (a : Nat) (e : Ecc) : (s.setEcc a e).serial = s.serial := rfl
@[simp] theorem State.setEcc_now (s : State) (a : Nat) (e : Ecc) : (s.setEcc a e).now = s.now := rfl
@[simp] theorem State.setEcc_regs (s : State) (a : Nat) (e : Ecc) : (s.setEcc a e).regs = s.regs := rfl
@[simp] theorem State.setEcc_mem (s : State) (a : Nat) (e : Ecc) : (s.setEcc a e).mem = s.mem := rfl
@[simp] theorem State.setEcc_pres (s : State) (a : Nat) (e : Ecc) : (s.setEcc a e).pres = s.pres := rfl
@[simp] theorem State.setEcc_imem (s : State) (a : Nat) (e : Ecc) : (s.setEcc a e).imem = s.imem := rfl
@[simp] theorem State.setEcc_pes (s : State) (a : Nat) (e : Ecc) : (s.setEcc a e).pes = s.pes := rfl
@[simp] theorem State.setEcc_ctxs (s : State) (a : Nat) (e : Ecc) : (s.setEcc a e).ctxs = s.ctxs := rfl
@[simp] theorem State.setEcc_nis (s : State) (a : Nat) (e : Ecc) : (s.setEcc a e).nis = s.nis := rfl
@[simp] theorem State.setEcc_cms (s : State) (a : Nat) (e : Ecc) : (s.setEcc a e).cms = s.cms := rfl
@[simp] theorem State.setEcc_reqs (s : State) (a : Nat) (e : Ecc) : (s.setEcc a e).reqs = s.reqs := rfl
@[simp] theorem State.setEcc_coll (s : State) (a : Nat) (e : Ecc) : (s.setEcc a e).coll = s.coll := rfl
@[simp] theorem State.setEcc_vcs (s : State) (a : Nat) (e : Ecc) : (s.setEcc a e).vcs = s.vcs := rfl
@[simp] theorem State.setEcc_openPkts (s : State) (a : Nat) (e : Ecc) : (s.setEcc a e).openPkts = s.openPkts := rfl
@[simp] theorem State.setEcc_linkUse (s : State) (a : Nat) (e : Ecc) : (s.setEcc a e).linkUse = s.linkUse := rfl
@[simp] theorem State.setEcc_links (s : State) (a : Nat) (e : Ecc) : (s.setEcc a e).links = s.links := rfl
@[simp] theorem State.setEcc_flitUeAt (s : State) (a : Nat) (e : Ecc) : (s.setEcc a e).flitUeAt = s.flitUeAt := rfl
@[simp] theorem State.setEcc_oversizeAt (s : State) (a : Nat) (e : Ecc) : (s.setEcc a e).oversizeAt = s.oversizeAt := rfl
@[simp] theorem State.setEcc_eject (s : State) (a : Nat) (e : Ecc) : (s.setEcc a e).eject = s.eject := rfl
@[simp] theorem State.setEcc_defers (s : State) (a : Nat) (e : Ecc) : (s.setEcc a e).defers = s.defers := rfl
@[simp] theorem State.setEcc_rels (s : State) (a : Nat) (e : Ecc) : (s.setEcc a e).rels = s.rels := rfl
@[simp] theorem State.setEcc_aes (s : State) (a : Nat) (e : Ecc) : (s.setEcc a e).aes = s.aes := rfl
@[simp] theorem State.setEcc_shift (s : State) (a : Nat) (e : Ecc) : (s.setEcc a e).shift = s.shift := rfl
@[simp] theorem State.setEcc_locks (s : State) (a : Nat) (e : Ecc) : (s.setEcc a e).locks = s.locks := rfl
@[simp] theorem State.setEcc_rdata (s : State) (a : Nat) (e : Ecc) : (s.setEcc a e).rdata = s.rdata := rfl
@[simp] theorem State.setEcc_parked (s : State) (a : Nat) (e : Ecc) : (s.setEcc a e).parked = s.parked := rfl
@[simp] theorem State.setEcc_tests (s : State) (a : Nat) (e : Ecc) : (s.setEcc a e).tests = s.tests := rfl
@[simp] theorem State.setEcc_rr (s : State) (a : Nat) (e : Ecc) : (s.setEcc a e).rr = s.rr := rfl
@[simp] theorem State.setEcc_banks (s : State) (a : Nat) (e : Ecc) : (s.setEcc a e).banks = s.banks := rfl
@[simp] theorem State.setEcc_lsRows (s : State) (a : Nat) (e : Ecc) : (s.setEcc a e).lsRows = s.lsRows := rfl
@[simp] theorem State.setEcc_ports (s : State) (a : Nat) (e : Ecc) : (s.setEcc a e).ports = s.ports := rfl
@[simp] theorem State.setEcc_pstat (s : State) (a : Nat) (e : Ecc) : (s.setEcc a e).pstat = s.pstat := rfl
@[simp] theorem State.setEcc_sat (s : State) (a : Nat) (e : Ecc) : (s.setEcc a e).sat = s.sat := rfl
@[simp] theorem State.setEcc_doms (s : State) (a : Nat) (e : Ecc) : (s.setEcc a e).doms = s.doms := rfl
@[simp] theorem State.setEcc_flushes (s : State) (a : Nat) (e : Ecc) : (s.setEcc a e).flushes = s.flushes := rfl
@[simp] theorem State.setEcc_stopped (s : State) (a : Nat) (e : Ecc) : (s.setEcc a e).stopped = s.stopped := rfl
@[simp] theorem State.setEcc_beacon (s : State) (a : Nat) (e : Ecc) : (s.setEcc a e).beacon = s.beacon := rfl
@[simp] theorem State.setEcc_pulses (s : State) (a : Nat) (e : Ecc) : (s.setEcc a e).pulses = s.pulses := rfl
@[simp] theorem State.setEcc_pairs (s : State) (a : Nat) (e : Ecc) : (s.setEcc a e).pairs = s.pairs := rfl
@[simp] theorem State.setEcc_ev (s : State) (a : Nat) (e : Ecc) : (s.setEcc a e).ev = s.ev := rfl
@[simp] theorem State.setEcc_mc (s : State) (a : Nat) (e : Ecc) : (s.setEcc a e).mc = s.mc := rfl
@[simp] theorem State.setEcc_pw (s : State) (a : Nat) (e : Ecc) : (s.setEcc a e).pw = s.pw := rfl

/-! setPres changes pres alone. -/
@[simp] theorem State.setPres_pending (s : State) (a : Nat) (p : Presence) : (s.setPres a p).pending = s.pending := rfl
@[simp] theorem State.setPres_free (s : State) (a : Nat) (p : Presence) : (s.setPres a p).free = s.free := rfl
@[simp] theorem State.setPres_serial (s : State) (a : Nat) (p : Presence) : (s.setPres a p).serial = s.serial := rfl
@[simp] theorem State.setPres_now (s : State) (a : Nat) (p : Presence) : (s.setPres a p).now = s.now := rfl
@[simp] theorem State.setPres_regs (s : State) (a : Nat) (p : Presence) : (s.setPres a p).regs = s.regs := rfl
@[simp] theorem State.setPres_mem (s : State) (a : Nat) (p : Presence) : (s.setPres a p).mem = s.mem := rfl
@[simp] theorem State.setPres_ecc (s : State) (a : Nat) (p : Presence) : (s.setPres a p).ecc = s.ecc := rfl
@[simp] theorem State.setPres_imem (s : State) (a : Nat) (p : Presence) : (s.setPres a p).imem = s.imem := rfl
@[simp] theorem State.setPres_pes (s : State) (a : Nat) (p : Presence) : (s.setPres a p).pes = s.pes := rfl
@[simp] theorem State.setPres_ctxs (s : State) (a : Nat) (p : Presence) : (s.setPres a p).ctxs = s.ctxs := rfl
@[simp] theorem State.setPres_nis (s : State) (a : Nat) (p : Presence) : (s.setPres a p).nis = s.nis := rfl
@[simp] theorem State.setPres_cms (s : State) (a : Nat) (p : Presence) : (s.setPres a p).cms = s.cms := rfl
@[simp] theorem State.setPres_reqs (s : State) (a : Nat) (p : Presence) : (s.setPres a p).reqs = s.reqs := rfl
@[simp] theorem State.setPres_coll (s : State) (a : Nat) (p : Presence) : (s.setPres a p).coll = s.coll := rfl
@[simp] theorem State.setPres_vcs (s : State) (a : Nat) (p : Presence) : (s.setPres a p).vcs = s.vcs := rfl
@[simp] theorem State.setPres_openPkts (s : State) (a : Nat) (p : Presence) : (s.setPres a p).openPkts = s.openPkts := rfl
@[simp] theorem State.setPres_linkUse (s : State) (a : Nat) (p : Presence) : (s.setPres a p).linkUse = s.linkUse := rfl
@[simp] theorem State.setPres_links (s : State) (a : Nat) (p : Presence) : (s.setPres a p).links = s.links := rfl
@[simp] theorem State.setPres_flitUeAt (s : State) (a : Nat) (p : Presence) : (s.setPres a p).flitUeAt = s.flitUeAt := rfl
@[simp] theorem State.setPres_oversizeAt (s : State) (a : Nat) (p : Presence) : (s.setPres a p).oversizeAt = s.oversizeAt := rfl
@[simp] theorem State.setPres_eject (s : State) (a : Nat) (p : Presence) : (s.setPres a p).eject = s.eject := rfl
@[simp] theorem State.setPres_defers (s : State) (a : Nat) (p : Presence) : (s.setPres a p).defers = s.defers := rfl
@[simp] theorem State.setPres_rels (s : State) (a : Nat) (p : Presence) : (s.setPres a p).rels = s.rels := rfl
@[simp] theorem State.setPres_aes (s : State) (a : Nat) (p : Presence) : (s.setPres a p).aes = s.aes := rfl
@[simp] theorem State.setPres_shift (s : State) (a : Nat) (p : Presence) : (s.setPres a p).shift = s.shift := rfl
@[simp] theorem State.setPres_locks (s : State) (a : Nat) (p : Presence) : (s.setPres a p).locks = s.locks := rfl
@[simp] theorem State.setPres_rdata (s : State) (a : Nat) (p : Presence) : (s.setPres a p).rdata = s.rdata := rfl
@[simp] theorem State.setPres_parked (s : State) (a : Nat) (p : Presence) : (s.setPres a p).parked = s.parked := rfl
@[simp] theorem State.setPres_tests (s : State) (a : Nat) (p : Presence) : (s.setPres a p).tests = s.tests := rfl
@[simp] theorem State.setPres_rr (s : State) (a : Nat) (p : Presence) : (s.setPres a p).rr = s.rr := rfl
@[simp] theorem State.setPres_banks (s : State) (a : Nat) (p : Presence) : (s.setPres a p).banks = s.banks := rfl
@[simp] theorem State.setPres_lsRows (s : State) (a : Nat) (p : Presence) : (s.setPres a p).lsRows = s.lsRows := rfl
@[simp] theorem State.setPres_ports (s : State) (a : Nat) (p : Presence) : (s.setPres a p).ports = s.ports := rfl
@[simp] theorem State.setPres_pstat (s : State) (a : Nat) (p : Presence) : (s.setPres a p).pstat = s.pstat := rfl
@[simp] theorem State.setPres_sat (s : State) (a : Nat) (p : Presence) : (s.setPres a p).sat = s.sat := rfl
@[simp] theorem State.setPres_doms (s : State) (a : Nat) (p : Presence) : (s.setPres a p).doms = s.doms := rfl
@[simp] theorem State.setPres_flushes (s : State) (a : Nat) (p : Presence) : (s.setPres a p).flushes = s.flushes := rfl
@[simp] theorem State.setPres_stopped (s : State) (a : Nat) (p : Presence) : (s.setPres a p).stopped = s.stopped := rfl
@[simp] theorem State.setPres_beacon (s : State) (a : Nat) (p : Presence) : (s.setPres a p).beacon = s.beacon := rfl
@[simp] theorem State.setPres_pulses (s : State) (a : Nat) (p : Presence) : (s.setPres a p).pulses = s.pulses := rfl
@[simp] theorem State.setPres_pairs (s : State) (a : Nat) (p : Presence) : (s.setPres a p).pairs = s.pairs := rfl
@[simp] theorem State.setPres_ev (s : State) (a : Nat) (p : Presence) : (s.setPres a p).ev = s.ev := rfl
@[simp] theorem State.setPres_mc (s : State) (a : Nat) (p : Presence) : (s.setPres a p).mc = s.mc := rfl
@[simp] theorem State.setPres_pw (s : State) (a : Nat) (p : Presence) : (s.setPres a p).pw = s.pw := rfl

/-! setEject changes eject alone. -/
@[simp] theorem State.setEject_pending (s : State) (e : Nat) (l : List Packet) : (s.setEject e l).pending = s.pending := rfl
@[simp] theorem State.setEject_free (s : State) (e : Nat) (l : List Packet) : (s.setEject e l).free = s.free := rfl
@[simp] theorem State.setEject_serial (s : State) (e : Nat) (l : List Packet) : (s.setEject e l).serial = s.serial := rfl
@[simp] theorem State.setEject_now (s : State) (e : Nat) (l : List Packet) : (s.setEject e l).now = s.now := rfl
@[simp] theorem State.setEject_regs (s : State) (e : Nat) (l : List Packet) : (s.setEject e l).regs = s.regs := rfl
@[simp] theorem State.setEject_mem (s : State) (e : Nat) (l : List Packet) : (s.setEject e l).mem = s.mem := rfl
@[simp] theorem State.setEject_ecc (s : State) (e : Nat) (l : List Packet) : (s.setEject e l).ecc = s.ecc := rfl
@[simp] theorem State.setEject_pres (s : State) (e : Nat) (l : List Packet) : (s.setEject e l).pres = s.pres := rfl
@[simp] theorem State.setEject_imem (s : State) (e : Nat) (l : List Packet) : (s.setEject e l).imem = s.imem := rfl
@[simp] theorem State.setEject_pes (s : State) (e : Nat) (l : List Packet) : (s.setEject e l).pes = s.pes := rfl
@[simp] theorem State.setEject_ctxs (s : State) (e : Nat) (l : List Packet) : (s.setEject e l).ctxs = s.ctxs := rfl
@[simp] theorem State.setEject_nis (s : State) (e : Nat) (l : List Packet) : (s.setEject e l).nis = s.nis := rfl
@[simp] theorem State.setEject_cms (s : State) (e : Nat) (l : List Packet) : (s.setEject e l).cms = s.cms := rfl
@[simp] theorem State.setEject_reqs (s : State) (e : Nat) (l : List Packet) : (s.setEject e l).reqs = s.reqs := rfl
@[simp] theorem State.setEject_coll (s : State) (e : Nat) (l : List Packet) : (s.setEject e l).coll = s.coll := rfl
@[simp] theorem State.setEject_vcs (s : State) (e : Nat) (l : List Packet) : (s.setEject e l).vcs = s.vcs := rfl
@[simp] theorem State.setEject_openPkts (s : State) (e : Nat) (l : List Packet) : (s.setEject e l).openPkts = s.openPkts := rfl
@[simp] theorem State.setEject_linkUse (s : State) (e : Nat) (l : List Packet) : (s.setEject e l).linkUse = s.linkUse := rfl
@[simp] theorem State.setEject_links (s : State) (e : Nat) (l : List Packet) : (s.setEject e l).links = s.links := rfl
@[simp] theorem State.setEject_flitUeAt (s : State) (e : Nat) (l : List Packet) : (s.setEject e l).flitUeAt = s.flitUeAt := rfl
@[simp] theorem State.setEject_oversizeAt (s : State) (e : Nat) (l : List Packet) : (s.setEject e l).oversizeAt = s.oversizeAt := rfl
@[simp] theorem State.setEject_defers (s : State) (e : Nat) (l : List Packet) : (s.setEject e l).defers = s.defers := rfl
@[simp] theorem State.setEject_rels (s : State) (e : Nat) (l : List Packet) : (s.setEject e l).rels = s.rels := rfl
@[simp] theorem State.setEject_aes (s : State) (e : Nat) (l : List Packet) : (s.setEject e l).aes = s.aes := rfl
@[simp] theorem State.setEject_shift (s : State) (e : Nat) (l : List Packet) : (s.setEject e l).shift = s.shift := rfl
@[simp] theorem State.setEject_locks (s : State) (e : Nat) (l : List Packet) : (s.setEject e l).locks = s.locks := rfl
@[simp] theorem State.setEject_rdata (s : State) (e : Nat) (l : List Packet) : (s.setEject e l).rdata = s.rdata := rfl
@[simp] theorem State.setEject_parked (s : State) (e : Nat) (l : List Packet) : (s.setEject e l).parked = s.parked := rfl
@[simp] theorem State.setEject_tests (s : State) (e : Nat) (l : List Packet) : (s.setEject e l).tests = s.tests := rfl
@[simp] theorem State.setEject_rr (s : State) (e : Nat) (l : List Packet) : (s.setEject e l).rr = s.rr := rfl
@[simp] theorem State.setEject_banks (s : State) (e : Nat) (l : List Packet) : (s.setEject e l).banks = s.banks := rfl
@[simp] theorem State.setEject_lsRows (s : State) (e : Nat) (l : List Packet) : (s.setEject e l).lsRows = s.lsRows := rfl
@[simp] theorem State.setEject_ports (s : State) (e : Nat) (l : List Packet) : (s.setEject e l).ports = s.ports := rfl
@[simp] theorem State.setEject_pstat (s : State) (e : Nat) (l : List Packet) : (s.setEject e l).pstat = s.pstat := rfl
@[simp] theorem State.setEject_sat (s : State) (e : Nat) (l : List Packet) : (s.setEject e l).sat = s.sat := rfl
@[simp] theorem State.setEject_doms (s : State) (e : Nat) (l : List Packet) : (s.setEject e l).doms = s.doms := rfl
@[simp] theorem State.setEject_flushes (s : State) (e : Nat) (l : List Packet) : (s.setEject e l).flushes = s.flushes := rfl
@[simp] theorem State.setEject_stopped (s : State) (e : Nat) (l : List Packet) : (s.setEject e l).stopped = s.stopped := rfl
@[simp] theorem State.setEject_beacon (s : State) (e : Nat) (l : List Packet) : (s.setEject e l).beacon = s.beacon := rfl
@[simp] theorem State.setEject_pulses (s : State) (e : Nat) (l : List Packet) : (s.setEject e l).pulses = s.pulses := rfl
@[simp] theorem State.setEject_pairs (s : State) (e : Nat) (l : List Packet) : (s.setEject e l).pairs = s.pairs := rfl
@[simp] theorem State.setEject_ev (s : State) (e : Nat) (l : List Packet) : (s.setEject e l).ev = s.ev := rfl
@[simp] theorem State.setEject_mc (s : State) (e : Nat) (l : List Packet) : (s.setEject e l).mc = s.mc := rfl
@[simp] theorem State.setEject_pw (s : State) (e : Nat) (l : List Packet) : (s.setEject e l).pw = s.pw := rfl

/-! setMc changes mc alone. -/
@[simp] theorem State.setMc_pending (s : State) (f : Mc → Mc) : (s.setMc f).pending = s.pending := rfl
@[simp] theorem State.setMc_free (s : State) (f : Mc → Mc) : (s.setMc f).free = s.free := rfl
@[simp] theorem State.setMc_serial (s : State) (f : Mc → Mc) : (s.setMc f).serial = s.serial := rfl
@[simp] theorem State.setMc_now (s : State) (f : Mc → Mc) : (s.setMc f).now = s.now := rfl
@[simp] theorem State.setMc_regs (s : State) (f : Mc → Mc) : (s.setMc f).regs = s.regs := rfl
@[simp] theorem State.setMc_mem (s : State) (f : Mc → Mc) : (s.setMc f).mem = s.mem := rfl
@[simp] theorem State.setMc_ecc (s : State) (f : Mc → Mc) : (s.setMc f).ecc = s.ecc := rfl
@[simp] theorem State.setMc_pres (s : State) (f : Mc → Mc) : (s.setMc f).pres = s.pres := rfl
@[simp] theorem State.setMc_imem (s : State) (f : Mc → Mc) : (s.setMc f).imem = s.imem := rfl
@[simp] theorem State.setMc_pes (s : State) (f : Mc → Mc) : (s.setMc f).pes = s.pes := rfl
@[simp] theorem State.setMc_ctxs (s : State) (f : Mc → Mc) : (s.setMc f).ctxs = s.ctxs := rfl
@[simp] theorem State.setMc_nis (s : State) (f : Mc → Mc) : (s.setMc f).nis = s.nis := rfl
@[simp] theorem State.setMc_cms (s : State) (f : Mc → Mc) : (s.setMc f).cms = s.cms := rfl
@[simp] theorem State.setMc_reqs (s : State) (f : Mc → Mc) : (s.setMc f).reqs = s.reqs := rfl
@[simp] theorem State.setMc_coll (s : State) (f : Mc → Mc) : (s.setMc f).coll = s.coll := rfl
@[simp] theorem State.setMc_vcs (s : State) (f : Mc → Mc) : (s.setMc f).vcs = s.vcs := rfl
@[simp] theorem State.setMc_openPkts (s : State) (f : Mc → Mc) : (s.setMc f).openPkts = s.openPkts := rfl
@[simp] theorem State.setMc_linkUse (s : State) (f : Mc → Mc) : (s.setMc f).linkUse = s.linkUse := rfl
@[simp] theorem State.setMc_links (s : State) (f : Mc → Mc) : (s.setMc f).links = s.links := rfl
@[simp] theorem State.setMc_flitUeAt (s : State) (f : Mc → Mc) : (s.setMc f).flitUeAt = s.flitUeAt := rfl
@[simp] theorem State.setMc_oversizeAt (s : State) (f : Mc → Mc) : (s.setMc f).oversizeAt = s.oversizeAt := rfl
@[simp] theorem State.setMc_eject (s : State) (f : Mc → Mc) : (s.setMc f).eject = s.eject := rfl
@[simp] theorem State.setMc_defers (s : State) (f : Mc → Mc) : (s.setMc f).defers = s.defers := rfl
@[simp] theorem State.setMc_rels (s : State) (f : Mc → Mc) : (s.setMc f).rels = s.rels := rfl
@[simp] theorem State.setMc_aes (s : State) (f : Mc → Mc) : (s.setMc f).aes = s.aes := rfl
@[simp] theorem State.setMc_shift (s : State) (f : Mc → Mc) : (s.setMc f).shift = s.shift := rfl
@[simp] theorem State.setMc_locks (s : State) (f : Mc → Mc) : (s.setMc f).locks = s.locks := rfl
@[simp] theorem State.setMc_rdata (s : State) (f : Mc → Mc) : (s.setMc f).rdata = s.rdata := rfl
@[simp] theorem State.setMc_parked (s : State) (f : Mc → Mc) : (s.setMc f).parked = s.parked := rfl
@[simp] theorem State.setMc_tests (s : State) (f : Mc → Mc) : (s.setMc f).tests = s.tests := rfl
@[simp] theorem State.setMc_rr (s : State) (f : Mc → Mc) : (s.setMc f).rr = s.rr := rfl
@[simp] theorem State.setMc_banks (s : State) (f : Mc → Mc) : (s.setMc f).banks = s.banks := rfl
@[simp] theorem State.setMc_lsRows (s : State) (f : Mc → Mc) : (s.setMc f).lsRows = s.lsRows := rfl
@[simp] theorem State.setMc_ports (s : State) (f : Mc → Mc) : (s.setMc f).ports = s.ports := rfl
@[simp] theorem State.setMc_pstat (s : State) (f : Mc → Mc) : (s.setMc f).pstat = s.pstat := rfl
@[simp] theorem State.setMc_sat (s : State) (f : Mc → Mc) : (s.setMc f).sat = s.sat := rfl
@[simp] theorem State.setMc_doms (s : State) (f : Mc → Mc) : (s.setMc f).doms = s.doms := rfl
@[simp] theorem State.setMc_flushes (s : State) (f : Mc → Mc) : (s.setMc f).flushes = s.flushes := rfl
@[simp] theorem State.setMc_stopped (s : State) (f : Mc → Mc) : (s.setMc f).stopped = s.stopped := rfl
@[simp] theorem State.setMc_beacon (s : State) (f : Mc → Mc) : (s.setMc f).beacon = s.beacon := rfl
@[simp] theorem State.setMc_pulses (s : State) (f : Mc → Mc) : (s.setMc f).pulses = s.pulses := rfl
@[simp] theorem State.setMc_pairs (s : State) (f : Mc → Mc) : (s.setMc f).pairs = s.pairs := rfl
@[simp] theorem State.setMc_ev (s : State) (f : Mc → Mc) : (s.setMc f).ev = s.ev := rfl
@[simp] theorem State.setMc_pw (s : State) (f : Mc → Mc) : (s.setMc f).pw = s.pw := rfl

/-! setPw changes pw alone. -/
@[simp] theorem State.setPw_pending (s : State) (f : Pow → Pow) : (s.setPw f).pending = s.pending := rfl
@[simp] theorem State.setPw_free (s : State) (f : Pow → Pow) : (s.setPw f).free = s.free := rfl
@[simp] theorem State.setPw_serial (s : State) (f : Pow → Pow) : (s.setPw f).serial = s.serial := rfl
@[simp] theorem State.setPw_now (s : State) (f : Pow → Pow) : (s.setPw f).now = s.now := rfl
@[simp] theorem State.setPw_regs (s : State) (f : Pow → Pow) : (s.setPw f).regs = s.regs := rfl
@[simp] theorem State.setPw_mem (s : State) (f : Pow → Pow) : (s.setPw f).mem = s.mem := rfl
@[simp] theorem State.setPw_ecc (s : State) (f : Pow → Pow) : (s.setPw f).ecc = s.ecc := rfl
@[simp] theorem State.setPw_pres (s : State) (f : Pow → Pow) : (s.setPw f).pres = s.pres := rfl
@[simp] theorem State.setPw_imem (s : State) (f : Pow → Pow) : (s.setPw f).imem = s.imem := rfl
@[simp] theorem State.setPw_pes (s : State) (f : Pow → Pow) : (s.setPw f).pes = s.pes := rfl
@[simp] theorem State.setPw_ctxs (s : State) (f : Pow → Pow) : (s.setPw f).ctxs = s.ctxs := rfl
@[simp] theorem State.setPw_nis (s : State) (f : Pow → Pow) : (s.setPw f).nis = s.nis := rfl
@[simp] theorem State.setPw_cms (s : State) (f : Pow → Pow) : (s.setPw f).cms = s.cms := rfl
@[simp] theorem State.setPw_reqs (s : State) (f : Pow → Pow) : (s.setPw f).reqs = s.reqs := rfl
@[simp] theorem State.setPw_coll (s : State) (f : Pow → Pow) : (s.setPw f).coll = s.coll := rfl
@[simp] theorem State.setPw_vcs (s : State) (f : Pow → Pow) : (s.setPw f).vcs = s.vcs := rfl
@[simp] theorem State.setPw_openPkts (s : State) (f : Pow → Pow) : (s.setPw f).openPkts = s.openPkts := rfl
@[simp] theorem State.setPw_linkUse (s : State) (f : Pow → Pow) : (s.setPw f).linkUse = s.linkUse := rfl
@[simp] theorem State.setPw_links (s : State) (f : Pow → Pow) : (s.setPw f).links = s.links := rfl
@[simp] theorem State.setPw_flitUeAt (s : State) (f : Pow → Pow) : (s.setPw f).flitUeAt = s.flitUeAt := rfl
@[simp] theorem State.setPw_oversizeAt (s : State) (f : Pow → Pow) : (s.setPw f).oversizeAt = s.oversizeAt := rfl
@[simp] theorem State.setPw_eject (s : State) (f : Pow → Pow) : (s.setPw f).eject = s.eject := rfl
@[simp] theorem State.setPw_defers (s : State) (f : Pow → Pow) : (s.setPw f).defers = s.defers := rfl
@[simp] theorem State.setPw_rels (s : State) (f : Pow → Pow) : (s.setPw f).rels = s.rels := rfl
@[simp] theorem State.setPw_aes (s : State) (f : Pow → Pow) : (s.setPw f).aes = s.aes := rfl
@[simp] theorem State.setPw_shift (s : State) (f : Pow → Pow) : (s.setPw f).shift = s.shift := rfl
@[simp] theorem State.setPw_locks (s : State) (f : Pow → Pow) : (s.setPw f).locks = s.locks := rfl
@[simp] theorem State.setPw_rdata (s : State) (f : Pow → Pow) : (s.setPw f).rdata = s.rdata := rfl
@[simp] theorem State.setPw_parked (s : State) (f : Pow → Pow) : (s.setPw f).parked = s.parked := rfl
@[simp] theorem State.setPw_tests (s : State) (f : Pow → Pow) : (s.setPw f).tests = s.tests := rfl
@[simp] theorem State.setPw_rr (s : State) (f : Pow → Pow) : (s.setPw f).rr = s.rr := rfl
@[simp] theorem State.setPw_banks (s : State) (f : Pow → Pow) : (s.setPw f).banks = s.banks := rfl
@[simp] theorem State.setPw_lsRows (s : State) (f : Pow → Pow) : (s.setPw f).lsRows = s.lsRows := rfl
@[simp] theorem State.setPw_ports (s : State) (f : Pow → Pow) : (s.setPw f).ports = s.ports := rfl
@[simp] theorem State.setPw_pstat (s : State) (f : Pow → Pow) : (s.setPw f).pstat = s.pstat := rfl
@[simp] theorem State.setPw_sat (s : State) (f : Pow → Pow) : (s.setPw f).sat = s.sat := rfl
@[simp] theorem State.setPw_doms (s : State) (f : Pow → Pow) : (s.setPw f).doms = s.doms := rfl
@[simp] theorem State.setPw_flushes (s : State) (f : Pow → Pow) : (s.setPw f).flushes = s.flushes := rfl
@[simp] theorem State.setPw_stopped (s : State) (f : Pow → Pow) : (s.setPw f).stopped = s.stopped := rfl
@[simp] theorem State.setPw_beacon (s : State) (f : Pow → Pow) : (s.setPw f).beacon = s.beacon := rfl
@[simp] theorem State.setPw_pulses (s : State) (f : Pow → Pow) : (s.setPw f).pulses = s.pulses := rfl
@[simp] theorem State.setPw_pairs (s : State) (f : Pow → Pow) : (s.setPw f).pairs = s.pairs := rfl
@[simp] theorem State.setPw_ev (s : State) (f : Pow → Pow) : (s.setPw f).ev = s.ev := rfl
@[simp] theorem State.setPw_mc (s : State) (f : Pow → Pow) : (s.setPw f).mc = s.mc := rfl

/-! setVc changes vcs alone. -/
@[simp] theorem State.setVc_pending (s : State) (r j vn : Nat) (l : List Hop) : (s.setVc r j vn l).pending = s.pending := rfl
@[simp] theorem State.setVc_free (s : State) (r j vn : Nat) (l : List Hop) : (s.setVc r j vn l).free = s.free := rfl
@[simp] theorem State.setVc_serial (s : State) (r j vn : Nat) (l : List Hop) : (s.setVc r j vn l).serial = s.serial := rfl
@[simp] theorem State.setVc_now (s : State) (r j vn : Nat) (l : List Hop) : (s.setVc r j vn l).now = s.now := rfl
@[simp] theorem State.setVc_regs (s : State) (r j vn : Nat) (l : List Hop) : (s.setVc r j vn l).regs = s.regs := rfl
@[simp] theorem State.setVc_mem (s : State) (r j vn : Nat) (l : List Hop) : (s.setVc r j vn l).mem = s.mem := rfl
@[simp] theorem State.setVc_ecc (s : State) (r j vn : Nat) (l : List Hop) : (s.setVc r j vn l).ecc = s.ecc := rfl
@[simp] theorem State.setVc_pres (s : State) (r j vn : Nat) (l : List Hop) : (s.setVc r j vn l).pres = s.pres := rfl
@[simp] theorem State.setVc_imem (s : State) (r j vn : Nat) (l : List Hop) : (s.setVc r j vn l).imem = s.imem := rfl
@[simp] theorem State.setVc_pes (s : State) (r j vn : Nat) (l : List Hop) : (s.setVc r j vn l).pes = s.pes := rfl
@[simp] theorem State.setVc_ctxs (s : State) (r j vn : Nat) (l : List Hop) : (s.setVc r j vn l).ctxs = s.ctxs := rfl
@[simp] theorem State.setVc_nis (s : State) (r j vn : Nat) (l : List Hop) : (s.setVc r j vn l).nis = s.nis := rfl
@[simp] theorem State.setVc_cms (s : State) (r j vn : Nat) (l : List Hop) : (s.setVc r j vn l).cms = s.cms := rfl
@[simp] theorem State.setVc_reqs (s : State) (r j vn : Nat) (l : List Hop) : (s.setVc r j vn l).reqs = s.reqs := rfl
@[simp] theorem State.setVc_coll (s : State) (r j vn : Nat) (l : List Hop) : (s.setVc r j vn l).coll = s.coll := rfl
@[simp] theorem State.setVc_openPkts (s : State) (r j vn : Nat) (l : List Hop) : (s.setVc r j vn l).openPkts = s.openPkts := rfl
@[simp] theorem State.setVc_linkUse (s : State) (r j vn : Nat) (l : List Hop) : (s.setVc r j vn l).linkUse = s.linkUse := rfl
@[simp] theorem State.setVc_links (s : State) (r j vn : Nat) (l : List Hop) : (s.setVc r j vn l).links = s.links := rfl
@[simp] theorem State.setVc_flitUeAt (s : State) (r j vn : Nat) (l : List Hop) : (s.setVc r j vn l).flitUeAt = s.flitUeAt := rfl
@[simp] theorem State.setVc_oversizeAt (s : State) (r j vn : Nat) (l : List Hop) : (s.setVc r j vn l).oversizeAt = s.oversizeAt := rfl
@[simp] theorem State.setVc_eject (s : State) (r j vn : Nat) (l : List Hop) : (s.setVc r j vn l).eject = s.eject := rfl
@[simp] theorem State.setVc_defers (s : State) (r j vn : Nat) (l : List Hop) : (s.setVc r j vn l).defers = s.defers := rfl
@[simp] theorem State.setVc_rels (s : State) (r j vn : Nat) (l : List Hop) : (s.setVc r j vn l).rels = s.rels := rfl
@[simp] theorem State.setVc_aes (s : State) (r j vn : Nat) (l : List Hop) : (s.setVc r j vn l).aes = s.aes := rfl
@[simp] theorem State.setVc_shift (s : State) (r j vn : Nat) (l : List Hop) : (s.setVc r j vn l).shift = s.shift := rfl
@[simp] theorem State.setVc_locks (s : State) (r j vn : Nat) (l : List Hop) : (s.setVc r j vn l).locks = s.locks := rfl
@[simp] theorem State.setVc_rdata (s : State) (r j vn : Nat) (l : List Hop) : (s.setVc r j vn l).rdata = s.rdata := rfl
@[simp] theorem State.setVc_parked (s : State) (r j vn : Nat) (l : List Hop) : (s.setVc r j vn l).parked = s.parked := rfl
@[simp] theorem State.setVc_tests (s : State) (r j vn : Nat) (l : List Hop) : (s.setVc r j vn l).tests = s.tests := rfl
@[simp] theorem State.setVc_rr (s : State) (r j vn : Nat) (l : List Hop) : (s.setVc r j vn l).rr = s.rr := rfl
@[simp] theorem State.setVc_banks (s : State) (r j vn : Nat) (l : List Hop) : (s.setVc r j vn l).banks = s.banks := rfl
@[simp] theorem State.setVc_lsRows (s : State) (r j vn : Nat) (l : List Hop) : (s.setVc r j vn l).lsRows = s.lsRows := rfl
@[simp] theorem State.setVc_ports (s : State) (r j vn : Nat) (l : List Hop) : (s.setVc r j vn l).ports = s.ports := rfl
@[simp] theorem State.setVc_pstat (s : State) (r j vn : Nat) (l : List Hop) : (s.setVc r j vn l).pstat = s.pstat := rfl
@[simp] theorem State.setVc_sat (s : State) (r j vn : Nat) (l : List Hop) : (s.setVc r j vn l).sat = s.sat := rfl
@[simp] theorem State.setVc_doms (s : State) (r j vn : Nat) (l : List Hop) : (s.setVc r j vn l).doms = s.doms := rfl
@[simp] theorem State.setVc_flushes (s : State) (r j vn : Nat) (l : List Hop) : (s.setVc r j vn l).flushes = s.flushes := rfl
@[simp] theorem State.setVc_stopped (s : State) (r j vn : Nat) (l : List Hop) : (s.setVc r j vn l).stopped = s.stopped := rfl
@[simp] theorem State.setVc_beacon (s : State) (r j vn : Nat) (l : List Hop) : (s.setVc r j vn l).beacon = s.beacon := rfl
@[simp] theorem State.setVc_pulses (s : State) (r j vn : Nat) (l : List Hop) : (s.setVc r j vn l).pulses = s.pulses := rfl
@[simp] theorem State.setVc_pairs (s : State) (r j vn : Nat) (l : List Hop) : (s.setVc r j vn l).pairs = s.pairs := rfl
@[simp] theorem State.setVc_ev (s : State) (r j vn : Nat) (l : List Hop) : (s.setVc r j vn l).ev = s.ev := rfl
@[simp] theorem State.setVc_mc (s : State) (r j vn : Nat) (l : List Hop) : (s.setVc r j vn l).mc = s.mc := rfl
@[simp] theorem State.setVc_pw (s : State) (r j vn : Nat) (l : List Hop) : (s.setVc r j vn l).pw = s.pw := rfl

/-! setPort changes ports alone. -/
@[simp] theorem State.setPort_pending (s : State) (p : Nat) (x : Port) : (s.setPort p x).pending = s.pending := rfl
@[simp] theorem State.setPort_free (s : State) (p : Nat) (x : Port) : (s.setPort p x).free = s.free := rfl
@[simp] theorem State.setPort_serial (s : State) (p : Nat) (x : Port) : (s.setPort p x).serial = s.serial := rfl
@[simp] theorem State.setPort_now (s : State) (p : Nat) (x : Port) : (s.setPort p x).now = s.now := rfl
@[simp] theorem State.setPort_regs (s : State) (p : Nat) (x : Port) : (s.setPort p x).regs = s.regs := rfl
@[simp] theorem State.setPort_mem (s : State) (p : Nat) (x : Port) : (s.setPort p x).mem = s.mem := rfl
@[simp] theorem State.setPort_ecc (s : State) (p : Nat) (x : Port) : (s.setPort p x).ecc = s.ecc := rfl
@[simp] theorem State.setPort_pres (s : State) (p : Nat) (x : Port) : (s.setPort p x).pres = s.pres := rfl
@[simp] theorem State.setPort_imem (s : State) (p : Nat) (x : Port) : (s.setPort p x).imem = s.imem := rfl
@[simp] theorem State.setPort_pes (s : State) (p : Nat) (x : Port) : (s.setPort p x).pes = s.pes := rfl
@[simp] theorem State.setPort_ctxs (s : State) (p : Nat) (x : Port) : (s.setPort p x).ctxs = s.ctxs := rfl
@[simp] theorem State.setPort_nis (s : State) (p : Nat) (x : Port) : (s.setPort p x).nis = s.nis := rfl
@[simp] theorem State.setPort_cms (s : State) (p : Nat) (x : Port) : (s.setPort p x).cms = s.cms := rfl
@[simp] theorem State.setPort_reqs (s : State) (p : Nat) (x : Port) : (s.setPort p x).reqs = s.reqs := rfl
@[simp] theorem State.setPort_coll (s : State) (p : Nat) (x : Port) : (s.setPort p x).coll = s.coll := rfl
@[simp] theorem State.setPort_vcs (s : State) (p : Nat) (x : Port) : (s.setPort p x).vcs = s.vcs := rfl
@[simp] theorem State.setPort_openPkts (s : State) (p : Nat) (x : Port) : (s.setPort p x).openPkts = s.openPkts := rfl
@[simp] theorem State.setPort_linkUse (s : State) (p : Nat) (x : Port) : (s.setPort p x).linkUse = s.linkUse := rfl
@[simp] theorem State.setPort_links (s : State) (p : Nat) (x : Port) : (s.setPort p x).links = s.links := rfl
@[simp] theorem State.setPort_flitUeAt (s : State) (p : Nat) (x : Port) : (s.setPort p x).flitUeAt = s.flitUeAt := rfl
@[simp] theorem State.setPort_oversizeAt (s : State) (p : Nat) (x : Port) : (s.setPort p x).oversizeAt = s.oversizeAt := rfl
@[simp] theorem State.setPort_eject (s : State) (p : Nat) (x : Port) : (s.setPort p x).eject = s.eject := rfl
@[simp] theorem State.setPort_defers (s : State) (p : Nat) (x : Port) : (s.setPort p x).defers = s.defers := rfl
@[simp] theorem State.setPort_rels (s : State) (p : Nat) (x : Port) : (s.setPort p x).rels = s.rels := rfl
@[simp] theorem State.setPort_aes (s : State) (p : Nat) (x : Port) : (s.setPort p x).aes = s.aes := rfl
@[simp] theorem State.setPort_shift (s : State) (p : Nat) (x : Port) : (s.setPort p x).shift = s.shift := rfl
@[simp] theorem State.setPort_locks (s : State) (p : Nat) (x : Port) : (s.setPort p x).locks = s.locks := rfl
@[simp] theorem State.setPort_rdata (s : State) (p : Nat) (x : Port) : (s.setPort p x).rdata = s.rdata := rfl
@[simp] theorem State.setPort_parked (s : State) (p : Nat) (x : Port) : (s.setPort p x).parked = s.parked := rfl
@[simp] theorem State.setPort_tests (s : State) (p : Nat) (x : Port) : (s.setPort p x).tests = s.tests := rfl
@[simp] theorem State.setPort_rr (s : State) (p : Nat) (x : Port) : (s.setPort p x).rr = s.rr := rfl
@[simp] theorem State.setPort_banks (s : State) (p : Nat) (x : Port) : (s.setPort p x).banks = s.banks := rfl
@[simp] theorem State.setPort_lsRows (s : State) (p : Nat) (x : Port) : (s.setPort p x).lsRows = s.lsRows := rfl
@[simp] theorem State.setPort_pstat (s : State) (p : Nat) (x : Port) : (s.setPort p x).pstat = s.pstat := rfl
@[simp] theorem State.setPort_sat (s : State) (p : Nat) (x : Port) : (s.setPort p x).sat = s.sat := rfl
@[simp] theorem State.setPort_doms (s : State) (p : Nat) (x : Port) : (s.setPort p x).doms = s.doms := rfl
@[simp] theorem State.setPort_flushes (s : State) (p : Nat) (x : Port) : (s.setPort p x).flushes = s.flushes := rfl
@[simp] theorem State.setPort_stopped (s : State) (p : Nat) (x : Port) : (s.setPort p x).stopped = s.stopped := rfl
@[simp] theorem State.setPort_beacon (s : State) (p : Nat) (x : Port) : (s.setPort p x).beacon = s.beacon := rfl
@[simp] theorem State.setPort_pulses (s : State) (p : Nat) (x : Port) : (s.setPort p x).pulses = s.pulses := rfl
@[simp] theorem State.setPort_pairs (s : State) (p : Nat) (x : Port) : (s.setPort p x).pairs = s.pairs := rfl
@[simp] theorem State.setPort_ev (s : State) (p : Nat) (x : Port) : (s.setPort p x).ev = s.ev := rfl
@[simp] theorem State.setPort_mc (s : State) (p : Nat) (x : Port) : (s.setPort p x).mc = s.mc := rfl
@[simp] theorem State.setPort_pw (s : State) (p : Nat) (x : Port) : (s.setPort p x).pw = s.pw := rfl

/-! setLock changes locks alone. -/
@[simp] theorem State.setLock_pending (s : State) (n : Nat) (l : Lock) : (s.setLock n l).pending = s.pending := rfl
@[simp] theorem State.setLock_free (s : State) (n : Nat) (l : Lock) : (s.setLock n l).free = s.free := rfl
@[simp] theorem State.setLock_serial (s : State) (n : Nat) (l : Lock) : (s.setLock n l).serial = s.serial := rfl
@[simp] theorem State.setLock_now (s : State) (n : Nat) (l : Lock) : (s.setLock n l).now = s.now := rfl
@[simp] theorem State.setLock_regs (s : State) (n : Nat) (l : Lock) : (s.setLock n l).regs = s.regs := rfl
@[simp] theorem State.setLock_mem (s : State) (n : Nat) (l : Lock) : (s.setLock n l).mem = s.mem := rfl
@[simp] theorem State.setLock_ecc (s : State) (n : Nat) (l : Lock) : (s.setLock n l).ecc = s.ecc := rfl
@[simp] theorem State.setLock_pres (s : State) (n : Nat) (l : Lock) : (s.setLock n l).pres = s.pres := rfl
@[simp] theorem State.setLock_imem (s : State) (n : Nat) (l : Lock) : (s.setLock n l).imem = s.imem := rfl
@[simp] theorem State.setLock_pes (s : State) (n : Nat) (l : Lock) : (s.setLock n l).pes = s.pes := rfl
@[simp] theorem State.setLock_ctxs (s : State) (n : Nat) (l : Lock) : (s.setLock n l).ctxs = s.ctxs := rfl
@[simp] theorem State.setLock_nis (s : State) (n : Nat) (l : Lock) : (s.setLock n l).nis = s.nis := rfl
@[simp] theorem State.setLock_cms (s : State) (n : Nat) (l : Lock) : (s.setLock n l).cms = s.cms := rfl
@[simp] theorem State.setLock_reqs (s : State) (n : Nat) (l : Lock) : (s.setLock n l).reqs = s.reqs := rfl
@[simp] theorem State.setLock_coll (s : State) (n : Nat) (l : Lock) : (s.setLock n l).coll = s.coll := rfl
@[simp] theorem State.setLock_vcs (s : State) (n : Nat) (l : Lock) : (s.setLock n l).vcs = s.vcs := rfl
@[simp] theorem State.setLock_openPkts (s : State) (n : Nat) (l : Lock) : (s.setLock n l).openPkts = s.openPkts := rfl
@[simp] theorem State.setLock_linkUse (s : State) (n : Nat) (l : Lock) : (s.setLock n l).linkUse = s.linkUse := rfl
@[simp] theorem State.setLock_links (s : State) (n : Nat) (l : Lock) : (s.setLock n l).links = s.links := rfl
@[simp] theorem State.setLock_flitUeAt (s : State) (n : Nat) (l : Lock) : (s.setLock n l).flitUeAt = s.flitUeAt := rfl
@[simp] theorem State.setLock_oversizeAt (s : State) (n : Nat) (l : Lock) : (s.setLock n l).oversizeAt = s.oversizeAt := rfl
@[simp] theorem State.setLock_eject (s : State) (n : Nat) (l : Lock) : (s.setLock n l).eject = s.eject := rfl
@[simp] theorem State.setLock_defers (s : State) (n : Nat) (l : Lock) : (s.setLock n l).defers = s.defers := rfl
@[simp] theorem State.setLock_rels (s : State) (n : Nat) (l : Lock) : (s.setLock n l).rels = s.rels := rfl
@[simp] theorem State.setLock_aes (s : State) (n : Nat) (l : Lock) : (s.setLock n l).aes = s.aes := rfl
@[simp] theorem State.setLock_shift (s : State) (n : Nat) (l : Lock) : (s.setLock n l).shift = s.shift := rfl
@[simp] theorem State.setLock_rdata (s : State) (n : Nat) (l : Lock) : (s.setLock n l).rdata = s.rdata := rfl
@[simp] theorem State.setLock_parked (s : State) (n : Nat) (l : Lock) : (s.setLock n l).parked = s.parked := rfl
@[simp] theorem State.setLock_tests (s : State) (n : Nat) (l : Lock) : (s.setLock n l).tests = s.tests := rfl
@[simp] theorem State.setLock_rr (s : State) (n : Nat) (l : Lock) : (s.setLock n l).rr = s.rr := rfl
@[simp] theorem State.setLock_banks (s : State) (n : Nat) (l : Lock) : (s.setLock n l).banks = s.banks := rfl
@[simp] theorem State.setLock_lsRows (s : State) (n : Nat) (l : Lock) : (s.setLock n l).lsRows = s.lsRows := rfl
@[simp] theorem State.setLock_ports (s : State) (n : Nat) (l : Lock) : (s.setLock n l).ports = s.ports := rfl
@[simp] theorem State.setLock_pstat (s : State) (n : Nat) (l : Lock) : (s.setLock n l).pstat = s.pstat := rfl
@[simp] theorem State.setLock_sat (s : State) (n : Nat) (l : Lock) : (s.setLock n l).sat = s.sat := rfl
@[simp] theorem State.setLock_doms (s : State) (n : Nat) (l : Lock) : (s.setLock n l).doms = s.doms := rfl
@[simp] theorem State.setLock_flushes (s : State) (n : Nat) (l : Lock) : (s.setLock n l).flushes = s.flushes := rfl
@[simp] theorem State.setLock_stopped (s : State) (n : Nat) (l : Lock) : (s.setLock n l).stopped = s.stopped := rfl
@[simp] theorem State.setLock_beacon (s : State) (n : Nat) (l : Lock) : (s.setLock n l).beacon = s.beacon := rfl
@[simp] theorem State.setLock_pulses (s : State) (n : Nat) (l : Lock) : (s.setLock n l).pulses = s.pulses := rfl
@[simp] theorem State.setLock_pairs (s : State) (n : Nat) (l : Lock) : (s.setLock n l).pairs = s.pairs := rfl
@[simp] theorem State.setLock_ev (s : State) (n : Nat) (l : Lock) : (s.setLock n l).ev = s.ev := rfl
@[simp] theorem State.setLock_mc (s : State) (n : Nat) (l : Lock) : (s.setLock n l).mc = s.mc := rfl
@[simp] theorem State.setLock_pw (s : State) (n : Nat) (l : Lock) : (s.setLock n l).pw = s.pw := rfl

/-! setTest changes tests alone. -/
@[simp] theorem State.setTest_pending (s : State) (c : Nat) (x : ScTest) : (s.setTest c x).pending = s.pending := rfl
@[simp] theorem State.setTest_free (s : State) (c : Nat) (x : ScTest) : (s.setTest c x).free = s.free := rfl
@[simp] theorem State.setTest_serial (s : State) (c : Nat) (x : ScTest) : (s.setTest c x).serial = s.serial := rfl
@[simp] theorem State.setTest_now (s : State) (c : Nat) (x : ScTest) : (s.setTest c x).now = s.now := rfl
@[simp] theorem State.setTest_regs (s : State) (c : Nat) (x : ScTest) : (s.setTest c x).regs = s.regs := rfl
@[simp] theorem State.setTest_mem (s : State) (c : Nat) (x : ScTest) : (s.setTest c x).mem = s.mem := rfl
@[simp] theorem State.setTest_ecc (s : State) (c : Nat) (x : ScTest) : (s.setTest c x).ecc = s.ecc := rfl
@[simp] theorem State.setTest_pres (s : State) (c : Nat) (x : ScTest) : (s.setTest c x).pres = s.pres := rfl
@[simp] theorem State.setTest_imem (s : State) (c : Nat) (x : ScTest) : (s.setTest c x).imem = s.imem := rfl
@[simp] theorem State.setTest_pes (s : State) (c : Nat) (x : ScTest) : (s.setTest c x).pes = s.pes := rfl
@[simp] theorem State.setTest_ctxs (s : State) (c : Nat) (x : ScTest) : (s.setTest c x).ctxs = s.ctxs := rfl
@[simp] theorem State.setTest_nis (s : State) (c : Nat) (x : ScTest) : (s.setTest c x).nis = s.nis := rfl
@[simp] theorem State.setTest_cms (s : State) (c : Nat) (x : ScTest) : (s.setTest c x).cms = s.cms := rfl
@[simp] theorem State.setTest_reqs (s : State) (c : Nat) (x : ScTest) : (s.setTest c x).reqs = s.reqs := rfl
@[simp] theorem State.setTest_coll (s : State) (c : Nat) (x : ScTest) : (s.setTest c x).coll = s.coll := rfl
@[simp] theorem State.setTest_vcs (s : State) (c : Nat) (x : ScTest) : (s.setTest c x).vcs = s.vcs := rfl
@[simp] theorem State.setTest_openPkts (s : State) (c : Nat) (x : ScTest) : (s.setTest c x).openPkts = s.openPkts := rfl
@[simp] theorem State.setTest_linkUse (s : State) (c : Nat) (x : ScTest) : (s.setTest c x).linkUse = s.linkUse := rfl
@[simp] theorem State.setTest_links (s : State) (c : Nat) (x : ScTest) : (s.setTest c x).links = s.links := rfl
@[simp] theorem State.setTest_flitUeAt (s : State) (c : Nat) (x : ScTest) : (s.setTest c x).flitUeAt = s.flitUeAt := rfl
@[simp] theorem State.setTest_oversizeAt (s : State) (c : Nat) (x : ScTest) : (s.setTest c x).oversizeAt = s.oversizeAt := rfl
@[simp] theorem State.setTest_eject (s : State) (c : Nat) (x : ScTest) : (s.setTest c x).eject = s.eject := rfl
@[simp] theorem State.setTest_defers (s : State) (c : Nat) (x : ScTest) : (s.setTest c x).defers = s.defers := rfl
@[simp] theorem State.setTest_rels (s : State) (c : Nat) (x : ScTest) : (s.setTest c x).rels = s.rels := rfl
@[simp] theorem State.setTest_aes (s : State) (c : Nat) (x : ScTest) : (s.setTest c x).aes = s.aes := rfl
@[simp] theorem State.setTest_shift (s : State) (c : Nat) (x : ScTest) : (s.setTest c x).shift = s.shift := rfl
@[simp] theorem State.setTest_locks (s : State) (c : Nat) (x : ScTest) : (s.setTest c x).locks = s.locks := rfl
@[simp] theorem State.setTest_rdata (s : State) (c : Nat) (x : ScTest) : (s.setTest c x).rdata = s.rdata := rfl
@[simp] theorem State.setTest_parked (s : State) (c : Nat) (x : ScTest) : (s.setTest c x).parked = s.parked := rfl
@[simp] theorem State.setTest_rr (s : State) (c : Nat) (x : ScTest) : (s.setTest c x).rr = s.rr := rfl
@[simp] theorem State.setTest_banks (s : State) (c : Nat) (x : ScTest) : (s.setTest c x).banks = s.banks := rfl
@[simp] theorem State.setTest_lsRows (s : State) (c : Nat) (x : ScTest) : (s.setTest c x).lsRows = s.lsRows := rfl
@[simp] theorem State.setTest_ports (s : State) (c : Nat) (x : ScTest) : (s.setTest c x).ports = s.ports := rfl
@[simp] theorem State.setTest_pstat (s : State) (c : Nat) (x : ScTest) : (s.setTest c x).pstat = s.pstat := rfl
@[simp] theorem State.setTest_sat (s : State) (c : Nat) (x : ScTest) : (s.setTest c x).sat = s.sat := rfl
@[simp] theorem State.setTest_doms (s : State) (c : Nat) (x : ScTest) : (s.setTest c x).doms = s.doms := rfl
@[simp] theorem State.setTest_flushes (s : State) (c : Nat) (x : ScTest) : (s.setTest c x).flushes = s.flushes := rfl
@[simp] theorem State.setTest_stopped (s : State) (c : Nat) (x : ScTest) : (s.setTest c x).stopped = s.stopped := rfl
@[simp] theorem State.setTest_beacon (s : State) (c : Nat) (x : ScTest) : (s.setTest c x).beacon = s.beacon := rfl
@[simp] theorem State.setTest_pulses (s : State) (c : Nat) (x : ScTest) : (s.setTest c x).pulses = s.pulses := rfl
@[simp] theorem State.setTest_pairs (s : State) (c : Nat) (x : ScTest) : (s.setTest c x).pairs = s.pairs := rfl
@[simp] theorem State.setTest_ev (s : State) (c : Nat) (x : ScTest) : (s.setTest c x).ev = s.ev := rfl
@[simp] theorem State.setTest_mc (s : State) (c : Nat) (x : ScTest) : (s.setTest c x).mc = s.mc := rfl
@[simp] theorem State.setTest_pw (s : State) (c : Nat) (x : ScTest) : (s.setTest c x).pw = s.pw := rfl

/-! setDefers changes defers alone. -/
@[simp] theorem State.setDefers_pending (s : State) (a : Nat) (l : List Defer) : (s.setDefers a l).pending = s.pending := rfl
@[simp] theorem State.setDefers_free (s : State) (a : Nat) (l : List Defer) : (s.setDefers a l).free = s.free := rfl
@[simp] theorem State.setDefers_serial (s : State) (a : Nat) (l : List Defer) : (s.setDefers a l).serial = s.serial := rfl
@[simp] theorem State.setDefers_now (s : State) (a : Nat) (l : List Defer) : (s.setDefers a l).now = s.now := rfl
@[simp] theorem State.setDefers_regs (s : State) (a : Nat) (l : List Defer) : (s.setDefers a l).regs = s.regs := rfl
@[simp] theorem State.setDefers_mem (s : State) (a : Nat) (l : List Defer) : (s.setDefers a l).mem = s.mem := rfl
@[simp] theorem State.setDefers_ecc (s : State) (a : Nat) (l : List Defer) : (s.setDefers a l).ecc = s.ecc := rfl
@[simp] theorem State.setDefers_pres (s : State) (a : Nat) (l : List Defer) : (s.setDefers a l).pres = s.pres := rfl
@[simp] theorem State.setDefers_imem (s : State) (a : Nat) (l : List Defer) : (s.setDefers a l).imem = s.imem := rfl
@[simp] theorem State.setDefers_pes (s : State) (a : Nat) (l : List Defer) : (s.setDefers a l).pes = s.pes := rfl
@[simp] theorem State.setDefers_ctxs (s : State) (a : Nat) (l : List Defer) : (s.setDefers a l).ctxs = s.ctxs := rfl
@[simp] theorem State.setDefers_nis (s : State) (a : Nat) (l : List Defer) : (s.setDefers a l).nis = s.nis := rfl
@[simp] theorem State.setDefers_cms (s : State) (a : Nat) (l : List Defer) : (s.setDefers a l).cms = s.cms := rfl
@[simp] theorem State.setDefers_reqs (s : State) (a : Nat) (l : List Defer) : (s.setDefers a l).reqs = s.reqs := rfl
@[simp] theorem State.setDefers_coll (s : State) (a : Nat) (l : List Defer) : (s.setDefers a l).coll = s.coll := rfl
@[simp] theorem State.setDefers_vcs (s : State) (a : Nat) (l : List Defer) : (s.setDefers a l).vcs = s.vcs := rfl
@[simp] theorem State.setDefers_openPkts (s : State) (a : Nat) (l : List Defer) : (s.setDefers a l).openPkts = s.openPkts := rfl
@[simp] theorem State.setDefers_linkUse (s : State) (a : Nat) (l : List Defer) : (s.setDefers a l).linkUse = s.linkUse := rfl
@[simp] theorem State.setDefers_links (s : State) (a : Nat) (l : List Defer) : (s.setDefers a l).links = s.links := rfl
@[simp] theorem State.setDefers_flitUeAt (s : State) (a : Nat) (l : List Defer) : (s.setDefers a l).flitUeAt = s.flitUeAt := rfl
@[simp] theorem State.setDefers_oversizeAt (s : State) (a : Nat) (l : List Defer) : (s.setDefers a l).oversizeAt = s.oversizeAt := rfl
@[simp] theorem State.setDefers_eject (s : State) (a : Nat) (l : List Defer) : (s.setDefers a l).eject = s.eject := rfl
@[simp] theorem State.setDefers_rels (s : State) (a : Nat) (l : List Defer) : (s.setDefers a l).rels = s.rels := rfl
@[simp] theorem State.setDefers_aes (s : State) (a : Nat) (l : List Defer) : (s.setDefers a l).aes = s.aes := rfl
@[simp] theorem State.setDefers_shift (s : State) (a : Nat) (l : List Defer) : (s.setDefers a l).shift = s.shift := rfl
@[simp] theorem State.setDefers_locks (s : State) (a : Nat) (l : List Defer) : (s.setDefers a l).locks = s.locks := rfl
@[simp] theorem State.setDefers_rdata (s : State) (a : Nat) (l : List Defer) : (s.setDefers a l).rdata = s.rdata := rfl
@[simp] theorem State.setDefers_parked (s : State) (a : Nat) (l : List Defer) : (s.setDefers a l).parked = s.parked := rfl
@[simp] theorem State.setDefers_tests (s : State) (a : Nat) (l : List Defer) : (s.setDefers a l).tests = s.tests := rfl
@[simp] theorem State.setDefers_rr (s : State) (a : Nat) (l : List Defer) : (s.setDefers a l).rr = s.rr := rfl
@[simp] theorem State.setDefers_banks (s : State) (a : Nat) (l : List Defer) : (s.setDefers a l).banks = s.banks := rfl
@[simp] theorem State.setDefers_lsRows (s : State) (a : Nat) (l : List Defer) : (s.setDefers a l).lsRows = s.lsRows := rfl
@[simp] theorem State.setDefers_ports (s : State) (a : Nat) (l : List Defer) : (s.setDefers a l).ports = s.ports := rfl
@[simp] theorem State.setDefers_pstat (s : State) (a : Nat) (l : List Defer) : (s.setDefers a l).pstat = s.pstat := rfl
@[simp] theorem State.setDefers_sat (s : State) (a : Nat) (l : List Defer) : (s.setDefers a l).sat = s.sat := rfl
@[simp] theorem State.setDefers_doms (s : State) (a : Nat) (l : List Defer) : (s.setDefers a l).doms = s.doms := rfl
@[simp] theorem State.setDefers_flushes (s : State) (a : Nat) (l : List Defer) : (s.setDefers a l).flushes = s.flushes := rfl
@[simp] theorem State.setDefers_stopped (s : State) (a : Nat) (l : List Defer) : (s.setDefers a l).stopped = s.stopped := rfl
@[simp] theorem State.setDefers_beacon (s : State) (a : Nat) (l : List Defer) : (s.setDefers a l).beacon = s.beacon := rfl
@[simp] theorem State.setDefers_pulses (s : State) (a : Nat) (l : List Defer) : (s.setDefers a l).pulses = s.pulses := rfl
@[simp] theorem State.setDefers_pairs (s : State) (a : Nat) (l : List Defer) : (s.setDefers a l).pairs = s.pairs := rfl
@[simp] theorem State.setDefers_ev (s : State) (a : Nat) (l : List Defer) : (s.setDefers a l).ev = s.ev := rfl
@[simp] theorem State.setDefers_mc (s : State) (a : Nat) (l : List Defer) : (s.setDefers a l).mc = s.mc := rfl
@[simp] theorem State.setDefers_pw (s : State) (a : Nat) (l : List Defer) : (s.setDefers a l).pw = s.pw := rfl

/-! setAe changes aes alone. -/
@[simp] theorem State.setAe_pending (s : State) (c : Nat) (v : Ae) : (s.setAe c v).pending = s.pending := rfl
@[simp] theorem State.setAe_free (s : State) (c : Nat) (v : Ae) : (s.setAe c v).free = s.free := rfl
@[simp] theorem State.setAe_serial (s : State) (c : Nat) (v : Ae) : (s.setAe c v).serial = s.serial := rfl
@[simp] theorem State.setAe_now (s : State) (c : Nat) (v : Ae) : (s.setAe c v).now = s.now := rfl
@[simp] theorem State.setAe_regs (s : State) (c : Nat) (v : Ae) : (s.setAe c v).regs = s.regs := rfl
@[simp] theorem State.setAe_mem (s : State) (c : Nat) (v : Ae) : (s.setAe c v).mem = s.mem := rfl
@[simp] theorem State.setAe_ecc (s : State) (c : Nat) (v : Ae) : (s.setAe c v).ecc = s.ecc := rfl
@[simp] theorem State.setAe_pres (s : State) (c : Nat) (v : Ae) : (s.setAe c v).pres = s.pres := rfl
@[simp] theorem State.setAe_imem (s : State) (c : Nat) (v : Ae) : (s.setAe c v).imem = s.imem := rfl
@[simp] theorem State.setAe_pes (s : State) (c : Nat) (v : Ae) : (s.setAe c v).pes = s.pes := rfl
@[simp] theorem State.setAe_ctxs (s : State) (c : Nat) (v : Ae) : (s.setAe c v).ctxs = s.ctxs := rfl
@[simp] theorem State.setAe_nis (s : State) (c : Nat) (v : Ae) : (s.setAe c v).nis = s.nis := rfl
@[simp] theorem State.setAe_cms (s : State) (c : Nat) (v : Ae) : (s.setAe c v).cms = s.cms := rfl
@[simp] theorem State.setAe_reqs (s : State) (c : Nat) (v : Ae) : (s.setAe c v).reqs = s.reqs := rfl
@[simp] theorem State.setAe_coll (s : State) (c : Nat) (v : Ae) : (s.setAe c v).coll = s.coll := rfl
@[simp] theorem State.setAe_vcs (s : State) (c : Nat) (v : Ae) : (s.setAe c v).vcs = s.vcs := rfl
@[simp] theorem State.setAe_openPkts (s : State) (c : Nat) (v : Ae) : (s.setAe c v).openPkts = s.openPkts := rfl
@[simp] theorem State.setAe_linkUse (s : State) (c : Nat) (v : Ae) : (s.setAe c v).linkUse = s.linkUse := rfl
@[simp] theorem State.setAe_links (s : State) (c : Nat) (v : Ae) : (s.setAe c v).links = s.links := rfl
@[simp] theorem State.setAe_flitUeAt (s : State) (c : Nat) (v : Ae) : (s.setAe c v).flitUeAt = s.flitUeAt := rfl
@[simp] theorem State.setAe_oversizeAt (s : State) (c : Nat) (v : Ae) : (s.setAe c v).oversizeAt = s.oversizeAt := rfl
@[simp] theorem State.setAe_eject (s : State) (c : Nat) (v : Ae) : (s.setAe c v).eject = s.eject := rfl
@[simp] theorem State.setAe_defers (s : State) (c : Nat) (v : Ae) : (s.setAe c v).defers = s.defers := rfl
@[simp] theorem State.setAe_rels (s : State) (c : Nat) (v : Ae) : (s.setAe c v).rels = s.rels := rfl
@[simp] theorem State.setAe_shift (s : State) (c : Nat) (v : Ae) : (s.setAe c v).shift = s.shift := rfl
@[simp] theorem State.setAe_locks (s : State) (c : Nat) (v : Ae) : (s.setAe c v).locks = s.locks := rfl
@[simp] theorem State.setAe_rdata (s : State) (c : Nat) (v : Ae) : (s.setAe c v).rdata = s.rdata := rfl
@[simp] theorem State.setAe_parked (s : State) (c : Nat) (v : Ae) : (s.setAe c v).parked = s.parked := rfl
@[simp] theorem State.setAe_tests (s : State) (c : Nat) (v : Ae) : (s.setAe c v).tests = s.tests := rfl
@[simp] theorem State.setAe_rr (s : State) (c : Nat) (v : Ae) : (s.setAe c v).rr = s.rr := rfl
@[simp] theorem State.setAe_banks (s : State) (c : Nat) (v : Ae) : (s.setAe c v).banks = s.banks := rfl
@[simp] theorem State.setAe_lsRows (s : State) (c : Nat) (v : Ae) : (s.setAe c v).lsRows = s.lsRows := rfl
@[simp] theorem State.setAe_ports (s : State) (c : Nat) (v : Ae) : (s.setAe c v).ports = s.ports := rfl
@[simp] theorem State.setAe_pstat (s : State) (c : Nat) (v : Ae) : (s.setAe c v).pstat = s.pstat := rfl
@[simp] theorem State.setAe_sat (s : State) (c : Nat) (v : Ae) : (s.setAe c v).sat = s.sat := rfl
@[simp] theorem State.setAe_doms (s : State) (c : Nat) (v : Ae) : (s.setAe c v).doms = s.doms := rfl
@[simp] theorem State.setAe_flushes (s : State) (c : Nat) (v : Ae) : (s.setAe c v).flushes = s.flushes := rfl
@[simp] theorem State.setAe_stopped (s : State) (c : Nat) (v : Ae) : (s.setAe c v).stopped = s.stopped := rfl
@[simp] theorem State.setAe_beacon (s : State) (c : Nat) (v : Ae) : (s.setAe c v).beacon = s.beacon := rfl
@[simp] theorem State.setAe_pulses (s : State) (c : Nat) (v : Ae) : (s.setAe c v).pulses = s.pulses := rfl
@[simp] theorem State.setAe_pairs (s : State) (c : Nat) (v : Ae) : (s.setAe c v).pairs = s.pairs := rfl
@[simp] theorem State.setAe_ev (s : State) (c : Nat) (v : Ae) : (s.setAe c v).ev = s.ev := rfl
@[simp] theorem State.setAe_mc (s : State) (c : Nat) (v : Ae) : (s.setAe c v).mc = s.mc := rfl
@[simp] theorem State.setAe_pw (s : State) (c : Nat) (v : Ae) : (s.setAe c v).pw = s.pw := rfl

/-! setDom changes doms alone. -/
@[simp] theorem State.setDom_pending (s : State) (d : Nat) (x : Dom) : (s.setDom d x).pending = s.pending := rfl
@[simp] theorem State.setDom_free (s : State) (d : Nat) (x : Dom) : (s.setDom d x).free = s.free := rfl
@[simp] theorem State.setDom_serial (s : State) (d : Nat) (x : Dom) : (s.setDom d x).serial = s.serial := rfl
@[simp] theorem State.setDom_now (s : State) (d : Nat) (x : Dom) : (s.setDom d x).now = s.now := rfl
@[simp] theorem State.setDom_regs (s : State) (d : Nat) (x : Dom) : (s.setDom d x).regs = s.regs := rfl
@[simp] theorem State.setDom_mem (s : State) (d : Nat) (x : Dom) : (s.setDom d x).mem = s.mem := rfl
@[simp] theorem State.setDom_ecc (s : State) (d : Nat) (x : Dom) : (s.setDom d x).ecc = s.ecc := rfl
@[simp] theorem State.setDom_pres (s : State) (d : Nat) (x : Dom) : (s.setDom d x).pres = s.pres := rfl
@[simp] theorem State.setDom_imem (s : State) (d : Nat) (x : Dom) : (s.setDom d x).imem = s.imem := rfl
@[simp] theorem State.setDom_pes (s : State) (d : Nat) (x : Dom) : (s.setDom d x).pes = s.pes := rfl
@[simp] theorem State.setDom_ctxs (s : State) (d : Nat) (x : Dom) : (s.setDom d x).ctxs = s.ctxs := rfl
@[simp] theorem State.setDom_nis (s : State) (d : Nat) (x : Dom) : (s.setDom d x).nis = s.nis := rfl
@[simp] theorem State.setDom_cms (s : State) (d : Nat) (x : Dom) : (s.setDom d x).cms = s.cms := rfl
@[simp] theorem State.setDom_reqs (s : State) (d : Nat) (x : Dom) : (s.setDom d x).reqs = s.reqs := rfl
@[simp] theorem State.setDom_coll (s : State) (d : Nat) (x : Dom) : (s.setDom d x).coll = s.coll := rfl
@[simp] theorem State.setDom_vcs (s : State) (d : Nat) (x : Dom) : (s.setDom d x).vcs = s.vcs := rfl
@[simp] theorem State.setDom_openPkts (s : State) (d : Nat) (x : Dom) : (s.setDom d x).openPkts = s.openPkts := rfl
@[simp] theorem State.setDom_linkUse (s : State) (d : Nat) (x : Dom) : (s.setDom d x).linkUse = s.linkUse := rfl
@[simp] theorem State.setDom_links (s : State) (d : Nat) (x : Dom) : (s.setDom d x).links = s.links := rfl
@[simp] theorem State.setDom_flitUeAt (s : State) (d : Nat) (x : Dom) : (s.setDom d x).flitUeAt = s.flitUeAt := rfl
@[simp] theorem State.setDom_oversizeAt (s : State) (d : Nat) (x : Dom) : (s.setDom d x).oversizeAt = s.oversizeAt := rfl
@[simp] theorem State.setDom_eject (s : State) (d : Nat) (x : Dom) : (s.setDom d x).eject = s.eject := rfl
@[simp] theorem State.setDom_defers (s : State) (d : Nat) (x : Dom) : (s.setDom d x).defers = s.defers := rfl
@[simp] theorem State.setDom_rels (s : State) (d : Nat) (x : Dom) : (s.setDom d x).rels = s.rels := rfl
@[simp] theorem State.setDom_aes (s : State) (d : Nat) (x : Dom) : (s.setDom d x).aes = s.aes := rfl
@[simp] theorem State.setDom_shift (s : State) (d : Nat) (x : Dom) : (s.setDom d x).shift = s.shift := rfl
@[simp] theorem State.setDom_locks (s : State) (d : Nat) (x : Dom) : (s.setDom d x).locks = s.locks := rfl
@[simp] theorem State.setDom_rdata (s : State) (d : Nat) (x : Dom) : (s.setDom d x).rdata = s.rdata := rfl
@[simp] theorem State.setDom_parked (s : State) (d : Nat) (x : Dom) : (s.setDom d x).parked = s.parked := rfl
@[simp] theorem State.setDom_tests (s : State) (d : Nat) (x : Dom) : (s.setDom d x).tests = s.tests := rfl
@[simp] theorem State.setDom_rr (s : State) (d : Nat) (x : Dom) : (s.setDom d x).rr = s.rr := rfl
@[simp] theorem State.setDom_banks (s : State) (d : Nat) (x : Dom) : (s.setDom d x).banks = s.banks := rfl
@[simp] theorem State.setDom_lsRows (s : State) (d : Nat) (x : Dom) : (s.setDom d x).lsRows = s.lsRows := rfl
@[simp] theorem State.setDom_ports (s : State) (d : Nat) (x : Dom) : (s.setDom d x).ports = s.ports := rfl
@[simp] theorem State.setDom_pstat (s : State) (d : Nat) (x : Dom) : (s.setDom d x).pstat = s.pstat := rfl
@[simp] theorem State.setDom_sat (s : State) (d : Nat) (x : Dom) : (s.setDom d x).sat = s.sat := rfl
@[simp] theorem State.setDom_flushes (s : State) (d : Nat) (x : Dom) : (s.setDom d x).flushes = s.flushes := rfl
@[simp] theorem State.setDom_stopped (s : State) (d : Nat) (x : Dom) : (s.setDom d x).stopped = s.stopped := rfl
@[simp] theorem State.setDom_beacon (s : State) (d : Nat) (x : Dom) : (s.setDom d x).beacon = s.beacon := rfl
@[simp] theorem State.setDom_pulses (s : State) (d : Nat) (x : Dom) : (s.setDom d x).pulses = s.pulses := rfl
@[simp] theorem State.setDom_pairs (s : State) (d : Nat) (x : Dom) : (s.setDom d x).pairs = s.pairs := rfl
@[simp] theorem State.setDom_ev (s : State) (d : Nat) (x : Dom) : (s.setDom d x).ev = s.ev := rfl
@[simp] theorem State.setDom_mc (s : State) (d : Nat) (x : Dom) : (s.setDom d x).mc = s.mc := rfl
@[simp] theorem State.setDom_pw (s : State) (d : Nat) (x : Dom) : (s.setDom d x).pw = s.pw := rfl

/-! draw advances the free-value counter alone. -/
@[simp] theorem State.draw_pending (s : State) : s.draw.2.pending = s.pending := rfl
@[simp] theorem State.draw_serial (s : State) : s.draw.2.serial = s.serial := rfl
@[simp] theorem State.draw_now (s : State) : s.draw.2.now = s.now := rfl
@[simp] theorem State.draw_regs (s : State) : s.draw.2.regs = s.regs := rfl
@[simp] theorem State.draw_mem (s : State) : s.draw.2.mem = s.mem := rfl
@[simp] theorem State.draw_ecc (s : State) : s.draw.2.ecc = s.ecc := rfl
@[simp] theorem State.draw_pres (s : State) : s.draw.2.pres = s.pres := rfl
@[simp] theorem State.draw_imem (s : State) : s.draw.2.imem = s.imem := rfl
@[simp] theorem State.draw_pes (s : State) : s.draw.2.pes = s.pes := rfl
@[simp] theorem State.draw_ctxs (s : State) : s.draw.2.ctxs = s.ctxs := rfl
@[simp] theorem State.draw_nis (s : State) : s.draw.2.nis = s.nis := rfl
@[simp] theorem State.draw_cms (s : State) : s.draw.2.cms = s.cms := rfl
@[simp] theorem State.draw_reqs (s : State) : s.draw.2.reqs = s.reqs := rfl
@[simp] theorem State.draw_coll (s : State) : s.draw.2.coll = s.coll := rfl
@[simp] theorem State.draw_vcs (s : State) : s.draw.2.vcs = s.vcs := rfl
@[simp] theorem State.draw_openPkts (s : State) : s.draw.2.openPkts = s.openPkts := rfl
@[simp] theorem State.draw_linkUse (s : State) : s.draw.2.linkUse = s.linkUse := rfl
@[simp] theorem State.draw_links (s : State) : s.draw.2.links = s.links := rfl
@[simp] theorem State.draw_flitUeAt (s : State) : s.draw.2.flitUeAt = s.flitUeAt := rfl
@[simp] theorem State.draw_oversizeAt (s : State) : s.draw.2.oversizeAt = s.oversizeAt := rfl
@[simp] theorem State.draw_eject (s : State) : s.draw.2.eject = s.eject := rfl
@[simp] theorem State.draw_defers (s : State) : s.draw.2.defers = s.defers := rfl
@[simp] theorem State.draw_rels (s : State) : s.draw.2.rels = s.rels := rfl
@[simp] theorem State.draw_aes (s : State) : s.draw.2.aes = s.aes := rfl
@[simp] theorem State.draw_shift (s : State) : s.draw.2.shift = s.shift := rfl
@[simp] theorem State.draw_locks (s : State) : s.draw.2.locks = s.locks := rfl
@[simp] theorem State.draw_rdata (s : State) : s.draw.2.rdata = s.rdata := rfl
@[simp] theorem State.draw_parked (s : State) : s.draw.2.parked = s.parked := rfl
@[simp] theorem State.draw_tests (s : State) : s.draw.2.tests = s.tests := rfl
@[simp] theorem State.draw_rr (s : State) : s.draw.2.rr = s.rr := rfl
@[simp] theorem State.draw_banks (s : State) : s.draw.2.banks = s.banks := rfl
@[simp] theorem State.draw_lsRows (s : State) : s.draw.2.lsRows = s.lsRows := rfl
@[simp] theorem State.draw_ports (s : State) : s.draw.2.ports = s.ports := rfl
@[simp] theorem State.draw_pstat (s : State) : s.draw.2.pstat = s.pstat := rfl
@[simp] theorem State.draw_sat (s : State) : s.draw.2.sat = s.sat := rfl
@[simp] theorem State.draw_doms (s : State) : s.draw.2.doms = s.doms := rfl
@[simp] theorem State.draw_flushes (s : State) : s.draw.2.flushes = s.flushes := rfl
@[simp] theorem State.draw_stopped (s : State) : s.draw.2.stopped = s.stopped := rfl
@[simp] theorem State.draw_beacon (s : State) : s.draw.2.beacon = s.beacon := rfl
@[simp] theorem State.draw_pulses (s : State) : s.draw.2.pulses = s.pulses := rfl
@[simp] theorem State.draw_pairs (s : State) : s.draw.2.pairs = s.pairs := rfl
@[simp] theorem State.draw_ev (s : State) : s.draw.2.ev = s.ev := rfl
@[simp] theorem State.draw_mc (s : State) : s.draw.2.mc = s.mc := rfl
@[simp] theorem State.draw_pw (s : State) : s.draw.2.pw = s.pw := rfl

/-! A unit reads as it was written; every other unit reads as before. -/
@[simp] theorem State.reg_setReg (s : State) (a b : Nat) (v : Word) : (s.setReg a v).reg b = if b = a then v else s.reg b := by
  by_cases h : b = a
  · subst h; simp [State.reg, State.setReg]
  · simp [State.reg, State.setReg, Tbl.get_set_other _ _ _ _ h, h]
@[simp] theorem State.pe_setPe (s : State) (n m : Nat) (p : Pe) : (s.setPe n p).pe m = if pairPe m = pairPe n then p else s.pe m := by
  simp only [State.pe, State.setPe, Tbl.get_set]
@[simp] theorem State.ni_setNi (s : State) (a b : Nat) (v : Ni) : (s.setNi a v).ni b = if b = a then v else s.ni b := by
  simp only [State.ni, State.setNi, Tbl.get_set]
@[simp] theorem State.cm_setCm (s : State) (a b : Nat) (v : Cm) : (s.setCm a v).cm b = if b = a then v else s.cm b := by
  simp only [State.cm, State.setCm, Tbl.get_set]
@[simp] theorem State.ctx_setCtx (s : State) (a b : Nat) (v : Ctx) : (s.setCtx a v).ctx b = if b = a then v else s.ctx b := by
  simp only [State.ctx, State.setCtx, Tbl.get_set]
@[simp] theorem State.reqAt_setReqs (s : State) (a b : Nat) (l : List Packet) : (s.setReqs a l).reqAt b = if b = a then l else s.reqAt b := by
  simp only [State.reqAt, State.setReqs, Tbl.get_set]
@[simp] theorem State.ejectQ_setEject (s : State) (a b : Nat) (l : List Packet) : (s.setEject a l).ejectQ b = if b = a then l else s.ejectQ b := by
  simp only [State.ejectQ, State.setEject, Tbl.get_set]
@[simp] theorem State.port_setPort (s : State) (a b : Nat) (x : Port) : (s.setPort a x).port b = if b = a then x else s.port b := by
  simp only [State.port, State.setPort, Tbl.get_set]
@[simp] theorem State.lock_setLock (s : State) (a b : Nat) (x : Lock) : (s.setLock a x).lock b = if b = a then x else s.lock b := by
  simp only [State.lock, State.setLock, Tbl.get_set]
@[simp] theorem State.byte_setByte (s : State) (a b : Nat) (v : Byte) : (s.setByte a v).byte b = if b = a then v else s.byte b := by
  simp only [State.byte, State.setByte, Tbl.get_set]
@[simp] theorem State.ae_setAe (s : State) (a b : Nat) (x : Ae) : (s.setAe a x).ae b = if b = a then x else s.ae b := by
  simp only [State.ae, State.setAe, Tbl.get_set]

/-! Reads that an update of another kind of state does not touch. -/
@[simp] theorem State.pe_setReg_of (s : State) (a : Nat) (v : Word) (i : Nat) : (s.setReg a v).pe i = s.pe i := rfl
@[simp] theorem State.ni_setReg_of (s : State) (a : Nat) (v : Word) (i : Nat) : (s.setReg a v).ni i = s.ni i := rfl
@[simp] theorem State.cm_setReg_of (s : State) (a : Nat) (v : Word) (i : Nat) : (s.setReg a v).cm i = s.cm i := rfl
@[simp] theorem State.ctx_setReg_of (s : State) (a : Nat) (v : Word) (i : Nat) : (s.setReg a v).ctx i = s.ctx i := rfl
@[simp] theorem State.act_setReg_of (s : State) (a : Nat) (v : Word) (i : Nat) : (s.setReg a v).act i = s.act i := rfl
@[simp] theorem State.byte_setReg_of (s : State) (a : Nat) (v : Word) (i : Nat) : (s.setReg a v).byte i = s.byte i := rfl
@[simp] theorem State.port_setReg_of (s : State) (a : Nat) (v : Word) (i : Nat) : (s.setReg a v).port i = s.port i := rfl
@[simp] theorem State.reg_setPe_of (s : State) (n : Nat) (p : Pe) (i : Nat) : (s.setPe n p).reg i = s.reg i := rfl
@[simp] theorem State.ni_setPe_of (s : State) (n : Nat) (p : Pe) (i : Nat) : (s.setPe n p).ni i = s.ni i := rfl
@[simp] theorem State.cm_setPe_of (s : State) (n : Nat) (p : Pe) (i : Nat) : (s.setPe n p).cm i = s.cm i := rfl
@[simp] theorem State.ctx_setPe_of (s : State) (n : Nat) (p : Pe) (i : Nat) : (s.setPe n p).ctx i = s.ctx i := rfl
@[simp] theorem State.byte_setPe_of (s : State) (n : Nat) (p : Pe) (i : Nat) : (s.setPe n p).byte i = s.byte i := rfl
@[simp] theorem State.port_setPe_of (s : State) (n : Nat) (p : Pe) (i : Nat) : (s.setPe n p).port i = s.port i := rfl
@[simp] theorem State.reg_setNi_of (s : State) (e : Nat) (v : Ni) (i : Nat) : (s.setNi e v).reg i = s.reg i := rfl
@[simp] theorem State.pe_setNi_of (s : State) (e : Nat) (v : Ni) (i : Nat) : (s.setNi e v).pe i = s.pe i := rfl
@[simp] theorem State.cm_setNi_of (s : State) (e : Nat) (v : Ni) (i : Nat) : (s.setNi e v).cm i = s.cm i := rfl
@[simp] theorem State.ctx_setNi_of (s : State) (e : Nat) (v : Ni) (i : Nat) : (s.setNi e v).ctx i = s.ctx i := rfl
@[simp] theorem State.act_setNi_of (s : State) (e : Nat) (v : Ni) (i : Nat) : (s.setNi e v).act i = s.act i := rfl
@[simp] theorem State.byte_setNi_of (s : State) (e : Nat) (v : Ni) (i : Nat) : (s.setNi e v).byte i = s.byte i := rfl
@[simp] theorem State.port_setNi_of (s : State) (e : Nat) (v : Ni) (i : Nat) : (s.setNi e v).port i = s.port i := rfl
@[simp] theorem State.reg_setCm_of (s : State) (c : Nat) (v : Cm) (i : Nat) : (s.setCm c v).reg i = s.reg i := rfl
@[simp] theorem State.pe_setCm_of (s : State) (c : Nat) (v : Cm) (i : Nat) : (s.setCm c v).pe i = s.pe i := rfl
@[simp] theorem State.ni_setCm_of (s : State) (c : Nat) (v : Cm) (i : Nat) : (s.setCm c v).ni i = s.ni i := rfl
@[simp] theorem State.ctx_setCm_of (s : State) (c : Nat) (v : Cm) (i : Nat) : (s.setCm c v).ctx i = s.ctx i := rfl
@[simp] theorem State.act_setCm_of (s : State) (c : Nat) (v : Cm) (i : Nat) : (s.setCm c v).act i = s.act i := rfl
@[simp] theorem State.byte_setCm_of (s : State) (c : Nat) (v : Cm) (i : Nat) : (s.setCm c v).byte i = s.byte i := rfl
@[simp] theorem State.port_setCm_of (s : State) (c : Nat) (v : Cm) (i : Nat) : (s.setCm c v).port i = s.port i := rfl
@[simp] theorem State.reg_setCtx_of (s : State) (k : Nat) (v : Ctx) (i : Nat) : (s.setCtx k v).reg i = s.reg i := rfl
@[simp] theorem State.pe_setCtx_of (s : State) (k : Nat) (v : Ctx) (i : Nat) : (s.setCtx k v).pe i = s.pe i := rfl
@[simp] theorem State.ni_setCtx_of (s : State) (k : Nat) (v : Ctx) (i : Nat) : (s.setCtx k v).ni i = s.ni i := rfl
@[simp] theorem State.cm_setCtx_of (s : State) (k : Nat) (v : Ctx) (i : Nat) : (s.setCtx k v).cm i = s.cm i := rfl
@[simp] theorem State.act_setCtx_of (s : State) (k : Nat) (v : Ctx) (i : Nat) : (s.setCtx k v).act i = s.act i := rfl
@[simp] theorem State.byte_setCtx_of (s : State) (k : Nat) (v : Ctx) (i : Nat) : (s.setCtx k v).byte i = s.byte i := rfl
@[simp] theorem State.port_setCtx_of (s : State) (k : Nat) (v : Ctx) (i : Nat) : (s.setCtx k v).port i = s.port i := rfl
@[simp] theorem State.reg_setReqs_of (s : State) (e : Nat) (l : List Packet) (i : Nat) : (s.setReqs e l).reg i = s.reg i := rfl
@[simp] theorem State.pe_setReqs_of (s : State) (e : Nat) (l : List Packet) (i : Nat) : (s.setReqs e l).pe i = s.pe i := rfl
@[simp] theorem State.ni_setReqs_of (s : State) (e : Nat) (l : List Packet) (i : Nat) : (s.setReqs e l).ni i = s.ni i := rfl
@[simp] theorem State.cm_setReqs_of (s : State) (e : Nat) (l : List Packet) (i : Nat) : (s.setReqs e l).cm i = s.cm i := rfl
@[simp] theorem State.ctx_setReqs_of (s : State) (e : Nat) (l : List Packet) (i : Nat) : (s.setReqs e l).ctx i = s.ctx i := rfl
@[simp] theorem State.act_setReqs_of (s : State) (e : Nat) (l : List Packet) (i : Nat) : (s.setReqs e l).act i = s.act i := rfl
@[simp] theorem State.byte_setReqs_of (s : State) (e : Nat) (l : List Packet) (i : Nat) : (s.setReqs e l).byte i = s.byte i := rfl
@[simp] theorem State.port_setReqs_of (s : State) (e : Nat) (l : List Packet) (i : Nat) : (s.setReqs e l).port i = s.port i := rfl
@[simp] theorem State.reg_setImem_of (s : State) (n w : Nat) (v : Word) (i : Nat) : (s.setImem n w v).reg i = s.reg i := rfl
@[simp] theorem State.pe_setImem_of (s : State) (n w : Nat) (v : Word) (i : Nat) : (s.setImem n w v).pe i = s.pe i := rfl
@[simp] theorem State.ni_setImem_of (s : State) (n w : Nat) (v : Word) (i : Nat) : (s.setImem n w v).ni i = s.ni i := rfl
@[simp] theorem State.cm_setImem_of (s : State) (n w : Nat) (v : Word) (i : Nat) : (s.setImem n w v).cm i = s.cm i := rfl
@[simp] theorem State.ctx_setImem_of (s : State) (n w : Nat) (v : Word) (i : Nat) : (s.setImem n w v).ctx i = s.ctx i := rfl
@[simp] theorem State.act_setImem_of (s : State) (n w : Nat) (v : Word) (i : Nat) : (s.setImem n w v).act i = s.act i := rfl
@[simp] theorem State.byte_setImem_of (s : State) (n w : Nat) (v : Word) (i : Nat) : (s.setImem n w v).byte i = s.byte i := rfl
@[simp] theorem State.port_setImem_of (s : State) (n w : Nat) (v : Word) (i : Nat) : (s.setImem n w v).port i = s.port i := rfl
@[simp] theorem State.reg_setByte_of (s : State) (a : Nat) (v : Byte) (i : Nat) : (s.setByte a v).reg i = s.reg i := rfl
@[simp] theorem State.pe_setByte_of (s : State) (a : Nat) (v : Byte) (i : Nat) : (s.setByte a v).pe i = s.pe i := rfl
@[simp] theorem State.ni_setByte_of (s : State) (a : Nat) (v : Byte) (i : Nat) : (s.setByte a v).ni i = s.ni i := rfl
@[simp] theorem State.cm_setByte_of (s : State) (a : Nat) (v : Byte) (i : Nat) : (s.setByte a v).cm i = s.cm i := rfl
@[simp] theorem State.ctx_setByte_of (s : State) (a : Nat) (v : Byte) (i : Nat) : (s.setByte a v).ctx i = s.ctx i := rfl
@[simp] theorem State.act_setByte_of (s : State) (a : Nat) (v : Byte) (i : Nat) : (s.setByte a v).act i = s.act i := rfl
@[simp] theorem State.port_setByte_of (s : State) (a : Nat) (v : Byte) (i : Nat) : (s.setByte a v).port i = s.port i := rfl
@[simp] theorem State.reg_store_of (s : State) (a k v : Nat) (i : Nat) : (s.store a k v).reg i = s.reg i := rfl
@[simp] theorem State.pe_store_of (s : State) (a k v : Nat) (i : Nat) : (s.store a k v).pe i = s.pe i := rfl
@[simp] theorem State.ni_store_of (s : State) (a k v : Nat) (i : Nat) : (s.store a k v).ni i = s.ni i := rfl
@[simp] theorem State.cm_store_of (s : State) (a k v : Nat) (i : Nat) : (s.store a k v).cm i = s.cm i := rfl
@[simp] theorem State.ctx_store_of (s : State) (a k v : Nat) (i : Nat) : (s.store a k v).ctx i = s.ctx i := rfl
@[simp] theorem State.act_store_of (s : State) (a k v : Nat) (i : Nat) : (s.store a k v).act i = s.act i := rfl
@[simp] theorem State.port_store_of (s : State) (a k v : Nat) (i : Nat) : (s.store a k v).port i = s.port i := rfl
@[simp] theorem State.reg_setEcc_of (s : State) (a : Nat) (e : Ecc) (i : Nat) : (s.setEcc a e).reg i = s.reg i := rfl
@[simp] theorem State.pe_setEcc_of (s : State) (a : Nat) (e : Ecc) (i : Nat) : (s.setEcc a e).pe i = s.pe i := rfl
@[simp] theorem State.ni_setEcc_of (s : State) (a : Nat) (e : Ecc) (i : Nat) : (s.setEcc a e).ni i = s.ni i := rfl
@[simp] theorem State.cm_setEcc_of (s : State) (a : Nat) (e : Ecc) (i : Nat) : (s.setEcc a e).cm i = s.cm i := rfl
@[simp] theorem State.ctx_setEcc_of (s : State) (a : Nat) (e : Ecc) (i : Nat) : (s.setEcc a e).ctx i = s.ctx i := rfl
@[simp] theorem State.act_setEcc_of (s : State) (a : Nat) (e : Ecc) (i : Nat) : (s.setEcc a e).act i = s.act i := rfl
@[simp] theorem State.byte_setEcc_of (s : State) (a : Nat) (e : Ecc) (i : Nat) : (s.setEcc a e).byte i = s.byte i := rfl
@[simp] theorem State.port_setEcc_of (s : State) (a : Nat) (e : Ecc) (i : Nat) : (s.setEcc a e).port i = s.port i := rfl
@[simp] theorem State.reg_setPres_of (s : State) (a : Nat) (p : Presence) (i : Nat) : (s.setPres a p).reg i = s.reg i := rfl
@[simp] theorem State.pe_setPres_of (s : State) (a : Nat) (p : Presence) (i : Nat) : (s.setPres a p).pe i = s.pe i := rfl
@[simp] theorem State.ni_setPres_of (s : State) (a : Nat) (p : Presence) (i : Nat) : (s.setPres a p).ni i = s.ni i := rfl
@[simp] theorem State.cm_setPres_of (s : State) (a : Nat) (p : Presence) (i : Nat) : (s.setPres a p).cm i = s.cm i := rfl
@[simp] theorem State.ctx_setPres_of (s : State) (a : Nat) (p : Presence) (i : Nat) : (s.setPres a p).ctx i = s.ctx i := rfl
@[simp] theorem State.act_setPres_of (s : State) (a : Nat) (p : Presence) (i : Nat) : (s.setPres a p).act i = s.act i := rfl
@[simp] theorem State.byte_setPres_of (s : State) (a : Nat) (p : Presence) (i : Nat) : (s.setPres a p).byte i = s.byte i := rfl
@[simp] theorem State.port_setPres_of (s : State) (a : Nat) (p : Presence) (i : Nat) : (s.setPres a p).port i = s.port i := rfl
@[simp] theorem State.reg_setEject_of (s : State) (e : Nat) (l : List Packet) (i : Nat) : (s.setEject e l).reg i = s.reg i := rfl
@[simp] theorem State.pe_setEject_of (s : State) (e : Nat) (l : List Packet) (i : Nat) : (s.setEject e l).pe i = s.pe i := rfl
@[simp] theorem State.ni_setEject_of (s : State) (e : Nat) (l : List Packet) (i : Nat) : (s.setEject e l).ni i = s.ni i := rfl
@[simp] theorem State.cm_setEject_of (s : State) (e : Nat) (l : List Packet) (i : Nat) : (s.setEject e l).cm i = s.cm i := rfl
@[simp] theorem State.ctx_setEject_of (s : State) (e : Nat) (l : List Packet) (i : Nat) : (s.setEject e l).ctx i = s.ctx i := rfl
@[simp] theorem State.act_setEject_of (s : State) (e : Nat) (l : List Packet) (i : Nat) : (s.setEject e l).act i = s.act i := rfl
@[simp] theorem State.byte_setEject_of (s : State) (e : Nat) (l : List Packet) (i : Nat) : (s.setEject e l).byte i = s.byte i := rfl
@[simp] theorem State.port_setEject_of (s : State) (e : Nat) (l : List Packet) (i : Nat) : (s.setEject e l).port i = s.port i := rfl
@[simp] theorem State.reg_setMc_of (s : State) (f : Mc → Mc) (i : Nat) : (s.setMc f).reg i = s.reg i := rfl
@[simp] theorem State.pe_setMc_of (s : State) (f : Mc → Mc) (i : Nat) : (s.setMc f).pe i = s.pe i := rfl
@[simp] theorem State.ni_setMc_of (s : State) (f : Mc → Mc) (i : Nat) : (s.setMc f).ni i = s.ni i := rfl
@[simp] theorem State.cm_setMc_of (s : State) (f : Mc → Mc) (i : Nat) : (s.setMc f).cm i = s.cm i := rfl
@[simp] theorem State.ctx_setMc_of (s : State) (f : Mc → Mc) (i : Nat) : (s.setMc f).ctx i = s.ctx i := rfl
@[simp] theorem State.act_setMc_of (s : State) (f : Mc → Mc) (i : Nat) : (s.setMc f).act i = s.act i := rfl
@[simp] theorem State.byte_setMc_of (s : State) (f : Mc → Mc) (i : Nat) : (s.setMc f).byte i = s.byte i := rfl
@[simp] theorem State.port_setMc_of (s : State) (f : Mc → Mc) (i : Nat) : (s.setMc f).port i = s.port i := rfl
@[simp] theorem State.reg_setPw_of (s : State) (f : Pow → Pow) (i : Nat) : (s.setPw f).reg i = s.reg i := rfl
@[simp] theorem State.pe_setPw_of (s : State) (f : Pow → Pow) (i : Nat) : (s.setPw f).pe i = s.pe i := rfl
@[simp] theorem State.ni_setPw_of (s : State) (f : Pow → Pow) (i : Nat) : (s.setPw f).ni i = s.ni i := rfl
@[simp] theorem State.cm_setPw_of (s : State) (f : Pow → Pow) (i : Nat) : (s.setPw f).cm i = s.cm i := rfl
@[simp] theorem State.ctx_setPw_of (s : State) (f : Pow → Pow) (i : Nat) : (s.setPw f).ctx i = s.ctx i := rfl
@[simp] theorem State.act_setPw_of (s : State) (f : Pow → Pow) (i : Nat) : (s.setPw f).act i = s.act i := rfl
@[simp] theorem State.byte_setPw_of (s : State) (f : Pow → Pow) (i : Nat) : (s.setPw f).byte i = s.byte i := rfl
@[simp] theorem State.port_setPw_of (s : State) (f : Pow → Pow) (i : Nat) : (s.setPw f).port i = s.port i := rfl
@[simp] theorem State.reg_setVc_of (s : State) (r j vn : Nat) (l : List Hop) (i : Nat) : (s.setVc r j vn l).reg i = s.reg i := rfl
@[simp] theorem State.pe_setVc_of (s : State) (r j vn : Nat) (l : List Hop) (i : Nat) : (s.setVc r j vn l).pe i = s.pe i := rfl
@[simp] theorem State.ni_setVc_of (s : State) (r j vn : Nat) (l : List Hop) (i : Nat) : (s.setVc r j vn l).ni i = s.ni i := rfl
@[simp] theorem State.cm_setVc_of (s : State) (r j vn : Nat) (l : List Hop) (i : Nat) : (s.setVc r j vn l).cm i = s.cm i := rfl
@[simp] theorem State.ctx_setVc_of (s : State) (r j vn : Nat) (l : List Hop) (i : Nat) : (s.setVc r j vn l).ctx i = s.ctx i := rfl
@[simp] theorem State.act_setVc_of (s : State) (r j vn : Nat) (l : List Hop) (i : Nat) : (s.setVc r j vn l).act i = s.act i := rfl
@[simp] theorem State.byte_setVc_of (s : State) (r j vn : Nat) (l : List Hop) (i : Nat) : (s.setVc r j vn l).byte i = s.byte i := rfl
@[simp] theorem State.port_setVc_of (s : State) (r j vn : Nat) (l : List Hop) (i : Nat) : (s.setVc r j vn l).port i = s.port i := rfl
@[simp] theorem State.reg_setPort_of (s : State) (p : Nat) (x : Port) (i : Nat) : (s.setPort p x).reg i = s.reg i := rfl
@[simp] theorem State.pe_setPort_of (s : State) (p : Nat) (x : Port) (i : Nat) : (s.setPort p x).pe i = s.pe i := rfl
@[simp] theorem State.ni_setPort_of (s : State) (p : Nat) (x : Port) (i : Nat) : (s.setPort p x).ni i = s.ni i := rfl
@[simp] theorem State.cm_setPort_of (s : State) (p : Nat) (x : Port) (i : Nat) : (s.setPort p x).cm i = s.cm i := rfl
@[simp] theorem State.ctx_setPort_of (s : State) (p : Nat) (x : Port) (i : Nat) : (s.setPort p x).ctx i = s.ctx i := rfl
@[simp] theorem State.act_setPort_of (s : State) (p : Nat) (x : Port) (i : Nat) : (s.setPort p x).act i = s.act i := rfl
@[simp] theorem State.byte_setPort_of (s : State) (p : Nat) (x : Port) (i : Nat) : (s.setPort p x).byte i = s.byte i := rfl
@[simp] theorem State.reg_setLock_of (s : State) (n : Nat) (l : Lock) (i : Nat) : (s.setLock n l).reg i = s.reg i := rfl
@[simp] theorem State.pe_setLock_of (s : State) (n : Nat) (l : Lock) (i : Nat) : (s.setLock n l).pe i = s.pe i := rfl
@[simp] theorem State.ni_setLock_of (s : State) (n : Nat) (l : Lock) (i : Nat) : (s.setLock n l).ni i = s.ni i := rfl
@[simp] theorem State.cm_setLock_of (s : State) (n : Nat) (l : Lock) (i : Nat) : (s.setLock n l).cm i = s.cm i := rfl
@[simp] theorem State.ctx_setLock_of (s : State) (n : Nat) (l : Lock) (i : Nat) : (s.setLock n l).ctx i = s.ctx i := rfl
@[simp] theorem State.act_setLock_of (s : State) (n : Nat) (l : Lock) (i : Nat) : (s.setLock n l).act i = s.act i := rfl
@[simp] theorem State.byte_setLock_of (s : State) (n : Nat) (l : Lock) (i : Nat) : (s.setLock n l).byte i = s.byte i := rfl
@[simp] theorem State.port_setLock_of (s : State) (n : Nat) (l : Lock) (i : Nat) : (s.setLock n l).port i = s.port i := rfl
@[simp] theorem State.reg_setTest_of (s : State) (c : Nat) (x : ScTest) (i : Nat) : (s.setTest c x).reg i = s.reg i := rfl
@[simp] theorem State.pe_setTest_of (s : State) (c : Nat) (x : ScTest) (i : Nat) : (s.setTest c x).pe i = s.pe i := rfl
@[simp] theorem State.ni_setTest_of (s : State) (c : Nat) (x : ScTest) (i : Nat) : (s.setTest c x).ni i = s.ni i := rfl
@[simp] theorem State.cm_setTest_of (s : State) (c : Nat) (x : ScTest) (i : Nat) : (s.setTest c x).cm i = s.cm i := rfl
@[simp] theorem State.ctx_setTest_of (s : State) (c : Nat) (x : ScTest) (i : Nat) : (s.setTest c x).ctx i = s.ctx i := rfl
@[simp] theorem State.act_setTest_of (s : State) (c : Nat) (x : ScTest) (i : Nat) : (s.setTest c x).act i = s.act i := rfl
@[simp] theorem State.byte_setTest_of (s : State) (c : Nat) (x : ScTest) (i : Nat) : (s.setTest c x).byte i = s.byte i := rfl
@[simp] theorem State.port_setTest_of (s : State) (c : Nat) (x : ScTest) (i : Nat) : (s.setTest c x).port i = s.port i := rfl
@[simp] theorem State.reg_setDefers_of (s : State) (a : Nat) (l : List Defer) (i : Nat) : (s.setDefers a l).reg i = s.reg i := rfl
@[simp] theorem State.pe_setDefers_of (s : State) (a : Nat) (l : List Defer) (i : Nat) : (s.setDefers a l).pe i = s.pe i := rfl
@[simp] theorem State.ni_setDefers_of (s : State) (a : Nat) (l : List Defer) (i : Nat) : (s.setDefers a l).ni i = s.ni i := rfl
@[simp] theorem State.cm_setDefers_of (s : State) (a : Nat) (l : List Defer) (i : Nat) : (s.setDefers a l).cm i = s.cm i := rfl
@[simp] theorem State.ctx_setDefers_of (s : State) (a : Nat) (l : List Defer) (i : Nat) : (s.setDefers a l).ctx i = s.ctx i := rfl
@[simp] theorem State.act_setDefers_of (s : State) (a : Nat) (l : List Defer) (i : Nat) : (s.setDefers a l).act i = s.act i := rfl
@[simp] theorem State.byte_setDefers_of (s : State) (a : Nat) (l : List Defer) (i : Nat) : (s.setDefers a l).byte i = s.byte i := rfl
@[simp] theorem State.port_setDefers_of (s : State) (a : Nat) (l : List Defer) (i : Nat) : (s.setDefers a l).port i = s.port i := rfl
@[simp] theorem State.reg_setAe_of (s : State) (c : Nat) (v : Ae) (i : Nat) : (s.setAe c v).reg i = s.reg i := rfl
@[simp] theorem State.pe_setAe_of (s : State) (c : Nat) (v : Ae) (i : Nat) : (s.setAe c v).pe i = s.pe i := rfl
@[simp] theorem State.ni_setAe_of (s : State) (c : Nat) (v : Ae) (i : Nat) : (s.setAe c v).ni i = s.ni i := rfl
@[simp] theorem State.cm_setAe_of (s : State) (c : Nat) (v : Ae) (i : Nat) : (s.setAe c v).cm i = s.cm i := rfl
@[simp] theorem State.ctx_setAe_of (s : State) (c : Nat) (v : Ae) (i : Nat) : (s.setAe c v).ctx i = s.ctx i := rfl
@[simp] theorem State.act_setAe_of (s : State) (c : Nat) (v : Ae) (i : Nat) : (s.setAe c v).act i = s.act i := rfl
@[simp] theorem State.byte_setAe_of (s : State) (c : Nat) (v : Ae) (i : Nat) : (s.setAe c v).byte i = s.byte i := rfl
@[simp] theorem State.port_setAe_of (s : State) (c : Nat) (v : Ae) (i : Nat) : (s.setAe c v).port i = s.port i := rfl
@[simp] theorem State.reg_setDom_of (s : State) (d : Nat) (x : Dom) (i : Nat) : (s.setDom d x).reg i = s.reg i := rfl
@[simp] theorem State.pe_setDom_of (s : State) (d : Nat) (x : Dom) (i : Nat) : (s.setDom d x).pe i = s.pe i := rfl
@[simp] theorem State.ni_setDom_of (s : State) (d : Nat) (x : Dom) (i : Nat) : (s.setDom d x).ni i = s.ni i := rfl
@[simp] theorem State.cm_setDom_of (s : State) (d : Nat) (x : Dom) (i : Nat) : (s.setDom d x).cm i = s.cm i := rfl
@[simp] theorem State.ctx_setDom_of (s : State) (d : Nat) (x : Dom) (i : Nat) : (s.setDom d x).ctx i = s.ctx i := rfl
@[simp] theorem State.act_setDom_of (s : State) (d : Nat) (x : Dom) (i : Nat) : (s.setDom d x).act i = s.act i := rfl
@[simp] theorem State.byte_setDom_of (s : State) (d : Nat) (x : Dom) (i : Nat) : (s.setDom d x).byte i = s.byte i := rfl
@[simp] theorem State.port_setDom_of (s : State) (d : Nat) (x : Dom) (i : Nat) : (s.setDom d x).port i = s.port i := rfl

end Sys2Proof.Machine
end

