-- ==== Sys2Proof/Laws/Issue.lean ====
section
/-! SUPPORT. What issuing one instruction does to a PE that can take it: which fields change and what the activation becomes. -/

namespace Sys2Proof.Machine

theorem State.OnlyPe.refl (n : Nat) (s : State) : State.OnlyPe n s s := ⟨rfl, fun _ _ => rfl, fun _ _ => rfl⟩

theorem State.OnlyPe.trans {n : Nat} {s t u : State} (h : State.OnlyPe n s t) (g : State.OnlyPe n t u) : State.OnlyPe n s u := by
  refine ⟨?_, fun m hm => (g.pe m hm).trans (h.pe m hm), fun r hr => (g.reg r hr).trans (h.reg r hr)⟩
  have h1 := h.rest
  have g1 := g.rest
  rw [h1] at g1
  exact g1

theorem OnlyPe_setPe (n : Nat) (s : State) (p : Pe) : State.OnlyPe n s (s.setPe n p) :=
  ⟨rfl, fun m hm => by simp [hm], fun _ _ => rfl⟩

theorem OnlyPe_setReg (n : Nat) (s : State) (a : Nat) (v : Word) (h : isPeStat n a = true) : State.OnlyPe n s (s.setReg a v) :=
  ⟨rfl, fun _ _ => rfl, fun r hr => by
    have : r ≠ a := by rintro rfl; simp [h] at hr
    simp [this]⟩

theorem OnlyPe_log (n : Nat) (s : State) (e : Nat) (ev : Ev) (sev : Sev) (d : Word) (h : sev ≠ .fatalModule) (pe ctx : Option Nat)
    (psn : Bool) : State.OnlyPe n s (s.log e ev sev d pe ctx psn) := by
  unfold State.log
  simp only [if_neg h]
  exact ⟨rfl, fun _ _ => rfl, fun _ _ => rfl⟩

theorem log_pe (s : State) (e : Nat) (ev : Ev) (sev : Sev) (d : Word) (pe ctx : Option Nat) (psn : Bool) (m : Nat) :
    (s.log e ev sev d pe ctx psn).pe m = s.pe m := by
  unfold State.log
  split <;> rfl

/-- Noting that a counter is full changes no PE. -/
theorem noteFull_pe (s : State) (a m : Nat) : (s.noteFull a).pe m = s.pe m := by
  unfold State.noteFull
  cases h : statCtlOf a with
  | none => simp only [Option.elim]; split <;> [rfl; (rw [log_pe]; rfl)]
  | some ctl => simp only [Option.elim]; split <;> [rfl; (rw [log_pe]; rfl)]

theorem bump_pe (s : State) (a k m : Nat) : (s.bump a k).pe m = s.pe m := by
  unfold State.bump
  simp only
  split
  · rfl
  · rw [noteFull_pe]; rfl

/-- A full counter of a group with a control register changes that register and records an event. -/
theorem noteFull_ctl (s : State) (a ctl : Nat) (h : statCtlOf a = some ctl) : s.noteFull a =
    if s.rfld ctl 1 1 = 1 then s else (s.setRfld ctl 1 1 1).log (regOwner a) .statSat .info (BitVec.ofNat 64 a) := by
  unfold State.noteFull
  rw [h]
  rfl

/-- The OVF bit of PE m's statistics control register stands for every counter of its window. -/
theorem statCtlOf_peStat : ∀ m < 276, ∀ i < 16, statCtlOf (aPeStat m i) = some (aPeStatCtl m) := by decide +kernel

theorem resInject_notStat : ∀ n < 276, isPeStat n (aPeResInject (pairPe n)) = false := by decide +kernel

theorem OnlyPe_bumpPe (n : Nat) (hn : n < 276) (s : State) (i k : Nat) (hi : i < 16) : State.OnlyPe n s (s.bumpPe n i k) := by
  have hp : pairPe n < 276 := by unfold pairPe; split <;> [skip; split] <;> omega
  have h1 : isPeStat n (aPeStat (pairPe n) i) = true := by
    have : peStats (pairPe n) ≤ aPeStat (pairPe n) i ∧ aPeStat (pairPe n) i < peStats (pairPe n) + 0x200 := by
      unfold aPeStat; omega
    simp [isPeStat, this]
  have h2 : isPeStat n (aPeStatCtl (pairPe n)) = true := by simp [isPeStat]
  unfold State.bumpPe State.bump
  simp only
  split
  · exact OnlyPe_setReg n s _ _ h1
  · rw [noteFull_ctl _ _ _ (statCtlOf_peStat _ hp _ hi)]
    split
    · exact OnlyPe_setReg n s _ _ h1
    · exact ((OnlyPe_setReg n s _ _ h1).trans (OnlyPe_setReg n _ _ _ h2)).trans (OnlyPe_log n _ _ _ _ _ (by decide) _ _ _)

theorem bumpPe_pe (s : State) (n i k m : Nat) : (s.bumpPe n i k).pe m = s.pe m := bump_pe _ _ _ _

theorem updPe_pe (s : State) (n : Nat) (f : Pe → Pe) : (s.updPe n f).pe n = f (s.pe n) := by simp [State.updPe]

theorem OnlyPe_updPe (n : Nat) (s : State) (f : Pe → Pe) : State.OnlyPe n s (s.updPe n f) := OnlyPe_setPe n s _

/-- Counting slots changes PE n's clock and its statistics alone. -/
theorem countSlots_spec (s : State) (n : Nat) (hn : n < 276) (a b : Nat) :
    State.OnlyPe n s (s.countSlots n a b) ∧ (s.countSlots n a b).pe n = { s.pe n with clk := (s.pe n).clk + (b - a) } := by
  unfold State.countSlots
  refine ⟨?_, ?_⟩
  · exact (((OnlyPe_bumpPe n hn _ _ _ (by decide)).trans (OnlyPe_bumpPe n hn _ _ _ (by decide))).trans
      (OnlyPe_bumpPe n hn _ _ _ (by decide))).trans (OnlyPe_updPe n _ _)
  · simp [updPe_pe, bumpPe_pe]

theorem pe_eq_of_act {s : State} {n : Nat} {a : Act} (h : s.act n = some a) : (s.pe n).act = some a := h

/-- With nothing in flight, nothing lands. -/
theorem landTo_none (s : State) (n t : Nat) (a : Act) (h : s.act n = some a) (hf : a.flights = []) : s.landTo n t = s := by
  simp [State.landTo, h, hf, State.landFuel]

theorem firstFlight_mem (l : List Flight) (f : Flight) (h : firstFlight l = some f) : f ∈ l := by
  induction l generalizing f with
  | nil => simp [firstFlight] at h
  | cons g r ih =>
    simp only [firstFlight] at h
    split at h
    · cases h; simp
    · next x hx =>
      split at h <;> cases h
      · simp
      · exact List.mem_cons_of_mem _ (ih _ hx)

/-- Nothing lands that is due later. -/
theorem landTo_later (s : State) (n t : Nat) (a : Act) (h : s.act n = some a) (hf : ∀ f ∈ a.flights, t < f.land) :
    s.landTo n t = s := by
  unfold State.landTo
  rw [h]
  simp only
  cases hl : a.flights.length with
  | zero => rfl
  | succ k =>
    unfold State.landFuel
    rw [h]
    simp only
    split
    · rfl
    · next f hff =>
      have := hf f (firstFlight_mem _ _ hff)
      rw [if_neg (by omega)]

/-- What decoding sees: PE n holds a in its new slot. -/
structure State.AtIssue (s : State) (n : Nat) (a : Act) (t : State) : Prop where
  only : State.OnlyPe n s t
  pe : t.pe n = { s.pe n with clk := (s.pe n).clk + 1, act := some { a with slot := a.slot + 1 } }

theorem Act.rep_none (a : Act) (k : Nat) (h : a.rep = none) : ({ a with slot := k, rep := none } : Act) = { a with slot := k } := by
  cases a; simp_all

theorem issueSlot_ready (n : Nat) (o : Op) (a : Act) (f : Fields) (hf : a.flights = []) (hm : a.mulFree ≤ a.slot + 1) :
    issueSlot n o a f = a.slot + 1 := by
  have hl : ∀ l : List Nat, l.flatMap a.landsOf = [] := by
    intro l; simp [Act.landsOf, hf]
  have hl' : ∀ r, a.landsOf r = [] := by intro r; simp [Act.landsOf, hf]
  unfold issueSlot
  simp only [hf, List.foldl_nil, hl]
  split
  · split <;> split <;> simp [hm, Act.laccSlot]
  · rfl

theorem readsEarly_ready (n : Nat) (o : Op) (a : Act) (f : Fields) (hf : a.flights = []) : readsEarly n o a f = false := by
  have hl' : ∀ r, a.landsOf r = [] := by intro r; simp [Act.landsOf, hf]
  simp [readsEarly, hl']

/-- Activation a in a new slot, with what an instruction put in flight. -/
def Act.loaded (a : Act) (o : Op) (f : Fields) (effs : List Timed) (vis : Bool) (busy : Nat) : Act :=
  { a with
    slot := a.slot + 1, flights := a.inFlight (packWord o.code f) effs, visible := a.visible || vis,
    mulFree := if o.usesMul then a.slot + 1 + busy else a.mulFree,
    divUntil := if effs.any (fun e => e.dist == 66) then a.slot + 1 + 66 else a.divUntil }

/-- What issue goes on with once the effects of a slot are recorded. -/
def State.landFlow (t : State) (n : Nat) (x : Act) (w : Word) (off : Nat) (fl : Flow) : State :=
  match (t.landTo n x.slot).act n with
  | some b => if (t.landTo n x.slot).sameAct n x then (t.landTo n x.slot).flowOn n b w off fl else t.landTo n x.slot
  | none => t.landTo n x.slot

theorem Act.loaded_eq (a : Act) (o : Op) (f : Fields) (effs : List Timed) (vis : Bool) (busy : Nat) (hf : a.flights = []) :
    ({ a with
        slot := a.slot + 1, flights := a.flights ++ toFlights a.aw (a.slot + 1) a.off (packWord o.code f) effs,
        visible := a.visible || vis,
        mulFree := if o.usesMul then a.slot + 1 + busy else a.mulFree,
        divUntil := if effs.any (fun e => e.dist == 66) then a.slot + 1 + 66 else a.divUntil } : Act)
      = a.loaded o f effs vis busy := by
  simp only [Act.loaded, hf, List.nil_append, toFlights, Act.inFlight]

/-- With room in the outbound queue and nothing in flight, a message finds a place. -/
theorem outHeld_room (s : State) (n : Nat) (a : Act) (hf : a.flights = []) (h : (s.pe n).outQ.length < 64) : s.outHeld n a = false := by
  unfold State.outHeld
  rw [hf, decide_eq_false (by simpa using h)]
  rfl

theorem issueIn_ready (s back : State) (n : Nat) (a : Act) (o : Op) (f : Fields) (sem : State → Nat → Act → Fields → Issued)
    (effs : List Timed) (fl : Flow) (vis : Bool) (chk : Option Nat) (busy : Nat)
    (hf : a.flights = []) (hd : a.delay = none) (hr : a.rep = none)
    (hw : ((s.setAct n (some { a with slot := a.slot + 1 })).pe n).imemBad.contains (a.base + a.off) = false)
    (hi : ∀ u, (s.setAct n (some { a with slot := a.slot + 1 })).resArmed n u = false)
    (hk : o.kinds.contains (peKind n) = true) (hu : o.uses.ok f = true)
    (hs : sem (s.setAct n (some { a with slot := a.slot + 1 })) n { a with slot := a.slot + 1 } f = .ok effs fl vis chk busy)
    (hq : effs.any (fun e => e.dist == 0 && e.eff.isSend) = false ∨ ((s.setAct n (some { a with slot := a.slot + 1 })).pe n).outQ.length < 64) :
    s.issueIn back n (a.slot + 1) o f sem a =
      ((s.setAct n (some { a with slot := a.slot + 1 })).setAct n (some (a.loaded o f effs vis busy))).landFlow n
        (a.loaded o f effs vis busy) (packWord o.code f) a.off fl := by
  have hearly : readsEarly n o { a with slot := a.slot + 1 } f = false := readsEarly_ready n o _ f hf
  rw [← Act.loaded_eq a o f effs vis busy hf]
  unfold State.issueIn State.landFlow
  simp only [hr, Act.rep_none a _ hr]
  rw [if_neg (by rw [hw]; decide), if_neg (by rw [hk]; decide), if_neg (by rw [hu]; decide), hs]
  have hd' : ({ a with slot := a.slot + 1 } : Act).delay = none := hd
  simp only
  rw [if_neg (by rw [hearly, hd']; simp)]
  have hheld : (effs.any (fun e => e.dist == 0 && e.eff.isSend) && (s.setAct n (some { a with slot := a.slot + 1 })).outHeld n { a with slot := a.slot + 1 }) = false := by
    rcases hq with h | h
    · rw [h]; rfl
    · have : (s.setAct n (some { a with slot := a.slot + 1 })).outHeld n { a with slot := a.slot + 1 } = false := by
        exact outHeld_room _ n _ hf h
      rw [this, Bool.and_false]
  rw [if_neg (by rw [hheld]; decide)]
  cases chk with
  | none => rfl
  | some u => simp only [hi u, Bool.false_eq_true, if_false, List.nil_append]; rfl

/-- Issue on a PE that can take an instruction whose decoding answers `.ok`: the slot is counted, the effects are in flight, what is due
in the slot lands, then the flow. -/
theorem issue_ready {s : State} {n : Nat} {a : Act} (h : s.CanIssue n a) (o : Op) (f : Fields)
    (sem : State → Nat → Act → Fields → Issued) (effs : List Timed) (fl : Flow) (vis : Bool) (chk : Option Nat) (busy : Nat)
    (hk : o.kinds.contains (peKind n) = true) (hu : o.uses.ok f = true)
    (hs : ∀ t, s.AtIssue n a t → sem t n { a with slot := a.slot + 1 } f = .ok effs fl vis chk busy)
    (hq : effs.any (fun e => e.dist == 0 && e.eff.isSend) = false ∨ (s.pe n).outQ.length < 64) :
    ∃ t, State.OnlyPe n s t ∧
      t.pe n = { s.pe n with clk := (s.pe n).clk + 1, act := some (a.loaded o f effs vis busy) } ∧
      s.issue n o f sem = t.landFlow n (a.loaded o f effs vis busy) (packWord o.code f) a.off fl := by
  obtain ⟨hn, hact, hfence, hhalt, hlrd, hfl, hdel, hrep, hoff, hmul, hword, harm⟩ := h
  have hpe : (s.pe n).act = some a := hact
  have h0 : s.tryFence n = s := by simp [State.tryFence, hact, hfence]
  have h1 : s.mayIssue n = true := by simp [State.mayIssue, hpe, hfence, hhalt]
  obtain ⟨c1, c2⟩ := countSlots_spec s n hn a.slot (a.slot + 1)
  have c2' : (s.countSlots n a.slot (a.slot + 1)).pe n = { s.pe n with clk := (s.pe n).clk + 1 } := by
    rw [c2, Nat.add_sub_cancel_left]
  have c3 : (s.countSlots n a.slot (a.slot + 1)).act n = some a := by simp [State.act, c2', hpe]
  have l1 : (s.countSlots n a.slot (a.slot + 1)).landTo n (a.slot + 1) = s.countSlots n a.slot (a.slot + 1) :=
    landTo_none _ _ _ a c3 hfl
  have hslot : issueSlot n o a f = a.slot + 1 := issueSlot_ready n o a f hfl hmul
  have hblk : (s.countSlots n a.slot (a.slot + 1)).lrdHolds n a o.code (o.srcs f) = false := by simp [State.lrdHolds, c3, lrdBlocks, hlrd]
  unfold State.issue
  simp only [h0, h1, hact, hblk, hslot, l1, Bool.not_true, Bool.false_eq_true, if_false]
  generalize s.countSlots n a.slot (a.slot + 1) = s1 at *
  have p2 : (s1.updPe n (fun p => { p with halt := if p.halt = .step then .halted else p.halt })).pe n
      = { s.pe n with clk := (s.pe n).clk + 1 } := by
    simp only [updPe_pe, c2', hhalt]
    rw [if_neg (by decide), ← hhalt]
  have o2 : State.OnlyPe n s (s1.updPe n (fun p => { p with halt := if p.halt = .step then .halted else p.halt })) :=
    c1.trans (OnlyPe_updPe n _ _)
  generalize s1.updPe n (fun p => { p with halt := if p.halt = .step then .halted else p.halt }) = s2 at *
  have a2 : s2.act n = some a := by simp [State.act, p2, hpe]
  have same : s2.sameAct n a = true := by simp [State.sameAct, a2]
  simp only [a2, same, if_true]
  have p3 : (s2.setAct n (some { a with slot := a.slot + 1 })).pe n
      = { s.pe n with clk := (s.pe n).clk + 1, act := some { a with slot := a.slot + 1 } } := by
    simp only [State.setAct, updPe_pe, p2]
  have o3 : State.OnlyPe n s (s2.setAct n (some { a with slot := a.slot + 1 })) := o2.trans (OnlyPe_updPe n _ _)
  rw [issueIn_ready s2 _ n a o f sem effs fl vis chk busy hfl hdel hrep (by rw [p3]; exact hword)
    (fun u => by simp [State.resArmed, o3.reg _ (resInject_notStat n hn), harm]) hk hu (hs _ ⟨o3, p3⟩) (hq.imp_right (fun h => by rw [p3]; exact h))]
  refine ⟨_, o3.trans (OnlyPe_updPe n _ _), ?_, rfl⟩
  simp only [State.setAct, updPe_pe, p2]

theorem Act.advance_plain (x : Act) (off : Nat) (hd : x.delay = none) (hr : x.rep = none) : x.advance off = { x with off := off + 1 } := by
  simp [Act.advance, hd, hr]

theorem checkEnd_short (s : State) (n : Nat) (w : Word) (off : Nat) (x : Act) (h : s.act n = some x) (hl : x.off ≤ x.len) :
    s.checkEnd n w off = s := by
  unfold State.checkEnd
  rw [h]
  exact if_neg (by omega)

/-- Nothing due in the slot, and issue goes on to the next offset. -/
theorem landFlow_next (t : State) (n : Nat) (x : Act) (w : Word) (off : Nat) (hx : t.act n = some x)
    (hl : ∀ f ∈ x.flights, x.slot < f.land) (hd : x.delay = none) (hr : x.rep = none) (ho : off < x.len) :
    t.landFlow n x w off .next = t.setAct n (some { x with off := off + 1 }) := by
  have h1 : t.landTo n x.slot = t := landTo_later t n _ x hx hl
  unfold State.landFlow
  rw [h1, hx]
  have h2 : t.sameAct n x = true := by simp [State.sameAct, hx]
  simp only [h2, if_true, State.flowOn, Act.advance_plain x off hd hr]
  exact checkEnd_short _ n w off { x with off := off + 1 } (by simp [State.act, State.setAct, updPe_pe]) ho

theorem inFlight_later (a : Act) (w : Word) (l : List Timed) (h : ∀ e ∈ l, 0 < e.dist) : ∀ f ∈ a.inFlight w l, a.slot + 1 < f.land := by
  intro f hf
  simp only [Act.inFlight, List.mem_map] at hf
  obtain ⟨e, he, rfl⟩ := hf
  have := h e he
  simp only
  split <;> omega

/-- Effects that all land later send nothing in their slot. -/
theorem no_sends {effs : List Timed} (h : ∀ e ∈ effs, 0 < e.dist) : effs.any (fun e => e.dist == 0 && e.eff.isSend) = false := by
  rw [List.any_eq_false]
  intro e he
  simp [Nat.ne_of_gt (h e he)]

/-- An instruction that runs on to the next offset with effects that land later: what it leaves of the PE. -/
theorem runOp_next {s : State} {n : Nat} {a : Act} (h : s.CanIssue n a) (o : Op) (f : Fields)
    (sem : State → Nat → Act → Fields → Issued) (effs : List Timed) (vis : Bool) (chk : Option Nat) (busy : Nat)
    (hk : o.kinds.contains (peKind n) = true) (hu : o.uses.ok f = true) (hd : ∀ e ∈ effs, 0 < e.dist)
    (hs : ∀ t, s.AtIssue n a t → sem t n { a with slot := a.slot + 1 } f = .ok effs .next vis chk busy) :
    ∃ t, runOp n o f sem s = .next t ∧ State.OnlyPe n s t ∧
      t.pe n = { s.pe n with clk := (s.pe n).clk + 1, act := some { a.loaded o f effs vis busy with off := a.off + 1 } } := by
  obtain ⟨t, ht, hp, hi⟩ := issue_ready h o f sem effs .next vis chk busy hk hu hs (.inl (no_sends hd))
  have hx : t.act n = some (a.loaded o f effs vis busy) := by simp [State.act, hp]
  rw [landFlow_next t n _ _ _ hx (by exact inFlight_later a _ _ hd) h.delay h.rep h.off] at hi
  have h1 : runOp n o f sem s = .next (t.setAct n (some { a.loaded o f effs vis busy with off := a.off + 1 })) := by
    have hpend : (t.setAct n (some { a.loaded o f effs vis busy with off := a.off + 1 })).pending = s.pending := by
      rw [ht.rest]; rfl
    simp only [runOp, onPe, onUnit, if_pos h.pe, onModule, hi, ← hpend]
  refine ⟨_, h1, ht.trans (OnlyPe_updPe n _ _), ?_⟩
  simp only [State.setAct, updPe_pe, hp]

theorem loaded_issued (a : Act) (o : Op) (f : Fields) (effs : List Timed) (vis : Bool) (busy : Nat) (hm : o.usesMul = false)
    (h66 : effs.any (fun e => e.dist == 66) = false) :
    ({ a.loaded o f effs vis busy with off := a.off + 1 } : Act) = a.issued (packWord o.code f) effs vis := by
  simp [Act.loaded, Act.issued, hm, h66]

theorem allKinds_all (n : Nat) : allKinds.contains (peKind n) = true := by cases h : peKind n <;> simp [allKinds]

/-- An instruction whose effects land later, in the terms of the statements. -/
theorem issuesAct_of {c : Instr} {s : State} {n : Nat} {a : Act} (h : s.CanIssue n a) (o : Op) (f : Fields)
    (sem : State → Nat → Act → Fields → Issued) (effs : List Timed) (vis : Bool) (chk : Option Nat) (busy : Nat)
    (hc : exec c s = runOp n o f sem s)
    (hk : o.kinds.contains (peKind n) = true) (hu : o.uses.ok f = true) (hm : o.usesMul = false)
    (hd : ∀ e ∈ effs, 0 < e.dist) (h66 : effs.any (fun e => e.dist == 66) = false)
    (hs : ∀ t, s.AtIssue n a t → sem t n { a with slot := a.slot + 1 } f = .ok effs .next vis chk busy) :
    IssuesAct c s n (some (a.issued (packWord o.code f) effs vis)) := by
  obtain ⟨t, h1, h2, h3⟩ := runOp_next h o f sem effs vis chk busy hk hu hd hs
  refine ⟨t, hc.trans h1, h2, ?_⟩
  rw [h3, loaded_issued a o f effs vis busy hm h66]

/-- A message at distance 0, in the terms of the statements. -/
theorem issuesMsg_of {c : Instr} {s : State} {n : Nat} {a : Act} (h : s.CanIssue n a) (o : Op) (f : Fields)
    (sem : State → Nat → Act → Fields → Issued) (m : Msg) (vis : Bool)
    (hc : exec c s = runOp n o f sem s) (hq : (s.pe n).outQ.length < 64)
    (hk : o.kinds.contains (peKind n) = true) (hu : o.uses.ok f = true) (hm : o.usesMul = false)
    (hs : ∀ t, s.AtIssue n a t → sem t n { a with slot := a.slot + 1 } f = oneMsg m vis) :
    IssuesMsg c s n a (packWord o.code f) m vis := by
  obtain ⟨t, ht, hp, hi⟩ := issue_ready h o f sem [⟨0, .send m⟩] .next vis none 0 hk hu (fun t ht => hs t ht) (.inr hq)
  have hx : t.act n = some (a.loaded o f [⟨0, .send m⟩] vis 0) := by simp [State.act, hp]
  have hpend : ∀ u, State.OnlyPe n t u → u.pending = s.pending := by
    intro u hu; rw [hu.rest, ht.rest]
  have hrun : ∀ u, State.OnlyPe n t u → s.issue n o f sem = u → runOp n o f sem s = .next u := by
    intro u hu hi'
    simp only [runOp, onPe, onUnit, if_pos h.pe, onModule, hi', ← hpend u hu]
  unfold IssuesMsg
  by_cases haw : a.aw = true
  · rw [if_pos haw]
    have hlater : ∀ g ∈ (a.loaded o f [⟨0, .send m⟩] vis 0).flights, (a.loaded o f [⟨0, .send m⟩] vis 0).slot < g.land := by
      simp [Act.loaded, Act.inFlight, haw]
    rw [landFlow_next t n _ _ _ hx hlater h.delay h.rep h.off] at hi
    refine ⟨_, hc.trans (hrun _ (OnlyPe_updPe n _ _) hi), ht.trans (OnlyPe_updPe n _ _), ?_⟩
    simp only [State.setAct, updPe_pe, hp]
    rw [← loaded_issued a o f [⟨0, .send m⟩] vis 0 hm (by simp)]
  · have haw' : a.aw = false := by simpa using haw
    rw [if_neg haw]
    let g : Flight := ⟨a.slot + 1, a.slot + 1, a.off, packWord o.code f, false, .send m⟩
    let x : Act := { a.loaded o f [] vis 0 with flights := [] }
    have hfl : (a.loaded o f [⟨0, .send m⟩] vis 0).flights = [g] := by simp [Act.loaded, Act.inFlight, haw', g]
    have hland : t.landTo n (a.slot + 1) = (t.setAct n (some x)).pushOut n m := by
      unfold State.landTo
      rw [hx]
      simp only [hfl, List.length_singleton, State.landFuel, hx, firstFlight]
      rw [if_pos (by exact Nat.le_refl _)]
      simp only [List.erase_cons_head]
      rfl
    have hq' : ((t.setAct n (some x)).pe n).outQ.length < 64 := by
      simp only [State.setAct, updPe_pe, hp]; exact hq
    have hpush : (t.setAct n (some x)).pushOut n m
        = (t.setAct n (some x)).setPe n { (t.setAct n (some x)).pe n with outQ := ((t.setAct n (some x)).pe n).outQ ++ [m] } := by
      unfold State.pushOut; rw [if_pos hq']
    rw [hpush] at hland
    have ho : State.OnlyPe n t (t.landTo n (a.slot + 1)) := by rw [hland]; exact (OnlyPe_updPe n _ _).trans (OnlyPe_setPe n _ _)
    have hp2 : (t.landTo n (a.slot + 1)).pe n
        = { s.pe n with clk := (s.pe n).clk + 1, act := some x, outQ := (s.pe n).outQ ++ [m] } := by
      rw [hland]; simp [State.setAct, updPe_pe, hp]
    generalize hu' : t.landTo n (a.slot + 1) = u at *
    have hax : u.act n = some x := by simp [State.act, hp2]
    have hsame : u.sameAct n (a.loaded o f [⟨0, .send m⟩] vis 0) = true := by
      simp [State.sameAct, hax, x, Act.loaded]
    have hfin : s.issue n o f sem = u.setAct n (some { x with off := a.off + 1 }) := by
      rw [hi]
      unfold State.landFlow
      rw [show (a.loaded o f [⟨0, .send m⟩] vis 0).slot = a.slot + 1 from rfl, hu', hax]
      simp only [hsame, if_true, State.flowOn]
      rw [Act.advance_plain x a.off h.delay h.rep]
      exact checkEnd_short _ n _ _ { x with off := a.off + 1 } (by simp [State.act, State.setAct, updPe_pe]) h.off
    refine ⟨_, hc.trans (hrun _ (ho.trans (OnlyPe_updPe n _ _)) hfin), ht.trans (ho.trans (OnlyPe_updPe n _ _)), ?_⟩
    simp only [State.setAct, updPe_pe, hp2]
    rw [← loaded_issued a o f [] vis 0 hm (by simp)]
    simp [x, Act.loaded, Act.inFlight]

/-! Faults. -/

theorem leave_none (s : State) (n : Nat) (a : Act) : s.leave n a [] = s.setAct n none := rfl

theorem storeWords_pe (l : List Word) (v : State) (x m : Nat) : (v.storeWords x l).pe m = v.pe m := by
  induction l generalizing v x with
  | nil => rfl
  | cons w r ih =>
    simp only [State.storeWords, ih]
    rfl

theorem pairPe_pairPe (n : Nat) : pairPe (pairPe n) = pairPe n := by
  unfold pairPe; split <;> [decide; split] <;> first | decide | simp_all

theorem updPe_pair (s : State) (n : Nat) (f : Pe → Pe) : (s.updPe (pairPe n) f).pe n = f (s.pe n) := by
  have h : s.pe (pairPe n) = s.pe n := by simp only [State.pe, pairPe_pairPe]
  simp only [State.updPe, State.pe_setPe, pairPe_pairPe, if_true, h]

theorem updCm_pe (s : State) (c : Nat) (f : Cm → Cm) (m : Nat) : (s.updCm c f).pe m = s.pe m := rfl

/-- Starting a kill changes no PE. -/
theorem startKill_pe (u : State) (k : Nat) (r : Option Packet) (m : Nat) : (u.startKill k r).pe m = u.pe m := by
  unfold State.startKill
  simp only
  split
  · rw [updCm_pe]
    unfold State.writeDesc
    split
    · simp only [State.pe_setCtx_of]
    · simp only [storeWords_pe, State.pe_setCtx_of]
  · rfl

/-- A fault with nothing in flight takes the activation off its PE and, with a handler, queues its FAULT token there (R144, R145). -/
theorem raiseFault_spec (s : State) (n : Nat) (a : Act) (fc : FaultCode) (off detail : Nat) (hf : a.flights = []) :
    (s.raiseFault n a fc off detail).act n = none ∧
      (a.handles = none → (s.ctx a.key).hv = true → (s.ctx a.key).state ≠ .free →
        ((s.raiseFault n a fc off detail).pe n).outQ = (s.pe n).outQ ++
          [tokenMsg (peEndpoint (s.ctx a.key).hpe)
            (mkTag (tPri a.tag) (tCad a.tag) false true (tCtx a.tag) (tIter a.tag) (s.ctx a.key).hpe (s.ctx a.key).hip 0)
            (faultValue a.tag false fc.code off detail) 0 .none false true]) := by
  have hk := startKill_pe
  unfold State.raiseFault
  simp only [hf, ite_self, leave_none, State.deliver, State.deliverTo]
  have hctx : ∀ k, (s.setAct n none).ctx k = s.ctx k := fun _ => rfl
  have hact : ((s.setAct n none).pe n).act = none := by simp [State.setAct, updPe_pe]
  simp only [hctx]
  constructor
  · unfold State.act
    cases a.handles with
    | some o => simp only; rw [hk, log_pe]; exact hact
    | none =>
      simp only
      split
      · rw [updPe_pair]; exact hact
      · rw [hk, log_pe]; exact hact
  · intro hh hv hst
    have hv' : (s.ctx (tKey a.tag)).hv = true ∧ (s.ctx (tKey a.tag)).state ≠ .free := ⟨hv, hst⟩
    simp only [hh, if_pos hv']
    rw [updPe_pair]
    simp only [State.setAct, updPe_pe]
    rfl

/-- A fault at issue with nothing in flight, whatever AW is. -/
theorem faultAt_ready (s : State) (n : Nat) (a : Act) (off : Nat) (fc : FaultCode) (detail : Nat) (ha : s.act n = some a)
    (hf : a.flights = []) (h1 : fc ≠ .lsUncorrectable) (h2 : fc ≠ .imemUncorrectable) :
    s.faultAt n a off fc detail = s.raiseFault n a fc off detail := by
  have hn : s.noteUe n fc detail = s := by
    cases fc <;> first | exact absurd rfl h1 | exact absurd rfl h2 | rfl
  unfold State.faultAt
  simp only [hn]
  split
  · rw [landTo_none s n _ a ha hf]
    have : s.sameAct n a = true := by simp [State.sameAct, ha]
    simp only [ha, this, if_true]
  · rfl

/-- An instruction that decoding faults, in the terms of the statements. -/
theorem faultsWith_of {c : Instr} {s : State} {n : Nat} {a : Act} (h : s.CanIssue n a) (o : Op) (f : Fields)
    (sem : State → Nat → Act → Fields → Issued) (fc : FaultCode) (detail : Nat)
    (hc : exec c s = runOp n o f sem s)
    (hk : o.kinds.contains (peKind n) = true) (hu : o.uses.ok f = true)
    (h1 : fc ≠ .lsUncorrectable) (h2 : fc ≠ .imemUncorrectable)
    (hs : ∀ t, s.AtIssue n a t → sem t n { a with slot := a.slot + 1 } f = .bad fc detail none) :
    FaultsWith c s n a fc detail := by
  obtain ⟨hn, hact, hfence, hhalt, hlrd, hfl, hdel, hrep, hoff, hmul, hword, harm⟩ := h
  have hpe : (s.pe n).act = some a := hact
  have h0 : s.tryFence n = s := by simp [State.tryFence, hact, hfence]
  have h3 : s.mayIssue n = true := by simp [State.mayIssue, hpe, hfence, hhalt]
  obtain ⟨c1, c2⟩ := countSlots_spec s n hn a.slot (a.slot + 1)
  have c2' : (s.countSlots n a.slot (a.slot + 1)).pe n = { s.pe n with clk := (s.pe n).clk + 1 } := by
    rw [c2, Nat.add_sub_cancel_left]
  have c3 : (s.countSlots n a.slot (a.slot + 1)).act n = some a := by simp [State.act, c2', hpe]
  have l1 : (s.countSlots n a.slot (a.slot + 1)).landTo n (a.slot + 1) = s.countSlots n a.slot (a.slot + 1) :=
    landTo_none _ _ _ a c3 hfl
  have hslot : issueSlot n o a f = a.slot + 1 := issueSlot_ready n o a f hfl hmul
  have hblk : (s.countSlots n a.slot (a.slot + 1)).lrdHolds n a o.code (o.srcs f) = false := by simp [State.lrdHolds, c3, lrdBlocks, hlrd]
  have key : ∃ u, State.OnlyPe n s u ∧ u.pe n = { s.pe n with clk := (s.pe n).clk + 1, act := some { a with slot := a.slot + 1 } } ∧
      s.issue n o f sem = u.raiseFault n { a with slot := a.slot + 1 } fc a.off detail := by
    unfold State.issue
    simp only [h0, h3, hact, hblk, hslot, l1, Bool.not_true, Bool.false_eq_true, if_false]
    generalize s.countSlots n a.slot (a.slot + 1) = s1 at *
    have p2 : (s1.updPe n (fun p => { p with halt := if p.halt = .step then .halted else p.halt })).pe n
        = { s.pe n with clk := (s.pe n).clk + 1 } := by
      simp only [updPe_pe, c2', hhalt]
      rw [if_neg (by decide), ← hhalt]
    have o2 : State.OnlyPe n s (s1.updPe n (fun p => { p with halt := if p.halt = .step then .halted else p.halt })) :=
      c1.trans (OnlyPe_updPe n _ _)
    generalize s1.updPe n (fun p => { p with halt := if p.halt = .step then .halted else p.halt }) = s2 at *
    have a2 : s2.act n = some a := by simp [State.act, p2, hpe]
    have same : s2.sameAct n a = true := by simp [State.sameAct, a2]
    simp only [a2, same, if_true]
    have p3 : (s2.setAct n (some { a with slot := a.slot + 1 })).pe n
        = { s.pe n with clk := (s.pe n).clk + 1, act := some { a with slot := a.slot + 1 } } := by
      simp only [State.setAct, updPe_pe, p2]
    have o3 : State.OnlyPe n s (s2.setAct n (some { a with slot := a.slot + 1 })) := o2.trans (OnlyPe_updPe n _ _)
    have hw : ((s2.setAct n (some { a with slot := a.slot + 1 })).pe n).imemBad.contains (a.base + a.off) = false := by
      rw [p3]; exact hword
    have hsem := hs _ ⟨o3, p3⟩
    have ha3 : (s2.setAct n (some { a with slot := a.slot + 1 })).act n = some { a with slot := a.slot + 1 } := by
      simp [State.act, p3]
    refine ⟨_, o3, p3, ?_⟩
    unfold State.issueIn
    simp only [hrep, Act.rep_none a _ hrep]
    rw [if_neg (by rw [hw]; decide), if_neg (by rw [hk]; decide), if_neg (by rw [hu]; decide), hsem]
    have hearly : readsEarly n o { a with slot := a.slot + 1 } f = false := readsEarly_ready n o _ f hfl
    have hd' : ({ a with slot := a.slot + 1 } : Act).delay = none := hdel
    have hff : ∀ x, x = fc → (s2.setAct n (some { a with slot := a.slot + 1 })).faultAt n { a with slot := a.slot + 1 } a.off x detail
        = (s2.setAct n (some { a with slot := a.slot + 1 })).raiseFault n { a with slot := a.slot + 1 } fc a.off detail := by
      rintro x rfl; exact faultAt_ready _ n _ _ _ _ ha3 hfl h1 h2
    split
    · next heq => cases heq; exact hff _ rfl
    · simp only
      rw [if_neg (by rw [hearly, hd']; simp)]
      exact hff _ rfl
  obtain ⟨u, hu1, hu2, hu3⟩ := key
  obtain ⟨r1, r2⟩ := raiseFault_spec u n { a with slot := a.slot + 1 } fc a.off detail hfl
  have hctx : ∀ k, u.ctx k = s.ctx k := by intro k; rw [hu1.rest]; rfl
  refine ⟨{ u.raiseFault n { a with slot := a.slot + 1 } fc a.off detail with pending := s.pending }, ?_, r1, ?_⟩
  · rw [hc]
    simp only [runOp, onPe, onUnit, if_pos hn, onModule, hu3]
  · intro g1 g2 g3
    have := r2 g1 (by rw [hctx]; exact g2) (by rw [hctx]; exact g3)
    simp only [hctx, hu2] at this
    exact this

end Sys2Proof.Machine
end

