-- ==== Sys2Proof/Laws/Memory.lean ====
section
/-! SUPPORT. Memory: every operation keeps the canonical form, a read after a write gives what was written, and a write leaves every
other byte alone. -/

namespace Sys2Proof.Machine

theorem memWrite_wf (m : List Host.Cell) (a : Nat) (l : List Byte) (h : Tbl.wf 0 m = true) : Tbl.wf 0 (memWrite m a l) = true := by
  induction l generalizing m a with
  | nil => exact h
  | cons b r ih => exact ih _ _ (Tbl.wf_set 0 m a b h)

theorem memWrite_other (m : List Host.Cell) (a x : Nat) (l : List Byte) (h : x < a ∨ a + l.length ≤ x) :
    Tbl.get 0 (memWrite m a l) x = Tbl.get 0 m x := by
  induction l generalizing m a with
  | nil => rfl
  | cons b r ih =>
    simp only [List.length_cons] at h
    rw [memWrite, ih _ _ (by omega), Tbl.get_set_other _ _ _ _ (by omega)]

theorem memWrite_same (m : List Host.Cell) (a i : Nat) (l : List Byte) (h : i < l.length) :
    Tbl.get 0 (memWrite m a l) (a + i) = l[i] := by
  induction l generalizing m a i with
  | nil => simp at h
  | cons b r ih =>
    cases i with
    | zero => rw [memWrite, Nat.add_zero, memWrite_other _ _ _ _ (by omega)]; simp
    | succ i =>
      have := ih (Tbl.set 0 m a b) (a + 1) i (by simpa using h)
      rw [memWrite, show a + (i + 1) = a + 1 + i by omega, this]; simp

@[simp] theorem leBytes_length (k v : Nat) : (leBytes k v).length = k := by
  induction k generalizing v with
  | zero => rfl
  | succ k ih => simp [leBytes, ih]

theorem leNat_leBytes (k v : Nat) : leNat (leBytes k v) = v % 256 ^ k := by
  induction k generalizing v with
  | zero => simp [leBytes, leNat, Nat.mod_one]
  | succ k ih =>
    have h : (BitVec.ofNat 8 v).toNat = v % 256 := by rw [BitVec.toNat_ofNat]
    rw [leBytes, leNat, ih, h, pow_succ', Nat.mod_mul]

theorem memBytes_eq (m : List Host.Cell) (a k : Nat) (l : List Byte) (hl : l.length = k)
    (h : ∀ i (hi : i < l.length), Tbl.get 0 m (a + i) = l[i]) : memBytes m a k = l := by
  induction k generalizing a l with
  | zero => simpa [memBytes] using (List.length_eq_zero_iff.mp hl).symm
  | succ k ih =>
    cases l with
    | nil => simp at hl
    | cons b r =>
      have h0 := h 0 (by simp)
      rw [memBytes, ih (a + 1) r (by simpa using hl) (fun i hi => by
        have := h (i + 1) (by simpa using hi)
        rw [show a + 1 + i = a + (i + 1) by omega, this]; simp)]
      simpa using h0

/-- A load after a store of the same bytes gives the value stored, cut to its size. -/
theorem load_store (s : State) (a k v : Nat) : (s.store a k v).load a k = v % 256 ^ k := by
  unfold State.load State.store
  rw [memBytes_eq _ a k (leBytes k v) (by simp) (fun i hi => memWrite_same _ _ _ _ hi), leNat_leBytes]

/-- A store leaves every byte outside the stored ones alone. -/
theorem store_byte_other (s : State) (a k v x : Nat) (h : x < a ∨ a + k ≤ x) : (s.store a k v).byte x = s.byte x :=
  memWrite_other _ _ _ _ (by simpa using h)

/-- A store keeps memory canonical. -/
theorem store_wf (s : State) (a k v : Nat) (h : Tbl.wf 0 s.mem = true) : Tbl.wf 0 (s.store a k v).mem = true :=
  memWrite_wf _ _ _ h

/-- So does writing one byte. -/
theorem setByte_wf (s : State) (a : Nat) (v : Byte) (h : Tbl.wf 0 s.mem = true) : Tbl.wf 0 (s.setByte a v).mem = true :=
  Tbl.wf_set _ _ _ _ h

/-- So does storing consecutive words. -/
theorem storeWords_wf (s : State) (a : Nat) (l : List Word) (h : Tbl.wf 0 s.mem = true) : Tbl.wf 0 (s.storeWords a l).mem = true := by
  induction l generalizing s a with
  | nil => exact h
  | cons w r ih => exact ih _ _ (store_wf s a 8 _ h)

end Sys2Proof.Machine
end

