-- ==== Sys2Proof/Laws/MemoryOps.lean ====
section
/-! SUPPORT. Every operation on memory beyond a plain store keeps its canonical form. -/

namespace Sys2Proof.Machine

theorem wf_filter (m : List Host.Cell) (f : Host.Cell → Bool) (h : Tbl.wf 0 m = true) : Tbl.wf 0 (m.filter f) = true := by
  simp only [Tbl.wf, Bool.and_eq_true, decide_eq_true_eq, List.all_eq_true] at h ⊢
  exact ⟨(h.1.sublist ((List.filter_sublist).map _)), fun e he => h.2 e (List.mem_of_mem_filter he)⟩

theorem wf_foldl {α : Type} (l : List α) (g : List Host.Cell → α → List Host.Cell)
    (hg : ∀ m x, Tbl.wf 0 m = true → Tbl.wf 0 (g m x) = true) (m : List Host.Cell) (h : Tbl.wf 0 m = true) :
    Tbl.wf 0 (l.foldl g m) = true := by
  induction l generalizing m with
  | nil => exact h
  | cons x r ih => exact ih _ (hg m x h)

theorem wf_foldl_state {α : Type} (l : List α) (g : State → α → State)
    (hg : ∀ s x, Tbl.wf 0 s.mem = true → Tbl.wf 0 (g s x).mem = true) (s : State) (h : Tbl.wf 0 s.mem = true) :
    Tbl.wf 0 (l.foldl g s).mem = true := by
  induction l generalizing s with
  | nil => exact h
  | cons x r ih => exact ih _ (hg s x h)

theorem putBytes_wf (s : State) (a : Nat) (l : List Byte) (h : Tbl.wf 0 s.mem = true) : Tbl.wf 0 (s.putBytes a l).mem = true :=
  memWrite_wf _ _ _ h

theorem zeroLs_wf (s : State) (n lo hi : Nat) (h : Tbl.wf 0 s.mem = true) : Tbl.wf 0 (s.zeroLs n lo hi).mem = true :=
  wf_filter _ _ h

theorem zeroMem_wf (s : State) (lo hi : Nat) (h : Tbl.wf 0 s.mem = true) : Tbl.wf 0 (s.zeroMem lo hi).mem = true :=
  wf_filter _ _ h

theorem clearScratch_wf (s : State) (c : Nat) (keep : Nat → Bool) (h : Tbl.wf 0 s.mem = true) :
    Tbl.wf 0 (s.clearScratch c keep).mem = true :=
  wf_filter _ _ h

theorem loseDies_wf (s : State) (h : Tbl.wf 0 s.mem = true) : Tbl.wf 0 s.loseDies.mem = true :=
  wf_filter _ _ h

theorem setRfld_mem (s : State) (a hi lo v : Nat) : (s.setRfld a hi lo v).mem = s.mem := rfl

theorem setPres_mem (s : State) (a : Nat) (p : Presence) : (s.setPres a p).mem = s.mem := rfl

theorem saveCell_wf (c b : Nat) (m : List Host.Cell) (x : Host.Cell) (h : Tbl.wf 0 m = true) : Tbl.wf 0 (saveCell c b m x) = true := by
  unfold saveCell
  generalize saveOffset c x.1 = q
  cases q with
  | none => exact h
  | some o => exact Tbl.wf_set 0 _ _ _ h

theorem savePres_wf (c b : Nat) (s : State) (x : Nat × Presence) (h : Tbl.wf 0 s.mem = true) : Tbl.wf 0 (State.savePres c b s x).mem = true := by
  unfold State.savePres
  split
  · exact setByte_wf _ _ _ h
  · exact h

theorem saveCluster_wf (s : State) (c : Nat) (h : Tbl.wf 0 s.mem = true) : Tbl.wf 0 (s.saveCluster c).mem = true := by
  unfold State.saveCluster
  rw [setRfld_mem]
  exact wf_foldl_state _ _ (savePres_wf c _) _ (wf_foldl _ _ (saveCell_wf c _) _ (wf_filter _ _ h))

theorem restoreCell_wf (c b : Nat) (m : List Host.Cell) (x : Host.Cell) (h : Tbl.wf 0 m = true) : Tbl.wf 0 (restoreCell c b m x) = true := by
  unfold restoreCell
  split
  · generalize saveSource c (x.1 - b) = q
    cases q with
    | none => exact h
    | some o => exact Tbl.wf_set 0 _ _ _ h
  · exact h

theorem restorePres_wf (c b : Nat) (s : State) (x : Host.Cell) (h : Tbl.wf 0 s.mem = true) : Tbl.wf 0 (State.restorePres c b s x).mem = true := by
  unfold State.restorePres
  split
  · apply wf_foldl_state
    · intro u k hu
      rw [setPres_mem]
      exact hu
    · exact h
  · exact h

theorem restoreCluster_wf (s : State) (c : Nat) (h : Tbl.wf 0 s.mem = true) : Tbl.wf 0 (s.restoreCluster c).mem = true := by
  unfold State.restoreCluster
  rw [setRfld_mem]
  exact wf_foldl_state _ _ (restorePres_wf c _) _ (wf_foldl _ _ (restoreCell_wf c _) _ h)

end Sys2Proof.Machine
end

