-- ==== Sys2Proof/Tests/Slice0.lean ====
section
/-! SUPPORT. Tests: ill-formed terms that WellFormed refuses, small facts that the manual works out, and for every statement with hypotheses
concrete states and operands that meet them, at boundary values where a statement has several clauses. -/

namespace Sys2Proof.Tests

open Sys2Proof Sys2Proof.Machine

set_option Elab.async false

/-! WellFormed: one ill-formed term for each kind of unit. -/

/-- The map assigns 131 opcodes with NOP and the header's BLK: 105 on every kind, 12 not on K-PEs, 8 on A-PEs and 6 on K-PEs only (R156). -/
theorem test_opcode_map :
    let on (l : List Nat) : Nat := (opMap.filter fun e => [0, 256, 272].all fun n => opOnPe e.1 n == l.contains n).length
    opMap.length + 2 = 131 ∧ on [0, 256, 272] + 2 = 105 ∧ on [0, 256] = 12 ∧ on [256] = 8 ∧ on [272] = 6 ∧ (opMap.map (·.1)).Nodup ∧
      wordInstr 272 0x7300000000000000 = none ∧ wordInstr 3 0x4E3C000000000000 = some (.movtsGa 3 ⟨15, 0, 0, 0, 0⟩) := by decide +kernel

theorem test_wf_pe : (Instr.add 275 ⟨0, 0, 0, 0, 0⟩).wf = true ∧ (Instr.add 276 ⟨0, 0, 0, 0, 0⟩).wf = false := by decide
theorem test_wf_ape : (Instr.peLaccUnbind 256 0).wf = true ∧ (Instr.peLaccUnbind 255 0).wf = false := by decide
theorem test_wf_cluster : (Instr.clusterReset 63).wf = true ∧ (Instr.clusterReset 64).wf = false := by decide
theorem test_wf_endpoint : (Instr.niPacketEject 69).wf = true ∧ (Instr.niPacketEject 70).wf = false := by decide
theorem test_wf_owner : (Instr.cmFreectxRequest 69).wf = true ∧ (Instr.cmFreectxRequest 64).wf = false := by decide
theorem test_wf_port : (Instr.ptCtlTrain 15).wf = true ∧ (Instr.ptCtlTrain 16).wf = false := by decide
theorem test_wf_pair : (Instr.kpPairHalt 1).wf = true ∧ (Instr.kpPairHalt 2).wf = false := by decide
theorem test_wf_lock : (Instr.lkRelWrite 1023 0 0).wf = true ∧ (Instr.lkRelWrite 1024 0 0).wf = false := by decide
theorem test_wf_die : (Instr.dieFault 3).wf = true ∧ (Instr.dieFault 4).wf = false := by decide
theorem test_wf_collector : (Instr.collectorForward 5).wf = true ∧ (Instr.collectorForward 6).wf = false := by decide
theorem test_wf_channel : (Instr.mmInitDone 3).wf = true ∧ (Instr.mmInitDone 4).wf = false := by decide
theorem test_wf_router : (Instr.routerHop 63 0 0).wf = true ∧ (Instr.routerHop 65 0 0).wf = false := by decide

/-! The table gives no row bits: no word spells a command, and nothing is placed. -/

theorem test_words_spell_nothing (n w : Nat) (s : State) : decodeTableWord n w = none ∧ s.withFetchWord n w = s := ⟨rfl, rfl⟩

/-! Block code: an activation at offset 1 of a block of 20 instructions at word 16, with one wide input. -/

/-- An activation with header word h whose G registers hold k * 0x1111111111111111, but G1, which holds v. -/
def act (h v l : Word) : Act :=
  { serial := 5, tag := mkTag 3 false false false 9 2 3 16 0, stamp := 4, hdr := h, base := 16,
    ins := [⟨mkTag 3 false false true 9 2 3 16 0, mkWide 0x8899AABBCCDDEEFF 0x0011223344556677, false, 0, false⟩], gp := 0,
    g := (Vector.ofFn (fun i : Fin 16 => BitVec.ofNat 64 (i.val * 0x1111111111111111))).set 1 v, ga := Vector.replicate 4 0, rc := 3, fps := 0,
    fxs := 0, ctl := 0, mh := 0, ml := 0, lsel := l, off := 1, slot := 9, delay := none, rep := none, flights := [], mulFree := 0, divUntil := 0,
    lrd := none, fence := none, handles := none, visible := false, retried := false, resumed := false }

/-- Header words: arity 1 and LEN 20; with AW = 1 too; arity 2. -/
def hdr : Word := 0x1014000000000000
def hdrAw : Word := 0x1014200000000000
def hdr2 : Word := 0x1014400000000000

/-- A live context with a handler; PE n in a module where it runs activation a, with context 9 and the routes that the tests use. -/
def live : Ctx := { Ctx.init with state := .live, pri := 4, itw := 12, hpe := 5, hip := 40, hv := true, stallLimit := 500, credits := 100 }
/-- State.reset with the routes that the tests use. -/
def routed : State := [0, 1, 5, 64, 65, 67, 69].foldl (fun s e => s.setReg (aNiRt 0 0 e) 0x8000000000000001) State.reset
def runs (n : Nat) (a : Act) : State := { (routed.updPe n (fun p => { p with act := some a, clk := 4 })) with ctxs := [(9, live)] }

theorem can_issue (n : Nat) (h v l : Word) (hn : n = 3 ∨ n = 256 ∨ n = 272) (hh : h = hdr ∨ h = hdrAw) : (runs n (act h v l)).CanIssue n (act h v l) := by
  have hb : 1 < fld h 55 48 := by rcases hh with rfl | rfl <;> decide
  have hr : ∀ m ∈ [3, 256, 272], bitAt (routed.reg (aPeResInject (pairPe m))) 0 = false := by decide +kernel
  rcases hn with rfl | rfl | rfl <;>
    exact ⟨by decide, rfl, rfl, rfl, rfl, rfl, rfl, rfl, hb, Nat.zero_le _, rfl, hr _ (by decide)⟩

/-- PE n can issue in an activation of act, and P holds there too. -/
def Issuable (n : Nat) (h v l : Word) (P : State → Act → Prop) : Prop :=
  (runs n (act h v l)).CanIssue n (act h v l) ∧ P (runs n (act h v l)) (act h v l)

theorem issuable (n : Nat) (h v l : Word) (P : State → Act → Prop) (hn : n = 3 ∨ n = 256 ∨ n = 272) (hh : h = hdr ∨ h = hdrAw)
    (hp : P (runs n (act h v l)) (act h v l)) : Issuable n h v l P := ⟨can_issue n h v l hn hh, hp⟩

/-- A token for PE n of context 9, iteration 2, block 16; a packet. -/
def tok (n port v : Nat) : Token := ⟨mkTag 3 false false false 9 2 n 16 port, BitVec.ofNat 128 v, false, 0, false⟩
def pk : Packet :=
  { vn := 1, opc := .token, route := 0, dest := 0, src := 5, pri := 0, seq := 44, epoch := 0, spec := 9, crc := 0, bad := [], body := [], fault := false, note := 0 }

theorem test_int_two_source_results : Issuable 3 hdr 5 0 fun _ _ =>
    let f : Fields := ⟨15, 19, 16, 0, 0⟩
    (isDst f.d ∧ isSrc f.a ∧ isSrc f.b) ∧ f.sc = 0 ∧ f.imm = 0 := ⟨can_issue 3 _ _ _ (.inl rfl) (.inl rfl), by decide +kernel⟩

theorem test_int_one_source_results : Issuable 256 hdrAw 5 0 fun _ _ =>
    let f : Fields := ⟨15, 16, 0, 0, 0⟩
    isDst f.d ∧ isSrc f.a ∧ f.sa ≠ 0 ∧ f.sb = 0 ∧ f.sc = 0 ∧ f.imm = 0 := ⟨can_issue 256 _ _ _ (.inr (.inl rfl)) (.inr rfl), by decide +kernel⟩
theorem test_int_movi : Issuable 3 hdr 5 0 fun _ _ =>
    let f : Fields := ⟨15, 0, 0, 0, 0x80000000⟩
    isDst f.d ∧ f.sa = 0 ∧ f.sb = 0 ∧ f.sc = 0 := ⟨can_issue 3 _ _ _ (.inl rfl) (.inl rfl), by decide +kernel⟩

/-- A register count 64 * 3 + 63; immediate counts 63 and 64; widths 64, 65 and 0 at shifts 63 and 0; SEL with three sources. -/
theorem test_shift_and_extract_rules : Issuable 3 hdr 255 0 fun _ a =>
    let f (i : BitVec 32) : Fields := ⟨15, 16, 0, 0, i⟩
    (isDst 15 ∧ isSrc 16 ∧ isSrc 1 ∧ (a.src 1).toNat = 3 * 64 + 63) ∧ (f 63).i < 64 ∧ ¬(f 64).i < 64 ∧ (f 0xFFF).i = 63 * 64 + 63 ∧
      (f 0x103F).i = 64 * 64 + 63 ∧ (f 0x1040).i = 65 * 64 + 0 ∧ (f 0x3F).i = 0 * 64 + 63 ∧ (isSrc 19 = false ∨ isSrc 15) :=
  ⟨can_issue 3 _ _ _ (.inl rfl) (.inl rfl), by decide +kernel⟩

theorem test_fixed_point_results : Issuable 3 hdr 5 0 fun _ _ =>
    (isDst 15 ∧ isSrc 16 ∧ isSrc 0) ∧ (⟨15, 16, 0, 0, 63⟩ : Fields).i < 64 := ⟨can_issue 3 _ _ _ (.inl rfl) (.inl rfl), by decide +kernel⟩

theorem test_guarded_accumulator_results : Issuable 3 hdrAw 5 0 fun _ _ =>
    (isGa 20 ∧ isGa 23 ∧ isDst 0 ∧ isSrc 16 ∧ isSrc 15) ∧ (⟨20, 23, 0, 0, 63⟩ : Fields).i < 64 :=
  ⟨can_issue 3 _ _ _ (.inl rfl) (.inr rfl), by decide +kernel⟩

theorem test_multiply_results : Issuable 256 hdr 0x7FFF 0 fun _ a =>
    (isDst 0 ∧ isSrc 16 ∧ isSrc 1) ∧ mulSlots 256 a.cad (a.src 1).toInt (fun k => -(2 ^ (k - 1))) (fun k => 2 ^ (k - 1)) = 1 :=
  ⟨can_issue 256 _ _ _ (.inr (.inl rfl)) (.inl rfl), by decide +kernel⟩

theorem test_fp_arithmetic_results : Issuable 3 hdrAw 5 0 fun _ a =>
    (isDst 0 ∧ isSrc 16 ∧ isSrc 1 ∧ isSrc 15) ∧ (a.aw = false ∨ a.ten = 0) := ⟨can_issue 3 _ _ _ (.inl rfl) (.inr rfl), by decide +kernel⟩

/-- Comparison kinds 0 and 3; FSGN kinds 0 without SB and 3 with it; FCLASS of both formats; a conversion. -/
theorem test_fp_compare_and_convert : Issuable 3 hdr 5 0 fun _ a =>
    (isDst 0 ∧ isSrc 16 ∧ isSrc 1) ∧ (a.aw = false ∨ a.ten = 0) ∧ (⟨0, 16, 1, 3, 0⟩ : Fields).c < 4 ∧ (⟨0, 16, 0, 1, 0⟩ : Fields).c < 2 ∧
      (⟨0, 16, 0, 1, 0⟩ : Fields).sb = 0 ∧ (⟨0, 16, 0, 0, 0⟩ : Fields).sc = 0 := ⟨can_issue 3 _ _ _ (.inl rfl) (.inl rfl), by decide +kernel⟩

/-- A signalling NaN added to itself, with every exception enabled to trap. -/
theorem test_fp_enabled_exception_traps :
    let a : Act := { act hdrAw 0x7FF0000000000001 0 with ctl := 0x1F00 }
    (runs 3 a).CanIssue 3 a ∧ a.aw = true ∧ isDst 0 ∧ isSrc 1 ∧
      (fmtD.add a.rm (fmtD.val (a.src 1)) (fmtD.val (a.src 1))).tiny = false ∧
      (fmtD.add a.rm (fmtD.val (a.src 1)) (fmtD.val (a.src 1))).fl &&& a.ten ≠ 0 :=
  ⟨⟨by decide, rfl, rfl, rfl, rfl, rfl, rfl, rfl, by decide, by decide, rfl, by decide +kernel⟩, by decide +kernel⟩

theorem test_engine_requests : Issuable 3 hdr 5 0 fun s _ =>
    let f : Fields := ⟨0, 16, 1, 0, 0x01FF8000⟩
    let g : Fields := ⟨0, 16, 0, 0, 275 * 32768⟩
    (isSrc f.a ∧ isSrc f.b) ∧ (s.pe 3).outQ.length < 64 ∧ g.dst = 0 ∧ g.sb = 0 ∧ g.sc = 0 ∧ descOk .reply g ∧ dPe g.i = 275 :=
  ⟨can_issue 3 _ _ _ (.inl rfl) (.inl rfl), by decide +kernel⟩

/-- LDL of 8 bytes at the end of the local store; STL of a word in both kinds of block; an access off its alignment and one beyond the end. -/
theorem test_local_memory_load : Issuable 3 hdr 0x7FF8 0 fun s a =>
    let f : Fields := ⟨15, 1, 0, 1, 0⟩
    (isDst f.d ∧ f.sb = 0 ∧ lsFields true f) ∧ s.eccAt (lsAddr 3 a f) = .ok ∧ lsRange 3 (lsEa a f) (lsSize f.c) :=
  ⟨can_issue 3 _ _ _ (.inl rfl) (.inl rfl), by decide +kernel⟩

theorem test_local_memory_store : ∀ h ∈ [hdr, hdrAw], Issuable 3 h 0x7FFF 0 fun _ a =>
    let f : Fields := ⟨0, 1, 16, 7, 0⟩
    (isSrc f.b ∧ f.dst = 0 ∧ lsFields false f ∧ a.poisoned f.a = false) ∧ lsRange 3 (lsEa a f) (lsSize f.c) := by
  intro h hh
  rcases List.mem_pair.mp hh with rfl | rfl
  · exact issuable _ _ _ _ _ (.inl rfl) (.inl rfl) (by decide +kernel)
  · exact issuable _ _ _ _ _ (.inl rfl) (.inr rfl) (by decide +kernel)
theorem test_local_memory_faults : Issuable 256 hdr 0x40000 0 fun _ a =>
    (∀ f ∈ [(⟨0, 1, 0, 7, 0⟩ : Fields), ⟨0, 0, 0, 0, 4⟩], (lsEa a f % lsSize f.c ≠ 0 ∨ lsBytes 256 < lsEa a f + lsSize f.c) ∧ isDst f.d ∧ f.sb = 0 ∧
      lsFields true f ∧ a.poisoned f.a = false) ∧ isSrc 16 ∧ lsFields false ⟨0, 1, 16, 7, 0⟩ :=
  issuable _ _ _ _ _ (.inr (.inl rfl)) (.inl rfl) (by decide +kernel)

/-- MOVS of the first input's high half; MOVTS of the largest RC, and of LSEL on an A-PE. -/
theorem test_special_register_moves : Issuable 256 hdr 0xFFFF 0 fun s a =>
    (isDst 15 ∧ isSrc 1 ∧ isSrc 0 ∧ a.poisoned 1 = false ∧ a.poisoned 0 = false) ∧ (⟨15, 16, 0, 1, 0⟩ : Fields).a = 16 + 0 ∧ a.ins[0]?.isSome = true ∧
      specialOk a 25 (a.src 1) ∧ specialOk a 28 (a.src 0) ∧ specialOk a 31 (a.src 0) ∧ specialOk a 26 (a.src 0) ∧ s.cadBarred = false ∧
      (⟨31, 0, 0, 0, 0⟩ : Fields).d = 31 := issuable _ _ _ _ _ (.inr (.inl rfl)) (.inl rfl) (by decide +kernel)

/-- BR and BRC to offsets 1 and 20 of a block of 20; every condition of BRC holds of some source and not of another. -/
theorem test_control_branches : Issuable 3 hdr 0x8000000000000001 0 fun _ a =>
    (1 ≤ (⟨0, 0, 0, 0, 1⟩ : Fields).i ∧ (⟨0, 1, 0, 7, 20⟩ : Fields).i ≤ a.len) ∧ isSrc 0 ∧ isSrc 1 ∧ isSrc 2 ∧ a.poisoned 1 = false ∧
      a.src 0 = 0 ∧ (a.src 1).toInt < 0 ∧ (a.src 1).toNat % 2 = 1 ∧ 0 < (a.src 2).toInt ∧ (a.src 2).toNat % 2 = 0 :=
  issuable _ _ _ _ _ (.inl rfl) (.inl rfl) (by decide +kernel)
/-- Repeats of 65535 and 256 times, and by a register of zero; fences with a request outstanding and without. -/
theorem test_control_repeats_and_fences : Issuable 3 hdr 5 0 fun s a =>
    repBarred (s.imemAt 3 (a.base + a.off + 1)) = false ∧ (⟨0, 0, 0, 0, 65535⟩ : Fields).i < 65536 ∧ (⟨0, 0, 0, 0, 256⟩ : Fields).i ≤ 256 ∧
      (⟨0, 0, 0, 0, 65536⟩ : Fields).i = 65536 ∧ isSrc 0 ∧ a.src 0 = 0 ∧ a.poisoned 0 = false ∧ a.off + 1 < a.len ∧
      s.outstanding 3 a.serial .a = false ∧ s.outstanding 3 a.serial .w = false :=
  issuable _ _ _ _ _ (.inl rfl) (.inl rfl) (by decide +kernel)
theorem test_control_fence_waits :
    let a := act hdr 5 0
    let s := (runs 3 a).updPe 3 fun p => { p with outQ := [tokenMsg 0 0 0 5 .a, tokenMsg 0 0 0 5 .w] }
    s.CanIssue 3 a ∧ s.outstanding 3 a.serial .a = true ∧ s.outstanding 3 a.serial .w = true :=
  ⟨⟨by decide, rfl, rfl, rfl, rfl, rfl, rfl, rfl, by decide, by decide, rfl, by decide +kernel⟩, by decide +kernel⟩

/-- A descriptor of PE 275's place, through endpoint 69; PE 276, which does not exist; PE 8 of cluster 2, to which no route leads. -/
theorem test_token_send_ops : Issuable 3 hdr 5 0 fun s a =>
    let f (p : Nat) : Fields := ⟨0, 16, 0, 0, BitVec.ofNat 32 (p * 32768)⟩
    ((s.pe 3).outQ.length < 64 ∧ isSrc 16 ∧ isSrc 1 ∧ dPe (f 275).i ≤ 275 ∧ 275 < dPe (f 276).i) ∧
      (∀ p ∈ [275, 276, 8], descOk .token (f p) ∧ dEpm (f p).i = false ∧ (dXt (f p).i → a.poisoned 0 = false)) ∧
      s.noRoute (peEndpoint 3) (peEndpoint 275) = false ∧ s.noRoute (peEndpoint 3) (peEndpoint 8) = true :=
  issuable _ _ _ _ _ (.inl rfl) (.inl rfl) (by decide +kernel)

/-- Module memory through endpoint 64 in both views, the scratch of cluster 1, and the addresses that no message reaches. -/
theorem test_memory_request_ops : Issuable 3 hdr 0x0000000800000008 0 fun s a =>
    let f (c i : Nat) : Fields := ⟨0, 1, 0, BitVec.ofNat 6 c, BitVec.ofNat 32 i⟩
    ((s.pe 3).outQ.length < 64 ∧ isSrc 1 ∧ isSrc 0 ∧ a.poisoned 1 = false ∧ dPe (f 0 0).i ≤ 275) ∧ descOk .reply (f 4 (275 * 32768)) ∧
      descOk .replyNr (f 3 (2 ^ 24)) ∧ descOk .reply (f 10 0) ∧ s.target true false (a.src 1) 8 = .inr 64 ∧ s.noRoute (peEndpoint 3) 64 = false ∧
      s.target false true 0 8 = .inr 64 ∧ s.target false false 0x001000100000 16 = .inr 1 ∧ s.noRoute (peEndpoint 3) 1 = false ∧ a.src 0 = 0 :=
  issuable _ _ _ _ _ (.inl rfl) (.inl rfl) (by decide +kernel)
theorem test_memory_request_faults : (Issuable 3 hdr 0x002000000000 0 fun s a =>
      isSrc 1 ∧ a.poisoned 1 = false ∧ descOk .reply ⟨0, 1, 0, 0, 0⟩ ∧ (a.src 1).toNat < 2 ^ 48 ∧ s.classify (a.src 1).toNat = .barred) ∧
    Issuable 3 hdr 0xFFFFFFFFFFFF 0 fun s a => (a.src 1).toNat < 2 ^ 48 ∧ s.classify (a.src 1).toNat = .none :=
  ⟨issuable _ _ _ _ _ (.inl rfl) (.inl rfl) (by decide +kernel), issuable _ _ _ _ _ (.inl rfl) (.inl rfl) (by decide +kernel)⟩

/-- Context 5 * 16384 + 1 of endpoint 5; a RESUME of a frame of PE 3; the last lock; an event of severity 2; NEWCTX of lease class 12 to cluster 1. -/
theorem test_service_requests : (Issuable 3 hdr 0x14001 0 fun s a =>
      (3 < 272 ∧ (s.pe 3).outQ.length < 64 ∧ isSrc 1 ∧ isSrc 0 ∧ a.poisoned 1 = false ∧ a.poisoned 0 = false) ∧ (a.src 1).toNat < 2 ^ 20 ∧
        (a.src 1).toNat % 16384 ≠ 0 ∧ s.noRoute (peEndpoint 3) ((a.src 1).toNat / 16384) = false ∧ fld (a.src 0) 63 12 = 0 ∧
        descOk .reply ⟨0, 1, 0, 0, 0⟩ ∧ (⟨0, 1, 0, 0, 2 * 65536⟩ : Fields).i / 65536 = 2 ∧ s.noRoute (peEndpoint 3) 67 = false) ∧
    (Issuable 3 hdr (3 * 2 ^ 48 + 0x200) 0 fun _ a => fld (a.src 1) 63 57 = 0 ∧ fld (a.src 1) 56 48 ≤ 275 ∧ (a.src 1).toNat % 512 = 0) ∧
    (Issuable 3 hdr 1023 0 fun s a => (a.src 1).toNat < 1024 ∧ s.noRoute (peEndpoint 3) 65 = false ∧ descOk .replyNr ⟨0, 1, 0, 0, 0⟩) ∧
    Issuable 3 hdr (12 * 2 ^ 56) 0 fun s a =>
      fld (a.src 1) 32 20 = 0 ∧ fld (a.src 1) 59 56 ≤ 12 ∧ fld (a.src 0) 63 32 = 0 ∧ fld (a.src 0) 31 24 < 64 ∧
        s.noRoute (peEndpoint 3) (fld (a.src 0) 31 24) = false :=
  ⟨issuable _ _ _ _ _ (.inl rfl) (.inl rfl) (by decide +kernel), issuable _ _ _ _ _ (.inl rfl) (.inl rfl) (by decide +kernel),
    issuable _ _ _ _ _ (.inl rfl) (.inl rfl) (by decide +kernel), issuable _ _ _ _ _ (.inl rfl) (.inl rfl) (by decide +kernel)⟩

theorem test_outbound_backlog : ((State.reset.updPe 3 fun p => { p with outQ := List.replicate 64 (tokenMsg 0 0 0 5 .a) }).pe 3).outQ.length = 64 := by
  decide +kernel

/-- KZERO of the last 8 bytes; SAFEW of owned lands in both kinds of block. -/
theorem test_keeper_extensions : ∀ h ∈ [hdr, hdrAw], Issuable 272 h 0x7FF8 0 fun s a =>
    (isDst 15 ∧ isSrc 1 ∧ isSrc 16) ∧ a.divUntil ≤ a.slot + 1 ∧ a.poisoned 1 = false ∧ (a.src 1).toNat % 8 = 0 ∧
      (a.src 1).toNat + (⟨0, 1, 0, 0, 8⟩ : Fields).i = 32768 ∧ (⟨0, 0, 0, 0, 0xFF⟩ : Fields).i < 65536 ∧ s.safeUnowned (pairOf 272) 0xFF = false := by
  intro h hh
  rcases List.mem_pair.mp hh with rfl | rfl
  · exact issuable _ _ _ _ _ (.inr (.inr rfl)) (.inl rfl) (by decide +kernel)
  · exact issuable _ _ _ _ _ (.inr (.inr rfl)) (.inr rfl) (by decide +kernel)

theorem test_results_land : Issuable 3 hdr 5 0 fun _ a =>
    let g (e : Effect) : Flight := ⟨7, 10, 1, 0, false, e⟩
    (g (.reg 15 9 true)).land = a.slot + 1 ∧ (g (.flags 31 3)).divk = false ∧ (g (.store (lsBase 3) 8 9 false)).land = a.slot + 1 :=
  issuable _ _ _ _ _ (.inl rfl) (.inl rfl) (by decide +kernel)

/-- The selected accumulator 3 bound to the activation's context, unbound, and bound to another. -/
theorem test_long_accumulators : ∀ l ∈ [({ Lacc.init with bound := true, owner := 9 } : Lacc), Lacc.init, { Lacc.init with bound := true, owner := 8 }],
    let a := act hdr 5 3
    let s := (runs 256 a).setLacc 256 3 l
    s.CanIssue 256 a ∧ a.aw = false ∧ isSrc 1 ∧ isSrc 16 ∧ isDst 15 ∧ fld a.lsel 1 0 = 3 ∧ s.lacc 256 3 = l ∧ tCtx a.tag = 9 ∧ fld a.lsel 4 2 ≤ 4 := by
  intro l hl
  refine ⟨⟨by decide, rfl, rfl, rfl, rfl, rfl, rfl, rfl, by decide, by decide, rfl, ?_⟩, by decide, by decide, by decide, by decide, by decide, ?_,
    by decide, by decide⟩
  · exact (by decide +kernel : bitAt (routed.reg (aPeResInject (pairPe 256))) 0 = false)
  · revert l hl; decide +kernel

/-! Matching and dispatch: tokens of context 9, iteration 2, block 16. -/

/-- PE n with header word h at block 16 and this inbox. -/
def atPe (n : Nat) (h : Word) (i : List Token) : State :=
  ({ (State.reset.setImem n (blockAddr n (tok n 0 0).tag) h) with ctxs := [(9, live), (2 ^ 20 + 9, live)] }).updPe n fun p => { p with inbox := i, clk := 7 }
def withRec (n : Nat) (q : MRec) (s : State) : State := s.updPe n fun p => { p with recs := [q] }
/-- The record of a block of two inputs that holds the token for port 0. -/
def half (n : Nat) : MRec :=
  { key := matchKey (tok n 0 0).tag, arity := 2, toks := [(0, tok n 0 5)], ready := false, poison := false, keyBad := false, arrived := 0, level := .store,
    set := (atPe n hdr2 []).setOf n (tok n 0 0).tag }

def running (s : State) : State := s.setReg (aPairStatus 0) (2 ^ 62)
/-- PE 3 and PE 272 can take the only input of a block of arity 1; the last port of a block of arity 2, with an empty store and with the record of
the other input. -/
theorem test_token_matching :
    (atPe 3 hdr [tok 3 0 5]).CanMatch 3 (tok 3 0 5) ∧ (running (atPe 272 hdr2 [tok 272 1 5])).CanMatch 272 (tok 272 1 5) ∧
      (withRec 3 (half 3) (atPe 3 hdr2 [tok 3 1 5])).CanMatch 3 (tok 3 1 5) :=
  ⟨⟨by decide, by decide, rfl, ⟨rfl, rfl⟩, by decide +kernel, by decide +kernel, by decide +kernel, by decide +kernel, by decide +kernel, by decide +kernel⟩,
    ⟨by decide, by decide +kernel, rfl, ⟨rfl, rfl⟩, by decide +kernel, by decide +kernel, by decide +kernel, by decide +kernel, by decide +kernel, by decide +kernel⟩,
    ⟨by decide, by decide, rfl, ⟨rfl, rfl⟩, by decide +kernel, by decide +kernel, by decide +kernel, by decide +kernel, by decide +kernel, by decide +kernel⟩⟩
def entry (n pri stamp : Nat) : ReadyE := ⟨pri, 3, stamp, 1, matchKey (tok n 0 0).tag, .one (tok n 0 99)⟩
/-- A full ready list beside the token of an arity of 1; a pair that does not run. -/
theorem test_token_matching_waits :
    (let s := (atPe 3 hdr [tok 3 0 5]).updPe 3 fun p => { p with ready := List.replicate 256 (entry 3 3 1) }
     (s.pe 3).inbox = [tok 3 0 5] ∧ (s.pe 3).ready.length = (s.pe 3).readyLim ∧ s.auxRoom (peEndpoint 3) .pes 64 = true ∧ s.pressure = false ∧
       (s.pe 3).lookups = [] ∧ (s.pe 3).killFilter = [] ∧ (s.pe 3).killStage = [] ∧ (s.pe 3).imemBad = [] ∧
       fld (s.imemAt 3 (blockAddr 3 (tok 3 0 5).tag)) 47 46 + 1 = 1 ∧ opOf (s.imemAt 3 (blockAddr 3 (tok 3 0 5).tag)) = 0x10) ∧
    (atPe 272 hdr2 [tok 272 1 5]).pairRuns 272 = false := by decide +kernel
theorem test_token_matching_clauses :
    let s := atPe 272 hdr2 [tok 272 1 5]
    let u := withRec 3 (half 3) (atPe 3 hdr2 [tok 3 1 5])
    fld ((atPe 3 hdr []).imemAt 3 (blockAddr 3 (tok 3 0 5).tag)) 47 46 + 1 = 1 ∧ tPoison (tok 3 0 5).tag = false ∧ ((atPe 3 hdr []).pe 3).ready.length < ((atPe 3 hdr []).pe 3).readyLim ∧ ((atPe 3 hdr []).pe 3).backlog = [] ∧ (u.pe 3).backlog = [] ∧ (u.pe 3).ready.length < (u.pe 3).readyLim ∧
      1 < fld (s.imemAt 272 (blockAddr 272 (tok 272 1 5).tag)) 47 46 + 1 ∧ (s.pe 272).recs = [] ∧ (s.pe 272).lowCount (s.setOf 272 (tok 272 1 5).tag) .deep = 0 ∧
      (s.pe 272).waysUsed (s.setOf 272 (tok 272 1 5).tag) + 1 ≤ 4 ∧
      (u.pe 3).recs = [half 3] ∧ (half 3).key = matchKey (tok 3 1 5).tag ∧ (half 3).toks = [(1 - tPort (tok 3 1 5).tag, tok 3 0 5)] := by decide +kernel
/-- A token for port 2 of a block of arity 2, and a token for a word that is no header. -/
theorem test_token_matching_refusals : ∀ s ∈ [atPe 3 hdr2 [tok 3 2 5], atPe 3 0 [tok 3 2 5]],
    s.pairRuns 3 = true ∧ (s.pe 3).inbox = [tok 3 2 5] ∧ (s.pe 3).lookups = [] ∧ (s.pe 3).killFilter = [] ∧ (s.pe 3).killStage = [] ∧ (s.pe 3).imemBad = [] ∧ s.pressure = false ∧
      (tok 3 2 5).fault = false ∧ blockAddr 3 (tok 3 2 5).tag < imemWords 3 ∧
      (opOf (s.imemAt 3 (blockAddr 3 (tok 3 2 5).tag)) ≠ 0x10 ∨ fld (s.imemAt 3 (blockAddr 3 (tok 3 2 5).tag)) 47 46 < 2) ∧
      (s.ctx (tKey (tok 3 2 5).tag)).hv = true ∧ (s.ctx (tKey (tok 3 2 5).tag)).state ≠ .free := by decide +kernel

theorem test_dispatch : ∀ n ∈ [3, 256, 272],
    let s := ((atPe n hdr []).updPe n fun p => { p with ready := [entry n 3 9, entry n 5 4, entry n 5 2] }).setReg (aPairStatus (pairOf n)) (2 ^ 62)
    (s.pe n).act = none ∧ (s.pe n).halt = .run ∧ s.mayDispatch n = true ∧ bestReady (s.pe n).ready = some (entry n 5 2) ∧
      (s.pe n).imemBad.contains (blockAddr n (entry n 5 2).key) = false ∧
      headerOk n (blockAddr n (entry n 5 2).key) (s.imemAt n (blockAddr n (entry n 5 2).key)) = true ∧ s.cadBarred = false := by decide +kernel
theorem test_dispatch_order : bestReady [entry 3 3 9, entry 3 5 4, entry 3 5 2] = some (entry 3 5 2) := by decide +kernel

def searched (n vn : Nat) : Packet := { pk with vn := vn, opc := .spill, src := 0, body := [mkWide (tok n 1 5).tag 5, mkWide (BitVec.ofNat 64 (pairPe n)) 0] }
def full (n : Nat) : MRec := { half n with toks := [(0, tok n 0 5), (1, tok n 1 5)], ready := true, level := .deep }
theorem test_lower_levels :
    (let s := State.reset.setReqs 66 [searched 3 1]
     s.reqAt 66 = [searched 3 1] ∧ (searched 3 1).opc = .spill ∧ s.pressure = false) ∧
    (let s := (atPe 3 hdr2 []).setReqs 0 [searched 3 2]
     s.reqAt (peEndpoint 3) = [searched 3 2] ∧ (searched 3 2).spillPe = pairPe 3 ∧ (searched 3 2).rtag = (tok 3 1 5).tag ∧
       1 ≤ fld (s.imemAt 3 (blockAddr 3 (tok 3 1 5).tag)) 47 46 ∧ (s.pe 3).recs = [] ∧ (s.pe 3).waysUsed (s.setOf 3 (tok 3 1 5).tag) + 1 ≤ 4) ∧
    (let s := (atPe 3 hdr2 []).updPe 3 fun p => { p with recs := [full 3], fillBuf := [(full 3).key] }
     (s.pe 3).recs.find? (fun q => q.ready && (s.pe 3).fillBuf.contains q.key && q.level != .fill) = some (full 3) ∧ (full 3).keyBad = false) := by
  decide +kernel
theorem test_lower_levels_match : ((atPe 3 hdr2 []).setReqs 0 [searched 3 2]).CanMatch 3 (tok 3 1 5) :=
  ⟨by decide, by decide, rfl, ⟨rfl, rfl⟩, by decide +kernel, by decide +kernel, by decide +kernel, by decide +kernel, by decide +kernel, by decide +kernel⟩

/-- A REP.I after 3 of 9 iterations, with an entry of priority 6; a precise trap in flight. -/
theorem test_suspension :
    (let a := { act hdr 5 0 with rep := some ⟨true, 9, 3⟩ }
     let s := (runs 3 a).updPe 3 fun p => { p with ready := [entry 3 6 1] }
     s.act 3 = some a ∧ a.flights = [] ∧ a.lrd = none ∧ (s.pe 3).halt = .run ∧ entry 3 6 1 ∈ (s.pe 3).ready ∧ actPri (s.pe 3) a < 6 ∧
       (s.pe 3).ready.length < 256 ∧ (s.pe 3).backlog = [] ∧ (s.pe 3).freeFrame true = some 0) ∧
    (let g : Flight := ⟨7, 11, 1, 0, false, .trap 3 1 2 3 4 16 none none 3⟩
     let a := { act hdrAw 5 0 with flights := [g] }
     let s := runs 256 a
     s.act 256 = some a ∧ a.rc = 3 ∧ (s.pe 256).freeFrame false = some 2 ∧ a.handles = none ∧ (s.ctx a.key).hv = true ∧ (s.ctx a.key).state ≠ .free) := by
  decide +kernel
theorem test_checks :
    (let g : Flight := ⟨7, 70, 1, 0, false, .reg 15 55 false⟩
     let a (v : Bool) := { act hdr 5 0 with flights := [g], visible := v }
     (runs 3 (a true)).act 3 = some (a true) ∧ (runs 3 (a false)).act 3 = some (a false) ∧ (a false).retried = false ∧ (a false).resumed = false) ∧
    (let a := { act hdr 5 0 with flights := [⟨7, 70, 1, 0, true, .reg 15 55 false⟩], fence := some .w }
     (runs 272 a).act 272 = some a ∧ a.slot < 70) ∧
    (let a := { act hdr 5 0 with lrd := some ⟨15, 1, 0, 0, 0, false, 5, 1, 0⟩ }
     let s := (runs 271 a).setLacc 271 1 { Lacc.init with bound := true, owner := 9 }
     s.act 271 = some a ∧ a.flights = [] ∧ (s.lacc 271 1).residueBad = false ∧ (s.lacc 271 1).err = 0 ∧ a.off ≤ a.len ∧ (s.lacc 271 1).readout 0 0 0 false = some (0, 0, 0)) ∧
    (let a := { act hdrAw 5 0 with lrd := some ⟨15, 1, 0, 0, 0, false, 5, 1, 0⟩, flights := [⟨7, 75, 1, 0, true, .reg 14 55 false⟩] }
     let s := (runs 271 a).setLacc 271 1 { Lacc.init with bound := true, owner := 9 }
     s.act 271 = some a ∧ (s.lacc 271 1).residueBad = false ∧ (s.lacc 271 1).err = 0 ∧ a.off ≤ a.len ∧ ∀ g ∈ a.flights, max a.slot (5 + (s.lacc 271 1).cycles a.cad) ≤ g.land) := by decide +kernel

/-- PE 3 with its activation in frame 7, and a request for it with modifier m. -/
def saved : State :=
  let a := act hdr 5 0
  let s := routed.storeWords (routed.frameAddr 3 7) (frameWords a (frameStatus false a) 1 2 3 4 16)
  { (s.updPe 3 fun p => p.setFrame 7 (some ⟨false, a, frameStatus false a, 4, 15, 16, 3, false⟩)) with ctxs := [(9, live)] }
def asks (m : Nat) : Packet :=
  { pk with opc := .service, spec := 4 * 512 + 9,
            body := [mkWide (act hdr 5 0).tag (BitVec.ofNat 64 (saved.frameAddr 3 7 + 2 ^ 48 * 3)), mkWide 0 (BitVec.ofNat 64 m)] }
theorem test_resume_requests : ∀ m ∈ [0, 2],
    let s := saved.setReqs 0 [asks m]
    s.reqAt 0 = [asks m] ∧ peEndpoint 3 = 0 ∧ (asks m).svc = 4 ∧ (asks m).len = 2 ∧ (asks m).argA = BitVec.ofNat 64 (s.frameAddr 3 7 + 2 ^ 48 * 3) ∧
      s.frameAddr 3 7 < 2 ^ 48 ∧ (∃ x, (s.pe 3).frame 7 = some x ∧ x.preempt = false ∧ x.inReady = false ∧ s.frameWord 3 7 0x100 = x.act.tag ∧
        s.frameWord 3 7 0x140 = x.status ∧ tCtx x.act.tag = tCtx (asks m).rtag ∧ tIter x.act.tag = tIter (asks m).rtag ∧ s.frameOk 3 7 x.act = true ∧
        (s.pe 3).backlog = [] ∧ (s.pe 3).ready.length < (s.pe 3).readyLim) ∧
      (asks m).argB = BitVec.ofNat 64 m := by
  intro m hm
  rcases List.mem_pair.mp hm with rfl | rfl <;>
    exact ⟨rfl, rfl, by decide +kernel, by decide +kernel, by decide +kernel, by decide +kernel, ⟨_, rfl, by decide +kernel⟩, by decide +kernel⟩

/-! Engines, keepers, interfaces, shifts, routers, contexts, memory targets, locks. -/

def aeReq (op : AeOp) (rr : Bool) : AeReq :=
  { op := op, a := 7, b := 2, poison := false, rm := 0, fxrm := 0, sat := false, ten := 0, cad := false, tag := (tok 3 0 0).tag,
    reply := mkTag 3 false false false 9 2 20 16 0, pe := 3, rerun := rr }
def aeMsg (op : AeOp) : Msg := { dest := 0, opc := .control, pri := 3, spec := 0, body := [], act := 5, cls := .a, ae := some (aeReq op false) }
theorem test_engines_and_sequencers :
    (let s := State.reset.updPe 271 fun p => { p with outQ := [aeMsg .divS] }
     (s.pe 271).outBack = [] ∧ (s.pe 271).outQ = [aeMsg .divS] ∧ (s.ae (peEndpoint 271)).queue = []) ∧
    (let s := State.reset.setAe 0 { Ae.init with queue := List.replicate 16 (aeReq .divS false) }
     16 ≤ (s.ae 0).queue.length) ∧
    (let s := { (State.reset.setAe 63 { Ae.init with unit0 := some (aeReq .divS false), unit1 := some (aeReq .remU true) }) with ctxs := [(9, live)] }
     (s.ae 63).queue = [] ∧ (s.ae 63).atUnit 0 = some (aeReq .divS false) ∧ (s.ae 63).atUnit 1 = some (aeReq .remU true) ∧ s.aeArmed 63 0 = false ∧
       s.aeArmed 63 1 = false ∧ (s.ctx (tCtx (aeReq .remU true).reply)).hv = true ∧ (s.ctx (tCtx (aeReq .remU true).reply)).state ≠ .free) ∧
    State.reset.clState (peCluster 271) < 2 ∧ State.reset.clState 63 < 2 := by decide +kernel
def aeDone : State :=
  (State.reset.setAe 63 { Ae.init with unit0 := some (aeReq .divS false) }).setReg (aNiRt 63 0 (peEndpoint 20)) 0x8000000000000001
theorem test_engines_reply : (aeDone.ae 63).atUnit 0 = some (aeReq .divS false) ∧ aeDone.aeArmed 63 0 = false ∧
    aeDone.CanReply 63 (aeReq .divS false).reply (aeReq .divS false).value :=
  ⟨by decide +kernel, by decide +kernel, by decide +kernel, by decide +kernel, by decide +kernel, by decide +kernel, by decide +kernel, by decide +kernel⟩
/-- Microwords of SEQ 0 whose four conditions hold and which form the last ROM address, the ends of patch RAM and the first reserved address; one of
SEQ 2; a trap window. The last match register redirects the ROM address to patch word 5. -/
theorem test_microwords :
    let w (base : Nat) : BitVec 112 := BitVec.ofNat 112 (base * 2 ^ 93 + 1 * 2 ^ 73 + 2 * 2 ^ 78 + 31 * 2 ^ 83 + 7 * 2 ^ 88)
    (∀ b ∈ [0x1FF0, 0x2000, 0x21FF, 0x2200], (microword (w b)).seq = 0 ∧ (microword (w b)).next (BitVec.allOnes 32) = b ||| 15) ∧
      State.reset.patchWord 271 0x1FFF = none ∧ (State.reset.setReg (aPeUmatch 271 31) (2 ^ 31 + 5 * 2 ^ 16 + 0x1FFF)).patchWord 271 0x1FFF = some 5 ∧
      (microword (BitVec.ofNat 112 (2 ^ 108))).seq = 2 ∧ (microword (BitVec.ofNat 112 (2 ^ 109))).tw = true := by decide +kernel

/-- A sequencer that has fetched patch word 0, which is w. -/
def micro (n : Nat) (w : BitVec 112) (f : Useq → Useq) : State :=
  State.reset.updPe n fun p => { p with useq := f { p.useq with patch := [(0, w)], mpc := 0x2000 } }
/-- The words of test_microwords as the sequencer finds them; a trap window with a halt waiting; the end of a service routine with a slot in use. -/
theorem test_microwords_fetched :
    let w (base : Nat) : BitVec 112 := BitVec.ofNat 112 (base * 2 ^ 93 + 1 * 2 ^ 73 + 2 * 2 ^ 78 + 31 * 2 ^ 83 + 7 * 2 ^ 88)
    (let s := micro 275 (w 0x2000 + BitVec.ofNat 112 (2 ^ 109)) fun q => { q with haltTrap := true }
     s.microNext (pairPe 275) (BitVec.allOnes 32) = .next 0x200F ∧ (s.microHere (pairPe 275)).tw = true ∧ s.routine (pairPe 275) = none ∧
       (s.pe 275).useq.slots = [] ∧ (s.pe 275).useq.killTrap = none ∧ (s.pe 275).useq.haltTrap = true) ∧
    (∀ k ∈ [LongKind.halt, .fill, .release], let x : SaveSlot := ⟨5, Vector.replicate 8 7, none⟩
     let s := micro 271 (BitVec.ofNat 112 (2 ^ 107)) fun q => { q with slots := [x], running := some ⟨k, 0, 0⟩ }
     (s.microHere 271).seq = 1 ∧ (s.pe 271).useq.slots = [x] ∧ (s.pe 271).useq.running = some ⟨k, 0, 0⟩) ∧
    (∀ b ∈ [0x1FF0, 0x2000, 0x21FF, 0x2200], ((micro 271 (w b) id).microHere 271).seq = 0 ∧
      ((micro 271 (w b) id).microHere 271).next (BitVec.allOnes 32) = b ||| 15) ∧
    2 ≤ ((micro 271 (BitVec.ofNat 112 (2 ^ 108)) id).microHere 271).seq := by decide +kernel
theorem test_no_gates (n : Nat) (w : BitVec 112) (f : Useq → Useq) (e : Nat) : ((micro n w f).cm e).gate = [] := rfl

def pairs (st : Nat) (z a : Bool) : State :=
  ((State.reset.setRfld (aPairStatus 1) 63 62 st).updPair 1 fun k => { k with zero := z, again := a }).setReg (aPairCtl 1) 0x100000000
theorem test_keeper_pairs :
    (pairs 1 false false).pairState 1 = 1 ∧ (pairs 0 false false).pairState 1 ≠ 1 ∧ (pairs 2 true false).pairState 1 = 2 ∧
      ((pairs 2 true false).pairSt 1).zero = true ∧ ((pairs 2 true false).pairSt 1).again = false ∧
      (pairs 1 false false).rfld (aPairCtl 1) 63 32 ≠ 0 ∧ ((pairs 1 false false).pairSt 1).wdogOut = false ∧ (pairs 1 false false).mc.tap ≠ 3 := by
  decide +kernel

def toTag (n : Nat) : Word := mkTag 3 false false false 9 2 n 16 0
def made (o : Opc) (vn spec : Nat) (body : List Wide) : Packet := Packet.sealed { pk with vn := vn, opc := o, spec := spec, seq := 3, body := body }
def reads : Packet := made .read 1 9 [mkWide (toTag 3) 0x001000000010]
def sends : Packet := made .token 0 0 [mkWide (toTag 3) 77]
def replies : Packet := made .resp 2 (2 ^ 15 + 4) [mkWide (toTag 20) 99]
def nacks (c : Nat) : Packet := made .nack 2 (c * 128 + 4) []
def bounces (ep : Nat) : Packet := made .bounce 2 0 ({ sends with epoch := ep, dest := 9 }.head :: sends.body)
def slot4 : RSlot := { pkt := reads, act := 5, cls := .a, opened := 0, downs := 0, corrupts := 0, waitEpoch := false }
def ctxLive (s : State) : State := { s with ctxs := [(9, live)] }
def asked (p : Packet) (sh : Bool) : State :=
  ctxLive { (State.reset.setReqs 0 [p]).updNi 0 (fun n => n.setSlot 4 (some slot4)) with shift := { Shift.init with busy := sh } }
theorem test_network_interfaces_eject : ∀ p ∈ [reads, sends],
    let s := ctxLive (State.reset.setEject 0 [p])
    s.ejectQ 0 = [p] ∧ p.vn < 4 ∧ s.resetting (ejectDcq 0 p.vn) = false ∧ p.flits ≤ ejectDepth 0 ∧ p.bad = [] ∧ p.calcCrc = p.crc ∧ vnOk p = true ∧ specOk p = true ∧ spillOk p = true ∧
      Tbl.get 0 (s.ni 0).lastEpoch (p.src * 4 + p.vn) = 0 ∧ s.heldAsleep 0 p = false ∧ s.domainOff 0 p = false ∧
      (p.opc = .token → bitAt p.token.tag 56 = false ∧ tPe p.token.tag = 3 ∧ peEndpoint 3 = 0 ∧ s.gateDec 0 p.token = .accept) := by decide +kernel
theorem test_network_interfaces_off : reads.opc.isMem = true ∧ ((State.reset.setEject 0 [reads]).setClState 0 3).domainOff 0 reads = true ∧
    ((State.reset.setEject 0 [reads]).setClState 0 3).heldAsleep 0 reads = false := by decide +kernel
theorem test_network_interfaces_oversize :
    let p : Packet := { pk with body := List.replicate 32 0 }
    (State.reset.setEject 0 [p]).ejectQ 0 = [p] ∧ p.vn < 4 ∧ State.reset.resetting (ejectDcq 0 p.vn) = false ∧ State.reset.heldAsleep 0 p = false ∧ ejectDepth 0 < p.flits ∧ ejectDcq 0 p.vn = some (aNiDcq 0 5) := by
  decide +kernel
theorem test_network_interfaces_replies :
    (asked replies false).slotFor 0 replies = some slot4 ∧ replies.spec.testBit 15 = true ∧ (State.reset.setReqs 0 [replies]).slotFor 0 replies = none ∧
      (∀ c ∈ [2, 3], let s := asked (nacks c) true
        s.reqAt 0 = [nacks c] ∧ (nacks c).dest = 0 ∧ (nacks c).body = [] ∧ (nacks c).note % 16 < 13 ∧ s.shift.busy = true ∧ s.mc.graph = none ∧
          s.slotFor 0 (nacks c) = some slot4 ∧ fld (BitVec.ofNat 25 (nacks c).spec) 10 7 = c ∧ slot4.downs = 0 ∧ slot4.pkt.epoch = s.activeEpoch 0 ∧
          (s.ctx (issuerOf 0 slot4.pkt.rtag)).hv = true ∧ (s.ctx (issuerOf 0 slot4.pkt.rtag)).state ≠ .free ∧ (s.ni 0).slot 4 = some slot4 ∧
          s.respWaits 0 4 = false) ∧
      (asked replies false).respWaits 0 4 = true ∧
      (let p := { nacks 2 with dest := 5 }
       let s := (State.reset.setReqs 0 [p]).setReg (aNiRt 0 0 5) (2 ^ 62)
       p.dest ≠ 0 ∧ s.reqAt 0 = [p] ∧ (s.marked 0).contains p.vn = false ∧ (s.routeOf 0 p.dest p.vn).isSome = true ∧ p.flits ≤ s.vcFree 0 5 p.vn) := by decide +kernel
theorem test_network_interfaces_can_reply : ((asked replies false).setReg (aNiRt 0 0 5) (2 ^ 63)).CanReply 0 replies.token.tag replies.token.val :=
  ⟨by decide +kernel, by decide +kernel, by decide +kernel, by decide +kernel, by decide +kernel, by decide +kernel⟩
/-- A bounced token at a cluster and at endpoint 66: parked under the current epoch, sent on under another, and held where there is no space to park it. -/
theorem test_network_interfaces_bounces : ∀ e ∈ [0, 66], ∀ ep ∈ [0, 1],
    let p := bounces ep
    let s := (State.reset.setReqs e [p]).setReg (aHbRt 0 9 0) (2 ^ 63)
    s.reqAt e = [p] ∧ p.opc = .bounce ∧ (s.ni e).drains = [] ∧ (s.ni e).parked = [] ∧ s.pressure = false ∧ s.clState 0 ≠ 3 ∧ s.activeEpoch e = 0 ∧
      ∀ h t, p.body = h :: t → let q := { Packet.ofHead h 0 t with fault := p.fault }
        q.opc = .token ∧ q.epoch = ep ∧ q.dest = 9 ∧ s.auxRoom 66 .bounce (parkBytes q) = true ∧ (s.setRfld aQuota 7 0 0).auxRoom 66 .bounce (parkBytes q) = false ∧
          (e = 66 → s.marked 66 = [] ∧ s.redirect 66 q.dest .token = false ∧ (s.routeOf 66 q.dest 0).isSome = true ∧ q.flits ≤ s.vcFree 64 (crossIn 66) 0) := by
  intro e he ep hp
  have h1 : ∀ e ∈ [0, 66], ∀ ep ∈ [0, 1], let p := bounces ep
      let s := (State.reset.setReqs e [p]).setReg (aHbRt 0 9 0) (2 ^ 63)
      let q := { Packet.ofHead (p.body.headD 0) 0 (p.body.drop 1) with fault := p.fault }
      ((s.ni e).drains = [] ∧ (s.ni e).parked = [] ∧ s.pressure = false ∧ s.clState 0 ≠ 3 ∧ s.activeEpoch e = 0) ∧
        q.opc = .token ∧ q.epoch = ep ∧ q.dest = 9 ∧ s.auxRoom 66 .bounce (parkBytes q) = true ∧ (s.setRfld aQuota 7 0 0).auxRoom 66 .bounce (parkBytes q) = false ∧
          (e = 66 → s.marked 66 = [] ∧ s.redirect 66 q.dest .token = false ∧ (s.routeOf 66 q.dest 0).isSome = true ∧ q.flits ≤ s.vcFree 64 (crossIn 66) 0) := by decide +kernel
  obtain ⟨⟨a3, a4, a5, a6, a7⟩, h2⟩ := h1 e he ep hp
  refine ⟨by rcases List.mem_pair.mp he with rfl | rfl <;> rfl, rfl, a3, a4, a5, a6, a7, fun h t hb => ?_⟩
  rw [hb] at h2
  exact h2

def dies (s : State) : State := s.setReg aPwState (2 ^ 48 * 15)
def ctl (sub src a : Nat) : Packet := { pk with vn := 3, opc := .control, src := src, spec := 2 ^ 20 * sub, body := [mkWide 0 (BitVec.ofNat 64 a)] }
/-- Epoch 0 in every source's shadow bank and in the command. -/
def shiftable (b : Bool) : State :=
  { State.reset with regs := [(aPwState, 2 ^ 48)],
                     shift := { Shift.init with busy := b, pending := if b then [5, 63] else [] } }
theorem test_route_shifts_go : ∀ b ∈ [true, false], (shiftable b).shift.busy = b ∧ (shiftable b).dieOn 27 = true ∧
    (shiftable b).shiftSources = [0, 1, 2, 3, 8, 9, 10, 11, 16, 17, 18, 19, 24, 25, 26, 27, 68] ∧
    (∀ e ∈ [0, 1, 2, 3, 8, 9, 10, 11, 16, 17, 18, 19, 24, 25, 26, 27, 68], (shiftable b).rfld (aNiRtCtl e) 7 4 = (shiftable b).rfld aHbShift 3 0) ∧
    ∀ e, ((shiftable b).ni e).parked = [] := by
  intro b hb
  rcases List.mem_pair.mp hb with rfl | rfl <;> exact ⟨rfl, by decide +kernel, by decide +kernel, by decide +kernel, fun _ => rfl⟩
theorem test_route_shifts_marks :
    (let s := { ((dies State.reset).setReqs 63 [ctl 0 68 0]).setReg (aNiRt 63 0 9) (2 ^ 63 + 5) with shift := ⟨true, 3, [], [63]⟩ }
     s.reqAt 63 = [ctl 0 68 0] ∧ (ctl 0 68 0).sub = 0 ∧ (s.ni 63).shifting = false ∧ 9 ∈ s.affected 63 3 ∧ s.activeEpoch 63 ≠ s.shift.epoch ∧
       (s.ni 63).parked = [] ∧ ({ s with shift := ⟨true, 0, [], [63]⟩ } : State).activeEpoch 63 = 0) ∧
    (let p := { pk with opc := .epochMark, epoch := 2 }
     (State.reset.setReqs 69 [p]).reqAt 69 = [p]) ∧
    (let p := ctl 2 5 (4 * 9 + 3)
     let s := { (State.reset.setReqs 63 [p]).updNi 63 (fun n => { n with shifting := true, marks := [(9, 3, 3), (9, 2, 3)] }) with shift := ⟨true, 3, [], [63]⟩ }
     s.reqAt 63 = [p] ∧ p.sub = 2 ∧ p.argA.toNat = 4 * 9 + 3 ∧ s.shift.busy = true ∧ (s.ni 63).shifting = true ∧ s.mc.graph = none ∧
       (s.ni 63).marks.filter (fun m => !(m.1 == 9 && m.2.1 == 3)) = [(9, 2, 3)]) ∧
    (∀ l ∈ [[5], [5, 63]], let p := ctl 1 5 0
     let s := { State.reset.setReqs 68 [p] with shift := ⟨true, 3, [], l⟩ }
     s.reqAt 68 = [p] ∧ p.sub = 1 ∧ p.src ∈ s.shift.pending ∧ s.pw.goal = [] ∧ s.mc.graph = none ∧ s.mc.reroute = false) := by decide +kernel

/-- A packet without a body on the route whose next codes are `route`. -/
def hop (route vn : Nat) : Hop := ⟨{ pk with vn := vn, opc := .drainMark, route := BitVec.ofNat 30 route, dest := 1 }, 0, 0, 0⟩
theorem inject_idle (s : State) (e : Nat)
    (h : (([0, 1, 2, 3].findSome? (s.sendFormed e)).or <|
      (if s.marked e = [] then (s.resendNext e).or (s.resendWaiting e) else none).or <|
      (([0, 1, 2, 3].filter (fun v => !(s.waitVns e).contains v)).findSome? (s.sendUnit e)).or <|
      (endpointPes e).findSome? (s.sendPe (s.waitVns e))).isNone = true) : s.inject e = s :=
  congrArg (·.getD s) (Option.isNone_iff_eq_none.mp h)
def linked (st : Nat) : State := [(9, 0), (1, 2), (3, 1), (3, 0)].foldl (fun (s : State) x => s.setPortState x.1 x.2 st) (dies State.reset)
theorem test_routers_hop :
    (let s := (linked 2).setVc 9 5 0 [hop 0 0]
     s.vc 9 5 0 = [hop 0 0] ∧ (∀ j ∈ [0, 1, 2, 3, 4], s.vc 9 j 0 = []) ∧ (hop 0 0).pkt.route.toNat % 8 = 0 ∧ turnBad 9 5 0 0 = false ∧
       s.ejectRoom 9 (hop 0 0).pkt = true ∧ s.turnOf 9 0 0 (List.range 6) (s.hopHead 9 0) = true) ∧
    (let s := (linked 2).setVc 9 5 3 [hop 1 3]
     s.vc 9 5 3 = [hop 1 3] ∧ (∀ j ∈ [0, 1, 2, 3, 4], s.vc 9 j 3 = []) ∧ (hop 1 3).pkt.route.toNat % 8 = 1 ∧ turnBad 9 5 3 1 = false ∧
       s.turnOf 9 1 3 (List.range 6) (s.hopHead 9 1) = true ∧ s.portState 9 0 = 2 ∧ (hop 1 3).pkt.flits + 17 ≤ s.vcFree (nbrOf 9 0) (oppPort 0) 3) := by decide +kernel
theorem test_routers_idle : ∀ x ∈ [(0, 0), (3, 1)], let s := (linked 2).setVc 9 5 x.1 [hop x.2 x.1]
    s.inject 9 = s := by
  intro x hx
  rcases List.mem_pair.mp hx with rfl | rfl <;> exact inject_idle _ _ (by decide +kernel)
def flit (vn : Nat) : Flit := withCheck (BitVec.ofNat 144 ((hop 8 vn).pkt.head.toNat + 3 * 2 ^ 140 + vn * 2 ^ 142))
theorem test_links_receive : hasPort 9 0 = true ∧ ∀ v ∈ [0, 3],
    (decodeFlit (flit v)).map (fun x => (x.2, bitAt x.1 139, fld x.1 141 140, fld x.1 143 142)) = some (none, false, 3, v) ∧
      Tbl.get none (linked 2).openPkts (vcKey 9 0 v) = none ∧ (linked 2).resetting (inDcq 9 0 v) = false ∧ (linked 2).flushes = [] := by decide +kernel
theorem test_links_states : dieEdge 3 0 = true ∧ hasPort 3 0 = true ∧ dieEdge 9 0 = false ∧
    (∀ st ∈ [0, 1, 2, 3], (linked st).portState 3 0 = st ∧ (linked st).openOn 3 0 = 0 ∧ (linked st).headComes 3 0 = false ∧
      (linked st).quiet 3 0 = true ∧ ((linked st).link 3 0).running = false ∧ ((linked st).link 3 0).worn = [] ∧ ((linked st).link (farEnd 3 0).1 (farEnd 3 0).2).worn = []) ∧
    (let s := { linked 3 with openPkts := [(vcKey 3 0 1, some ⟨(hop 8 0).pkt, 1, 0, false⟩)] }
     s.openOn 3 0 ≠ 0 ∧ s.quiet 3 0 = false) ∧ ((linked 3).setVc 3 5 0 [hop 1 0]).headComes 3 0 = true ∧ 10 ≤ ({ linked 2 with now := 10 ^ 6 }).idleUs 3 0 ∧ (linked 2).idleUs 3 0 < 10 ∧
    (((linked 3).setLink 3 0 { Link.init with postponed := true }).link 3 0).postponed = true ∧
    (((linked 3).setLink 3 0 { Link.init with running := true }).link 3 0).running = true ∧ (linked 3).rfld (aPortStatus 3 0) 21 20 = 0 := by decide +kernel

/-! Contexts, memory targets, locks. -/

def bKey : Nat := 7 * 16384 + 9
def remoteTok : Token := ⟨mkTag 3 false false false bKey 2 3 16 0, 5, false, 0, false⟩
def cmOf (f : Cm → Cm) : State := { (State.reset.updCm 0 f) with ctxs := [(9, live), (bKey, live)] }
def retires (it : Nat) : Packet := { pk with opc := .service, spec := 2 * 512 + 9, body := [mkWide (toTag 3) 9, mkWide 0 (BitVec.ofNat 64 it)] }
theorem test_windows :
    9 ∈ ((cmOf fun m => { m with asked := [9] }).cm 0).asked ∧
    (let s := cmOf fun m => { m with answers := [(bKey, 0)], gate := [⟨remoteTok, false⟩] }
     (s.cm 0).answers = [(bKey, 0)] ∧ (s.cm 0).cache.length < 64 ∧ (s.cm 0).gate = [⟨remoteTok, false⟩] ∧ tKey remoteTok.tag = bKey ∧ ctxOwner bKey ≠ 0 ∧
       (s.ctx bKey).state = .live ∧ s.pressure = false ∧ winDist (tIter remoteTok.tag) 0 < 2 ^ (s.ctx bKey).itw ∧ tPe remoteTok.tag < 272) ∧
    (let s := cmOf fun m => { m with answers := [(bKey, 0)] }
     (s.cm 0).answers = [(bKey, 0)] ∧ (s.cm 0).gate = []) ∧
    (let s := cmOf fun m => { m with advances := [(bKey, 3)], cache := [(bKey, 3)] }
     (s.cm 0).advances = [(bKey, 3)] ∧ (s.cm 0).answers = [] ∧ Tbl.get 0 (s.cm 0).cache bKey ≠ 0) ∧
    (∀ it ∈ [0, 3], let s := (cmOf id).setReqs 0 [retires it]
     s.reqAt 0 = [retires it] ∧ (retires it).svc = 2 ∧ fld (retires it).argB 63 12 = 0 ∧ (retires it).len = 2 ∧ (retires it).ctxArg 0 = some 9 ∧
       s.pressure = false ∧ (s.ctx 9).state = .live ∧ (s.ctx 9).retired = [] ∧ (s.ctx 9).copies = [] ∧ (s.cm 0).gate = [] ∧ (s.ctx 9).base = 0 ∧
       fld (retires it).argB 11 0 = it ∧ winDist it 0 < 2 ^ (s.ctx 9).itw) := by decide +kernel

def creates (cr : Nat) : Packet := { pk with opc := .service, body := [mkWide (toTag 20) (BitVec.ofNat 64 (cr + 2 ^ 61)), mkWide 0 500] }
def names (sv id : Nat) : Packet := { pk with opc := .service, spec := sv * 512 + 9, body := [mkWide (toTag 20) (BitVec.ofNat 64 id)] }
def credited (s : State) : State := (s.setRfld (aCredit 0) 23 0 1000).setRfld (aCredit 0) 55 32 229344
theorem test_context_life_new : ∀ x ∈ [(300, some 0), (3000, none)],
    let s := credited (State.reset.setReqs 0 [creates x.1])
    s.pressure = false ∧ (creates x.1).newOk 0 = true ∧ fld (creates x.1).argA 19 0 ≤ s.rfld (aCredit 0) 55 32 ∧ s.reqAt 0 = [creates x.1] ∧
      (creates x.1).svc = 0 ∧ (s.cm 0).spawn = [] ∧ s.auxRoom 0 .spawn 64 = true ∧ s.admitId 0 (creates x.1) = x.2 := by decide +kernel
theorem test_context_life_spawn : let s := credited (State.reset.updCm 0 fun m => { m with spawn := [creates 300] })
    (s.cm 0).spawn = [creates 300] ∧ s.admitId 0 (creates 300) = some 0 := by decide +kernel
theorem test_context_life_kill :
    (∀ sv ∈ [1, 3], let s := ctxLive (State.reset.setReqs 0 [names sv 9])
     s.reqAt 0 = [names sv 9] ∧ (names sv 9).svc = sv ∧ (names sv 9).ctxArg 0 = some 9 ∧ isRoot 9 = false ∧ (s.ctx 9).state = .live ∧ s.waiting 9 = 0) ∧
    (State.reset.ctx 9).state ≠ .live ∧
    (let s := { (State.reset.updCm 0 fun m => { m with kills := [⟨9, [.pe 275], [], none⟩] }) with ctxs := [(9, { live with state := .killing })] }
     s.killOf 9 = some ⟨9, [.pe 275], [], none⟩ ∧ s.routine 275 = none ∧ s.pressure = false ∧ (s.pe 275).killFilter.length < 64) ∧
    (let s := { credited (State.reset.updCm 0 fun m => { m with kills := [⟨9, [], [.pe 275], none⟩] }) with ctxs := [(9, { live with state := .killing })] }
     ctxOwner 9 = 0 ∧ (s.cm 0).kills = [⟨9, [], [.pe 275], none⟩] ∧ s.avail 0 + (s.ctx 9).credits < 2 ^ 24) := by decide +kernel

def round (l : List Nat) (sn : List (Nat × Nat)) : Drain := { number := 5, ctxs := [9], toReq := l, sources := [3, 63], dests := [6], seen := sn }
def waitingRec : MRec :=
  { key := matchKey (tok 3 0 0).tag, arity := 2, toks := [(0, tok 3 0 5)], ready := false, poison := false, keyBad := false, arrived := 0, level := .store, set := 3 }
def waits (c : Ctx) : State := { (State.reset.updPe 3 fun p => { p with recs := [waitingRec] }) with ctxs := [(9, c)] }
theorem test_drains :
    (let s := State.reset.updCm 0 fun m => { m with drain := some (round [3, 63] []) }
     (s.cm 0).drain = some (round [3, 63] []) ∧ s.unsentOf 63 [9] = false) ∧
    (let p := { pk with opc := .drainMark, src := 3, spec := 5 }
     let s := (State.reset.updCm 0 fun m => { m with drain := some (round [] []) }).setReqs 6 [p]
     s.reqAt 6 = [p] ∧ s.roundOwner (p.spec % 65536) = some 0 ∧ (s.cm 0).drain = some (round [] [])) ∧
    (round [] [(3, 6), (63, 6)]).complete = true := by decide +kernel
theorem test_stalls : ∀ r ∈ [399, 400], let c := { live with stallRun := r }
    (waits c).ctxs = [(9, c)] ∧ ctxOwner 9 = 0 ∧ c.state = .live ∧ c.fired = false ∧ (waits c).waiting 9 ≠ 0 ∧ c.stallLimit = 500 ∧ c.hv = true := by
  decide +kernel
theorem test_victims : let s := { (State.reset.setReg aPressStatus 1) with ctxs := [(9, live)] }
    isRoot 9 = false ∧ s.pressure = true ∧ s.rfld aPressCfg 1 0 ≠ 3 := by decide +kernel

def memReq (o : Opc) (spec a : Nat) (more : List Wide) : Packet :=
  { pk with opc := o, spec := spec + 9, body := mkWide (toTag 20) (BitVec.ofNat 64 a) :: more }
def scratch : Nat := 0x001000000010
def atTarget (p : Packet) (x : Presence) : State := ctxLive (((State.reset.setReqs 0 [p]).store scratch 8 0x123).setPres scratch x)
theorem test_memory_targets_plain : ∀ p ∈ [memReq .read 0 scratch [], memReq .read (4 * 512) scratch [], memReq .write (3 * 512) scratch [mkWide 0 7],
      memReq .write 0 scratch [mkWide 0 7]] ++ (List.range 10).map (fun k => memReq .atom (k * 512) scratch [mkWide 0x123 7]),
    let s := atTarget p .empty
    s.reqAt 0 = [p] ∧ p.nr = false ∧ p.src ≠ 0 ∧ p.src < 256 ∧ s.targetCheck 0 p.addr (if p.opc = .atom then 8 else p.size) false = none ∧
      (portB 0 p = true ∨ s.bankWinner 0 p.bank = some p) ∧ s.eccAt (plainOf p.addr) = .ok ∧ s.presAt (plainOf p.addr) = .empty ∧ plainOf p.addr % 16 = 0 ∧ s.eccAt (plainOf p.addr + 8) = .ok ∧
      (p.opc = .atom → p.form ≤ 9 ∧ p.dpsn = false) ∧ (p.opc = .write → p.size ≤ 8) := by decide +kernel
theorem test_memory_targets_presence : ∀ p ∈ [memReq .iread 0 (scratch + 0x80000) [], memReq .iwrite 0 (scratch + 0x80000) [mkWide 0 7],
      memReq .atom (10 * 512) (scratch + 0x80000) [0]], ∀ x ∈ [Presence.empty, .full, .deferred],
    let s := atTarget p x
    (portB 0 p = true ∨ s.bankWinner 0 p.bank = some p) ∧ s.targetCheck 0 p.addr 8 true = none ∧ s.presAt (plainOf p.addr) = x ∧ s.eccAt (plainOf p.addr) = .ok ∧ (s.deferLevel 0).isSome = true ∧
      Tbl.get [] s.rels 0 = [] ∧ (s.ctx p.issuerKey).hv = true ∧ (s.ctx p.issuerKey).state ≠ .free ∧ (p.opc = .atom → p.form = 10) := by decide +kernel
theorem test_memory_targets_release : let q : Release := ⟨scratch, 55, false, [⟨toTag 20, 5, false, false, 4095, false⟩], 0, none⟩
    Tbl.get [] { State.reset with rels := [(0, [q])] }.rels 0 = [q] ∧ State.reset.eccAt (poolAt 0 4095) = .ok := by decide +kernel
/-- An IREAD and an IWRITE of one EMPTY word in one cycle. -/
theorem test_memory_targets_same_cycle :
    let p := memReq .iread 0 (scratch + 0x80000) []
    let q := memReq .iwrite 0 (scratch + 0x80000) [mkWide 0 7]
    let s := ctxLive (State.reset.setReqs 0 [p, q])
    s.reqAt 0 = [p, q] ∧ (portB 0 p = true ∨ s.bankWinner 0 p.bank = some p) ∧ s.presAt (plainOf p.addr) = .empty ∧ s.targetCheck 0 p.addr 8 true = none ∧ q.opc = .iwrite ∧ q.addr = p.addr ∧ q.nr = false ∧
      q.src ≠ 0 ∧ q.dpsn = false ∧ p.nr = false := by decide +kernel
theorem test_memory_stays_canonical : Memory.wf State.reset.mem = true ∧ (∀ a, State.reset.eccAt a ≠ .ue) ∧ (∀ a, State.reset.presAt a ≠ .lost) ∧
    State.reset.rels = [] ∧ ∃ t, exec (.targetRead 63) State.reset = .next t :=
  ⟨rfl, fun a => by simp [State.eccAt, State.reset, Tbl.get], fun a => by simp [State.presAt, State.reset, Tbl.get], rfl, _, rfl⟩

def lockReq (n : Nat) (rel nr : Bool) : Packet :=
  { pk with opc := .lock, spec := 9 + put 7 7 nr.toNat + put 9 9 rel.toNat + put 19 10 n, body := [mkWide (toTag 20) 0] }
def me : Waiter := (lockReq 1023 false false).waiter
def locked (p : Packet) (h : Option Waiter) (w : List Waiter) : State :=
  { ctxLive (State.reset.setReqs 65 [p]) with locks := [(1023, { Lock.init with holder := h, waiters := w, gen := 2 ^ 32 - 1, abandoned := true })] }
theorem test_lock_unit_requests : ∀ x ∈ [(false, false), (true, true), (true, false)], ∀ h ∈ [none, some me, some { me with ep := 6 }],
    ∀ w ∈ [[], [{ me with ep := 7 }], List.replicate 8 { me with ep := 7 }],
    let p := lockReq 1023 x.1 x.2
    let s := locked p h w
    s.reqAt 65 = [p] ∧ p.lockNo = 1023 ∧ p.isRel = x.1 ∧ p.nr = x.2 ∧ p.waiter = me ∧ (s.lock 1023).holder = h ∧ (s.lock 1023).waiters = w ∧
      s.waitersInUse < 4096 ∧ p.src < 256 ∧ (s.ctx p.issuerKey).hv = true ∧ (s.ctx p.issuerKey).state ≠ .free := by decide +kernel
def boosts (sub : Nat) : Packet := ctl sub 65 (9 + 2 ^ 20 * 1023 + 2 ^ 32 * 7)
theorem test_lock_unit_boosts : ∀ sub ∈ [8, 9],
    let s := (State.reset.setReqs 63 [boosts sub]).updNi 63 fun n => { n with boosts := if sub = 8 then [] else [(9, 1023, 7)] }
    s.reqAt 63 = [boosts sub] ∧ (boosts sub).sub = sub ∧ fld (boosts sub).argA 19 0 = 9 ∧ fld (boosts sub).argA 29 20 = 1023 ∧
      fld (boosts sub).argA 34 32 = 7 ∧ (s.ni 63).boosts = if sub = 8 then [] else [(9, 1023, 7)] := by decide +kernel

/-! Ports, crossings, events. -/

def atPort (v c pr : Nat) : State :=
  ((((State.reset.setPtState 15 v).setRfld (aPtStatus 15) 60 57 c).setReg (aPtOpen 15) (2 ^ 63)).setRfld (aMapSel 15) 7 0 255).updPort 15 fun x => { x with prev := pr }
theorem test_port_states : (∀ v ∈ [0, 1, 2, 3, 4, 5], (atPort v 0 2).ptState 15 = v) ∧
    (∀ c ∈ [1, 7, 8, 9], (atPort 0 c 2).rfld (aPtStatus 15) 60 57 = c) ∧ bitAt ((atPort 2 0 2).reg (aPtOpen 15)) 63 = true ∧
    ((atPort 2 0 2).pw.begun + (atPort 2 0 2).rfld (aPtOpen 15) 31 16 * 1000000 ≤ (atPort 2 0 2).now ∧ (atPort 2 0 2).power ≠ 1 ∧
      ((atPort 2 0 2).setRfld aPwState 63 62 1).power = 1) ∧
    (∀ n ∈ [2, 4], ((atPort 5 2 n).port 15).prev = n) ∧ (atPort 3 0 2).rfld (aMapSel 15) 7 0 = 255 ∧ bitAt ((atPort 3 0 2).reg (aPtLock 15)) 0 = false ∧
    (mMGTR (2 ^ 63) ≠ 3 ∧ fld (2 ^ 63 : Word) 51 0 = 0 ∧ mORD (2 ^ 63) = false) ∧ fld (1 : Word) 51 0 ≠ 0 ∧
    mMGTR 0xFFF0000000000000 = 3 ∧ ((atPort 3 0 2).port 15).mapDue = [] ∧ ((atPort 3 0 2).port 15).openOf 255 = false ∧
    (((atPort 3 0 2).updPort 15 fun x => { x with opens := [(0, some ⟨{ pk with src := 256 + 15 * 256 + 255 }, 2, 0, 5, 7⟩)] }).port 15).openOf 255 = true := by
  decide +kernel

def outPkt (vn : Nat) : Packet := { pk with vn := vn, opc := if vn = 0 then .token else .read, dest := 256 + 3 * 256 + 1, body := [mkWide 0 7] }
def upPort (v : Nat) : State :=
  (State.reset.setPtState 3 v).updPort 3 fun x => { x with rxNext := 4095, held := [(5, [0]), (7, [1])], grant := [64, 64, 64, 64], crIn := [20, 0, 20, 20] }
theorem test_port_frames_states (fs : List Flit) (h : fs.length ≤ 8) :
    ((upPort 2).linkUp 3 = true ∧ (upPort 1).ptState 3 < 2 ∧ ((upPort 2).port 3).nakAt = none ∧ ((upPort 2).port 3).rxNext = 4095 ∧
      seqNewer 1 4095 = true ∧ ((upPort 2).port 3).used.length = 4) ∧
    ∀ v, vcFlits fs v ≤ 64 := ⟨by decide +kernel, fun v => (List.length_filter_le _ _).trans (h.trans (by decide))⟩
/-- TS2 stripes of a partner as lanes 0 to 3 send them, to a port in training whose lanes lack one header of block lock, or have it; with 14 and 15 of
the 16 TS2 received, of which this one is the last. -/
def ts2 : List Block := (List.range 4).map fun l => mkBlock 2 (setFld (tsWord 0x2D l 0 7 false false) 23 16 2)
def trains (n k : Nat) : State :=
  (upPort 1).updPort 3 fun x => { x with train := ⟨[n, 64, 64, 64], k, tsFields (ts2.headD 0), 15, true, false, false⟩ }
theorem test_port_training :
    (∀ n ∈ [62, 63, 64], (trains n 15).ptState 3 = 1 ∧ (locksAfter ((trains n 15).port 3).train.locks ts2).all (fun k => decide (64 ≤ k)) = decide (63 ≤ n)) ∧
      ts2.length = 4 ∧ (trains 64 15).rfld (aPtStatus 3) 54 51 = 0 ∧ ts2.all (fun b => !Block.isTs (~~~b)) = true ∧ ts2.all Block.isTs = true ∧
      (∀ k ∈ [14, 15], let y := ((trains 64 k).port 3).train.take ts2
       y.found = true ∧ ({ y with sent := 16 } : Training).over = decide (k = 15)) := by decide +kernel
theorem test_port_replays : ((upPort 3).port 3).held ≠ [] ∧ ((upPort 3).port 3).replays < 7 ∧ (((upPort 3).updPort 3 fun x => { x with replays := 7 }).port 3).replays = 7 := by
  decide +kernel
theorem test_port_windows :
    let w : Window := { Window.init with expected := some 4, held := [(6, outPkt 0)], since := 1 }
    let o : RxPkt := ⟨outPkt 3, 2, 0, 5, 7⟩
    let s := (upPort 3).updPort 3 fun x => { x with windows := [(1, w)], opens := [(3, some o)] }
    (s.port 3).window 1 = w ∧ voidPkt (outPkt 0) = false ∧ (s.port 3).openAt 3 = some o := by decide +kernel
theorem test_port_egress : ∀ vn ∈ [0, 1], let h : Hop := ⟨outPkt vn, 3, 2, 19⟩
    let s := (upPort 3).setEgress 3 vn [h]
    s.egressQ 3 vn = [h] ∧ (s.port 3).stalled = [] ∧ h.pkt.vn = vn ∧ h.pkt.opc ≠ .epochMark ∧ h.pkt.opc ≠ .drainMark ∧ 256 ≤ h.pkt.dest ∧
      (vn = 0 → h.pkt.flits ≤ (s.port 3).credit 0 ∧ (s.port 3).held.length + (framesOf h.pkt.outward.toFlits).length ≤ 32) ∧
      (vn = 1 → (s.port 3).credit 1 < h.pkt.flits) := by decide +kernel
theorem test_port_reports :
    (let p := ctl 10 (256 + 15 * 256) 0x1234
     (State.reset.setReqs 67 [p]).reqAt 67 = [p] ∧ p.sub = 0x0A ∧ p.opc = .control) ∧
    (∀ sv ∈ [0, 2], let p := { pk with opc := .service, spec := 5 * 512 + 9, body := [mkWide (toTag 20) 0x55, mkWide 0 (BitVec.ofNat 64 (sv * 65536 + 65535))] }
     (State.reset.setReqs 67 [p]).reqAt 67 = [p] ∧ p.svc = 5 ∧ fld p.argB 63 19 = 0 ∧ fld p.argB 18 16 = sv) := by decide +kernel

def aInput : Nat := clBlock 9 + 0x480 + 8 * 2
def aEgress : Nat := regBase + 0x50 * 0x10000 + 0x80 + 8 * 5
theorem test_crossings_queues :
    dcqOf aEgress = some ⟨.egress 0 1, 68, 86, 5⟩ ∧ dcqOf aInput = some ⟨.input 9 0 2, 64, 64, 2⟩ ∧ dcqOf (aNiDcq 3 5) = some ⟨.eject 3 1, 64, 3, 5⟩ ∧
      ((dies State.reset).setPtState 0 3).armed 64 3 = true ∧ stopKey 1 64 3 5 ∉ State.reset.stopped ∧
      (∀ m ∈ [1, 2], stopKey m 64 3 5 ∈ ({ State.reset with stopped := [stopKey m 64 3 5] } : State).stopped) := by decide +kernel
theorem test_crossings_states :
    bitAt ((State.reset.setReg aInput (2 ^ 62)).reg aInput) 62 = true ∧ bitAt (State.reset.reg aInput) 62 = false ∧
      bitAt ((State.reset.setReg aInput (2 ^ 63)).reg aInput) 63 = true ∧
      (∀ n ∈ [0, 1, 14, 15], ∀ b ∈ [true, false],
        Tbl.get Pulse.init { State.reset with pulses := [(pulseKey 3 5 1, ⟨b, n, false, 4⟩)] }.pulses (pulseKey 3 5 1) = ⟨b, n, false, 4⟩) ∧
      (State.reset.setRfld aPwStatus 5 4 3).powered = true := by decide +kernel
theorem test_crossings_beacons : ∀ l ∈ [true, false], ∀ h ∈ [true, false],
    let s := { State.reset with doms := [(91, { Dom.init with loaded := l, held := h })] }
    (s.dom 91).loaded = l ∧ (s.dom 91).held = h := by decide +kernel
/-- For every latency the correction takes each value that the clauses part at. -/
theorem test_crossings_corrections (l : Nat) : ∀ x ∈ [0, 4096, 4097, 5000],
    ((10000 + l : Nat) : Int) - ((10000 + l - x : Nat) : Int) = x ∧ ((10000 + l : Nat) : Int) - ((10000 + l + x : Nat) : Int) = -x := by
  intro x hx
  simp only [List.mem_cons, List.not_mem_nil, or_false] at hx
  omega

def record (t : Nat) : EvRec := ⟨t, 3, t, .info, .graphStart, 68, none, none, false, 3⟩
def fwd (k t : Nat) : FwdRec := ⟨k, record t⟩
def merging (t : Nat) : State :=
  { (dies State.reset) with now := 10 ^ 6, ev := { EvPath.init with merge := [fwd 2 50, fwd 3 40], marks := (List.range 6).map (fun k => (k, t)) } }
theorem test_event_path :
    (let s := { State.reset with now := 10 ^ 6, coll := [(5, [record 998000, record 999999]), (4, [record 998001])] }
     Tbl.get [] s.coll 5 = [record 998000, record 999999] ∧ (record 998000).time + 2000 ≤ s.now ∧ Tbl.get [] s.coll 4 = [record 998001] ∧ s.now < 998001 + 2000) ∧
    5 ∉ State.reset.ev.silent ∧ lowestRec (merging 42).ev.merge = some (fwd 3 40) ∧ (merging 42).liveColls ≠ [] ∧
    (∀ k ∈ (merging 42).liveColls, 41 < Tbl.get 0 (merging 42).ev.marks k) ∧ (∀ k ∈ (merging 41).liveColls, Tbl.get 0 (merging 41).ev.marks k ≤ 41) ∧
    (merging 42).ev.ring.length < 16384 ∧ (merging 42).mc.trace = none ∧
    (merging 42).ev.flash.length + (merging 42).ev.persist.length ≤ 262144 := by decide +kernel

/-! Frames: empty slots, trailer bits q and a check x, as a port whose scramblers stand at zero sends them. -/

def frameOf (q x : Nat) : BitVec 1280 := BitVec.ofNat 1280 ((q * 65536 + x) * 2 ^ 1152)
/-- A trailer with FV and SEQ as given, ACKSEQ 5, and the acknowledgement bit. -/
def trailer (seq fv : Nat) (isAck : Bool) : Nat := (put 127 124 1 + put 123 112 seq + put 111 100 5 + put 99 99 isAck.toNat + put 95 88 fv) / 65536
def lanesOf (f : BitVec 1280) : List (List Block) :=
  (((List.range 5).foldl (fun s i => s.sendData 3 (((wordsOf 20 f.toNat).drop (4 * i)).take 4)) State.reset).port 3).lanes

theorem fcrcBits_zero_add (j k c : Nat) : fcrcBits 0 (j + k) c = fcrcBits 0 j (fcrcBits 0 k c) := by
  induction k generalizing c with
  | zero => rfl
  | succ k ih => rw [← Nat.add_assoc, fcrcBits, fcrcBits, ih, Nat.zero_testBit, Nat.zero_testBit]
theorem frameCrc_of {q x a b c d e : Nat} (hm : (frameOf q x).toNat % 2 ^ 1152 = 0) (hd : (frameOf q x).toNat / 2 ^ 1168 = q)
    (h : fcrcBits q 112 0xFFFF = a ∧ fcrcBits 0 288 a = b ∧ fcrcBits 0 288 b = c ∧ fcrcBits 0 288 c = d ∧ fcrcBits 0 288 d = e) :
    frameCrc (frameOf q x) = e := by
  obtain ⟨rfl, rfl, rfl, rfl, rfl⟩ := h
  rw [frameCrc, hm, hd, show 1152 = 288 + (288 + (288 + 288)) from rfl]
  simp only [fcrcBits_zero_add]

/-- Frames with the right check and with a wrong one, received as blocks: an acknowledgement, the frame expected after the wrap of SEQ, and a later one. -/
theorem test_port_frames : ∀ y ∈ [(0, 0, true, 45111), (4095, 1, false, 57763), (1, 255, false, 63353)],
    let q := trailer y.1 y.2.1 y.2.2.1
    (∀ x ∈ [y.2.2.2, 7], ∀ v ∈ [2, 3, 4], (∃ scr, (upPort v).rxFrame 3 (lanesOf (frameOf q x)) = some (frameOf q x, scr)) ∧ frameCrc (frameOf q x) = y.2.2.2) ∧
      let t := frameTrailer (frameOf q y.2.2.2)
      fld (frameTrailer (frameOf q 7)) 15 0 = 7 ∧ fld t 15 0 = y.2.2.2 ∧ fld t 127 124 = 1 ∧ bitAt t 96 = false ∧ fld t 47 16 = 0 ∧ fld t 95 88 = y.2.1 ∧
        fvOk y.2.1 = true ∧ bitAt t 98 = false ∧ bitAt t 99 = y.2.2.1 ∧ fld t 123 112 = y.1 := by
  have hl : ∀ q ∈ [trailer 0 0 true, trailer 4095 1 false, trailer 1 255 false], ∀ x ∈ [45111, 57763, 63353, 7], ∀ v ∈ [2, 3, 4],
      ((upPort v).rxFrame 3 (lanesOf (frameOf q x))).map (·.1) = some (frameOf q x) ∧ (frameOf q x).toNat % 2 ^ 1152 = 0 ∧
        (frameOf q x).toNat / 2 ^ 1168 = q := by decide +kernel
  have hr {q x v : Nat} (h : ((upPort v).rxFrame 3 (lanesOf (frameOf q x))).map (·.1) = some (frameOf q x)) :
      ∃ scr, (upPort v).rxFrame 3 (lanesOf (frameOf q x)) = some (frameOf q x, scr) := by
    obtain ⟨⟨f, scr⟩, h1, h2⟩ := Option.map_eq_some_iff.mp h
    exact ⟨scr, h1.trans (congrArg (fun g => some (g, scr)) h2)⟩
  have hx : ∀ x, x = 45111 ∨ x = 57763 ∨ x = 63353 ∨ x = 7 → x ∈ [45111, 57763, 63353, 7] := by simp
  intro y hy
  simp only [List.mem_cons, List.not_mem_nil, or_false] at hy
  rcases hy with rfl | rfl | rfl
  · refine ⟨fun x h v hv => ?_, by decide +kernel⟩
    obtain ⟨h1, h2, h3⟩ := hl (trailer 0 0 true) (by simp) x (by simp at h; rcases h with rfl | rfl <;> simp) v hv
    exact ⟨hr h1, frameCrc_of h2 h3 (b := 8096) (c := 47827) (d := 10570) (a := 3231) (by decide +kernel)⟩
  · refine ⟨fun x h v hv => ?_, by decide +kernel⟩
    obtain ⟨h1, h2, h3⟩ := hl (trailer 4095 1 false) (by simp) x (by simp at h; rcases h with rfl | rfl <;> simp) v hv
    exact ⟨hr h1, frameCrc_of h2 h3 (a := 43832) (b := 6642) (c := 55935) (d := 26219) (by decide +kernel)⟩
  · refine ⟨fun x h v hv => ?_, by decide +kernel⟩
    obtain ⟨h1, h2, h3⟩ := hl (trailer 1 255 false) (by simp) x (by simp at h; rcases h with rfl | rfl <;> simp) v hv
    exact ⟨hr h1, frameCrc_of h2 h3 (a := 32974) (b := 43056) (c := 6024) (d := 61243) (by decide +kernel)⟩
/-- What is sent by one port and received by another; blocks that make no frame; ports that are down, that train and that recover. -/
theorem test_port_lanes :
    ((upPort 2).port 3).lanes = [] ∧ ((upPort 2).port 3).txScr.length = 4 ∧ ((upPort 3).port 3).rxScr = ((upPort 2).port 3).txScr ∧
      bitAt ((upPort 2).reg (aPtStatus 3)) 55 = false ∧ bitAt ((upPort 3).reg (aPtStatus 3)) 56 = false ∧ fld ((upPort 3).reg (aPtStatus 3)) 54 51 = 0 ∧
      (∀ v ∈ [0, 1, 5], (upPort v).ptState 3 = v) ∧ (upPort 2).rxFrame 3 [[]] = none ∧ isAlign ((upPort 2).fixStripe 3 []) = false ∧ ((upPort 2).port 3).due = [] ∧ (upPort 2).linkUp 3 = true ∧ ((upPort 2).port 3).nakAt = none := by
  decide +kernel

/-! The management controller: frames of the UART (channel 2) and of Ethernet (1), and the states that the commands part at. -/

/-- The module in power state pw, with its controller up and a byte in scratch and in module memory. -/
def mc (pw : Nat) : State :=
  let s : State := { State.reset with mc := { Mc.init with up := true }, now := 10 ^ 9 }
  (((s.setReg aPwState (if pw = 0 then 2 ^ 48 * 15 else 0)).setRfld aPwState 63 62 pw).store (scrBase 3) 8 77).store 0x1000 8 99
def req (ch z : Nat) (d : List Byte) : McReq := ⟨ch, 0, 5, List.replicate 8 (BitVec.ofNat 8 z), d, 9, 0, false⟩

theorem let_in (s : State) (op cls ch : Nat) (d : List Byte) (hc : ch = 1 ∨ ch = 2) (hu : s.mc.up = true) (hd : d.length ≤ 1440)
    (hr : s.chanRight ch 0 cls = true) (ht : s.tagNeeded ch cls = false) (hs : s.mc.causes = []) (hp : s.rfld aPwState 61 61 = 0) :
    s.LetIn op cls (req ch 0 d) d := by
  rcases hc with rfl | rfl
  · exact ⟨hu, ⟨5, List.replicate 8 0, rfl, rfl, fun h => absurd (ht ▸ h) (by decide)⟩, hd, hr, ⟨hs, hp⟩⟩
  · exact ⟨hu, ⟨5, List.replicate 8 0, rfl, rfl, fun h => absurd (ht ▸ h) (by decide)⟩, hd.trans (show 1440 ≤ 2032 by decide), hr, ⟨hs, hp⟩⟩

/-- Every class is let in on the UART in each power state, and DEBUG on Ethernet. -/
theorem mc_let_in (pw op cls : Nat) (d : List Byte) (hp : pw ∈ [0, 1, 2]) (hc : cls ∈ [0, 1, 2, 3, 4]) (hd : d.length ≤ 1440) :
    (mc pw).LetIn op cls (req 2 0 d) d := by
  have h : ∀ p ∈ [0, 1, 2], ∀ c ∈ [0, 1, 2, 3, 4], (mc p).chanRight 2 0 c = true ∧ (mc p).tagNeeded 2 c = false ∧ (mc p).rfld aPwState 61 61 = 0 := by
    decide +kernel
  obtain ⟨h1, h2, h3⟩ := h pw hp cls hc
  exact let_in _ _ _ _ _ (.inr rfl) rfl hd h1 h2 rfl h3

def recs10 (s : State) : State := { s with ev := { EvPath.init with ring := (List.range 10).map fun k => ⟨k, false, record k⟩ } }
theorem test_management_reads : ∀ d ∈ [[], [0], leBytes 8 (2 ^ 64 - 1) ++ leBytes 8 1, leBytes 8 0 ++ leBytes 8 63, List.replicate 48 7,
      leBytes 2 1 ++ leBytes 6 0 ++ leBytes 6 aHbShift, leBytes 2 1 ++ leBytes 6 0 ++ leBytes 6 (2 ^ 48 - 1)],
    ∀ op ∈ [1, 2, 3, 4, 5], (mc 0).LetIn op 0 (req 2 0 d) d := by
  intro d hd op _
  refine mc_let_in 0 op 0 d (by decide) (by decide) ?_
  revert d hd
  decide +kernel
/-- LOG_READ on Ethernet, and REG_READ of the first and the last lock on the UART. -/
theorem test_management_channels :
    (mc 0).LetIn 3 0 (req 1 0 (leBytes 8 0 ++ leBytes 8 63)) (leBytes 8 0 ++ leBytes 8 63) ∧
      ∀ n ∈ [0, 1023], (mc 0).LetIn 4 0 (req 2 0 (leBytes 2 1 ++ leBytes 6 0 ++ leBytes 6 (aLkAcq n))) (leBytes 2 1 ++ leBytes 6 0 ++ leBytes 6 (aLkAcq n)) ∧
        ((mc 0).lock n).holder = none ∧ ∀ k, aHbShift ≠ aLkAcq k := by
  refine ⟨let_in _ _ _ _ _ (.inl rfl) rfl (by decide) (by decide +kernel) (by decide +kernel) rfl (by decide +kernel), fun n hn => ?_⟩
  refine ⟨mc_let_in 0 _ 0 _ (by decide) (by decide) ?_, rfl, fun k hk => ?_⟩
  · revert n hn; decide +kernel
  · exact absurd hk (by simp only [aHbShift, hbBlock, regBase, aLkAcq, lkArray]; omega)
theorem test_management_registers :
    (mc 0).ev.flash = [] ∧ (regSpec aHbShift).isSome = true ∧ regBlock aHbShift ≠ 0x61 ∧ isSecretReg aHbShift = false ∧ (mc 0).reachable aHbShift = true ∧
      (regSpec (2 ^ 48 - 1)).isNone = true ∧ regBlock aLogNewest ≠ 0x60 := by decide +kernel
/-- Frames of KICKSTAND_ENTER: to a controller that is down, of a wrong form, on JTAG without the right, and on Ethernet of a provisioned module, with
an old CMDSEQ and with the right tag. -/
theorem test_management_frames :
    State.reset.mcFrame 0x13 (req 2 0 []) = some (5, List.replicate 8 0, []) ∧ State.reset.mc.up = false ∧ allZero (List.replicate 8 (1 : Byte)) = false ∧
      ((mc 0).setMc fun m => { m with life := 1 }).chanRight 3 0 1 = false ∧
      (let s := (mc 0).setMc fun m => { m with life := 1, ethSeq := 5 }
       s.chanRight 1 0 1 = true ∧ s.tagNeeded 1 1 = true) := by decide +kernel
/-- A frame on Ethernet with CMDSEQ 5 and the tag that it needs. -/
def tagged (s : State) (op : Nat) (d : List Byte) : McReq :=
  ⟨1, 0, 5, List.replicate 8 0, d, Config.macOf s.mc.ethKey.toNat (leBytes 2 op ++ leBytes 2 d.length ++ leBytes 4 5 ++ List.replicate 8 0 ++ d), 0, false⟩
theorem tag_good (s : State) (op : Nat) (d : List Byte) (h : s.mc.ethSeq < 5) : s.tagGood op 5 (List.replicate 8 0) d (tagged s op d).tag = true := by
  simp only [State.tagGood, tagged, beq_self_eq_true, Bool.true_and, decide_eq_true_eq]
  exact h
theorem let_in_tagged (s : State) (op cls : Nat) (d : List Byte) (hu : s.mc.up = true) (hd : d.length ≤ 1440) (hr : s.chanRight 1 0 cls = true)
    (he : s.mc.ethSeq < 5) (hs : s.mc.causes = []) (hp : s.rfld aPwState 61 61 = 0) : s.LetIn op cls (tagged s op d) d :=
  ⟨hu, ⟨5, List.replicate 8 0, rfl, rfl, fun _ => tag_good s op d he⟩, hd, hr, ⟨hs, hp⟩⟩
def inLife (l : Nat) (f : Mc → Mc) : State := (mc 0).setMc fun m => f { m with life := l }
theorem test_management_tags :
    (inLife 1 fun m => { m with ethSeq := 5 }).tagGood 0x13 5 [] [] 9 = false ∧ (inLife 1 id).tagGood 0x13 5 (List.replicate 8 0) [] (tagged (inLife 1 id) 0x13 []).tag = true := by
  refine ⟨?_, tag_good _ _ _ (by decide)⟩
  simp only [State.tagGood, Bool.and_eq_false_imp, decide_eq_false_iff_not]
  intro _
  exact Nat.lt_irrefl 5

def cmd (x a : Nat) : List Byte := leBytes 1 x ++ leBytes 1 a ++ leBytes 6 0
theorem test_operate_commands : ∀ d ∈ [[], cmd 1 1, cmd 1 2] ++ [1, 2, 3, 4, 5, 16].map (cmd 15), ∀ pw ∈ [0, 1, 2], ∀ op, (mc pw).LetIn op 1 (req 2 0 d) d := by
  intro d hd pw hp op
  refine mc_let_in pw op 1 d hp (by decide) ?_
  revert d hd
  decide +kernel
theorem test_operate_states :
    (∀ pw ∈ [0, 1, 2], (mc pw).power = pw) ∧ (∀ v ∈ [0, 1, 2, 3, 4, 5], ((mc 0).setPtState 15 v).ptState 15 = v) ∧
      (let s := (mc 1).setReg aKsCfg 0
       s.rfld aKsCause 3 2 = 0 ∧ bitAt (s.reg aKsCfg) 1 = false ∧ s.mc.repairs = [] ∧ s.mc.unrecorded = [] ∧ s.mc.settings = []) ∧
      (let s := ((mc 1).setRfld aKsCause 3 2 1).setMc fun m => { m with faultN := true }
       s.rfld aKsCause 3 2 ≠ 0 ∧ s.mc.faultN = true) ∧
      ((mc 0).setRfld (aPairStatus 1) 63 62 1).pairState 1 = 1 ∧
      (let s := ((mc 0).setRfld (aPairStatus 1) 63 62 2).updPair 1 fun k => { k with zero := true }
       s.pairState 1 = 2 ∧ (s.pairSt 1).zero = true ∧ s.faultStands = true) ∧ (mc 0).faultStands = false := by decide +kernel

def withGraph (s : State) : State := s.setMc fun m => { m with graph := some ⟨1, 3, 5, false, false, ⟨2, 0, 0x12, 5, 0⟩⟩ }
theorem test_graph_commands :
    (mc 0).LetIn 0x11 1 (req 2 0 []) [] ∧ (mc 1).LetIn 0x11 1 (req 2 0 []) [] ∧ (ctxLive (withGraph (mc 0))).LetIn 0x12 1 (req 2 0 []) [] ∧
      (withGraph (mc 0)).LetIn 0x12 1 (req 2 0 []) [] ∧ (mc 0).power = 0 ∧ (mc 0).mc.graph = none ∧ (mc 1).power ≠ 0 ∧
      (withGraph (mc 0)).ctxs = [] ∧ (ctxLive (withGraph (mc 0))).ctxs = [(9, live)] ∧ (mc 0).ecc = [] ∧ ctxOwner 9 < 64 ∧ Nat.testBit 1 (ctxOwner 9) = true :=
  ⟨mc_let_in 0 _ 1 _ (by decide) (by decide) (by decide), mc_let_in 1 _ 1 _ (by decide) (by decide) (by decide),
    let_in _ _ _ _ _ (.inr rfl) rfl (by decide) (by decide +kernel) (by decide +kernel) rfl (by decide +kernel),
    let_in _ _ _ _ _ (.inr rfl) rfl (by decide) (by decide +kernel) (by decide +kernel) rfl (by decide +kernel), by decide +kernel, rfl, by decide +kernel, rfl,
    rfl, rfl, by decide +kernel, by decide +kernel⟩

/-- Updates: the first and the last type, the largest length, blocks at the end of the copy, beside one written and beyond the end. -/
theorem test_update_commands : ∀ d ∈ [[], leBytes 1 1 ++ leBytes 3 0 ++ leBytes 4 (imgRegion 1), leBytes 1 6 ++ leBytes 3 0 ++ leBytes 4 0,
      leBytes 4 592 ++ leBytes 4 0 ++ List.replicate 8 7, leBytes 4 600 ++ leBytes 4 0 ++ List.replicate 8 7, leBytes 1 5 ++ leBytes 7 0,
      leBytes 1 1 ++ leBytes 3 0 ++ leBytes 4 255 ++ leBytes 2 8191 ++ leBytes 6 0 ++ List.replicate 132 7], ∀ op, (mc 0).LetIn op 2 (req 2 0 d) d := by
  intro d hd op
  refine mc_let_in 0 op 2 d (by decide) (by decide) ?_
  revert d hd
  decide +kernel
theorem test_update_states :
    (mc 0).openUpdate = none ∧ (mc 0).mc.update = none ∧ (mc 0).mc.minver.length = 5 ∧
      (let x : Update := ⟨5, 1, 600, [(0, 592)], false⟩
       let s := (mc 0).setMc fun m => { m with update := some x }
       s.openUpdate = some x ∧ (∀ q ∈ x.ranges, q.2 ≤ 592 ∨ 592 + 8 ≤ q.1) ∧ 592 + 8 ≤ x.total ∧ x.total < 600 + 8 ∧
         s.chanRight 2 0 2 = true ∧ s.tagNeeded 2 2 = false ∧ s.rfld aPwState 61 61 = 0) ∧
      (let s := (mc 0).setMc fun m => { m with inUse := [(5, 2)], minver := [0, 0, 0, 0, 2], flash := [(imgBase 5 2 + 12, 3), (imgBase 5 2 + 13, 0)] }
       s.inUse 5 ≠ 0 ∧ s.mc.clean = true ∧ 350000000 ≤ s.now ∧ s.minVer 5 < s.imgSvn 5 (s.inUse 5) ∧ s.openUpdate = none) ∧
      (let s := (mc 0).setMc fun m => { m with inUse := [(5, 2)], clean := false }
       s.inUse 5 ≠ 0 ∧ s.mc.clean = false) ∧
      (mc 0).pairState 1 ≠ 1 ∧ ((mc 0).setRfld (aPairStatus 1) 63 62 1).pairState 1 = 1 := by decide +kernel

def prov (a b k : Nat) : List Byte := beBytes 48 a ++ beBytes 48 b ++ beBytes 32 k
theorem test_lifecycle_commands : ∀ d ∈ [[], prov 0 0 0, prov (2 ^ 384 - 1) (2 ^ 384 - 1) (2 ^ 256 - 1), List.replicate 96 3], ∀ op,
    (mc 0).LetIn op 3 (req 2 0 d) d := by
  intro d hd op
  refine mc_let_in 0 op 3 d (by decide) (by decide) ?_
  revert d hd
  decide +kernel
/-- LC_SECURE and LC_RETIRE of a provisioned and a secured module, with the tag that they need; a module whose random number generator has failed. -/
theorem test_lifecycle_states : ∀ l ∈ [1, 2], ∀ op,
    (inLife l fun m => { m with rngOk := false }).LetIn op 3 (tagged (inLife l fun m => { m with rngOk := false }) op (List.replicate 96 3)) (List.replicate 96 3) ∧
      (inLife l fun m => { m with rngOk := false }).mc.life = l ∧ (mc 0).mc.rngOk = true ∧ (mc 0).mc.life = 0 ∧ (mc 0).mc.imgHash = 0 ∧
      (inLife l fun m => { m with rngOk := false }).mc.graph = none := by
  intro l hl op
  have h : ∀ l ∈ [1, 2], (inLife l fun m => { m with rngOk := false }).chanRight 1 0 3 = true ∧ (inLife l fun m => { m with rngOk := false }).rfld aPwState 61 61 = 0 := by
    decide +kernel
  exact ⟨let_in_tagged _ _ _ _ rfl (by decide +kernel) (h l hl).1 (show 0 < 5 by decide) rfl (h l hl).2, rfl, rfl, rfl, rfl, rfl⟩

theorem test_debug_sessions : ∀ d ∈ [[], cmd 1 0 ++ [], cmd 3 0, cmd 3 0 ++ List.replicate 352 3, cmd 1 4, cmd 0 4], ∀ op, (mc 0).LetIn op 4 (req 2 0 d) d := by
  intro d hd op
  refine mc_let_in 0 op 4 d (by decide) (by decide) ?_
  revert d hd
  decide +kernel
theorem test_debug_session_states :
    dbgCell 0 3 0 = 1 ∧ dbgCell 2 2 1 = 0 ∧ dbgCell 2 3 0 = 3 ∧ dbgCell 1 3 0 = 2 ∧
      (∀ ch ∈ [1, 2], let x : Session := ⟨3, ch, none, 3, [4, 274]⟩
        let s := (mc 0).setMc fun m => { m with session := some x }
        s.mc.session = some x ∧ (s.sessionOn ch).isSome = true ∧ s.chanRight ch 0 4 = true ∧ s.tagNeeded ch 4 = false ∧ s.rfld aPwState 61 61 = 0) ∧
      (mc 0).mc.session = none ∧ ((mc 0).sessionOn 2).isSome = false ∧ (mc 0).mc.lcRet ≠ 7 ∧ (mc 0).mc.life ≠ 3 ∧
      (let s := (mc 0).setMc fun m => { m with lcRet := 7 }
       s.mc.lcRet = 7 ∧ s.mc.life ≠ 3 ∧ s.chanRight 2 0 4 = true ∧ s.tagNeeded 2 4 = false ∧ s.rfld aPwState 61 61 = 0) ∧
      (let s := (mc 0).setMc fun m => { m with life := 2, rngOk := false }
       s.chanRight 2 0 4 = true ∧ s.tagNeeded 2 4 = false ∧ s.mc.rngOk = false) := by decide +kernel

def dbgPe (o n : Nat) : List Byte := leBytes 1 o ++ leBytes 1 0 ++ leBytes 2 n ++ leBytes 12 0
def dbgMem (o a : Nat) : List Byte := leBytes 1 o ++ leBytes 3 0 ++ leBytes 4 8 ++ leBytes 6 a ++ leBytes 2 0
def session (h : Halt) : State := ((mc 0).setMc fun m => { m with session := some ⟨2, 2, none, 3, []⟩ }).updPe 275 fun p => { p with halt := h }
theorem test_debug_operations : ∀ d ∈ [1, 2, 3].map (fun o => dbgPe o 275) ++ [dbgMem 4 0, dbgMem 4 (lsBase 271 + 0x3FFF8), dbgMem 5 (lsBase 0) ++ leBytes 8 7],
    (∀ h ∈ [Halt.run, .halted, .requested], (session h).LetIn 0x43 4 (req 2 0 d) d) ∧ (mc 0).LetIn 0x43 4 (req 2 0 d) d := by
  intro d hd
  have hl : d.length ≤ 1440 := by revert d hd; decide +kernel
  refine ⟨fun h hh => ?_, mc_let_in 0 _ 4 d (by decide) (by decide) hl⟩
  have e : ∀ h ∈ [Halt.run, .halted, .requested], (session h).chanRight 2 0 4 = true ∧ (session h).tagNeeded 2 4 = false ∧ (session h).rfld aPwState 61 61 = 0 := by
    decide +kernel
  exact let_in _ _ _ _ _ (.inr rfl) rfl hl (e h hh).1 (e h hh).2.1 rfl (e h hh).2.2
theorem test_debug_operation_states :
    (∀ h ∈ [Halt.run, .halted, .requested], ((session h).sessionOn 2).isSome = true ∧ ((session h).pe 275).halt = h ∧ (session h).peReach 275 = true ∧
      (session h).peReach 271 = true ∧ (session h).eccAt (lsBase 271 + 0x3FFF8) = .ok) ∧ (mc 0).sessionOn 2 = none ∧ 0x3FFF8 < lsBytes 271 := by decide +kernel

def window (busy : Bool) (op : Nat) : MbWin := ⟨3, [(0, BitVec.ofNat 8 op)], [], busy, false, 0, 1⟩
def withWin (w : MbWin) : State := (mc 0).setMc fun m => { m with windows := [w] }
theorem test_controller_services :
    (mc 0).mc.up = true ∧ (mc 0).mc.graph = none ∧ bitAt ((mc 0).reg (aMcDcq 0)) 62 = false ∧ (mc 0).mc.rngOk = true ∧ ((mc 0).setRfld aPwStatus 5 4 3).powered = true ∧
      (let good (f : List Byte) : Bool := decide (4 ≤ f.length ∧ f.length ≤ 1522 ∧ leNat (f.drop (f.length - 4)) = crc32 (f.take (f.length - 4)))
       good (leBytes 1 7 ++ leBytes 4 (crc32 (leBytes 1 7))) = true ∧ good [] = false ∧ good (List.replicate 4 7) = false) ∧ State.reset.powered = false ∧
      (∀ op ∈ [0x13, 0x99], (withWin (window false op)).window 3 = some (window false op) ∧ (window false op).busy = false ∧
        knownOp (leNat ((window false op).bytes 0 2)) = decide (op = 0x13) ∧ ∀ x ∈ (withWin (window false op)).mc.windows, x.ep = 3 → x.busy = false) ∧
      (withWin (window true 0x13)).window 3 = some (window true 0x13) ∧
      (∀ l ∈ [1, 3], ((mc 0).setMc fun m => { m with session := some ⟨l, 2, none, 3, []⟩ }).mc.session = some ⟨l, 2, none, 3, []⟩) := by decide +kernel

/-! Registers, power, sensors, upkeep, the queue. -/

theorem test_register_commands :
    (regSpec (canonReg 0)).isNone = true ∧ bitAt (State.reset.reg aMcLock) 0 = false ∧
      (let s := State.reset.setReg aMcLock 1
       bitAt (s.reg aMcLock) 0 = true ∧ fld (10 : Word) 15 0 ≠ s.rfld aDbgCfg 15 0 ∧ 10 ≤ fld (10 : Word) 15 0) ∧
      (mc 0).power ≠ 2 ∧ State.reset.power = 2 ∧ (∀ c ∈ [0, 63], (mc 0).dieOn c = true ∧ (mc 0).clState c ≤ 1) ∧ (mc 0).mc.graph = none ∧
      (withGraph (mc 0)).mc.graph.isSome = true ∧ (∀ n ∈ [0, 256, 271], (mc 0).dieOn (peCluster n) = true ∧ (mc 0).clState (peCluster n) ≤ 1 ∧ (mc 0).act n = none) := by
  decide +kernel

def inState (v g : Nat) (s : State) : State := (s.setRfld (aPwrStatus 63) 63 61 v).setGoal 63 g
def shifting (s : State) : State := { s with shift := { s.shift with busy := true, pending := [2] } }
def based : State := (mc 0).setRfld aPwSaveBase 47 26 3
theorem test_cluster_power_states :
    (∀ v ∈ [0, 1, 2, 3, 4], (inState v 2 based).clState 63 = v) ∧ based.pw.goal = [] ∧ (shifting based).shift.busy = true ∧ based.shift.busy = false ∧
      based.saveArea 63 + 0x100000 ≤ scrBase 0 ∧ Memory.wf based.mem = true ∧ based.ecc = [] ∧
      (∀ w ∈ [0, 1], bitAt ((based.setRfld (aPwrStatus 63) 60 60 w).reg (aPwrStatus 63)) 60 = decide (w = 1)) := by decide +kernel
theorem test_cluster_power_scratch : ∀ o, o < 0x80000 → State.reset.byte (scrBase 63 + o) = 0 := fun _ _ => rfl
theorem test_cluster_power_wakes :
    (inState 1 5 (mc 0)).quiescent 63 = true ∧ (inState 1 5 (mc 0)).goal 63 = 5 ∧
      (let s := inState 0 6 ((mc 0).setRfld (aPwrCtl 63) 3 3 1)
       s.quiescent 63 = true ∧ s.goal 63 = 6 ∧ bitAt (s.reg (aPwrCtl 63)) 3 = true) ∧
      ((mc 0).updPe 255 fun p => { p with inbox := [tok 255 0 5] }).quiescent (peCluster 255) = false ∧
      (let s := (inState 2 0 (mc 0)).setEject 63 [pk]
       s.clState 63 = 2 ∧ s.ejectQ 63 ≠ []) := by decide +kernel
theorem test_cluster_power_down : ∀ w ∈ [0, 1], let s := inState 4 2 (based.setRfld (aPwrCtl 63) 2 2 w)
    s.goal 63 = 2 ∧ s.clState 63 = 4 ∧ s.shift.busy = false ∧ s.drained 63 = true ∧ s.spillFits 63 = true ∧
      s.pressure = false ∧ s.mc.graph = none ∧ bitAt (s.reg (aPwrCtl 63)) 2 = decide (w = 1) := by decide +kernel
theorem test_cluster_power_waits : ((inState 4 2 based).updPe 255 fun p => { p with inbox := [tok 255 0 5] }).drained (peCluster 255) = false := by decide +kernel
theorem test_cluster_power_parking :
    let p := { pk with dest := 63, body := [7, 8] }
    let s := State.reset.setReqs 66 [p]
    let u := s.setReg (aNiOff 66 (s.activeBank 66)) (2 ^ 63)
    s.reqAt 66 = [p] ∧ p.opc = .token ∧ bitAt (s.reg (aNiOff 66 (s.activeBank 66))) 63 = false ∧ bitAt (u.reg (aNiOff 66 (u.activeBank 66))) 63 = true ∧
      u.pressure = false ∧ u.auxRoom 63 .bounce 32 = true ∧ (u.setRfld aQuota 7 0 0).auxRoom 63 .bounce 32 = false := by decide +kernel

def inputs (a b : Nat) (s : State) : State := (({ s with pw := { s.pw with vinA := a, vinB := b } } : State).setRfld aPwStatus 5 4 3).setRfld aPwStatus 3 2 3
theorem test_module_power_inputs :
    State.reset.powered = false ∧ (inputs 9000 9000 (mc 0)).powered = true ∧ (inputs 9000 9000 (mc 0)).pw.vinA = 9000 ∧ (inputs 9000 9000 (mc 0)).power = 0 ∧
      (mc 0).rfld aPwState 61 61 = 0 ∧ (mc 0).pw.soft = false ∧ bitAt ((mc 0).reg aPwState) 51 = true ∧ max 8500 0 ≥ 8500 ∧ max 8999 8999 < 9000 ∧ max 6999 0 < 7000 ∧
      State.reset.imgAbsent 1 1 = true ∧ State.reset.imgAbsent 1 2 = true ∧ (mc 0).imgAbsent 1 1 = true ∧ (mc 0).imgAbsent 1 2 = true := by decide +kernel
theorem test_module_power_exits : ∀ b ∈ [0, 1],
    let s := (inputs 12000 11000 ((mc 1).setReg aKsCause (BitVec.ofNat 64 (2 ^ b)))).setReg aKsCfg 1
    s.power = 1 ∧ s.rfld aPwState 61 61 = 0 ∧ bitAt (s.reg aKsCfg) 0 = true ∧ bitAt (s.reg aKsCfg) 1 = false ∧ bitAt (s.reg aKsCause) b = true ∧
      s.mc.repairs = [] ∧ s.mc.unrecorded = [] ∧ bitAt ((s.setReg aKsCfg 0).reg aKsCfg) 0 = false := by decide +kernel
theorem test_module_power_temperatures :
    (let s := [20, 21, 22, 23].foldl (fun (s : State) i => s.setReg (aMcTemp i) (2 ^ 63 + 1840)) (mc 1)
     ∀ i ∈ [20, 21, 22, 23], bitAt (s.reg (aMcTemp i)) 63 = true ∧ sx16 (s.rfld (aMcTemp i) 15 0) ≤ 1840) ∧
    ((mc 0).setMc fun m => { m with unrecorded := [0x1234567890ABCDEF] }).mc.unrecorded ≠ [] ∧ (mc 0).mc.unrecorded = [] := by decide +kernel

theorem test_sensing :
    ({ State.reset with regs := [(aMcAge 71, 2 ^ 32 * 5000)] }.rfld (aMcAge 71) 47 32 ≠ 0) ∧ (mc 0).pw.refOk = true ∧ (mc 0).mc.up = true ∧
      (let s := { ((mc 0).setReg (aMcTemp 0) (2 ^ 63 + 2241)) with pw := { (mc 0).pw with drop := (dieClusters 0).map fun c => (c, 1050000) } }
       s.power = 0 ∧ s.rfld aPwState 61 61 = 0 ∧ (∀ c ∈ dieClusters 0, Tbl.get 0 s.pw.drop c = 1050000) ∧ 2241 ∈ s.junctions 0) ∧
      (∀ v ∈ [2, 3], (List.range 4).any (fun h => ((mc 0).setRfld (aMmStatus 3) 3 2 v).rfld (aMmStatus h) 3 2 == 3) = decide (v = 3)) := by decide +kernel

theorem test_scratch_upkeep_scrub :
    (let s := ((mc 0).setEcc 0x1000 .ce).setReg aScrubCtl 1
     s.eccAt 0x1000 = .ce ∧ bitAt (s.reg aScrubCtl) 0 = true ∧ 0x1000 < 28 * 2 ^ 30) ∧
    (∀ a ∈ [scrBase 63 + 0x7FFF8, lsBase 275 + 0x7FF8], ((mc 0).setEcc a .ce).eccAt a = .ce ∧ a % 8 = 0) ∧ 0x7FF8 < lsBytes 275 := by decide +kernel
def testing (s : State) : State := s.setReg (aScTestCtl 63) 1
def lent (g : Nat) (s : State) : State := s.updTest 63 fun t => { t with borrow := some g }
theorem test_scratch_upkeep_tests :
    (let s := testing (mc 0)
     bitAt (s.reg (aScTestCtl 63)) 0 = true ∧ (s.test 63).borrow = none ∧ s.clState 63 ≤ 1 ∧ s.ecc = [] ∧ (s.nextSeg 63).isSome = true) ∧
    bitAt (((mc 0).setReg (aScTestCtl 63) 0).reg (aScTestCtl 63)) 0 = false ∧
    (∀ g ∈ [0, 511], ((lent g (mc 0)).test 63).borrow = some g ∧ (lent g (mc 0)).rfld (aScRepair 63) (4 * (g / 32) + 3) (4 * (g / 32)) < 8) := by decide +kernel
theorem test_scratch_upkeep_banks :
    (let s := (mc 0).setReg (aScRet 63) 0x5FFFF
     bitAt (s.reg (aScRet 63)) 15 = true ∧ s.bankIdle 63 15 = true) ∧
    (let p := { pk with opc := .read, body := [mkWide 0 (BitVec.ofNat 64 24)] }
     let s := ((mc 0).setReg (aScRet 63) 0x5FFFF).setReqs 63 [p]
     s.bankIdle 63 (bankOf (p.addr % 0x80000)) = false) ∧
    fld (0xFFFF : Word) 31 16 = 0 ∧ fld (0x10000 : Word) 31 16 ≠ 0 := by decide +kernel

theorem test_step_runs_front_command : ({ State.reset with pending := [.linkDown 3 0, .mcEvtClear] } : State).pending = [.linkDown 3 0, .mcEvtClear] := rfl
theorem test_steps_go_on : ({ State.reset with pending := [.linkDown 3 0, .mcEvtClear] } : State).queueWf = true ∧ (Instr.dieFault 3).wf = true ∧ (Instr.dieFault 4).wf = false := by
  decide
theorem test_memory_canonical : ∃ t, Memory.wf State.reset.mem = true ∧ step { State.reset with pending := [.mcEvtClear] } = .next t := ⟨_, rfl, rfl⟩
theorem test_empty_queue_idles :
    State.reset.pending = [] ∧ State.reset.pw.soft = false ∧ State.reset.rfld aPwState 61 61 = 0 ∧ (State.reset.setRfld aPwState 61 61 1).rfld aPwState 61 61 = 1 ∧
      (State.reset.setRfld aPwState 61 61 1).mc.unrecorded = [] ∧ State.reset.imgAbsent 1 1 = true ∧ State.reset.imgAbsent 1 2 = true ∧ State.reset.pw.late = [] ∧
      (mc 0).rerouteDue = false ∧ ((mc 0).setMc fun m => { m with reroute := true }).rerouteDue = true ∧ (mc 0).pending = [] ∧ (mc 0).pw.soft = false := by decide +kernel

/-! Worked examples and edge tables of the manual. -/

/-- The addresses of the example at R523 and the value of CL_ID[45] there. -/
theorem test_register_addresses :
    clBlock 45 = 0x0F00002D0000 ∧ aPeStat 181 (psWAIT 15) = 0x0F00002D12D8 ∧ aLaccStat 266 1 = 0x0F00002D0C48 ∧
      aNiRt 45 1 259 = 0x0F00002D3818 ∧ aLkRel 12 = 0x0F00004300C8 ∧ clIdVal 45 = 0x000000F81A03552D := by decide +kernel
/-- MULQ at the extremes (R227): MINQ by MINQ with and without SAT, LSBQ by one half rounded half up. -/
theorem test_mulq_extremes :
    fxMul 3 true 0x8000000000000000 0x8000000000000000 = ⟨0x7FFFFFFFFFFFFFFF, 1⟩ ∧
      fxMul 3 false 0x8000000000000000 0x8000000000000000 = ⟨0x8000000000000000, 2⟩ ∧
      fxMul 3 true 0x7FFFFFFFFFFFFFFF 0x7FFFFFFFFFFFFFFF = ⟨0x7FFFFFFFFFFFFFFE, 0⟩ := by decide +kernel
/-- DIV.S at its edges (R193). -/
theorem test_div_edges :
    divSigned 0x8000000000000000 (-1) = ⟨0x8000000000000000, flOF⟩ ∧ divSigned 5 0 = ⟨0x7FFFFFFFFFFFFFFF, flDZ⟩ ∧
      isqrtWord 0xFFFFFFFFFFFFFFFF = 0xFFFFFFFF := by decide +kernel
/-- The smallest subnormal times one half: to nearest even a zero with UF and NX, toward +∞ itself (R224). -/
theorem test_fmul_subnormal :
    (fmtD.mul 0 (fmtD.read 1) (fmtD.read 0x3FE0000000000000)).bits = 0 ∧ (fmtD.mul 0 (fmtD.read 1) (fmtD.read 0x3FE0000000000000)).fl = 3 ∧
      (fmtD.mul 0 (fmtD.read 1) (fmtD.read 0x7FEFFFFFFFFFFFFF)).bits = 0x3CCFFFFFFFFFFFFF := by decide +kernel

end Sys2Proof.Tests
end

/-! # The module after reset

`State.reset` is a literal, so each table read falls through to its default and closes by computation. -/
section
namespace Sys2Proof.Machine

/-- Settles O60: the reset state's tables are empty, so a read of any of them is its default (`rfl`);
the registers of the ports and clusters are finitely many and are evaluated. -/
theorem resetValues : Obligations.ResetValues := by
  unfold Obligations.ResetValues
  refine ⟨?memory, ?engines, ?contexts, ?locks, ?endpoints, by decide +kernel, by decide +kernel, rfl, rfl, rfl, ?ports,
    ?clusters, by decide +kernel, by decide +kernel, by decide +kernel⟩
  case memory => intro a; exact ⟨rfl, rfl, rfl, rfl⟩
  case engines => intro n; exact ⟨rfl, rfl, rfl, rfl, rfl, rfl⟩
  case contexts => intro k; rfl
  case locks => intro n; exact ⟨rfl, rfl⟩
  case endpoints => intro e; exact ⟨rfl, rfl, rfl⟩
  case ports => decide +kernel
  case clusters => decide +kernel

end Sys2Proof.Machine
end

/-! # Memory keeps its canonical form

The stores that a step may change by more than one entry's rewriting are five: memory, its check states, its presence codes, instruction memory
    and
the lock table (`State.held`). Almost every operation of the model leaves all five alone, or stores bytes, or writes one check state or presence
    code.
`Stable P` says that `P` survives these; for each operation one lemma `Stable.<operation>` concludes that it survives the operation. An operation
    that
reads stored words may besides count an uncorrectable error, and so enter KICKSTAND; those need `Reads P`, with the lemmas `Reads.<operation>`.
    The
few that clear, restore or drop whole regions are followed for the canonical form alone (`State.Canon`), in the lemmas `<operation>_wf`.

The statement about every command (O58) and the one about the memory targets (O38) are then two choices of `P`. -/
section
namespace Sys2Proof.Machine

/-! ## The rules -/

/-- The stores of the module that are large: memory, check states, presence codes, instruction memory, locks. -/
def State.held (s : State) : List Host.Cell × Tbl Ecc × Tbl Presence × Tbl Word × Tbl Lock := (s.mem, s.ecc, s.pres, s.imem, s.locks)

/-- `P` speaks of the held stores alone, and survives a store of bytes, a check state other than uncorrectable and a presence code other than lost. -/
structure Stable (P : State → Prop) : Prop where
  aside : ∀ {s t : State}, P s → t.held = s.held → P t
  bytes : ∀ {s : State} {a : Nat} {l : List Byte}, P s → P { s with mem := memWrite s.mem a l }
  check : ∀ {s : State} {a : Nat} {e : Ecc}, e ≠ .ue → P s → P (s.setEcc a e)
  presence : ∀ {s : State} {a : Nat} {p : Presence}, p ≠ .lost → P s → P (s.setPres a p)

/-- `P` holds of the value of `o`, where it has one. -/
def OnSome {α : Type} (P : α → Prop) (o : Option α) : Prop := ∀ x, o = some x → P x
/-- `P` holds of the next state, where there is one. -/
def OnNext (P : State → Prop) (o : Out) : Prop := ∀ t, o = .next t → P t

theorem onSome_none {α : Type} {P : α → Prop} : OnSome P none := nofun

theorem onSome_some {α : Type} {P : α → Prop} {x : α} (h : P x) : OnSome P (some x) := fun _ e => Option.some.inj e ▸ h

theorem onSome_map {P : State → Prop} {f : State → State} {o : Option State} (hf : ∀ s, P s → P (f s)) (h : OnSome P o) :
    OnSome P (o.map f) := by
  cases o with
  | none => exact onSome_none
  | some s => exact onSome_some (hf s (h s rfl))

theorem onSome_mapOf {α β : Type} {P : β → Prop} {f : α → β} {o : Option α} (hf : ∀ x, P (f x)) : OnSome P (o.map f) := by
  cases o with
  | none => exact onSome_none
  | some x => exact onSome_some (hf x)

theorem onSome_bind {α β : Type} {P : β → Prop} {f : α → Option β} {o : Option α} (hf : ∀ x, OnSome P (f x)) : OnSome P (o.bind f) := by
  cases o with
  | none => exact onSome_none
  | some x => exact hf x

theorem onSome_or {α : Type} {P : α → Prop} {a b : Option α} (ha : OnSome P a) (hb : OnSome P b) : OnSome P (a.or b) := by
  cases a with
  | none => exact hb
  | some x => exact ha

theorem onSome_findSome {α β : Type} {P : β → Prop} {f : α → Option β} {l : List α} (hf : ∀ x, OnSome P (f x)) :
    OnSome P (l.findSome? f) := fun _ e => by
  obtain ⟨a, _, ha⟩ := List.exists_of_findSome?_eq_some e
  exact hf a _ ha

theorem onNext_next {P : State → Prop} {t : State} (h : P t) : OnNext P (.next t) := fun _ e => Host.Outcome.next.inj e ▸ h

theorem onNext_refused {P : State → Prop} {w : Refusal} : OnNext P (.refused w) := by
  intro _ e
  simp at e

theorem keep_ite {α : Type} {P : α → Prop} {c : Prop} [Decidable c] {a b : α} (ha : P a) (hb : P b) : P (if c then a else b) := by
  split <;> assumption

theorem keep_elim {P : State → Prop} {α : Type} {o : Option α} {b : State} {f : α → State} (hb : P b) (hf : ∀ x, P (f x)) : P (o.elim b f) := by
  cases o with
  | none => exact hb
  | some x => exact hf x

theorem keep_getD {P : State → Prop} {o : Option State} {d : State} (ho : OnSome P o) (hd : P d) : P (o.getD d) := by
  cases o with
  | none => exact hd
  | some x => exact ho x rfl

theorem keep_foldl {P : State → Prop} {α : Type} {g : State → α → State} {l : List α} {s : State}
    (hg : ∀ s x, P s → P (g s x)) (h : P s) : P (l.foldl g s) := by
  induction l generalizing s with
  | nil => exact h
  | cons x r ih => exact ih (hg s x h)

/-- What a narrow write leaves of a word's check state is never uncorrectable: it is poison (R276). -/
theorem mergedEcc_ne_ue {s : State} {a k : Nat} {p : Bool} : s.mergedEcc a k p ≠ .ue := by
  unfold State.mergedEcc
  split <;> nofun


/-! ## Operations that survive any `Stable` predicate -/
section
variable {P : State → Prop} (hP : Stable P)
include hP

/-! ### Fields beside the held stores -/

theorem Stable.withPending {s : State} {v : List Instr} (h : P s) : P { s with pending := v } := hP.aside h rfl

theorem Stable.withMc {s : State} {v : Mc} (h : P s) : P { s with mc := v } := hP.aside h rfl

theorem Stable.withColl {s : State} {v : Tbl (List EvRec)} (h : P s) : P { s with coll := v } := hP.aside h rfl

theorem Stable.withRr {s : State} {v : Tbl Nat} (h : P s) : P { s with rr := v } := hP.aside h rfl

theorem Stable.withPstat {s : State} {v : Tbl Nat} (h : P s) : P { s with pstat := v } := hP.aside h rfl

theorem Stable.withRels {s : State} {v : Tbl (List Release)} (h : P s) : P { s with rels := v } := hP.aside h rfl

theorem Stable.withParked {s : State} {v : Tbl (List Packet)} (h : P s) : P { s with parked := v } := hP.aside h rfl

theorem Stable.withOversizeAt {s : State} {v : Tbl Nat} (h : P s) : P { s with oversizeAt := v } := hP.aside h rfl

theorem Stable.withFlitUeAt {s : State} {v : Tbl Nat} (h : P s) : P { s with flitUeAt := v } := hP.aside h rfl

theorem Stable.withFlushes {s : State} {v : List Nat} (h : P s) : P { s with flushes := v } := hP.aside h rfl

theorem Stable.withOpenPktsFlushes {s : State} {v : Tbl (Option OpenPkt)} {w : List Nat} (h : P s) :
    P { s with openPkts := v, flushes := w } := hP.aside h rfl

theorem Stable.withEv {s : State} {v : EvPath} (h : P s) : P { s with ev := v } := hP.aside h rfl

theorem Stable.withBeacon {s : State} {v : Word} (h : P s) : P { s with beacon := v } := hP.aside h rfl

theorem Stable.withSerial {s : State} {v : Nat} (h : P s) : P { s with serial := v } := hP.aside h rfl

theorem Stable.withRdata {s : State} {v : List Word} (h : P s) : P { s with rdata := v } := hP.aside h rfl


/-! ### Registers, memory, events and faults -/

theorem Stable.setReg {s : State} {a : Nat} {v : Word} (h : P s) :
    P (s.setReg a v) :=
  hP.aside h rfl

theorem Stable.setRfld {s : State} {a hi lo v : Nat} (h : P s) :
    P (s.setRfld a hi lo v) :=
  hP.setReg h

theorem Stable.draw {s : State} (h : P s) :
    P s.draw.2 := by
  unfold State.draw
  dsimp only
  exact hP.aside h rfl

theorem Stable.setDom {s : State} {d : Nat} {x : Dom} (h : P s) :
    P (s.setDom d x) :=
  hP.aside h rfl

theorem Stable.domsDown {s : State} {f : Nat → Bool} (h : P s) :
    P (s.domsDown f) :=
  hP.aside h rfl

theorem Stable.freeOf {α : Type} {s : State} {l : List α} (h : P s) :
    P (s.freeOf l).2 := by
  unfold State.freeOf
  split
  · dsimp only
    exact h
  · exact hP.draw h

theorem Stable.setPe {s : State} {n : Nat} {p : Pe} (h : P s) :
    P (s.setPe n p) :=
  hP.aside h rfl

theorem Stable.updPe {s : State} {n : Nat} {f : Pe → Pe} (h : P s) :
    P (s.updPe n f) :=
  hP.setPe h

theorem Stable.setNi {s : State} {e : Nat} {v : Ni} (h : P s) :
    P (s.setNi e v) :=
  hP.aside h rfl

theorem Stable.updNi {s : State} {e : Nat} {f : Ni → Ni} (h : P s) :
    P (s.updNi e f) :=
  hP.setNi h

theorem Stable.setCm {s : State} {c : Nat} {v : Cm} (h : P s) :
    P (s.setCm c v) :=
  hP.aside h rfl

theorem Stable.updCm {s : State} {c : Nat} {f : Cm → Cm} (h : P s) :
    P (s.updCm c f) :=
  hP.setCm h

theorem Stable.setCtx {s : State} {k : Nat} {v : Ctx} (h : P s) :
    P (s.setCtx k v) :=
  hP.aside h rfl

theorem Stable.updCtx {s : State} {k : Nat} {f : Ctx → Ctx} (h : P s) :
    P (s.updCtx k f) :=
  hP.setCtx h

theorem Stable.setReqs {s : State} {e : Nat} {l : List Packet} (h : P s) :
    P (s.setReqs e l) :=
  hP.aside h rfl

theorem Stable.pushReq {s : State} {e : Nat} {p : Packet} (h : P s) :
    P (s.pushReq e p) :=
  hP.setReqs h

theorem Stable.setByte {s : State} {a : Nat} {v : Byte} (h : P s) :
    P (s.setByte a v) :=
  hP.bytes (l := [v]) h

theorem Stable.store {s : State} {a k v : Nat} (h : P s) :
    P (s.store a k v) :=
  hP.bytes h

theorem Stable.log {s : State} {e : Nat} {ev : Ev} {sev : Sev} {detail : Word} {pe ctx : Option Nat} {psn : Bool} (h : P s) :
    P (s.log e ev sev detail pe ctx psn) :=
  hP.withColl (keep_ite (hP.aside h rfl) h)

theorem Stable.logFree {s : State} {e : Nat} {ev : Ev} {sev : Sev} {pe ctx : Option Nat} (h : P s) :
    P (s.logFree e ev sev pe ctx) :=
  hP.log (hP.draw h)

theorem Stable.noteFull {s : State} {a : Nat} (h : P s) :
    P (s.noteFull a) :=
  keep_elim (keep_ite h (hP.log (hP.aside h rfl))) (fun _ => keep_ite h (hP.log (hP.setRfld h)))

theorem Stable.bump {s : State} {a k : Nat} (h : P s) :
    P (s.bump a k) :=
  keep_ite (hP.setRfld h) (hP.noteFull (hP.setRfld h))

theorem Stable.bumpPe {s : State} {n i k : Nat} (h : P s) :
    P (s.bumpPe n i k) :=
  hP.bump h

theorem Stable.bumpNi {s : State} {e i k : Nat} (h : P s) :
    P (s.bumpNi e i k) :=
  keep_ite (hP.bump h) h

theorem Stable.noteSat {s : State} {k : Nat} (h : P s) :
    P (s.noteSat k) :=
  keep_ite h (hP.log (hP.setCtx h))

theorem Stable.cfgReject {s : State} {a : Nat} (h : P s) :
    P (s.cfgReject a) :=
  hP.log (hP.setReg h)

theorem Stable.unitSend {s : State} {e : Nat} {m : Msg} (h : P s) :
    P (s.unitSend e m) :=
  hP.updNi h

theorem Stable.putWord {s : State} {a : Nat} {v : Word} (h : P s) :
    P (s.putWord a v) :=
  hP.check nofun (hP.store h)

theorem Stable.storeWords {s : State} {addr : Nat} {l : List Word} (h : P s) :
    P (s.storeWords addr l) := by
  induction l generalizing s addr with
  | nil => exact h
  | cons w r ih => exact ih (hP.putWord h)

theorem Stable.writeDesc {s : State} {k : Nat} (h : P s) :
    P (s.writeDesc k) :=
  keep_ite h (hP.storeWords h)

theorem Stable.startKill {s : State} {k : Nat} {reply : Option Packet} (h : P s) :
    P (s.startKill k reply) :=
  keep_ite (hP.updCm (hP.writeDesc (hP.setCtx h))) h

theorem Stable.deliverTo {s : State} {k e : Nat} {pe : Option Nat} {ftag : Word} {unit : Bool} {fc : FaultCode} {off detail : Nat} {handles :
    Option Nat} (h : P s) :
    P (s.deliverTo k e pe ftag unit fc off detail handles) := by
  unfold State.deliverTo
  dsimp only
  split
  · exact hP.startKill (hP.log h)
  · refine keep_ite ?_ (hP.startKill (hP.log h))
    split
    · exact hP.updPe h
    · exact hP.unitSend h

theorem Stable.deliver {s : State} {e : Nat} {pe : Option Nat} {ftag : Word} {unit : Bool} {fc : FaultCode} {off detail : Nat} {handles : Option
    Nat} (h : P s) :
    P (s.deliver e pe ftag unit fc off detail handles) :=
  hP.deliverTo h

theorem Stable.onModule {s : State} {f : State → State} (h : P s) (hf : ∀ (u : State), P u → P (f u)) :
    OnNext P (onModule s f) :=
  onNext_next (hP.withPending (hf _ h))

theorem Stable.onUnit {what : String} {n lim : Nat} {s : State} {f : State → State} (h : P s) (hf : ∀ (u : State), P u → P (f u)) :
    OnNext P (onUnit what n lim s f) :=
  keep_ite (hP.onModule h (fun _ h1 => hf _ h1)) onNext_refused

theorem Stable.onPe {n : Nat} {s : State} {f : State → State} (h : P s) (hf : ∀ (u : State), P u → P (f u)) :
    OnNext P (onPe n s f) :=
  hP.onUnit h (fun _ h1 => hf _ h1)

theorem Stable.onCluster {n : Nat} {s : State} {f : State → State} (h : P s) (hf : ∀ (u : State), P u → P (f u)) :
    OnNext P (onCluster n s f) :=
  hP.onUnit h (fun _ h1 => hf _ h1)

theorem Stable.onPort {n : Nat} {s : State} {f : State → State} (h : P s) (hf : ∀ (u : State), P u → P (f u)) :
    OnNext P (onPort n s f) :=
  hP.onUnit h (fun _ h1 => hf _ h1)

/-! ### Safe-state lands -/

theorem Stable.driveLands {s : State} (h : P s) :
    P s.driveLands :=
  keep_ite h (hP.setRfld h)

theorem Stable.setSafeReq {s : State} {p v : Nat} (h : P s) :
    P (s.setSafeReq p v) :=
  hP.driveLands (hP.setRfld h)

theorem Stable.updPair {s : State} {p : Nat} {f : KPair → KPair} (h : P s) :
    P (s.updPair p f) :=
  hP.aside h rfl

theorem Stable.safeWrite {s : State} {p imm : Nat} (h : P s) :
    P (s.safeWrite p imm) :=
  hP.setSafeReq (hP.updPair h)

theorem Stable.safeRest {s : State} (h : P s) :
    P s.safeRest :=
  keep_foldl (fun _ _ h1 => keep_ite h1 (hP.setSafeReq h1)) (hP.driveLands h)

/-! ### The window gate and token pressure -/

theorem Stable.orphanFree {s : State} {e : Nat} {t : Token} (h : P s) :
    P (s.orphanFree e t) :=
  keep_ite (hP.unitSend h) h

theorem Stable.bumpCm {s : State} {e i : Nat} (h : P s) :
    P (s.bumpCm e i) :=
  keep_ite (hP.bump h) h

theorem Stable.admitToken {s : State} {t : Token} (h : P s) :
    P (s.admitToken t) :=
  keep_ite (hP.updPe h) (hP.bump h)

theorem Stable.gateDrop {s : State} {e : Nat} {t : Token} {d : GateDec} (h : P s) :
    P (s.gateDrop e t d) := by
  unfold State.gateDrop
  split
  · exact hP.orphanFree (hP.logFree (hP.bumpCm h))
  · exact hP.orphanFree (hP.bumpCm h)
  · exact hP.deliver (hP.bumpCm h)
  · exact hP.admitToken h
  · exact h
  · exact h

theorem Stable.gateRelease {s : State} {e k : Nat} (h : P s) :
    P (s.gateRelease e k) :=
  keep_foldl (fun _ _ h1 => hP.gateDrop h1) (hP.updCm h)

theorem Stable.releaseAll {s : State} (h : P s) :
    P s.releaseAll :=
  keep_foldl (fun _ _ h1 => keep_foldl (fun _ _ h2 => hP.gateRelease h2) h1) h

theorem Stable.pressureCheck {s : State} (h : P s) :
    P s.pressureCheck :=
  keep_ite (keep_ite (hP.releaseAll (hP.logFree (hP.setRfld h))) h) (keep_ite (hP.logFree (hP.setRfld h)) h)

theorem Stable.holdToken {s : State} {e : Nat} {t : Token} (h : P s) :
    OnSome P (s.holdToken e t) :=
  keep_ite (onSome_some (hP.updCm h)) (keep_ite (onSome_some (hP.pressureCheck (hP.updCm h))) onSome_none)

theorem Stable.tokenIn {s : State} {e : Nat} {t : Token} (h : P s) :
    OnSome P (s.tokenIn e t) := by
  unfold State.tokenIn
  refine keep_ite (onSome_some (hP.log (hP.bumpNi h))) ?_
  refine keep_ite (onSome_some (hP.log (hP.bump h))) ?_
  refine keep_ite (onSome_some (hP.bump h)) ?_
  refine keep_ite (onSome_some (hP.bumpNi h)) ?_
  split
  · exact hP.holdToken h
  · exact onSome_map (fun _ h1 => hP.updCm h1) (hP.holdToken h)
  · exact onSome_some (hP.gateDrop h)

/-! ### Packets and queues -/

theorem Stable.setVc {s : State} {r i vn : Nat} {l : List Hop} (h : P s) :
    P (s.setVc r i vn l) :=
  hP.aside h rfl

theorem Stable.rewound {s : State} {a : Nat} (h : P s) :
    P (s.rewound a) :=
  hP.setRfld h

theorem Stable.pushVc {s : State} {r i : Nat} {p : Packet} {out : Nat} (h : P s) :
    P (s.pushVc r i p out) :=
  hP.setVc h

/-! ### The transmit side of a port -/

theorem Stable.setPort {s : State} {p : Nat} {x : Port} (h : P s) :
    P (s.setPort p x) :=
  hP.aside h rfl

theorem Stable.updPort {s : State} {p : Nat} {f : Port → Port} (h : P s) :
    P (s.updPort p f) :=
  hP.setPort h

theorem Stable.setPtState {s : State} {p v : Nat} (h : P s) :
    P (s.setPtState p v) :=
  hP.setRfld h

theorem Stable.setEgress {s : State} {p vn : Nat} {l : List Hop} (h : P s) :
    P (s.setEgress p vn l) :=
  hP.setVc h

theorem Stable.bumpPt {s : State} {p i k : Nat} (h : P s) :
    P (s.bumpPt p i k) :=
  hP.bump h

theorem Stable.bumpPstat {s : State} {e i k : Nat} (h : P s) :
    P (s.bumpPstat e i k) :=
  keep_ite (hP.aside h rfl) (hP.noteFull (hP.aside h rfl))

theorem Stable.countPartner {s : State} {e flits : Nat} (h : P s) :
    P (s.countPartner e flits) :=
  hP.bumpPstat (hP.bumpPstat h)

theorem Stable.sendStripe {s : State} {p : Nat} {bs : List Block} (h : P s) :
    P (s.sendStripe p bs) :=
  hP.updPort h

theorem Stable.sendControl {s : State} {p : Nat} {f : Nat → Word} (h : P s) :
    P (s.sendControl p f) :=
  hP.sendStripe h

theorem Stable.sendData {s : State} {p : Nat} {ws : List Word} (h : P s) :
    P (s.sendData p ws) :=
  hP.sendStripe (hP.updPort h)

theorem Stable.sendTs {s : State} {p type : Nat} (h : P s) :
    P (s.sendTs p type) :=
  hP.sendControl h

theorem Stable.beginTraining {s : State} {p st : Nat} (h : P s) :
    P (s.beginTraining p st) :=
  hP.sendTs (hP.updPort (hP.setPtState h))

theorem Stable.sendFrame {s : State} {p seq : Nat} {nak : Bool} {fs : List (BitVec 144)} (h : P s) :
    P (s.sendFrame p seq nak fs) := by
  unfold State.sendFrame
  exact keep_ite (hP.sendControl (hP.updPort (keep_foldl (fun _ _ h1 => hP.sendData h1) h))) (hP.updPort (keep_foldl (fun _ _ h1 => hP.sendData
      h1) h))

theorem Stable.sendAnew {s : State} {p : Nat} (h : P s) :
    P (s.sendAnew p) :=
  hP.updPort h

theorem Stable.sendIdle {s : State} {p : Nat} {nak : Bool} (h : P s) :
    P (s.sendIdle p nak) :=
  keep_ite (hP.sendFrame h) h

theorem Stable.onLink {p : Nat} {s : State} {f : State → State} (h : P s) (hf : ∀ (u : State), P u → P (f u)) :
    OnNext P (onLink p s f) :=
  hP.onPort h (fun _ h1 => hf _ (hP.sendAnew h1))

theorem Stable.atLink {s : State} {p : Nat} {f : State → State} (h : P s) (hf : ∀ (u : State), P u → P (f u)) :
    P (s.atLink p f) :=
  hf _ (hP.sendAnew h)

theorem Stable.showReplayQ {s : State} {p : Nat} (h : P s) :
    P (s.showReplayQ p) :=
  hP.setRfld h

theorem Stable.transmit {s : State} {p : Nat} {q : Packet} (h : P s) :
    OnSome P (s.transmit p q) :=
  keep_ite (onSome_some (keep_foldl (fun _ _ h1 => hP.sendFrame h1) (hP.countPartner (hP.showReplayQ (hP.bumpPt (hP.setPort h)))))) onSome_none

theorem Stable.portNotice {s : State} {p code : Nat} (h : P s) :
    P (s.portNotice p code) := by
  unfold State.portNotice
  refine keep_foldl (fun u v hu => ?_) h
  dsimp only
  split
  · next t ht =>
    have hsent : OnSome P (if u.ptState p = psOPEN then u.transmit p (portControl p v 0x0C (mkWide 0 (BitVec.ofNat 64 code))) else none) :=
      keep_ite (hP.transmit hu) onSome_none
    exact hsent t ht
  · exact hP.updPort hu

theorem Stable.sendDue {s : State} {p : Nat} (h : P s) :
    P (s.sendDue p) := by
  unfold State.sendDue
  refine keep_foldl ?_ (hP.updPort h)
  intro _ _ h1
  split
  · exact hP.transmit h1 _ ‹_›
  · exact hP.updPort h1

theorem Stable.noticeAll {s : State} {code : Nat} (h : P s) :
    P (s.noticeAll code) :=
  keep_foldl (fun _ _ h1 => keep_ite (hP.atLink h1 (fun _ h2 => hP.portNotice h2)) h1) h

theorem Stable.returnCredit {s : State} {p v k : Nat} (h : P s) :
    P (s.returnCredit p v k) :=
  hP.updPort h

theorem Stable.sayCredit {s : State} {p : Nat} {f : State → State} (h : P s) (hf : ∀ (u : State), P u → P (f u)) :
    P (s.sayCredit p f) :=
  keep_ite (hf _ h) (hP.sendIdle (hf _ h))

theorem Stable.openPort {s : State} {p : Nat} (h : P s) :
    P (s.openPort p) :=
  hP.sendDue (hP.sendIdle (hP.updPort (hP.setPtState h)))

theorem Stable.suspendPort {s : State} {p : Nat} (h : P s) :
    P (s.suspendPort p) :=
  hP.sendIdle (hP.setPtState h)

theorem Stable.resumePort {s : State} {p : Nat} (h : P s) :
    P (s.resumePort p) :=
  hP.sendDue (hP.sendIdle (hP.updPort (hP.setPtState h)))

/-! ### What the lock unit holds -/

theorem Stable.bumpLk {s : State} {i : Nat} (h : P s) :
    P (s.bumpLk i) :=
  hP.bump h

theorem Stable.sendBoost {s : State} {n : Nat} {w : Waiter} {level : Option Nat} (h : P s) :
    P (s.sendBoost n w level) :=
  keep_ite (keep_ite (hP.bumpLk (hP.unitSend h)) (hP.unitSend h)) h

/-! ### Cluster scratch -/

theorem Stable.setTest {s : State} {c : Nat} {x : ScTest} (h : P s) :
    P (s.setTest c x) :=
  hP.aside h rfl

theorem Stable.updTest {s : State} {c : Nat} {f : ScTest → ScTest} (h : P s) :
    P (s.updTest c f) :=
  hP.setTest h

theorem Stable.setRetained {s : State} {c b : Nat} {v : Bool} (h : P s) :
    P (s.setRetained c b v) :=
  hP.setReg h

theorem Stable.touchScratch {s : State} {c o : Nat} (h : P s) :
    P (s.touchScratch c o) :=
  keep_ite (hP.bump (keep_ite (hP.bump (keep_ite h (hP.setRetained h))) h)) (keep_ite (hP.bump (keep_ite h (hP.setRetained h))) h)

theorem Stable.noteCe {s : State} {c a : Nat} (h : P s) :
    P (s.noteCe c a) :=
  hP.updTest h

theorem Stable.countHeld {s : State} {c m : Nat} (h : P s) :
    P (s.countHeld c m) :=
  keep_ite (hP.setRfld h) (hP.noteFull (hP.setRfld h))

theorem Stable.serveBank {s : State} {c b m : Nat} (h : P s) :
    P (s.serveBank c b m) :=
  keep_foldl (fun _ _ h1 => hP.countHeld h1) (hP.aside h rfl)

theorem Stable.microTouch {s : State} {c o : Nat} (h : P s) :
    P (s.microTouch c o) :=
  hP.touchScratch (hP.serveBank h)

theorem Stable.microPut {s : State} {c a : Nat} {v : Word} (h : P s) :
    P (s.microPut c a v) :=
  hP.putWord (hP.microTouch h)

theorem Stable.tallyUe {s : State} (h : P s) :
    P s.tallyUe := by
  unfold State.tallyUe
  exact keep_ite (hP.logFree (hP.setRfld (keep_ite (hP.aside h rfl) h))) (hP.setRfld (keep_ite (hP.aside h rfl) h))

theorem Stable.microRead {s : State} {c a : Nat} (h : P s) :
    P (s.microRead c a).2 := by
  unfold State.microRead
  dsimp only
  split
  · dsimp only
    exact hP.microTouch h
  · dsimp only
    exact hP.log (hP.bump (hP.noteCe (hP.check nofun (hP.microTouch h))))
  · dsimp only
    exact hP.tallyUe (hP.bump (hP.microTouch h))
  · dsimp only
    exact hP.bump (hP.microTouch h)

theorem Stable.microReads {s : State} {c a k : Nat} (h : P s) :
    P (s.microReads c a k).2 := by
  induction k generalizing s a with
  | zero => exact h
  | succ k ih => exact ih (hP.microRead h)

theorem Stable.storeBounce {s : State} {c k : Nat} {tag : Word} {val : Wide} {dest epoch : Nat} (h : P s) :
    P (s.storeBounce c k tag val dest epoch) :=
  hP.microPut (hP.microPut (hP.microPut (hP.microPut h)))

/-! ### Kickstand entry -/

theorem Stable.setMc {s : State} {f : Mc → Mc} (h : P s) :
    P (s.setMc f) :=
  hP.aside h rfl

theorem Stable.setPw {s : State} {f : Pow → Pow} (h : P s) :
    P (s.setPw f) :=
  hP.aside h rfl

theorem Stable.respond {s : State} {q : McAsk} {st : Nat} {pl : List Byte} (h : P s) :
    P (s.respond q st pl) :=
  keep_ite h (hP.setMc h)

theorem Stable.showSession {s : State} (h : P s) :
    P s.showSession := by
  unfold State.showSession
  split <;> exact hP.setRfld (hP.setRfld h)

theorem Stable.endSession {s : State} (h : P s) :
    P s.endSession := by
  unfold State.endSession
  split
  · exact h
  · exact hP.showSession (hP.setMc (keep_ite (hP.driveLands (hP.setMc (keep_foldl (fun _ _ h1 => hP.updPe h1) h))) (keep_foldl (fun _ _ h1 =>
        hP.updPe h1) h)))

theorem Stable.sessionKick {s : State} (h : P s) :
    P s.sessionKick := by
  unfold State.sessionKick
  split
  · exact h
  · exact keep_ite (hP.endSession h) (hP.setMc h)

theorem Stable.heldPort {s : State} {p a b : Nat} (h : P s) :
    P (s.heldPort p a b) :=
  keep_ite (hP.updPort h) h

/-! ### The issue engine -/

theorem Stable.setAct {s : State} {n : Nat} {a : Option Act} (h : P s) :
    P (s.setAct n a) :=
  hP.updPe h

theorem Stable.setLacc {s : State} {n k : Nat} {l : Lacc} (h : P s) :
    P (s.setLacc n k l) :=
  hP.updPe h

theorem Stable.pushOut {s : State} {n : Nat} {m : Msg} (h : P s) :
    P (s.pushOut n m) :=
  keep_ite (hP.setPe h) (hP.pressureCheck (hP.bumpNi (hP.setPe h)))

theorem Stable.laccWords {s : State} {n k : Nat} (h : P s) :
    P (s.laccWords n k) :=
  keep_ite h (keep_ite (hP.logFree (hP.bumpPe (hP.setLacc h))) (keep_ite (hP.setLacc h) (hP.logFree (hP.bumpPe (hP.setLacc h)))))

theorem Stable.storeMicro {s : State} {addr k : Nat} (h : P s) :
    P (s.storeMicro addr k) := by
  induction k generalizing s addr with
  | zero => exact h
  | succ k ih => exact ih (hP.putWord (hP.draw h))

theorem Stable.clearKind {s : State} {n f : Nat} (h : P s) :
    P (s.clearKind n f) :=
  hP.putWord h

theorem Stable.freeFrame {s : State} {n f : Nat} (h : P s) :
    P (s.freeFrame n f) :=
  hP.updPe (hP.clearKind h)

theorem Stable.saveFrame {s : State} {n f : Nat} {preempt : Bool} {a : Act} {opa opb opc result : Word} {dst exc : Nat} (h : P s) :
    P (s.saveFrame n f preempt a opa opb opc result dst exc) := by
  unfold State.saveFrame
  exact hP.updPe (hP.storeMicro (hP.storeWords h))

theorem Stable.takeTrap {s : State} {n : Nat} {a : Act} {f : Flight} {dst : Nat} {opa opb opc result : Word} {exc : Nat} (h : P s) :
    P (s.takeTrap n a f dst opa opb opc result exc) := by
  unfold State.takeTrap
  dsimp only
  split
  · exact hP.deliver (hP.saveFrame (hP.setAct h))
  · exact hP.deliver (hP.setAct h)

theorem Stable.countSlots {s : State} {n from_ t : Nat} (h : P s) :
    P (s.countSlots n from_ t) := by
  unfold State.countSlots
  exact hP.updPe (hP.bumpPe (hP.bumpPe (hP.bumpPe h)))

/-! ### The fabric -/

theorem Stable.setEject {s : State} {e : Nat} {l : List Packet} (h : P s) :
    P (s.setEject e l) :=
  hP.aside h rfl

theorem Stable.pushEject {s : State} {e : Nat} {p : Packet} (h : P s) :
    P (s.pushEject e p) :=
  hP.setEject h

theorem Stable.oversize {s : State} {a ep : Nat} {detail : Word} (h : P s) :
    P (s.oversize a ep detail) :=
  keep_ite (hP.log (hP.withOversizeAt (hP.setRfld h))) (hP.setRfld h)

theorem Stable.countTx {s : State} {e : Nat} {p : Packet} (h : P s) :
    P (s.countTx e p) :=
  hP.updNi (hP.bumpNi (hP.bumpNi h))

theorem Stable.launch {s : State} {e : Nat} {p : Packet} {own : Bool} {out : Nat} (h : P s) :
    OnSome P (s.launch e p own out) :=
  keep_ite (keep_ite (onSome_some (hP.countTx (hP.pushEject h))) onSome_none) (keep_ite (keep_ite (onSome_some (hP.countTx (hP.pushVc h)))
      onSome_none) (keep_ite (onSome_some (hP.countTx (hP.pushVc h))) onSome_none))

theorem Stable.launchReq {s : State} {e : Nat} {p : Packet} {own : Bool} {out : Nat} (h : P s) :
    OnSome P (s.launchReq e p own out) :=
  keep_ite (onSome_some (hP.countTx (hP.pushReq h))) (hP.launch h)

theorem Stable.sendMsg {s : State} {e : Nat} {m : Msg} (h : P s) :
    OnSome P (s.sendMsg e m) := by
  unfold State.sendMsg
  refine keep_ite onSome_none (keep_ite (hP.tokenIn h) (keep_ite (onSome_some (hP.pushReq (hP.updNi h))) ?_))
  dsimp only
  split
  · exact onSome_none
  · refine keep_ite ?_ (hP.launch h)
    split
    · exact onSome_none
    · exact hP.launchReq (hP.updNi h)

theorem Stable.park {s : State} {e : Nat} {p : Packet} {tries : Nat} (h : P s) :
    OnSome P (s.park e p tries) :=
  keep_ite (onSome_some h) (keep_ite (keep_ite (onSome_some (hP.pressureCheck (keep_ite (hP.bumpNi (hP.updNi h)) (hP.updNi h)))) onSome_none)
      (onSome_some (hP.storeBounce (keep_ite (hP.bumpNi (hP.updNi h)) (hP.updNi h)))))

theorem Stable.sendPe {s : State} {wait : List Nat} {n : Nat} (h : P s) :
    OnSome P (s.sendPe wait n) := by
  unfold State.sendPe
  split
  · exact keep_ite onSome_none (hP.sendMsg (hP.setPe h))
  · exact onSome_none

theorem Stable.sendUnit {s : State} {e vn : Nat} (h : P s) :
    OnSome P (s.sendUnit e vn) :=
  onSome_or (onSome_bind (fun _ => keep_ite (hP.park (hP.updNi h)) (hP.sendMsg (hP.updNi h)))) (onSome_findSome (fun _ => keep_ite (hP.park
      (hP.updNi h)) (hP.sendMsg (hP.updNi h))))

theorem Stable.sendFormed {s : State} {e vn : Nat} (h : P s) :
    OnSome P (s.sendFormed e vn) := by
  unfold State.sendFormed
  split
  · exact hP.launch (hP.updNi h)
  · exact onSome_none

theorem Stable.resendSlot {s : State} {e k : Nat} {r : RSlot} (h : P s) :
    OnSome P (s.resendSlot e k r) := by
  unfold State.resendSlot
  split
  · exact onSome_none
  · exact onSome_map (fun _ h1 => hP.bumpNi h1) (hP.launchReq (hP.updNi h))

theorem Stable.resendWaiting {s : State} {e : Nat} (h : P s) :
    OnSome P (s.resendWaiting e) := by
  unfold State.resendWaiting
  refine onSome_findSome ?_
  intro _
  split
  · exact keep_ite (hP.resendSlot h) onSome_none
  · exact onSome_none

theorem Stable.replyToken {s : State} {e : Nat} {tag : Word} {val : Wide} {newctxr : Bool} (h : P s) :
    P (s.replyToken e tag val newctxr) := by
  unfold State.replyToken
  dsimp only
  split
  · exact ((keep_ite onSome_none (hP.sendMsg h) : OnSome P _) _ ‹_›)
  · exact keep_getD (hP.park h) (hP.unitSend h)

theorem Stable.endSlot {s : State} {e k : Nat} (h : P s) :
    P (s.endSlot e k) :=
  hP.updNi h

theorem Stable.answer {s : State} {e : Nat} {req : Packet} {status : Nat} {tok : Option (Word × Wide)} {newctxr : Bool} (h : P s) :
    P (s.answer e req status tok newctxr) := by
  unfold State.answer
  refine keep_ite ?_ (hP.unitSend h)
  split
  · exact hP.replyToken (hP.endSlot h)
  · exact hP.endSlot h

theorem Stable.refuse {s : State} {e : Nat} {req : Packet} {fc : FaultCode} {detail : Nat} (h : P s) :
    P (s.refuse e req fc detail) :=
  keep_ite (hP.unitSend h) (hP.deliverTo (hP.answer h))

theorem Stable.nack {s : State} {e : Nat} {req : Packet} {reason : Nat} (h : P s) :
    P (s.nack e req reason) :=
  hP.unitSend h

/-! ### Routers and links -/

theorem Stable.setLink {s : State} {r p : Nat} {l : Link} (h : P s) :
    P (s.setLink r p l) :=
  hP.aside h rfl

theorem Stable.setPortState {s : State} {r p v : Nat} (h : P s) :
    P (s.setPortState r p v) :=
  hP.setRfld h

theorem Stable.bothEnds {s : State} {r p : Nat} {f : State → Nat → Nat → State} (h : P s) (hf : ∀ (u : State) (x y : Nat), P u → P (f u x y)) :
    P (s.bothEnds r p f) :=
  keep_ite (hf _ _ _ (hf _ _ _ h)) (hf _ _ _ h)

theorem Stable.setLinkState {s : State} {r p v : Nat} (h : P s) :
    P (s.setLinkState r p v) :=
  hP.bothEnds h (fun _ _ _ h1 => hP.setLink (hP.setPortState h1))

theorem Stable.usedLink {s : State} {r p : Nat} (h : P s) :
    P (s.usedLink r p) :=
  hP.bothEnds h (fun _ _ _ h1 => hP.aside h1 rfl)

theorem Stable.touchLink {s : State} {r p k : Nat} (h : P s) :
    P (s.touchLink r p k) :=
  hP.bump (hP.usedLink h)

theorem Stable.routerSend {s : State} {r : Nat} {m : Msg} {bad : List Nat} (h : P s) :
    OnSome P (s.routerSend r m bad) := by
  unfold State.routerSend
  dsimp only
  exact keep_ite (keep_ite (onSome_some (hP.pushEject h)) onSome_none) (keep_ite (onSome_some (hP.pushVc h)) onSome_none)

theorem Stable.turnBack {s : State} {r : Nat} {p : Packet} {reason : Nat} (h : P s) :
    OnSome P (s.turnBack r p reason) := by
  unfold State.turnBack
  split
  · exact onSome_map (fun _ h1 => hP.bump h1) (hP.routerSend h)
  · exact keep_ite (onSome_some (hP.pushEject h)) onSome_none
  · exact keep_ite (onSome_some (hP.pushEject h)) onSome_none
  · exact onSome_map (fun _ h1 => hP.bump h1) (hP.routerSend h)

theorem Stable.popVc {s : State} {r i vn : Nat} (h : P s) :
    P (s.popVc r i vn) :=
  hP.setVc h

theorem Stable.arbitrate {s : State} {r o vn : Nat} {inputs : List Nat} {head : Nat → Nat → Hop → Option State} (h : P s) (hf : ∀ (u x : Nat) (y
    : Hop), OnSome P (head u x y)) :
    P (s.arbitrate r o vn inputs head) := by
  unfold State.arbitrate
  split
  · exact h
  · split
    · exact h
    · exact keep_ite (hP.withRr (hf _ _ _ _ ‹_›)) h

theorem Stable.hopHead {s : State} {r c vn i : Nat} {hop : Hop} (h : P s) :
    OnSome P (s.hopHead r c vn i hop) := by
  unfold State.hopHead
  extract_lets p q out go
  have hout : P out := hP.popVc h
  have hgo : P go := hP.bump hout
  refine keep_ite onSome_none (keep_ite (hP.turnBack hout) (keep_ite (keep_ite (onSome_some (hP.pushEject hgo)) onSome_none) ?_))
  refine keep_ite (hP.turnBack hout) (keep_ite onSome_none ?_)
  exact keep_ite onSome_none (onSome_some (hP.touchLink (hP.pushVc hgo)))

theorem Stable.hopRouter {s : State} {r c vn : Nat} (h : P s) :
    P (s.hopRouter r c vn) :=
  hP.arbitrate h (fun _ _ _ => hP.hopHead h)

theorem Stable.dieOffAnswer {s : State} {p : Packet} (h : P s) :
    P (s.dieOffAnswer p) := by
  unfold State.dieOffAnswer
  split
  · exact hP.logFree (hP.bump h)
  · exact hP.unitSend h
  · exact hP.unitSend h
  · exact hP.unitSend h
  · exact hP.unitSend h
  · exact hP.unitSend h
  · exact hP.unitSend h
  · exact hP.unitSend h
  · exact hP.unitSend h
  · exact h

theorem Stable.leaveIngress {s : State} {i : Nat} {p : Packet} (h : P s) :
    P (s.leaveIngress i p) :=
  keep_ite (hP.atLink h (fun _ h1 => hP.sayCredit h1 (fun _ h2 => hP.returnCredit h2))) h

theorem Stable.crossHead {s : State} {o vn i : Nat} {hop : Hop} (h : P s) :
    OnSome P (s.crossHead o vn i hop) := by
  unfold State.crossHead
  extract_lets src p go eject
  have hgo : P go := hP.leaveIngress (hP.popVc h)
  have heject : ∀ e, OnSome P (eject e) := fun e => keep_ite (onSome_some (hP.pushEject hgo)) onSome_none
  refine keep_ite onSome_none (keep_ite (keep_ite (onSome_some (hP.dieOffAnswer hgo)) (keep_ite ?_ ?_)) ?_)
  · split
    · exact hP.park hgo
    · exact heject _
    · exact heject _
    · exact keep_ite (hP.park hgo) (onSome_some (hP.unitSend hgo))
  · exact keep_ite onSome_none (onSome_some (hP.usedLink (hP.pushVc hgo)))
  · exact keep_ite (keep_ite (heject _) (keep_ite onSome_none (onSome_some (hP.pushVc hgo)))) (heject _)

theorem Stable.hopCross {s : State} {o vn : Nat} (h : P s) :
    P (s.hopCross o vn) :=
  hP.arbitrate h (fun _ _ _ => hP.crossHead h)

theorem Stable.clearIn {s : State} {r i vn : Nat} (h : P s) :
    P (s.clearIn r i vn) := by
  unfold State.clearIn
  split
  · exact hP.setEject h
  · exact hP.setVc h

theorem Stable.placeIn {s : State} {r i : Nat} {p : Packet} (h : P s) :
    P (s.placeIn r i p) := by
  unfold State.placeIn
  split
  · refine keep_ite (hP.aside h rfl) ?_
    split
    · exact hP.pushEject h
    · exact hP.pushVc h
  · split
    · exact hP.pushEject h
    · exact hP.pushVc h

theorem Stable.closeOpen {s : State} {r i : Nat} (h : P s) :
    P (s.closeOpen r i) := by
  unfold State.closeOpen
  refine keep_foldl ?_ h
  intro _ _ h1
  split
  · exact keep_ite (hP.aside h1 rfl) (hP.placeIn (hP.aside h1 rfl))
  · exact h1

theorem Stable.beginRetrain {s : State} {r p : Nat} (h : P s) :
    P (s.beginRetrain r p) :=
  hP.logFree (hP.setRfld (hP.bothEnds h (fun _ _ _ h1 => hP.setLink (hP.setPortState h1))))

theorem Stable.creditHandshake {s : State} {r i : Nat} (h : P s) :
    P (s.creditHandshake r i) := by
  unfold State.creditHandshake
  dsimp only
  refine keep_ite ?_ ?_
  · refine keep_ite ?_ (keep_foldl (fun _ _ h1 => hP.clearIn h1) h)
    refine hP.beginRetrain ?_
    refine keep_foldl ?_ (keep_foldl (fun _ _ h1 => hP.clearIn h1) h)
    intro _ _ h1
    split
    · exact hP.setRfld (hP.aside h1 rfl)
    · exact h1
  · refine keep_foldl ?_ (keep_foldl (fun _ _ h1 => hP.clearIn h1) h)
    intro _ _ h1
    split
    · exact hP.setRfld (hP.aside h1 rfl)
    · exact h1

theorem Stable.resync {s : State} {r i : Nat} (h : P s) :
    P (s.resync r i) :=
  hP.logFree (keep_ite (hP.bump (hP.closeOpen (hP.creditHandshake h))) (hP.closeOpen (hP.creditHandshake h)))

theorem Stable.takeFlit {s : State} {r i : Nat} {f : Flit} {bad : Bool} (h : P s) :
    P (s.takeFlit r i f bad) := by
  unfold State.takeFlit
  refine keep_ite h ?_
  split
  · exact keep_ite (hP.placeIn h) (keep_ite (hP.aside h rfl) (keep_ite (hP.resync h) h))
  · refine keep_ite (hP.resync h) ?_
    refine keep_ite (keep_ite (hP.aside h rfl) h) ?_
    refine keep_ite (hP.placeIn (hP.aside h rfl)) ?_
    split
    · refine keep_ite (hP.aside h rfl) ?_
      split
      · exact hP.oversize (hP.aside h rfl)
      · exact hP.aside h rfl
    · exact hP.aside h rfl

theorem Stable.duePort {s : State} {r p : Nat} (h : P s) :
    P (s.duePort r p) :=
  hP.bothEnds h (fun _ _ _ h1 => hP.setPortState h1)

theorem Stable.countWire {s : State} {r p b : Nat} (h : P s) :
    P (s.countWire r p b) := by
  unfold State.countWire
  dsimp only
  exact keep_ite h (keep_ite (hP.duePort (hP.setLink h)) (hP.setLink h))

theorem Stable.flitReceive {s : State} {r p : Nat} {flit : BitVec 144} (h : P s) :
    P (s.flitReceive r p flit) := by
  unfold State.flitReceive
  refine keep_ite h ?_
  extract_lets chan stat
  split
  extract_lets used corrected struck last logged
  have hused : P used := keep_ite (hP.usedLink h) h
  have hstat : ∀ a, P (stat used a) := fun _ => keep_ite (hP.bump hused) hused
  split
  · exact hP.takeFlit (keep_ite (hP.countWire (hstat _)) (hstat _))
  · exact hP.takeFlit hused
  · exact hP.takeFlit (keep_ite (hP.logFree (hP.withFlitUeAt (hstat _))) (hstat _))

theorem Stable.routesStale {s : State} (h : P s) :
    P s.routesStale :=
  hP.aside h rfl

theorem Stable.portDis {s : State} {r p : Nat} (h : P s) :
    P (s.portDis r p) :=
  keep_ite h (keep_ite (hP.routesStale (hP.setLinkState h)) (hP.cfgReject h))

theorem Stable.portEn {s : State} {r p : Nat} (h : P s) :
    P (s.portEn r p) :=
  keep_ite (keep_ite (hP.setLinkState h) (hP.routesStale (hP.setLinkState h))) h

theorem Stable.portRetrain {s : State} {r p : Nat} (h : P s) :
    P (s.portRetrain r p) :=
  keep_ite (hP.duePort h) h

theorem Stable.linkDown {s : State} {r p : Nat} (h : P s) :
    P (s.linkDown r p) := by
  unfold State.linkDown
  dsimp only
  exact hP.routesStale (hP.logFree (hP.closeOpen (hP.closeOpen (hP.setLinkState h))))

theorem Stable.replaceWires {s : State} {r p k : Nat} (h : P s) :
    P (s.replaceWires r p k) :=
  keep_ite h (keep_ite (keep_foldl (fun _ _ h1 => hP.logFree h1) (keep_ite (hP.setLink h) (hP.setRfld h))) (hP.linkDown h))

theorem Stable.eachEnd {s : State} {r p : Nat} {f : State → Nat → Nat → State} (h : P s) (hf : ∀ (u : State) (x y : Nat), P u → P (f u x y)) :
    P (s.eachEnd r p f) :=
  hf _ _ _ (hf _ _ _ h)

theorem Stable.tryRetrain {s : State} {r p : Nat} (h : P s) :
    P (s.tryRetrain r p) :=
  keep_ite h (keep_ite (hP.bothEnds h (fun _ _ _ h1 => hP.setLink h1)) (hP.eachEnd (hP.beginRetrain h) (fun _ _ _ h1 => hP.replaceWires
      (hP.setLink h1))))

theorem Stable.trained {s : State} {r p bad : Nat} (h : P s) :
    P (s.trained r p bad) := by
  unfold State.trained
  extract_lets u t
  have hu : P u := hP.replaceWires h
  have ht : P t := keep_ite hu (hP.replaceWires hu)
  exact keep_ite ht (keep_ite (hP.routesStale (hP.setLinkState ht)) (hP.setLinkState ht))

/-! ### Network interfaces and shifts -/

theorem Stable.takeReq {s : State} {e : Nat} {f : Packet → Bool} (h : P s) :
    OnSome (fun x => P x.2) (s.takeReq e f) := by
  unfold State.takeReq
  split
  · refine onSome_some ?_
    dsimp only
    exact hP.setReqs h
  · exact onSome_none

theorem Stable.countRewind {s : State} {e vn : Nat} (h : P s) :
    P (s.countRewind e vn) := by
  unfold State.countRewind
  split
  · exact hP.rewound h
  · exact h

theorem Stable.ejectBad {s : State} {e : Nat} {p : Packet} (h : P s) :
    P (s.ejectBad e p) := by
  unfold State.ejectBad
  extract_lets t clean lostToken
  have ht : P t := hP.bumpNi (hP.countRewind h)
  have hlost : P (lostToken t) := keep_ite (hP.bumpNi ht) (hP.log (hP.bumpNi ht))
  split
  iterate 2 exact keep_ite (hP.deliver ht) hlost
  iterate 9 exact keep_ite (hP.nack ht) ht
  · refine keep_ite ?_ ht
    split
    · exact hP.deliverTo (hP.endSlot ht)
    · exact ht
  iterate 4 exact ht

theorem Stable.ejectPacket {s : State} {e : Nat} {p : Packet} {mgt : State → Packet → State} (h : P s)
    (hf : ∀ (u : State) (x : Packet), P u → P (mgt u x)) :
    OnSome P (s.ejectPacket e p mgt) := by
  unfold State.ejectPacket
  extract_lets t mark u
  have ht : P t := hP.setEject h
  have hu : P u := keep_ite (hP.logFree (hP.bumpNi ht)) ht
  refine keep_ite onSome_none (keep_ite ?_ (keep_ite (onSome_some (hP.ejectBad ht)) (keep_ite (onSome_some (hP.log (hP.bumpNi ht))) ?_)))
  · refine onSome_some ?_
    split
    · exact hP.oversize ht
    · exact ht
  · split
    · exact keep_ite (onSome_some (hP.pushReq hu)) (hP.tokenIn hu)
    · exact onSome_some (hf _ _ hu)
    · exact onSome_some (keep_ite (hP.nack hu) (hP.pushReq hu))

theorem Stable.ejectOne {s : State} {e : Nat} {mgt : State → Packet → State} (h : P s) (hf : ∀ (u : State) (x : Packet), P u → P (mgt u x)) :
    P (s.ejectOne e mgt) :=
  keep_getD (onSome_findSome (fun _ => hP.ejectPacket h (fun _ _ h1 => hf _ _ h1))) h

theorem Stable.binTrip {s : State} {e : Nat} {r : RSlot} (h : P s) :
    P (s.binTrip e r) :=
  hP.bumpNi h

theorem Stable.respArrival {s : State} {e : Nat} (h : P s) :
    P (s.respArrival e) := by
  unfold State.respArrival
  split
  · exact h
  · split
    · exact hP.bumpNi (hP.takeReq h _ ‹_›)
    · split
      · exact hP.replyToken (hP.binTrip (hP.endSlot (hP.takeReq h _ ‹_›)))
      · exact hP.binTrip (hP.endSlot (hP.takeReq h _ ‹_›))

theorem Stable.retrySlot {s : State} {e k : Nat} {r : RSlot} (h : P s) :
    P (s.retrySlot e k r) :=
  keep_getD (keep_ite (hP.resendSlot h) onSome_none) (hP.updNi h)

theorem Stable.nackSlot {s : State} {e k reason : Nat} {r : RSlot} (h : P s) :
    P (s.nackSlot e k reason r) :=
  keep_ite (keep_ite (hP.deliverTo (hP.endSlot h)) (keep_ite (hP.retrySlot h) (hP.updNi h))) (keep_ite (hP.deliverTo (hP.endSlot h)) (keep_ite
      (hP.deliverTo (hP.endSlot h)) (keep_ite (hP.deliverTo (hP.endSlot h)) (keep_ite (hP.retrySlot h) (hP.deliverTo (hP.endSlot h))))))

theorem Stable.shiftRegs {s : State} (h : P s) :
    P s.shiftRegs :=
  hP.setRfld (hP.setRfld h)

theorem Stable.shiftDoneOf {s : State} {e : Nat} (h : P s) :
    P (s.shiftDoneOf e) :=
  keep_ite (keep_ite (hP.log (hP.shiftRegs (hP.aside h rfl))) (hP.shiftRegs (hP.aside h rfl))) h

theorem Stable.shiftProgress {s : State} {e : Nat} (h : P s) :
    P (s.shiftProgress e) :=
  keep_ite (keep_ite (hP.shiftDoneOf (hP.updNi h)) (hP.unitSend (hP.updNi h))) h

theorem Stable.drainDiscard {s : State} {e : Nat} (h : P s) :
    P (s.drainDiscard e) :=
  hP.updNi h

theorem Stable.forwardNack {s : State} {e : Nat} {p : Packet} (h : P s) :
    OnSome P (s.forwardNack e p) := by
  unfold State.forwardNack
  split
  · exact onSome_none
  · exact hP.launch h

theorem Stable.slotTimeout {s : State} {e k : Nat} (h : P s) :
    P (s.slotTimeout e k) := by
  unfold State.slotTimeout
  split
  · exact keep_ite (hP.deliverTo (hP.bumpNi (hP.endSlot h))) h
  · exact h

theorem Stable.onEndpoint {e : Nat} {s : State} {f : State → State} (h : P s) (hf : ∀ (u : State), P u → P (f u)) :
    OnNext P (onEndpoint e s f) :=
  hP.onUnit h (fun _ h1 => hf _ h1)

theorem Stable.markArrival {s : State} {e : Nat} (h : P s) :
    P (s.markArrival e) := by
  unfold State.markArrival
  split
  · exact h
  · exact hP.unitSend (hP.updNi (hP.takeReq h _ ‹_›))

theorem Stable.markAckArrival {s : State} {e : Nat} (h : P s) :
    P (s.markAckArrival e) := by
  unfold State.markAckArrival
  split
  · exact h
  · exact hP.shiftProgress (hP.updNi (hP.takeReq h _ ‹_›))

theorem Stable.markRetransmit {s : State} {e : Nat} (h : P s) :
    P (s.markRetransmit e) := by
  unfold State.markRetransmit
  extract_lets b out formed
  have hformed : P formed := hP.updNi h
  refine keep_ite (keep_foldl (fun _ _ h1 => hP.unitSend h1) hformed) (keep_ite (keep_foldl (fun u x hu => ?_) hformed) hformed)
  extract_lets boosted
  have hboosted : P boosted := by
    dsimp only [boosted]
    split
    · exact hP.unitSend hu
    · exact hu
  split
  · exact keep_ite (hP.unitSend hboosted) hboosted
  · exact hboosted

theorem Stable.shiftDoneArrival {s : State} (h : P s) :
    P s.shiftDoneArrival := by
  unfold State.shiftDoneArrival
  split
  · exact h
  · exact hP.shiftDoneOf (hP.takeReq h _ ‹_›)

theorem Stable.setGoal {s : State} {c g : Nat} (h : P s) :
    P (s.setGoal c g) :=
  hP.aside h rfl

theorem Stable.setClState {s : State} {c v : Nat} (h : P s) :
    P (s.setClState c v) :=
  hP.setRfld h

theorem Stable.setFreewheel {s : State} {c : Nat} (h : P s) :
    P (s.setFreewheel c) :=
  hP.setRfld (hP.setClState h)

theorem Stable.leaveFreewheel {s : State} {c : Nat} (h : P s) :
    P (s.leaveFreewheel c) :=
  hP.setRfld (hP.setClState h)

theorem Stable.accessWake {s : State} {c : Nat} (h : P s) :
    P (s.accessWake c) :=
  hP.setGoal (hP.setRfld (hP.leaveFreewheel h))

theorem Stable.loadShadow {s : State} {c : Nat} {off : Bool} {e : Nat} (h : P s) :
    P (s.loadShadow c off e) :=
  hP.setReg (keep_ite (keep_foldl (fun _ _ h1 => hP.setReg h1) h) (keep_foldl (fun _ _ h1 => hP.setReg (hP.setReg h1)) h))

theorem Stable.writeRoutes {s : State} {e : Nat} (h : P s) :
    P (s.writeRoutes e) :=
  keep_ite (keep_foldl (fun _ _ h1 => hP.setReg h1) (keep_foldl (fun _ _ h1 => hP.setReg h1) h)) (keep_foldl (fun _ _ h1 => hP.setReg (hP.setReg
      h1)) h)

theorem Stable.wakeDone {s : State} {c : Nat} (h : P s) :
    P (s.wakeDone c) :=
  hP.setGoal (keep_ite (hP.setFreewheel (keep_foldl (fun _ _ h1 => hP.unitSend h1) (hP.aside h rfl))) (hP.setClState (keep_foldl (fun _ _ h1 =>
      hP.unitSend h1) (hP.aside h rfl))))

/-! ### The lock unit -/

theorem Stable.lockViolation {s : State} {n : Nat} {w : Waiter} (h : P s) :
    P (s.lockViolation n w) :=
  hP.log (hP.bumpLk h)

theorem Stable.relAnswered {r : Bool × State} (h : P r.2) :
    P (relAnswered r) :=
  hP.aside h rfl

theorem Stable.onLock {n : Nat} {s : State} {f : State → State} (h : P s) (hf : ∀ (u : State), P u → P (f u)) :
    OnNext P (onLock n s f) :=
  hP.onUnit h (fun _ h1 => hf _ h1)

theorem Stable.passBoost {s : State} {e k : Nat} (h : P s) :
    P (s.passBoost e k) :=
  keep_foldl (fun _ _ h1 => hP.updPe h1) h

theorem Stable.boostArrival {s : State} {e : Nat} (h : P s) :
    P (s.boostArrival e) := by
  unfold State.boostArrival
  split
  · exact h
  · exact keep_ite (hP.passBoost (hP.updNi (hP.takeReq h _ ‹_›))) (keep_ite (hP.passBoost (hP.updNi (hP.takeReq h _ ‹_›))) (hP.logFree (hP.bumpNi
        (hP.takeReq h _ ‹_›))))

theorem Stable.boostEndArrival {s : State} {e : Nat} (h : P s) :
    P (s.boostEndArrival e) := by
  unfold State.boostEndArrival
  split
  · exact h
  · exact hP.passBoost (hP.updNi (hP.takeReq h _ ‹_›))

/-! ### Context managers -/

theorem Stable.takeSvc {s : State} {e sub : Nat} (h : P s) :
    OnSome (fun x => P x.2) (s.takeSvc e sub) :=
  hP.takeReq h

theorem Stable.refuseArgs {s : State} {e : Nat} {p : Packet} (h : P s) :
    P (s.refuseArgs e p) :=
  hP.refuse (hP.draw h)

theorem Stable.createCtx {s : State} {e : Nat} {p : Packet} {i : Nat} (h : P s) :
    P (s.createCtx e p i).2 := by
  unfold State.createCtx
  dsimp only
  exact hP.writeDesc (hP.setRfld (hP.setCtx h))

theorem Stable.cmNew {s0 : State} {e : Nat} (h : P s0) :
    P (s0.cmNew e) := by
  unfold State.cmNew
  split
  · exact h
  · next p u hreq =>
    have hu : P u := hP.takeSvc h _ hreq
    refine keep_ite (hP.refuseArgs hu) (keep_ite (hP.refuseArgs hu) (keep_ite (hP.answer hu) ?_))
    dsimp only
    split
    · exact hP.answer (hP.createCtx hu)
    · exact keep_ite h (hP.pressureCheck (hP.answer (hP.updCm hu)))

theorem Stable.spawnAdmit {s : State} {e : Nat} (h : P s) :
    P (s.spawnAdmit e) := by
  unfold State.spawnAdmit
  split
  · exact h
  · refine keep_ite (hP.pressureCheck (hP.unitSend (hP.updCm h))) ?_
    split
    · exact hP.pressureCheck (hP.unitSend (hP.createCtx (hP.updCm h)))
    · exact h

theorem Stable.cmFree {s : State} {e : Nat} (h : P s) :
    P (s.cmFree e) := by
  unfold State.cmFree
  split
  · exact h
  · split
    · exact hP.refuseArgs (hP.takeSvc h _ ‹_›)
    · exact keep_ite (hP.refuse (hP.takeSvc h _ ‹_›)) (keep_ite (hP.startKill (keep_ite (hP.log (hP.answer (hP.takeSvc h _ ‹_›))) (hP.answer
          (hP.takeSvc h _ ‹_›)))) (hP.answer (hP.takeSvc h _ ‹_›)))

theorem Stable.cmKill {s : State} {e : Nat} (h : P s) :
    P (s.cmKill e) := by
  unfold State.cmKill
  split
  · exact h
  · split
    · exact hP.refuseArgs (hP.takeSvc h _ ‹_›)
    · exact keep_ite (hP.refuse (hP.takeSvc h _ ‹_›)) (keep_ite (hP.startKill (hP.takeSvc h _ ‹_›)) (hP.answer (hP.takeSvc h _ ‹_›)))

theorem Stable.moveBase {s : State} {e k base : Nat} {rest : List Nat} (h : P s) :
    P (s.moveBase e k base rest) :=
  hP.pressureCheck (hP.gateRelease (keep_foldl (fun _ _ h1 => hP.updCm h1) (hP.updCtx h)))

theorem Stable.cmRetire {s : State} {e : Nat} (h : P s) :
    P (s.cmRetire e) := by
  unfold State.cmRetire
  split
  · exact h
  · have htaken := hP.takeSvc h _ ‹_›
    split
    · exact hP.refuseArgs htaken
    · have hdone := hP.answer (e := e) (req := ‹Packet›) (status := stDONE) (tok := none) (newctxr := false) htaken
      refine keep_ite hdone (keep_ite (keep_ite (hP.bumpCm hdone) (keep_ite (hP.updCtx hdone) (hP.moveBase hdone))) ?_)
      exact keep_ite (hP.bumpCm hdone) (keep_ite (hP.refuse (hP.draw htaken)) (hP.deliverTo (hP.answer (hP.draw htaken))))

theorem Stable.windowQuery {s : State} {g k : Nat} (h : P s) :
    P (s.windowQuery g k) :=
  keep_ite (hP.updCm (hP.updCtx h)) h

theorem Stable.cacheBase {s : State} {g k base : Nat} (h : P s) :
    P (s.cacheBase g k base) := by
  unfold State.cacheBase
  refine keep_ite (hP.updCm h) ?_
  dsimp only
  split
  · exact h
  · exact hP.updCm (hP.freeOf h)

theorem Stable.windowAnswer {s : State} {g k : Nat} (h : P s) :
    P (s.windowAnswer g k) := by
  unfold State.windowAnswer
  split
  · exact h
  · exact hP.pressureCheck (hP.gateRelease (hP.cacheBase (hP.updCm h)))

theorem Stable.windowAdvance {s : State} {g k : Nat} (h : P s) :
    P (s.windowAdvance g k) := by
  unfold State.windowAdvance
  split
  · exact h
  · exact keep_ite h (keep_ite (hP.pressureCheck (hP.gateRelease (hP.cacheBase (hP.updCm h)))) (hP.updCm h))

theorem Stable.noteDepth {s : State} {n : Nat} (h : P s) :
    P (s.noteDepth n) :=
  hP.setRfld h

theorem Stable.refillPe {s : State} {n : Nat} (h : P s) :
    P (s.refillPe n) :=
  hP.noteDepth (hP.updPe h)

theorem Stable.unbindLacc {s : State} {n i : Nat} (h : P s) :
    P (s.unbindLacc n i) :=
  hP.setLacc h

theorem Stable.voidDefers {s : State} {c k : Nat} (h : P s) :
    P (s.voidDefers c k) :=
  hP.aside h rfl

theorem Stable.forgetBase {s : State} {e k : Nat} (h : P s) :
    P (s.forgetBase e k) :=
  hP.updCm h

theorem Stable.purgeCm {s : State} {e k : Nat} (h : P s) :
    P (s.purgeCm e k) :=
  hP.updCm (hP.forgetBase h)

theorem Stable.updKill {s : State} {k : Nat} {f : Kill → Kill} (h : P s) :
    P (s.updKill k f) :=
  hP.updCm h

theorem Stable.purgeParked {s : State} {k : Nat} (h : P s) :
    P (s.purgeParked k) :=
  hP.aside h rfl

theorem Stable.beginDrain {s : State} {e : Nat} (h : P s) :
    P (s.beginDrain e) :=
  keep_ite h (hP.updCm h)

theorem Stable.killAck {s : State} {e : Nat} {u : UnitId} {k : Nat} (h : P s) :
    P (s.killAck e u k) := by
  unfold State.killAck
  refine keep_ite h ?_
  split
  · exact h
  · refine keep_ite h ?_
    refine keep_ite (hP.updKill h) ?_
    refine hP.beginDrain ?_
    split
    · exact hP.answer (hP.writeDesc (hP.updCtx (hP.setRfld (hP.updCm h))))
    · exact hP.writeDesc (hP.updCtx (hP.setRfld (hP.updCm h)))

theorem Stable.purgeSpill {s : State} {l : List Nat} (h : P s) :
    P (s.purgeSpill l) :=
  hP.pressureCheck (keep_foldl (fun _ _ h1 => hP.purgeParked h1) (hP.setReqs h))

theorem Stable.drainReq {s : State} {e src : Nat} {portDrain : State → Nat → List Nat → State} (h : P s) (hf : ∀ (u : State) (x : Nat) (y : List
    Nat), P u → P (portDrain u x y)) :
    P (s.drainReq e src portDrain) := by
  unfold State.drainReq
  split
  · exact h
  · exact keep_ite h (keep_foldl (fun _ _ h1 => hP.unitSend h1) (keep_ite (hf _ _ _ (hP.drainDiscard (hP.updNi (hP.updCm h)))) (keep_ite
        (hP.purgeSpill (hP.drainDiscard (hP.updNi (hP.updCm h)))) (hP.drainDiscard (hP.updNi (hP.updCm h))))))

theorem Stable.filterDrop {s : State} {n : Nat} {t : Token} (h : P s) :
    P (s.filterDrop n t) :=
  hP.orphanFree (hP.bumpPe h)

theorem Stable.filterInbox {s : State} {e : Nat} {l : List Nat} (h : P s) :
    P (s.filterInbox e l) :=
  keep_foldl (fun _ _ h1 => keep_foldl (fun _ _ h2 => hP.filterDrop h2) (hP.updPe h1)) h

theorem Stable.drainMark {s : State} {e : Nat} (h : P s) :
    P (s.drainMark e) := by
  unfold State.drainMark
  split
  · exact h
  · split
    · exact hP.takeReq h _ ‹_›
    · split
      · exact hP.takeReq h _ ‹_›
      · exact hP.updCm (hP.pressureCheck (hP.filterInbox (hP.takeReq h _ ‹_›)))

theorem Stable.unstage {s : State} {n : Nat} (h : P s) :
    P (s.unstage n) := by
  unfold State.unstage
  split
  · exact keep_ite (keep_ite (hP.updKill (hP.updPe h)) (hP.updPe h)) h
  · exact h

theorem Stable.drainDone {s : State} {e : Nat} (h : P s) :
    P (s.drainDone e) := by
  unfold State.drainDone
  split
  · exact h
  · extract_lets closed told unfiltered forgotten freed
    have htold : P told := keep_foldl (fun _ _ h1 => hP.updNi h1) (hP.updCm h)
    have hunfiltered : P unfiltered := keep_foldl (fun _ _ h1 => hP.unstage (hP.updPe h1)) htold
    have hforgotten : P forgotten := keep_foldl (fun _ _ h1 => keep_foldl (fun _ _ h2 => hP.forgetBase h2) h1) hunfiltered
    have hfreed : P freed := keep_foldl (fun _ _ h1 => hP.writeDesc (hP.setCtx h1)) hforgotten
    exact keep_ite h (hP.beginDrain hfreed)

theorem Stable.redrain {s : State} {e : Nat} (h : P s) :
    P (s.redrain e) :=
  keep_foldl (fun _ _ h1 => keep_ite (keep_foldl (fun _ _ h2 => hP.unitSend h2) (hP.drainDiscard h1)) h1) h

theorem Stable.snapshot {s : State} {c k : Nat} (h : P s) :
    P (s.snapshot c k).2 := by
  unfold State.snapshot
  dsimp only
  exact hP.updCm (hP.storeWords h)

theorem Stable.examine {s : State} {e k : Nat} (h : P s) :
    P (s.examine e k) := by
  unfold State.examine
  refine keep_ite h ?_
  refine keep_ite ?_ (hP.noteSat (hP.setCtx h))
  refine hP.deliverTo ?_
  split
  · exact hP.snapshot (hP.noteSat (hP.setCtx h))
  · dsimp only
    exact hP.noteSat (hP.setCtx h)

theorem Stable.stallExam {s : State} {e : Nat} (h : P s) :
    P (s.stallExam e) :=
  keep_foldl (fun _ _ h1 => hP.examine h1) h

theorem Stable.counterWriteback {s : State} {e : Nat} (h : P s) :
    P (s.counterWriteback e) :=
  keep_foldl (fun _ _ h1 => hP.writeDesc h1) h

theorem Stable.victim {s : State} (h : P s) :
    P s.victim := by
  unfold State.victim
  extract_lets policy cands best r
  refine keep_ite h ?_
  split
  · exact h
  · next k _ =>
    extract_lets u o
    have hu : P u := hP.startKill (hP.log (hP.freeOf h))
    exact keep_ite (hP.deliverTo hu) hu

theorem Stable.ctxqSel {s : State} {c v : Nat} (h : P s) :
    P (s.ctxqSel c v) :=
  keep_ite (hP.setRfld (hP.setRfld (hP.setRfld (hP.setReg h)))) (hP.setReg h)

theorem Stable.onOwner {e : Nat} {s : State} {f : State → State} (h : P s) (hf : ∀ (u : State), P u → P (f u)) :
    OnNext P (onOwner e s f) :=
  keep_ite (hP.onModule h (fun _ h1 => hf _ h1)) onNext_refused

theorem Stable.graphStopDone {s : State} (h : P s) :
    P s.graphStopDone := by
  unfold State.graphStopDone
  split
  · exact h
  · exact keep_ite (hP.logFree (hP.respond (hP.setMc (keep_foldl (fun _ _ h1 => hP.setRfld h1) h)))) h

/-! ### Etryn-X ports -/

theorem Stable.toPartner {s : State} {p : Nat} {q : Packet} (h : P s) :
    P (s.toPartner p q) :=
  hP.pushVc h

theorem Stable.tokenRefused {s : State} {p v reason : Nat} {q : Packet} (h : P s) :
    P (s.tokenRefused p v reason q) :=
  keep_ite (hP.bumpPt h) (hP.toPartner (hP.updPort h))

theorem Stable.portAnswer {s : State} {p : Nat} {q : Packet} {m : Msg} (h : P s) :
    P (s.portAnswer p q m) :=
  hP.toPartner h

theorem Stable.portRefuse {s : State} {p : Nat} {q : Packet} {reason : Nat} (h : P s) :
    P (s.portRefuse p q reason) := by
  unfold State.portRefuse
  extract_lets t
  have ht : P t := keep_ite (hP.bumpPt (hP.rewound h)) (hP.bumpPt h)
  refine keep_ite ht ?_
  split
  · exact hP.tokenRefused ht
  iterate 9 exact keep_ite ht (keep_ite (hP.portAnswer ht) (hP.portAnswer ht))
  exact ht

theorem Stable.passIn {s : State} {p : Nat} {q : Packet} {windowed : Bool} (h : P s) :
    P (s.passIn p q windowed) :=
  hP.pushVc h

theorem Stable.setWindow {s : State} {p v : Nat} {w : Window} (h : P s) :
    P (s.setWindow p v w) :=
  hP.updPort h

theorem Stable.passNumber {s : State} {p v n : Nat} {q : Packet} {windowed : Bool} (h : P s) :
    P (s.passNumber p v n q windowed) :=
  keep_ite (hP.setWindow h) (hP.passIn (hP.setWindow h))

theorem Stable.passFuel {s : State} {p v k : Nat} (h : P s) :
    P (s.passFuel p v k) := by
  induction k generalizing s with
  | zero => exact h
  | succ k ih =>
    unfold State.passFuel
    dsimp only
    split
    · exact h
    · exact ih (hP.passNumber (hP.setWindow h))

theorem Stable.passHeld {s : State} {p v : Nat} (h : P s) :
    P (s.passHeld p v) :=
  hP.passFuel h

theorem Stable.skipGap {s : State} {p v : Nat} (h : P s) :
    P (s.skipGap p v) := by
  unfold State.skipGap
  dsimp only
  split
  · exact h
  · split
    · exact h
    · exact hP.passHeld (hP.setWindow (hP.log (hP.bumpPt h)))

theorem Stable.flushWindow {s : State} {p v k : Nat} (h : P s) :
    P (s.flushWindow p v k) := by
  induction k generalizing s with
  | zero => exact h
  | succ k ih => exact keep_ite h (ih (hP.skipGap (hP.passHeld h)))

theorem Stable.flushWindows {s : State} {p : Nat} (h : P s) :
    P (s.flushWindows p) :=
  keep_foldl (fun _ _ h1 => hP.flushWindow h1) h

theorem Stable.reorderArrival {s : State} {p v : Nat} {q : Packet} (h : P s) :
    P (s.reorderArrival p v q) := by
  unfold State.reorderArrival
  extract_lets n w e back sent held
  have hback : P (back s) := hP.returnCredit h
  have hheld : P held := hP.setWindow hback
  have hrefused : ∀ i r, P (((back s).bumpPt p i).tokenRefused p v r sent) := fun _ _ => hP.tokenRefused (hP.bumpPt hback)
  refine keep_ite (hP.passHeld (hP.passNumber h)) (keep_ite ?_ (keep_ite (hrefused 14 7) (hrefused 13 6)))
  exact keep_ite (hrefused 14 7) (keep_ite (hP.skipGap hheld) hheld)

theorem Stable.voidHeld {s : State} {p : Nat} {f : Nat → Bool} (h : P s) :
    P (s.voidHeld p f) :=
  keep_foldl (fun _ _ h1 => hP.passHeld (hP.setWindow h1)) h

theorem Stable.mapApply {s : State} {p v : Nat} {w0 w1 : Word} (h : P s) :
    P (s.mapApply p v w0 w1) := by
  unfold State.mapApply
  exact hP.updPort (keep_ite (hP.setWindow (hP.flushWindow h)) h)

theorem Stable.mapSettle {s : State} {p : Nat} (h : P s) :
    P (s.mapSettle p) :=
  keep_foldl (fun _ _ h1 => hP.mapApply (hP.updPort h1)) h

theorem Stable.noteLatency {s : State} {p : Nat} {q : Packet} (h : P s) :
    P (s.noteLatency p q) := by
  unfold State.noteLatency
  split
  · exact h
  · exact keep_ite (hP.withPstat (hP.bumpPstat (hP.bumpPstat (hP.updPort h)))) (hP.bumpPstat (hP.bumpPstat (hP.updPort h)))

theorem Stable.partnerIngress {s : State} {p : Nat} {q : Packet} {len flits : Nat} {stamp : Word} (h : P s) :
    P (s.partnerIngress p q len flits stamp) := by
  unfold State.partnerIngress
  refine hP.mapSettle ?_
  split
  · exact hP.portRefuse (hP.returnCredit h)
  · exact keep_ite (hP.reorderArrival (hP.noteLatency (hP.bumpPstat (hP.bumpPstat h)))) (hP.passIn (hP.noteLatency (hP.bumpPstat (hP.bumpPstat
        h))))

theorem Stable.setOpen {s : State} {p v : Nat} {o : Option RxPkt} (h : P s) :
    P (s.setOpen p v o) :=
  hP.updPort h

theorem Stable.setSkip {s : State} {p v : Nat} {b : Bool} (h : P s) :
    P (s.setSkip p v b) :=
  hP.updPort h

theorem Stable.closeRx {s : State} {p v : Nat} (h : P s) :
    P (s.closeRx p v) := by
  unfold State.closeRx
  split
  · exact h
  · exact hP.partnerIngress (hP.setOpen h)

theorem Stable.closeAllRx {s : State} {p : Nat} (h : P s) :
    P (s.closeAllRx p) :=
  keep_foldl (fun _ _ h1 => hP.closeRx h1) h

theorem Stable.takeRx {s : State} {p : Nat} {f : Flit} {bad : Bool} {stamp : Word} (h : P s) :
    P (s.takeRx p f bad stamp) := by
  unfold State.takeRx
  dsimp only
  split
  · exact keep_ite (hP.partnerIngress (hP.setSkip h)) (keep_ite (hP.setOpen (hP.setSkip h)) (keep_ite (hP.logFree (hP.returnCredit (hP.closeAllRx
        h))) (hP.returnCredit h)))
  · exact keep_ite (hP.logFree (hP.returnCredit (hP.closeAllRx h))) (keep_ite (hP.partnerIngress (hP.setOpen h)) (keep_ite (hP.oversize
        (hP.returnCredit (hP.setSkip (hP.setOpen h)))) (hP.setOpen h)))

theorem Stable.resendHeld {s : State} {p : Nat} (h : P s) :
    P (s.resendHeld p) :=
  keep_foldl (fun _ _ h1 => hP.sendFrame h1) h

theorem Stable.enterRecovery {s : State} {p cause : Nat} (h : P s) :
    P (s.enterRecovery p cause) :=
  keep_ite (hP.log (hP.beginTraining (hP.setRfld (hP.setRfld (hP.updPort h))))) h

theorem Stable.replay {s : State} {p : Nat} (h : P s) :
    P (s.replay p) :=
  keep_ite h (keep_ite (hP.enterRecovery (hP.resendHeld (hP.bumpPt (hP.setPort h)))) (hP.resendHeld (hP.bumpPt (hP.setPort h))))

theorem Stable.ackFrames {s : State} {p ack : Nat} (h : P s) :
    P (s.ackFrames p ack) :=
  keep_ite (hP.showReplayQ (hP.setPort h)) h

theorem Stable.takeCredit {s : State} {p v cr : Nat} (h : P s) :
    P (s.takeCredit p v cr) :=
  keep_ite (keep_ite (hP.setEgress (hP.bumpPt (hP.setPort h))) (hP.setPort h)) h

theorem Stable.sendNak {s : State} {p : Nat} (h : P s) :
    P (s.sendNak p) :=
  keep_ite h (hP.sendIdle (hP.bumpPt (hP.updPort h)))

theorem Stable.nocredDrop {s : State} {p : Nat} {fs : List Flit} (h : P s) :
    P (s.nocredDrop p fs) :=
  keep_foldl (fun _ _ h1 => keep_ite h1 (hP.setSkip (hP.closeRx (hP.updPort h1)))) (hP.updPort h)

theorem Stable.acceptSeq {s : State} {p : Nat} (h : P s) :
    P (s.acceptSeq p) :=
  hP.updPort h

theorem Stable.acceptFrame {s : State} {p : Nat} {fs : List Flit} {malformed : Bool} (h : P s) :
    P (s.acceptFrame p fs malformed) := by
  unfold State.acceptFrame
  refine keep_ite (hP.sendIdle (hP.nocredDrop (hP.acceptSeq h))) ?_
  refine keep_ite (hP.sendIdle (hP.nocredDrop (hP.bumpPt (hP.acceptSeq h)))) ?_
  refine hP.sendIdle ?_
  refine keep_foldl ?_ (hP.updPort (hP.bumpPt (hP.acceptSeq h)))
  intro _ _ h1
  split <;> exact hP.takeRx h1

theorem Stable.frameReceive {s : State} {p : Nat} {f : BitVec 1280} (h : P s) :
    P (s.frameReceive p f) := by
  unfold State.frameReceive
  extract_lets t fv fs seq expected malformed bumped credited told acked sent
  have hbumped : P bumped := hP.bumpPt h
  have htold : P told := hP.updPort (keep_foldl (fun _ _ h1 => hP.takeCredit h1) h)
  have hacked : P acked := keep_ite (hP.ackFrames htold) htold
  have hsent : P sent := keep_ite (hP.replay hacked) hacked
  refine keep_ite h (keep_ite (hP.sendNak (hP.bumpPt h)) (keep_ite (keep_ite (hP.acceptFrame hbumped) hbumped) ?_))
  exact keep_ite hsent (keep_ite (hP.acceptFrame hsent) (keep_ite (hP.sendNak hsent) (hP.sendIdle hsent)))

theorem Stable.rxPass {s : State} {p : Nat} {stripes : List (List Block)} (h : P s) :
    P (s.rxPass p stripes) := by
  unfold State.rxPass
  exact hP.updPort h

theorem Stable.egressClosed {s : State} {p : Nat} {q : Packet} (h : P s) :
    P (s.egressClosed p q) :=
  keep_ite (hP.unitSend h) (keep_ite h (hP.bumpPt h))

theorem Stable.portClosed {s : State} {p : Nat} (h : P s) :
    P (s.portClosed p) := by
  unfold State.portClosed
  exact hP.sendFrame (hP.showReplayQ (hP.setPtState (hP.updPort (hP.sendControl (hP.sendTs (keep_foldl (fun _ _ h1 => hP.setVc h1) h))))))

theorem Stable.portOpens {s : State} {p : Nat} (h : P s) :
    P (s.portOpens p) :=
  keep_ite (keep_ite (hP.suspendPort (hP.updPort (hP.updPort (hP.flushWindows h)))) (hP.openPort (hP.updPort (hP.flushWindows h)))) h

theorem Stable.sendDueIf {s : State} {p : Nat} (h : P s) :
    P (s.sendDueIf p) :=
  keep_ite (hP.sendDue h) h

theorem Stable.resumeFrames {s : State} {p : Nat} (h : P s) :
    P (s.resumeFrames p) :=
  keep_ite (hP.sendIdle h) (hP.resendHeld h)

theorem Stable.recoveryDone {s : State} {p : Nat} {recov : Bool} {next : Nat} (h : P s) :
    P (s.recoveryDone p recov next) :=
  keep_ite h (keep_ite (hP.sendDueIf (hP.resumeFrames (hP.bumpPt (hP.updPort (hP.ackFrames (hP.setPtState (hP.sendControl (hP.sendTs h))))))))
      (hP.portClosed (hP.closeAllRx h)))

theorem Stable.tsReceive {s : State} {p : Nat} {bs : List Block} (h : P s) :
    P (s.tsReceive p bs) := by
  unfold State.tsReceive
  extract_lets a old x polar fixed bad counted order asked y z sent
  have hpolar : P polar := hP.setRfld h
  have hcounted : P counted := keep_ite hpolar (hP.bumpPt hpolar)
  have horder : P order := keep_ite (hP.setRfld hcounted) hcounted
  have hasked : P asked := keep_ite (hP.setRfld horder) horder
  have hsent : P sent := hP.sendTs (hP.updPort hasked)
  exact keep_ite (hP.sendTs (hP.updPort h)) (keep_ite hsent (keep_ite (hP.portClosed hsent) (hP.recoveryDone hsent)))

theorem Stable.trainRun {s : State} {p : Nat} {l : List (List Block)} (h : P s) :
    P (s.trainRun p l).1 := by
  induction l generalizing s with
  | nil => exact h
  | cons bs r ih =>
    unfold State.trainRun
    split
    · exact ih (hP.tsReceive (hP.rxPass h))
    · exact h

theorem Stable.blocksReceive {s : State} {p : Nat} {stripes : List (List Block)} (h : P s) :
    P (s.blocksReceive p stripes) := by
  unfold State.blocksReceive
  refine keep_ite h ?_
  split
  · exact hP.frameReceive (hP.updPort h)
  · exact hP.sendNak (hP.bumpPt (hP.rxPass h))

theorem Stable.lanesReceive {s : State} {p : Nat} {stripes : List (List Block)} (h : P s) :
    P (s.lanesReceive p stripes) :=
  hP.sendDueIf (hP.blocksReceive (hP.trainRun h))

theorem Stable.mapCommit {s : State} {p : Nat} {w : Word} (h : P s) :
    P (s.mapCommit p w) :=
  keep_ite (hP.cfgReject h) (keep_ite h (hP.mapSettle (hP.updPort h)))

theorem Stable.noteAsked {s : State} {p : Nat} {q : Packet} (h : P s) :
    P (s.noteAsked p q) :=
  keep_ite (hP.updPort h) h

theorem Stable.egress {s : State} {p vn : Nat} (h : P s) :
    P (s.egress p vn) := by
  unfold State.egress
  refine keep_ite h ?_
  split
  · exact h
  · refine keep_ite (hP.setEgress h) ?_
    refine keep_ite ?_ (hP.egressClosed (hP.setEgress h))
    refine keep_ite (hP.bumpPt (hP.setEgress h)) ?_
    split
    · exact keep_ite (hP.noteAsked (hP.transmit (hP.setEgress h) _ ‹_›)) (hP.transmit (hP.setEgress h) _ ‹_›)
    · exact h

theorem Stable.egressTimeout {s : State} {p vn : Nat} (h : P s) :
    P (s.egressTimeout p vn) := by
  unfold State.egressTimeout
  refine keep_ite h ?_
  split
  · exact h
  · exact keep_ite (hP.log (hP.updPort (hP.bumpPt (hP.setEgress h)))) h

theorem Stable.openTimeout {s : State} {p vn : Nat} (h : P s) :
    P (s.openTimeout p vn) :=
  keep_ite (hP.sayCredit h (fun _ h1 => hP.setSkip (hP.bumpPt (hP.closeRx h1)))) h

theorem Stable.partnerInfo {s : State} (h : P s) :
    P s.partnerInfo := by
  unfold State.partnerInfo
  split
  · exact h
  · exact hP.log (hP.setReg (hP.takeReq h _ ‹_›))

theorem Stable.eventRequest {s : State} (h : P s) :
    P s.eventRequest := by
  unfold State.eventRequest
  split
  · exact h
  · exact keep_ite (hP.refuseArgs (hP.takeSvc h _ ‹_›)) (hP.answer (hP.log (hP.takeSvc h _ ‹_›)))

/-! ### Image copies in flash -/

theorem Stable.logInvalid {s : State} {t : Nat} (h : P s) :
    P (s.logInvalid t) :=
  keep_foldl (fun _ _ h1 => keep_ite h1 (hP.log h1)) h

theorem Stable.takeCopy {s : State} {t : Nat} (h : P s) :
    P (s.takeCopy t) :=
  hP.withMc (hP.logInvalid h)

/-! ### Local store -/

theorem Stable.lsView {s : State} {a : Act} (h : P s) :
    P (s.lsView a) := by
  unfold State.lsView
  refine keep_foldl ?_ h
  intro _ _ h1
  split
  · exact hP.check mergedEcc_ne_ue (hP.store h1)
  · exact keep_foldl (fun _ _ h2 => hP.check nofun (hP.store h2)) h1
  · exact h1

/-! ### Matching and dispatch -/

theorem Stable.enqueue {s : State} {n : Nat} {r : ReadyE} (h : P s) :
    P (s.enqueue n r) :=
  keep_ite (hP.noteDepth (hP.setPe (keep_ite h (hP.pressureCheck (hP.refillPe h))))) (hP.pressureCheck (hP.bumpPe (hP.setPe (keep_ite h
      (hP.pressureCheck (hP.refillPe h))))))

theorem Stable.poisonedAct {s : State} {n : Nat} {toks : List (Nat × Token)} (h : P s) :
    P (s.poisonedAct n toks) := by
  unfold State.poisonedAct
  dsimp only
  split
  · exact hP.deliver (hP.freeOf h)
  · exact h

theorem Stable.enable {s : State} {n : Nat} {toks : List (Nat × Token)} {key : Word} {src : RSrc} (h : P s) :
    P (s.enable n toks key src) :=
  hP.enqueue (hP.bumpPe (hP.noteSat (hP.updCtx h)))

theorem Stable.setRecs {s : State} {n : Nat} {l : List MRec} (h : P s) :
    P (s.setRecs n l) :=
  hP.updPe h

theorem Stable.touchOvf {s : State} {n : Nat} {key : Word} {l : Level} (h : P s) :
    P (s.touchOvf n key l) :=
  keep_ite (hP.microTouch h) h

theorem Stable.complete {s : State} {n : Nat} {r : MRec} (h : P s) :
    P (s.complete n r) :=
  keep_ite (hP.poisonedAct (hP.setRecs h)) (hP.enable (hP.updPe h))

theorem Stable.badToken {s : State} {n : Nat} {t : Token} {fc : FaultCode} (h : P s) :
    P (s.badToken n t fc) :=
  hP.deliver (hP.bumpPe h)

theorem Stable.mergeTok {s : State} {n : Nat} {r : MRec} {t : Token} (h : P s) :
    OnSome P (s.mergeTok n r t) := by
  unfold State.mergeTok
  refine keep_ite (onSome_some (hP.badToken h)) ?_
  refine keep_ite (onSome_some (keep_ite (hP.complete (hP.setRecs (hP.touchOvf h))) (hP.setRecs (hP.touchOvf h)))) ?_
  split
  · exact onSome_some (hP.bumpPe (keep_ite (hP.complete (hP.setRecs (hP.touchOvf h))) (hP.setRecs (hP.touchOvf h))))
  · exact onSome_none

theorem Stable.newRec {s : State} {n : Nat} {t : Token} {arity set : Nat} (h : P s) :
    OnSome P (s.newRec n t arity set) := by
  unfold State.newRec
  refine keep_ite (onSome_some (hP.updPe h)) ?_
  split
  · exact onSome_some (hP.bumpPe (hP.updPe (hP.touchOvf h)))
  · exact onSome_none

theorem Stable.voidRec {s : State} {n : Nat} {r : MRec} (h : P s) :
    P (s.voidRec n r) :=
  hP.log (hP.updPe h)

theorem Stable.voidBad {s : State} {n set : Nat} {levels : List Level} (h : P s) :
    P (s.voidBad n set levels) :=
  keep_foldl (fun _ _ h1 => hP.voidRec h1) h

theorem Stable.placeTok {s : State} {n : Nat} {t : Token} {arity : Nat} {searched : Bool} (h : P s) :
    OnSome P (s.placeTok n t arity searched) := by
  unfold State.placeTok
  extract_lets set voided key u found ask w toDeep
  have hu : P u := keep_ite (hP.touchOvf (hP.voidBad h)) (hP.voidBad h)
  have hask : OnSome P ask := onSome_some (hP.unitSend (hP.updPe hu))
  split
  · exact hP.mergeTok hu
  · refine keep_ite ?_ (keep_ite hask (keep_ite hask (hP.newRec hu)))
    split
    · exact hP.mergeTok hu
    · exact hP.newRec hu

theorem Stable.tick {s : State} {n : Nat} (h : P s) :
    P (s.tick n) :=
  hP.updPe (hP.bumpPe (hP.bumpPe h))

theorem Stable.fitOr {s : State} {n : Nat} {t : Option State} (h : P s) (ht : OnSome P t) :
    P (s.fitOr n t) := by
  cases t with
  | none => exact h
  | some u => exact keep_ite (hP.pressureCheck (ht u rfl)) h

theorem Stable.spillEngine {s : State} (h : P s) :
    P s.spillEngine := by
  unfold State.spillEngine
  split
  · exact h
  · exact hP.pressureCheck (hP.unitSend (hP.takeReq h _ ‹_›))

theorem Stable.fillComplete {s : State} {n : Nat} (h : P s) :
    P (s.fillComplete n) := by
  unfold State.fillComplete
  dsimp only
  split
  · exact keep_ite (hP.voidRec h) (hP.pressureCheck (hP.bumpPe (hP.setRecs (hP.touchOvf h))))
  · exact h

theorem Stable.shadowCopy {s : State} {n : Nat} (h : P s) :
    P (s.shadowCopy n) := by
  unfold State.shadowCopy
  split
  · exact hP.updPe h
  · exact h

theorem Stable.countDispatch {s : State} {n wait : Nat} (h : P s) :
    P (s.countDispatch n wait) :=
  hP.bumpPe (hP.bumpPe h)

theorem Stable.readLacc {s : State} {n k upset : Nat} (h : P s) :
    P (s.readLacc n k upset) :=
  keep_ite (hP.laccWords (hP.setLacc h)) (hP.logFree (hP.bumpPe (hP.setLacc (hP.laccWords (hP.setLacc h)))))

theorem Stable.resume {s0 : State} {e : Nat} (h : P s0) :
    P (s0.resume e) := by
  unfold State.resume
  split
  · exact h
  · refine keep_ite (hP.refuseArgs (hP.takeSvc h _ ‹_›)) ?_
    refine keep_ite (hP.refuse (hP.takeSvc h _ ‹_›)) ?_
    split
    · exact hP.refuse (hP.takeSvc h _ ‹_›)
    · exact keep_ite (hP.refuse (hP.takeSvc h _ ‹_›)) (keep_ite (hP.freeFrame (hP.answer (hP.takeSvc h _ ‹_›))) (keep_ite (hP.enqueue
          (hP.clearKind (hP.updPe (hP.answer (hP.takeSvc h _ ‹_›))))) h))

/-! ### Microwords -/

theorem Stable.updUseq {s : State} {n : Nat} {f : Useq → Useq} (h : P s) :
    P (s.updUseq n f) :=
  hP.updPe h

theorem Stable.setMpc {s : State} {n a : Nat} (h : P s) :
    P (s.setMpc n a) :=
  hP.updUseq h

/-! ### Memory targets -/

theorem Stable.dropReq {s : State} {e : Nat} {p : Packet} (h : P s) :
    P (s.dropReq e p) :=
  hP.setReqs h

theorem Stable.takeMem {s : State} {e : Nat} {f : Packet → Bool} (h : P s) :
    OnSome (fun x => P x.2) (s.takeMem e f) := by
  unfold State.takeMem
  refine onSome_mapOf ?_
  intro _
  dsimp only
  exact hP.dropReq h

theorem Stable.noteBank {s : State} {e : Nat} {p : Packet} (h : P s) :
    P (s.noteBank e p) :=
  keep_ite h (hP.serveBank h)

theorem Stable.errAddr {s : State} {a : Nat} {ue : Bool} (h : P s) :
    P (s.errAddr a ue) :=
  hP.setReg h

theorem Stable.refuseTarget {s : State} {e : Nat} {p : Packet} {fc : FaultCode} (h : P s) :
    P (s.refuseTarget e p fc) :=
  hP.refuse (keep_ite (hP.bump h) h)

theorem Stable.touchMem {s : State} {a : Nat} {write : Bool} (h : P s) :
    P (s.touchMem a write) :=
  hP.bump (hP.bump (hP.draw h))

theorem Stable.atTarget {s : State} {e : Nat} {p : Packet} {write : Bool} (h : P s) :
    P (s.atTarget e p write) :=
  keep_ite (hP.touchScratch (hP.noteBank h)) (keep_ite (hP.touchMem h) h)

theorem Stable.answerValue {s : State} {e : Nat} {p : Packet} {v : Wide} {poison : Bool} (h : P s) :
    P (s.answerValue e p v poison) :=
  hP.answer h

theorem Stable.answerStatus {s : State} {e : Nat} {p : Packet} {rsp st : Nat} (h : P s) :
    P (s.answerStatus e p rsp st) :=
  hP.answer h

theorem Stable.collide {s : State} {e : Nat} {p : Packet} (h : P s) :
    P (s.collide e p) :=
  hP.answerStatus (hP.bump h)

theorem Stable.setDefers {s : State} {a : Nat} {l : List Defer} (h : P s) :
    P (s.setDefers a l) :=
  hP.aside h rfl

theorem Stable.noDefer {s : State} {e : Nat} {p : Packet} (h : P s) :
    P (s.noDefer e p) :=
  keep_ite (hP.deliverTo (hP.endSlot (keep_ite (hP.bump h) h))) (hP.nack (keep_ite (hP.bump h) h))

theorem Stable.recordDefer {s : State} {e a : Nat} {p : Packet} {ovf : Bool} (h : P s) :
    P (s.recordDefer e a p ovf) :=
  keep_ite (keep_ite (hP.bump (hP.bump (hP.putWord (hP.presence nofun (hP.setDefers (hP.draw h)))))) (hP.microPut (hP.bump (hP.bump (hP.putWord
      (hP.presence nofun (hP.setDefers (hP.draw h)))))))) (hP.putWord (hP.presence nofun (hP.setDefers (hP.draw h))))

theorem Stable.fillWord {s : State} {e a : Nat} (h : P s) :
    P (s.fillWord e a) :=
  keep_ite (hP.presence nofun h) (hP.withRels (hP.setDefers (hP.presence nofun h)))

theorem Stable.sendDeferred {s : State} {e : Nat} {d : Defer} {v : Word} {poison : Bool} (h : P s) :
    P (s.sendDeferred e d v poison) :=
  hP.unitSend h

theorem Stable.readDefer {s : State} {e : Nat} {d : Defer} (h : P s) :
    P (s.readDefer e d).2 := by
  unfold State.readDefer
  split
  · exact hP.microRead h
  · split
    · dsimp only
      exact hP.tallyUe h
    · dsimp only
      exact h

theorem Stable.hitRecord {s : State} {c a : Nat} (h : P s) :
    P (s.hitRecord c a) := by
  unfold State.hitRecord
  refine keep_ite ?_ h
  dsimp only
  split
  · exact hP.setRecs h
  · exact h

theorem Stable.setPairState {s : State} {p v : Nat} (h : P s) :
    P (s.setPairState p v) :=
  hP.driveLands (hP.setRfld h)

theorem Stable.haltPair {s : State} {p cause point : Nat} (h : P s) :
    P (s.haltPair p cause point) := by
  unfold State.haltPair
  extract_lets a said counted stopped halted
  have hsaid : P said := hP.setRfld (hP.setRfld h)
  have hcounted : P counted := keep_ite (hP.setRfld hsaid) hsaid
  have hhalted : P halted := hP.updPair (hP.setPairState (hP.updPe hcounted))
  exact keep_ite (hP.log hhalted) (hP.setMc (hP.logFree hhalted))

theorem Stable.strike {s : State} {kind x upset : Nat} (h : P s) :
    P (s.strike kind x upset) := by
  unfold State.strike
  refine keep_ite ?_ (keep_ite (hP.setLacc h) (keep_ite (hP.setDefers h) h))
  split
  · exact hP.setRecs h
  · exact h

theorem Stable.addRepair {s : State} {r : Word} (h : P s) :
    P (s.addRepair r) :=
  hP.setMc h

theorem Stable.repairRow {s : State} {c g k : Nat} (h : P s) :
    P (s.repairRow c g k) :=
  keep_ite (hP.logFree (hP.addRepair (hP.setRfld h))) (keep_ite (hP.logFree (hP.updTest (hP.addRepair (hP.setRfld h)))) h)

theorem Stable.testRelease {s : State} {c rows : Nat} (h : P s) :
    P (s.testRelease c rows) := by
  unfold State.testRelease
  split
  · exact h
  · extract_lets bad repaired st counted returned idle
    have hrepaired : P repaired := keep_foldl (fun _ _ h1 => hP.repairRow h1) h
    have hcounted : P counted := keep_ite hrepaired (hP.setRfld hrepaired)
    have hidle : P idle := hP.setRfld (hP.setRfld (hP.updTest hcounted))
    exact keep_ite (hP.updTest (hP.setRfld hidle)) hidle

theorem Stable.retainBank {s : State} {c b : Nat} (h : P s) :
    P (s.retainBank c b) :=
  keep_ite (hP.setRetained h) h

theorem Stable.retWrite {s : State} {c : Nat} {v : Word} (h : P s) :
    P (s.retWrite c v) :=
  keep_ite h (keep_foldl (fun _ _ h1 => keep_ite (hP.retainBank h1) (keep_ite (hP.setRetained h1) h1)) (hP.setRfld (hP.setRfld h)))

/-! ### Patches, resets, micro-traps -/

theorem Stable.setUmatch {s : State} {n : Nat} {on : Bool} {l : List (Nat × Nat)} (h : P s) :
    P (s.setUmatch n on l) := by
  unfold State.setUmatch
  refine keep_foldl ?_ h
  intro _ _ h1
  split <;> exact hP.setReg h1

theorem Stable.loadPatch {s : State} {n : Nat} (h : P s) :
    P (s.loadPatch n) := by
  unfold State.loadPatch
  dsimp only
  split
  · exact hP.setReg (hP.setUmatch (hP.updPe h))
  · exact keep_ite (hP.logFree (hP.setRfld (hP.setReg (hP.draw (hP.setReg (hP.setUmatch (hP.updPe h))))))) (hP.setReg (hP.setUmatch (hP.draw
        (hP.setReg (hP.setUmatch (hP.updPe h))))))

theorem Stable.loadPatches {s : State} {n : Nat} (h : P s) :
    P (s.loadPatches n) :=
  keep_ite (hP.loadPatch h) (hP.loadPatch (hP.loadPatch h))

theorem Stable.freeFrames {s : State} {n : Nat} (h : P s) :
    P (s.freeFrames n) :=
  keep_foldl (fun _ _ h1 => keep_ite (hP.freeFrame h1) h1) h

theorem Stable.noteSecret {s : State} {hit : Bool} (h : P s) :
    P (s.noteSecret hit) :=
  keep_ite (hP.logFree h) h

theorem Stable.startToken {s : State} {p boot entry : Nat} (h : P s) :
    P (s.startToken p boot entry) :=
  keep_getD (hP.tokenIn (hP.updPair h)) h

theorem Stable.haltCmd {s : State} {p : Nat} (h : P s) :
    P (s.haltCmd p) :=
  keep_ite (hP.haltPair h) (hP.cfgReject h)

theorem Stable.onPair {p : Nat} {s : State} {f : State → State} (h : P s) (hf : ∀ (u : State), P u → P (f u)) :
    OnNext P (onPair p s f) :=
  hP.onUnit h (fun _ h1 => hf _ h1)

theorem Stable.sweep {s : State} {n k : Nat} {f : MRec → Bool} (h : P s) :
    P (s.sweep n k f).1 := by
  unfold State.sweep
  dsimp only
  exact hP.bumpPe (hP.updPe h)

theorem Stable.spillSets {s : State} {n : Nat} {f : MRec → Bool} (h : P s) :
    OnSome (fun x => P x.1) (s.spillSets n f) := by
  unfold State.spillSets
  refine keep_ite ?_ onSome_none
  refine onSome_some ?_
  dsimp only
  exact hP.bumpPe (hP.updPe h)

/-! ### Power states, sensors, clocks -/

theorem Stable.freewheel {s : State} {c : Nat} (h : P s) :
    P (s.freewheel c) :=
  keep_ite (hP.setGoal (hP.setFreewheel h)) h

theorem Stable.freewheelWake {s : State} {c : Nat} (h : P s) :
    P (s.freewheelWake c) :=
  keep_ite (hP.accessWake h) h

theorem Stable.freewheelReturn {s : State} {c : Nat} (h : P s) :
    P (s.freewheelReturn c) :=
  keep_ite (hP.setGoal (hP.setFreewheel h)) h

theorem Stable.savePres {c b : Nat} {s : State} {x : Nat × Presence} (h : P s) :
    P (State.savePres c b s x) :=
  keep_ite (hP.setByte h) h

theorem Stable.bulkSpill {s : State} {c : Nat} (h : P s) :
    P (s.bulkSpill c) := by
  unfold State.bulkSpill
  exact hP.updNi (keep_foldl (fun _ _ h1 => hP.updPe (hP.bumpPe (hP.bumpPe h1))) h)

theorem Stable.stopSpill {s : State} {c : Nat} (h : P s) :
    P (s.stopSpill c) :=
  keep_foldl (fun _ _ h1 => hP.updPe h1) h

theorem Stable.parkToken {s : State} (h : P s) :
    P s.parkToken := by
  unfold State.parkToken
  split
  · exact h
  · exact keep_ite (keep_ite (hP.pressureCheck (hP.bump (hP.withParked (hP.takeReq h _ ‹_›)))) h) (hP.unitSend (hP.takeReq h _ ‹_›))

theorem Stable.sampleTemp {s : State} {i : Nat} {valid : Bool} {v : Nat} (h : P s) :
    P (s.sampleTemp i valid v) :=
  keep_ite (hP.setRfld h) (keep_ite (hP.setRfld (hP.setRfld (hP.setRfld h))) (hP.setRfld (hP.setRfld h)))

theorem Stable.sampleAge {s : State} {m : Nat} {valid : Bool} {v : Nat} (h : P s) :
    P (s.sampleAge m valid v) :=
  keep_ite (hP.setRfld h) (hP.setRfld (hP.setRfld (hP.setRfld h)))

theorem Stable.sample {s : State} {kind i : Nat} {valid : Bool} {v w : Nat} (h : P s) :
    P (s.sample kind i valid v w) :=
  keep_ite (hP.sampleTemp h) (keep_ite (keep_ite (hP.setRfld (hP.setRfld (hP.setRfld h))) (hP.setRfld h)) (keep_ite (hP.sampleAge h) h))

theorem Stable.governDie {s : State} {d : Nat} (h : P s) :
    P (s.governDie d) :=
  keep_foldl (fun _ _ h1 => hP.setPw h1) (keep_ite (hP.log (hP.setPw h)) (keep_ite (hP.setPw h) h))

theorem Stable.govern {s : State} (h : P s) :
    P s.govern :=
  keep_foldl (fun _ _ h1 => hP.governDie h1) h

theorem Stable.guardDie {s : State} {d : Nat} (h : P s) :
    P (s.guardDie d) :=
  keep_ite h (keep_ite (hP.setPw h) (hP.setPw (keep_ite (keep_foldl (fun _ _ h1 => hP.log h1) (hP.setPw h)) (hP.setPw h))))

theorem Stable.guardbands {s : State} {lost : List Nat} (h : P s) :
    P (s.guardbands lost) :=
  keep_foldl (fun _ _ h1 => hP.guardDie h1) (hP.setPw (keep_foldl (fun _ _ h1 => hP.log h1) h))

theorem Stable.timeSync {s : State} {p : Nat} (h : P s) :
    P (s.timeSync p) :=
  hP.atLink h (fun _ h1 => keep_getD (hP.transmit h1) h1)

theorem Stable.ppsEdge {s : State} {err : Int} (h : P s) :
    P (s.ppsEdge err) :=
  keep_foldl (fun _ _ h1 => hP.timeSync h1) (keep_ite (hP.setRfld (hP.setPw h)) (keep_ite (hP.setRfld (hP.setPw h)) (hP.setPw h)))

/-! ### Clock crossings and the log -/

theorem Stable.dcqClear {s : State} {d : Dcq} (h : P s) :
    P (s.dcqClear d) := by
  unfold State.dcqClear
  split
  · exact h
  · exact hP.setEject h
  · exact hP.setEgress h
  · exact hP.setReqs h
  · next r i vn _ =>
    extract_lets l t
    have ht : P t := keep_ite (keep_foldl (fun _ _ h1 => hP.setVc h1) h) (hP.setVc h)
    refine keep_ite (hP.atLink ht fun u hu => hP.sayCredit hu fun v hv => ?_) ht
    extract_lets returned
    have hreturned : P returned := keep_foldl (fun _ _ h3 => keep_ite (hP.returnCredit h3) h3) hv
    split
    · exact hP.returnCredit (hP.setSkip (hP.setOpen hreturned))
    · exact hreturned

theorem Stable.dcqFlush {s : State} {a : Nat} (h : P s) :
    P (s.dcqFlush a) := by
  unfold State.dcqFlush
  split
  · exact keep_ite h (keep_ite (hP.withFlushes (hP.dcqClear h)) (hP.dcqClear h))
  · exact h

theorem Stable.ptrMismatch {s : State} {a : Nat} (h : P s) :
    P (s.ptrMismatch a) := by
  unfold State.ptrMismatch
  split
  · exact h
  · extract_lets logged counted retrain emptied t
    have ht : P t := hP.withOpenPktsFlushes (hP.dcqClear (hP.setRfld (hP.log h)))
    have hretrain : ∀ r i, P (retrain (t.setRfld a 62 62 1) r i) := fun _ _ => keep_ite (hP.beginRetrain (hP.setRfld ht)) (hP.setRfld ht)
    refine keep_ite (hP.log h) ?_
    split
    · refine keep_ite (hretrain _ _) (keep_ite ?_ (keep_ite ht (hP.setRfld ht)))
      exact hretrain 64 _
    · exact hP.setRfld ht

theorem Stable.creditReset {s : State} {a : Nat} (h : P s) :
    P (s.creditReset a) :=
  keep_ite (hP.setRfld h) h

theorem Stable.crossStall {s : State} {mech src dst a : Nat} (h : P s) :
    P (s.crossStall mech src dst a) := by
  unfold State.crossStall
  refine keep_ite ?_ (keep_ite (hP.log (hP.aside h rfl)) h)
  split
  · exact keep_ite (hP.log (hP.setRfld h)) h
  · exact h

theorem Stable.crossResume {s : State} {mech src dst a : Nat} (h : P s) :
    P (s.crossResume mech src dst a) := by
  unfold State.crossResume
  refine keep_ite ?_ (keep_ite (hP.log (hP.aside h rfl)) h)
  split
  · exact keep_ite (hP.log (hP.setRfld h)) h
  · exact h

theorem Stable.unstable {s : State} {mech src dst idx : Nat} (h : P s) :
    P (s.unstable mech src dst idx) :=
  hP.log (keep_ite (hP.setDom h) h)

theorem Stable.pulse {s : State} {src dst idx : Nat} {ends : Bool} (h : P s) :
    P (s.pulse src dst idx ends) :=
  keep_ite (keep_ite h (keep_ite (hP.aside h rfl) (hP.aside h rfl))) (keep_ite (hP.aside h rfl) (keep_ite (hP.aside h rfl) (hP.log (hP.aside h
      rfl))))

theorem Stable.beaconAccept {s : State} {d here : Nat} (h : P s) :
    P (s.beaconAccept d here) :=
  keep_ite h (keep_ite (hP.setDom h) (keep_ite (keep_ite (hP.log (hP.setDom h)) (hP.setDom h)) (keep_ite (hP.setDom h) (keep_ite (hP.log
      (hP.setDom h)) (hP.setDom h)))))

theorem Stable.collForward {s : State} {k : Nat} (h : P s) :
    P (s.collForward k) := by
  unfold State.collForward
  split
  · exact h
  · exact keep_ite h (hP.aside h rfl)

theorem Stable.progressMark {s : State} {k : Nat} (h : P s) :
    P (s.progressMark k) :=
  hP.aside h rfl

theorem Stable.queuePersist {s : State} {r : LogRec} (h : P s) :
    P (s.queuePersist r) := by
  unfold State.queuePersist
  refine keep_ite h ?_
  refine keep_ite (hP.aside h rfl) ?_
  split
  · exact h
  · exact hP.log (hP.bump (hP.aside h rfl))

theorem Stable.toRing {s : State} {r : LogRec} (h : P s) :
    P (s.toRing r) := by
  unfold State.toRing
  extract_lets ring old
  exact hP.queuePersist (hP.setReg (hP.setReg (hP.withEv h)))

theorem Stable.seqAssign {s : State} (h : P s) :
    P s.seqAssign := by
  unfold State.seqAssign
  split
  · exact h
  · refine keep_ite ?_ h
    refine hP.toRing ?_
    split
    · exact keep_ite (hP.setMc (hP.aside h rfl)) (hP.aside h rfl)
    · exact hP.aside h rfl

theorem Stable.collSilent {s : State} {k : Nat} (h : P s) :
    P (s.collSilent k) :=
  keep_ite h (hP.log (hP.aside h rfl))

theorem Stable.logPersist {s : State} (h : P s) :
    P s.logPersist :=
  keep_ite (hP.aside h rfl) h

theorem Stable.onColl {k : Nat} {s : State} {f : State → State} (h : P s) (hf : ∀ (u : State), P u → P (f u)) :
    OnNext P (onColl k s f) :=
  hP.onUnit h (fun _ h1 => hf _ h1)

/-! ### Register accesses -/

theorem Stable.clearRcl {s : State} {a : Nat} (h : P s) :
    P (s.clearRcl a) :=
  keep_ite (hP.aside h rfl) (keep_foldl (fun _ _ h1 => keep_ite (hP.setRfld h1) h1) h)

theorem Stable.regRead {s : State} {a : Nat} (h : P s) :
    P (s.regRead a).2 := by
  unfold State.regRead
  dsimp only
  exact hP.clearRcl h

theorem Stable.regReads {s : State} {a n : Nat} (h : P s) :
    P (s.regReads a n).2 := by
  induction n generalizing s a with
  | zero => exact h
  | succ n ih => exact ih (hP.regRead h)

theorem Stable.wakeFor {s : State} {a : Nat} (h : P s) :
    P (s.wakeFor a) :=
  keep_ite (hP.accessWake h) h

theorem Stable.writeFields {s : State} {a : Nat} {v : Word} (h : P s) :
    P (s.writeFields a v) :=
  keep_ite (hP.cfgReject (hP.setReg h)) (hP.setReg h)

theorem Stable.creditWrite {s : State} {e : Nat} {v : Word} (h : P s) :
    P (s.creditWrite e v) :=
  keep_ite (hP.cfgReject h) (hP.setRfld (hP.writeFields h))

theorem Stable.zeroRegs {s : State} {lo hi : Nat} (h : P s) :
    P (s.zeroRegs lo hi) :=
  hP.aside h rfl

theorem Stable.zeroDcqs {s : State} {a n : Nat} (h : P s) :
    P (s.zeroDcqs a n) :=
  keep_foldl (fun _ _ h1 => hP.setRfld (hP.setRfld (hP.setRfld h1))) h

theorem Stable.clearGroup {s : State} {a : Nat} (h : P s) :
    P (s.clearGroup a) := by
  unfold State.clearGroup
  refine keep_ite (hP.zeroRegs (hP.zeroRegs (hP.zeroRegs h))) ?_
  refine keep_ite (hP.zeroDcqs (hP.zeroRegs h)) ?_
  refine keep_ite (hP.zeroDcqs (hP.zeroRegs h)) ?_
  refine keep_ite (hP.zeroRegs h) ?_
  refine keep_ite (hP.zeroRegs h) ?_
  refine keep_ite (hP.zeroDcqs (hP.zeroRegs h)) ?_
  refine keep_ite (hP.zeroDcqs (hP.zeroRegs h)) ?_
  split
  · exact hP.zeroRegs h
  · exact h

theorem Stable.statCtlWrite {s : State} {a : Nat} {v : Word} (h : P s) :
    P (s.statCtlWrite a v) :=
  keep_ite (hP.clearGroup (hP.writeFields h)) (hP.writeFields h)

theorem Stable.lockWrite {s : State} {m : Master} {a : Nat} {v : Word} (h : P s) :
    P (s.lockWrite m a v) :=
  keep_ite h (keep_ite (hP.setRfld h) (keep_ite (hP.setRfld h) h))

theorem Stable.portCtlWrite {s : State} {r p : Nat} {v : Word} (h : P s) :
    P (s.portCtlWrite r p v) :=
  keep_ite h (keep_ite (hP.portDis (hP.setRfld h)) (keep_ite (hP.portEn (hP.setRfld h)) (keep_ite (hP.portRetrain (hP.setRfld h)) (hP.setRfld
      h))))

theorem Stable.pstatSel {s : State} {v : Word} (h : P s) :
    P (s.pstatSel v) :=
  hP.setReg h

theorem Stable.domSel {s : State} {v : Word} (h : P s) :
    P (s.domSel v) :=
  hP.setReg h

theorem Stable.lkSel {s : State} {v : Word} (h : P s) :
    P (s.lkSel v) :=
  hP.setReg h

theorem Stable.stageWrite {s : State} {p : Nat} {v : Word} (h : P s) :
    P (s.stageWrite p v) :=
  keep_ite (keep_ite h (hP.cfgReject h)) (hP.updPort h)

theorem Stable.pressWrite {s : State} {v : Word} (h : P s) :
    P (s.pressWrite v) := by
  unfold State.pressWrite
  exact hP.writeFields h

theorem Stable.evtWrite {s : State} {v : Word} (h : P s) :
    P (s.evtWrite v) :=
  keep_ite (hP.setRfld (hP.setRfld h)) h

theorem Stable.hwSets {s : State} {a : Nat} {hw : Word} (h : P s) :
    P (s.hwSets a hw) :=
  keep_ite h (keep_ite (hP.aside h rfl) (keep_foldl (fun _ _ h2 => keep_ite (hP.setRfld h2) h2) h))

theorem Stable.onApe {n : Nat} {s : State} {f : State → State} (h : P s) (hf : ∀ (u : State), P u → P (f u)) :
    OnNext P (onApe n s f) :=
  keep_ite (hP.onModule h (fun _ h1 => hf _ h1)) onNext_refused

/-! ### Graph images -/

theorem Stable.makeRoot {s : State} {l : List GSec} {c : Nat} (h : P s) :
    P (s.makeRoot l c) :=
  hP.writeDesc (hP.setRfld (hP.setCtx h))

theorem Stable.sendStarts {s : State} {g : GSec} (h : P s) :
    P (s.sendStarts g) :=
  keep_foldl (fun _ _ h1 => hP.unitSend h1) h

theorem Stable.stopCtx {s : State} {k : Nat} (h : P s) :
    P (s.stopCtx k) :=
  keep_ite (hP.updCm (hP.writeDesc (hP.updCtx h))) h

theorem Stable.graphKill {s : State} {g : Graph} {q : McAsk} (h : P s) :
    P (s.graphKill g q) :=
  hP.graphStopDone (keep_foldl (fun _ _ h1 => hP.stopCtx h1) (hP.setMc h))

theorem Stable.graphStop {s : State} {q : McAsk} (h : P s) :
    P (s.graphStop q) := by
  unfold State.graphStop
  split
  · exact keep_ite (hP.respond h) (hP.graphKill h)
  · exact hP.respond h

/-! ### Power input and start-up -/

theorem Stable.flashErase {s : State} {a n : Nat} (h : P s) :
    P (s.flashErase a n) :=
  hP.setMc h

theorem Stable.flashWrite {s : State} {a : Nat} {l : List Byte} (h : P s) :
    P (s.flashWrite a l) :=
  hP.setMc h

theorem Stable.loadRepair {s : State} {w : Word} (h : P s) :
    P (s.loadRepair w) :=
  keep_ite (hP.setRfld h) (keep_ite (hP.updTest (hP.setRfld h)) (hP.aside h rfl))

theorem Stable.testLs {s : State} {n : Nat} (h : P s) :
    P (s.testLs n) :=
  keep_foldl (fun _ _ h1 => keep_ite (hP.addRepair (hP.aside h1 rfl)) (hP.aside h1 rfl)) (hP.draw h)

theorem Stable.loadRepairs {s : State} {f : Word → Bool} {pes : List Nat} (h : P s) :
    P (s.loadRepairs f pes) :=
  keep_foldl (fun _ _ h1 => hP.testLs h1) (keep_foldl (fun _ _ h1 => hP.loadRepair h1) h)

theorem Stable.writeRepairs {s : State} (h : P s) :
    P s.writeRepairs :=
  keep_ite (hP.logFree (hP.setMc (hP.flashWrite (hP.flashErase h)))) (hP.setMc (hP.flashWrite (hP.flashErase h)))

theorem Stable.showVin {s : State} (h : P s) :
    P s.showVin :=
  hP.setRfld (hP.setRfld (hP.setRfld h))

theorem Stable.setVin {s : State} {a b : Nat} (h : P s) :
    P (s.setVin a b) :=
  hP.showVin (hP.setPw h)

theorem Stable.vinRise {s : State} {a b : Nat} (h : P s) :
    P (s.vinRise a b) :=
  keep_ite h (hP.driveLands (hP.setVin (hP.setPw (hP.aside h rfl))))

theorem Stable.vinLost {s : State} {i v : Nat} (h : P s) :
    P (s.vinLost i v) :=
  keep_ite h (keep_ite (hP.logFree (hP.setVin h)) (hP.setVin h))

theorem Stable.vinOk {s : State} {i v : Nat} (h : P s) :
    P (s.vinOk i v) :=
  keep_ite h (keep_ite (hP.setVin h) (hP.setVin h))

theorem Stable.atTime {s : State} {t : Nat} (h : P s) :
    P (s.atTime t) :=
  hP.aside h rfl

theorem Stable.chooseFirmware {s : State} (h : P s) :
    P s.chooseFirmware := by
  unfold State.chooseFirmware
  exact keep_ite (hP.setMc (hP.takeCopy (hP.setMc h))) (hP.setMc (hP.takeCopy (hP.setMc h)))

theorem Stable.bootRom {s : State} (h : P s) :
    P s.bootRom := by
  unfold State.bootRom
  exact hP.chooseFirmware (hP.setRfld (hP.setMc (hP.setMc h)))

theorem Stable.readSettings {s : State} (h : P s) :
    P s.readSettings := by
  unfold State.readSettings
  exact keep_ite (hP.setMc (hP.takeCopy h)) (keep_foldl (fun _ _ h1 => hP.logFree h1) (hP.setMc (hP.takeCopy h)))

theorem Stable.readRepairs {s : State} (h : P s) :
    P s.readRepairs :=
  keep_foldl (fun _ _ h1 => hP.logFree h1) (hP.setMc (hP.takeCopy h))

theorem Stable.readBundle {s : State} (h : P s) :
    P s.readBundle := by
  unfold State.readBundle
  exact keep_ite (hP.logFree (hP.setReg (hP.setMc (hP.takeCopy h)))) (hP.setReg (hP.setMc (hP.takeCopy h)))

theorem Stable.readImages {s : State} (h : P s) :
    P s.readImages := by
  unfold State.readImages
  exact keep_ite (hP.readBundle (hP.readSettings h)) (hP.takeCopy (hP.readBundle (hP.readRepairs (hP.readSettings h))))

theorem Stable.loadRoutes {s : State} {ctl : Word} {hub : Bool} (h : P s) :
    P (s.loadRoutes ctl hub) := by
  unfold State.loadRoutes
  extract_lets entry others clusters
  have hbank : ∀ {u : State} {a : Nat → Nat} {v : Nat → Word} {l : List Nat}, P u → P (l.foldl (fun s e => s.setReg (a e) (v e)) u) :=
    fun hu => keep_foldl (fun _ _ h1 => hP.setReg h1) hu
  have hclusters : P clusters := keep_foldl (fun _ _ h1 => keep_foldl (fun _ _ h2 => hbank (hbank h2)) (hP.setReg h1)) h
  exact keep_ite (keep_foldl (fun _ _ h1 => keep_foldl (fun _ _ h2 => hP.setReg (hP.setReg h2)) h1) (hP.setReg hclusters)) hclusters

theorem Stable.startTraining {s : State} {r p : Nat} (h : P s) :
    P (s.startTraining r p) := by
  unfold State.startTraining
  refine keep_ite h ?_
  dsimp only
  exact hP.replaceWires (hP.draw h)

theorem Stable.diesUp {s : State} (h : P s) :
    P s.diesUp :=
  hP.loadRepairs (keep_foldl (fun _ _ h1 => hP.loadPatches h1) (keep_foldl (fun _ _ h1 => hP.startTraining h1) (keep_foldl (fun _ _ h1 =>
      hP.setPortState h1) (hP.setRfld h))))

theorem Stable.keeperReset {s : State} (h : P s) :
    P s.keeperReset :=
  hP.setPairState (hP.setPairState (hP.setReg (hP.setReg (hP.setRfld (hP.aside h rfl)))))

/-! ### The mailbox -/

theorem Stable.mgtDone {s : State} {e : Nat} {p : Packet} {l : List Word} (h : P s) :
    P (s.mgtDone e p l) :=
  hP.unitSend h

theorem Stable.mgtDeny {s : State} {e : Nat} {p : Packet} (h : P s) :
    P (s.mgtDeny e p) :=
  hP.unitSend h

theorem Stable.mgtRegs {s : State} {e : Nat} {p : Packet} (h : P s) :
    P (s.mgtRegs e p) :=
  keep_ite (hP.mgtDeny (hP.noteSecret h)) (hP.mgtDone (hP.regReads h))

theorem Stable.openWindow {s : State} {ep : Nat} (h : P s) :
    OnSome P (s.openWindow ep) := by
  unfold State.openWindow
  split
  · exact onSome_some h
  · exact keep_ite (onSome_some (hP.setMc h)) onSome_none

theorem Stable.updWindow {s : State} {ep : Nat} {f : MbWin → MbWin} (h : P s) :
    P (s.updWindow ep f) :=
  hP.setMc h

theorem Stable.doorbell {s : State} {ep : Nat} (h : P s) :
    P (s.doorbell ep) := by
  unfold State.doorbell
  split
  · exact h
  · exact keep_ite h (keep_ite (hP.updWindow h) (hP.respond (hP.updWindow h)))

theorem Stable.mcLet {s : State} {cls : Nat} {q : McAsk} {d : List Byte} {f : State → McAsk → List Byte → State} (h : P s) (hf : ∀ (u : State) (x
    : McAsk) (y : List Byte), P u → P (f u x y)) :
    P (s.mcLet cls q d f) :=
  keep_ite (hP.respond h) (hf _ _ _ h)

theorem Stable.mcRun {s : State} {op cls : Nat} {r : McReq} {f : State → McAsk → List Byte → State} (h : P s) (hf : ∀ (u : State) (x : McAsk) (y
    : List Byte), P u → P (f u x y)) :
    P (s.mcRun op cls r f) := by
  unfold State.mcRun
  split
  · exact h
  · exact keep_ite h (keep_ite (hP.respond h) (keep_ite (hf _ _ _ h) (keep_ite (hP.respond (hP.logFree h)) (keep_ite (keep_ite (hP.mcLet
        (hP.setMc h) (fun _ _ _ h1 => hf _ _ _ h1)) (hP.respond (hP.logFree h))) (hP.mcLet h (fun _ _ _ h1 => hf _ _ _ h1))))))

/-! ### Commands of the MC -/

theorem Stable.done {s : State} {q : McAsk} (h : P s) :
    P (s.done q) :=
  hP.respond h

theorem Stable.getInfo {s : State} {q : McAsk} {d : List Byte} (h : P s) :
    P (s.getInfo q d) :=
  keep_ite (hP.respond h) (hP.respond h)

theorem Stable.getSensors {s : State} {q : McAsk} {d : List Byte} (h : P s) :
    P (s.getSensors q d) :=
  keep_ite (hP.respond h) (hP.respond (hP.regReads (hP.regReads (hP.regReads h))))

theorem Stable.logRead {s : State} {q : McAsk} {d : List Byte} (h : P s) :
    P (s.logRead q d) :=
  keep_ite (hP.respond h) (hP.respond h)

theorem Stable.attest {s : State} {q : McAsk} {d : List Byte} (h : P s) :
    P (s.attest q d) :=
  keep_ite (hP.respond h) (hP.respond h)

theorem Stable.plain {s : State} {q : McAsk} {d : List Byte} {ok : Bool} {f : State → State} (h : P s) (hf : ∀ (u : State), P u → P (f u)) :
    P (s.plain q d ok f) :=
  keep_ite (hP.respond h) (keep_ite (hP.done (hf _ h)) (hP.respond h))

theorem Stable.graphStopCmd {s : State} {q : McAsk} {d : List Byte} (h : P s) :
    P (s.graphStopCmd q d) :=
  keep_ite (hP.respond h) (hP.graphStop h)

theorem Stable.faultClear {s : State} {q : McAsk} {d : List Byte} (h : P s) :
    P (s.faultClear q d) :=
  hP.plain h (fun _ h1 => hP.setMc h1)

theorem Stable.imgBegin {s : State} {q : McAsk} {d : List Byte} (h : P s) :
    P (s.imgBegin q d) :=
  keep_ite (hP.respond h) (keep_ite (hP.respond h) (hP.respond (hP.setMc (hP.flashErase h))))

theorem Stable.imgData {s : State} {q : McAsk} {d : List Byte} (h : P s) :
    P (s.imgData q d) := by
  unfold State.imgData
  dsimp only
  split
  · exact hP.respond h
  · exact keep_ite (hP.respond h) (hP.done (hP.setMc (hP.flashWrite h)))

theorem Stable.imgAbort {s : State} {q : McAsk} {d : List Byte} (h : P s) :
    P (s.imgAbort q d) := by
  unfold State.imgAbort
  refine keep_ite (hP.respond h) ?_
  split
  · exact hP.respond h
  · exact keep_ite (hP.respond h) (hP.respond (hP.setMc h))

theorem Stable.minverRaise {s : State} {q : McAsk} {d : List Byte} (h : P s) :
    P (s.minverRaise q d) :=
  keep_ite (hP.respond h) (keep_ite (hP.respond h) (keep_ite (hP.respond h) (hP.done (hP.setMc h))))

theorem Stable.ksecretLoad {s : State} {q : McAsk} {d : List Byte} (h : P s) :
    P (s.ksecretLoad q d) := by
  unfold State.ksecretLoad
  refine keep_ite (hP.respond h) (keep_ite (hP.respond h) ?_)
  dsimp only
  split
  · exact hP.respond h
  · exact hP.done (keep_foldl (fun _ _ h1 => hP.unitSend h1) h)

theorem Stable.nonce {s : State} (h : P s) :
    P s.nonce.2 :=
  hP.draw h

theorem Stable.lcChallenge {s : State} {q : McAsk} {d : List Byte} (h : P s) :
    P (s.lcChallenge q d) :=
  keep_ite (hP.respond h) (keep_ite (hP.respond h) (hP.respond (hP.setMc (hP.nonce h))))

theorem Stable.lcDone {s : State} {q : McAsk} (h : P s) :
    P (s.lcDone q) :=
  hP.done (hP.endSession h)

theorem Stable.lcProvision {s : State} {q : McAsk} {d : List Byte} (h : P s) :
    P (s.lcProvision q d) :=
  keep_ite (hP.respond h) (keep_ite (hP.respond h) (hP.lcDone (hP.setMc h)))

theorem Stable.spendLc {s : State} (h : P s) :
    P s.spendLc :=
  hP.setMc h

theorem Stable.lcSecure {s : State} {q : McAsk} {d : List Byte} (h : P s) :
    P (s.lcSecure q d) :=
  keep_ite (hP.respond h) (keep_ite (hP.lcDone (hP.setMc (hP.spendLc h))) (hP.respond (hP.spendLc h)))

/-! ### Debug sessions -/

theorem Stable.dbgChallenge {s : State} {q : McAsk} {d : List Byte} (h : P s) :
    P (s.dbgChallenge q d) :=
  keep_ite (hP.respond h) (keep_ite (hP.respond h) (hP.respond (hP.setMc (hP.nonce h))))

theorem Stable.dbgCloseCmd {s : State} {q : McAsk} {d : List Byte} (h : P s) :
    P (s.dbgCloseCmd q d) :=
  keep_ite (hP.respond h) (keep_ite (hP.done (hP.endSession h)) (hP.respond h))

theorem Stable.dbgWake {s : State} {a : Nat} (h : P s) :
    P (s.dbgWake a) :=
  keep_ite (hP.accessWake h) h

theorem Stable.touchSession {s : State} (h : P s) :
    P s.touchSession :=
  hP.setMc h

theorem Stable.dbgHaltPe {s : State} {n : Nat} (h : P s) :
    P (s.dbgHaltPe n) :=
  keep_ite (hP.setMc (hP.updPe h)) h

theorem Stable.dbgResumePe {s : State} {n : Nat} (h : P s) :
    P (s.dbgResumePe n) := by
  unfold State.dbgResumePe
  exact hP.setMc (hP.updPe h)

theorem Stable.traceCmd {s : State} {start : Bool} {q : McAsk} {d : List Byte} (h : P s) :
    P (s.traceCmd start q d) :=
  keep_ite h (keep_ite (hP.respond h) (keep_ite (hP.respond h) (hP.done (hP.setMc h))))

theorem Stable.mcRestart {s : State} (h : P s) :
    P s.mcRestart := by
  unfold State.mcRestart
  refine keep_ite h ?_
  extract_lets flushed cleared chosen logged
  have hchosen : P chosen := hP.chooseFirmware (hP.atTime (hP.setMc (hP.dcqFlush (hP.dcqFlush (hP.endSession h)))))
  have hlogged : P logged := keep_ite (hP.logFree hchosen) hchosen
  split
  · exact keep_ite (hP.logFree (hP.graphKill hlogged)) hlogged
  · exact hlogged

theorem Stable.rngFail {s : State} (h : P s) :
    P s.rngFail :=
  keep_ite (hP.logFree (hP.setMc h)) h

theorem Stable.pmAnswer {s : State} {v : BitVec 16} (h : P s) :
    P (s.pmAnswer v) :=
  keep_ite (hP.setMc h) h

theorem Stable.tapSet {s : State} {t : Nat} (h : P s) :
    P (s.tapSet t) :=
  hP.driveLands (hP.setMc h)

theorem Stable.extest {s : State} (h : P s) :
    P s.extest :=
  keep_ite (hP.setRfld (hP.setMc h)) (hP.tapSet h)

theorem Stable.ethFrame {s : State} {frame : List Byte} (h : P s) :
    P (s.ethFrame frame) :=
  keep_ite (hP.oversize h) (keep_ite (hP.rewound h) (keep_ite (hP.setMc h) h))

/-! ### The arithmetic engine -/

theorem Stable.setAe {s : State} {c : Nat} {v : Ae} (h : P s) :
    P (s.setAe c v) :=
  hP.aside h rfl

theorem Stable.aeAccept {s : State} {n : Nat} (h : P s) :
    P (s.aeAccept n) := by
  unfold State.aeAccept
  split
  · split
    · exact keep_ite (hP.setAe (hP.setPe h)) h
    · exact h
  · exact h

theorem Stable.aeReply {s : State} {c u : Nat} {mismatch : Bool} (h : P s) :
    P (s.aeReply c u mismatch) := by
  unfold State.aeReply
  dsimp only
  split
  · exact h
  · exact keep_ite (keep_ite (hP.deliverTo (hP.logFree (hP.bump (hP.setAe (keep_ite (hP.setRfld h) h))))) (hP.bump (hP.setAe (keep_ite
        (hP.setRfld h) h)))) (hP.replyToken (hP.setAe (keep_ite (hP.setRfld h) h)))

end

/-! ## The canonical form of memory -/

/-- Memory is in canonical form: addresses rise, and no entry is what an unlisted address reads as. -/
def State.Canon (s : State) : Prop := Memory.wf s.mem = true

theorem canon : Stable State.Canon where
  aside {s t} h e := by
    have : t.mem = s.mem := congrArg Prod.fst e
    rwa [State.Canon, this]
  bytes h := memWrite_wf _ _ _ h
  check _ h := h
  presence _ h := h

theorem setEcc_wf {s : State} {a : Nat} {e : Ecc} (h : s.Canon) : (s.setEcc a e).Canon := h
theorem setPres_wf {s : State} {a : Nat} {p : Presence} (h : s.Canon) : (s.setPres a p).Canon := h


/-! ### Whole regions -/


/-! ### The reset state -/

theorem reset_wf : State.reset.Canon := rfl

/-! ### Registers, memory, events and faults -/

theorem setImem_wf {s : State} {n w : Nat} {v : Word} (h : s.Canon) :
    (s.setImem n w v).Canon :=
  h

/-! ### What the lock unit holds -/

theorem setLock_wf {s : State} {n : Nat} {l : Lock} (h : s.Canon) :
    (s.setLock n l).Canon :=
  h

theorem boostUpdate_wf {s : State} {n : Nat} (h : s.Canon) :
    (s.boostUpdate n).Canon := by
  unfold State.boostUpdate
  dsimp only
  split
  · exact h
  · exact keep_ite h (canon.sendBoost (setLock_wf h))

theorem grantLock_wf {s : State} {n : Nat} {w : Waiter} (h : s.Canon) :
    (s.grantLock n w).2.Canon := by
  unfold State.grantLock
  dsimp only
  exact canon.bumpLk (setLock_wf h)

theorem nextHolder_wf {s : State} {n : Nat} (h : s.Canon) :
    (s.nextHolder n).Canon := by
  unfold State.nextHolder
  dsimp only
  split
  · exact h
  · exact boostUpdate_wf (canon.unitSend (grantLock_wf (setLock_wf h)))

theorem endHold_wf {s : State} {n : Nat} {abandoned : Bool} (h : s.Canon) :
    (s.endHold n abandoned).Canon := by
  unfold State.endHold
  dsimp only
  split
  · exact h
  · exact nextHolder_wf (setLock_wf (keep_ite (canon.sendBoost h) h))

theorem abandon_wf {s : State} {n : Nat} {expired : Bool} (h : s.Canon) :
    (s.abandon n expired).Canon := by
  unfold State.abandon
  split
  · exact h
  · exact endHold_wf (canon.bumpLk (keep_ite (canon.log h) (canon.logFree h)))

theorem cutWaiters_wf {s : State} {n : Nat} {f : Waiter → Bool} (h : s.Canon) :
    (s.cutWaiters n f).Canon :=
  setLock_wf h

theorem dropHolders_wf {s : State} {holds waits : Waiter → Bool} (h : s.Canon) :
    (s.dropHolders holds waits).Canon :=
  keep_foldl (fun _ _ h1 => keep_ite (abandon_wf (cutWaiters_wf h1)) (boostUpdate_wf (cutWaiters_wf h1))) h

theorem lockKill_wf {s : State} {k : Nat} (h : s.Canon) :
    (s.lockKill k).Canon :=
  dropHolders_wf h

theorem lockPeReset_wf {s : State} {n : Nat} (h : s.Canon) :
    (s.lockPeReset n).Canon :=
  dropHolders_wf h

theorem lockPortDown_wf {s : State} {p : Nat} (h : s.Canon) :
    (s.lockPortDown p).Canon :=
  dropHolders_wf h

/-! ### Kickstand entry -/

theorem dropClusterLocks_wf {s : State} (h : s.Canon) :
    s.dropClusterLocks.Canon :=
  dropHolders_wf h

theorem diesOff_wf {s : State} (h : s.Canon) :
    s.diesOff.Canon :=
  canon.setRfld (canon.setMc (loseDies_wf _ (dropClusterLocks_wf (canon.sessionKick h))))

theorem kickstandEntry_wf {s : State} {cause die : Nat} (h : s.Canon) :
    (s.kickstandEntry cause die).Canon :=
  keep_ite h (canon.setRfld (diesOff_wf (keep_foldl (fun _ _ h1 => keep_ite (canon.suspendPort h1) (canon.heldPort h1)) (canon.noticeAll
      (canon.setMc (canon.setReg h))))))

theorem afterUe_wf {s t : State} (h : s.Canon) (h1 : t.Canon) :
    (s.afterUe t).Canon :=
  keep_ite (kickstandEntry_wf h1) h1

theorem countUe_wf {s : State} (h : s.Canon) :
    s.countUe.Canon :=
  afterUe_wf h (canon.tallyUe h)

theorem peUe_wf {s : State} {e pe addr : Nat} {imem : Bool} (h : s.Canon) :
    (s.peUe e pe addr imem).Canon :=
  countUe_wf (canon.log h)

/-! ### The issue engine -/

theorem applyKept_wf {s : State} {n : Nat} {a : Act} {e : Effect} (h : s.Canon) :
    (s.applyKept n a e).Canon := by
  unfold State.applyKept
  split
  · exact canon.bumpPe (keep_ite (canon.setRfld (canon.setLacc (canon.laccWords h))) (canon.setLacc (canon.laccWords h)))
  · exact canon.setLacc h
  · exact keep_ite (countUe_wf (canon.check mergedEcc_ne_ue (canon.store (keep_ite (canon.log h) (keep_ite (canon.log h) h))))) (canon.check
        mergedEcc_ne_ue (canon.store (keep_ite (canon.log h) (keep_ite (canon.log h) h))))
  · exact keep_ite (canon.log (canon.check nofun h)) (keep_ite (peUe_wf h) h)
  · exact keep_foldl (fun _ _ h1 => canon.check nofun (canon.store h1)) h
  · exact canon.pushOut h
  · exact keep_ite h (canon.safeWrite h)
  · exact h

theorem landKept_wf {n k : Nat} {a : Act} {l : List Flight} {s : State} (h : s.Canon) :
    (landKept n a k l s).Canon := by
  induction k generalizing l s with
  | zero => exact h
  | succ k ih =>
    unfold landKept
    split
    · exact h
    · exact ih (applyKept_wf h)

theorem leave_wf {s : State} {n : Nat} {a : Act} {l : List Flight} (h : s.Canon) :
    (s.leave n a l).Canon :=
  landKept_wf (canon.setAct h)

theorem raiseFault_wf {s : State} {n : Nat} {a : Act} {fc : FaultCode} {off detail : Nat} (h : s.Canon) :
    (s.raiseFault n a fc off detail).Canon :=
  canon.deliver (leave_wf h)

theorem residueDecide_wf {s : State} {n : Nat} {a : Act} {f : Flight} (h : s.Canon) :
    (s.residueDecide n a f).Canon :=
  keep_ite (canon.logFree (canon.bumpPe (canon.setAct h))) (raiseFault_wf (canon.logFree (canon.bumpPe h)))

theorem applyEff_wf {s : State} {n : Nat} {a : Act} {f : Flight} (h : s.Canon) :
    (s.applyEff n a f).Canon := by
  unfold State.applyEff
  split
  · exact keep_ite (canon.setAct h) (canon.setAct h)
  · exact canon.setAct h
  · exact canon.setAct h
  · exact canon.setAct h
  · exact keep_ite (raiseFault_wf h) (canon.safeWrite h)
  · exact canon.takeTrap h
  · exact residueDecide_wf h
  · exact applyKept_wf h

theorem landFuel_wf {n t k : Nat} {s : State} (h : s.Canon) :
    (State.landFuel n t k s).Canon := by
  induction k generalizing s with
  | zero => exact h
  | succ k ih =>
    unfold State.landFuel
    split
    · exact h
    · split
      · exact h
      · exact keep_ite (ih (applyEff_wf (canon.setAct h))) h

theorem landTo_wf {s : State} {n t : Nat} (h : s.Canon) :
    (s.landTo n t).Canon := by
  unfold State.landTo
  split
  · exact h
  · exact landFuel_wf h

theorem noteUe_wf {s : State} {n : Nat} {fc : FaultCode} {detail : Nat} (h : s.Canon) :
    (s.noteUe n fc detail).Canon := by
  unfold State.noteUe
  split
  · exact keep_ite (peUe_wf h) h
  · exact peUe_wf h
  · exact h

theorem faultAt_wf {s : State} {n : Nat} {a : Act} {off : Nat} {fc : FaultCode} {detail : Nat} {cnt : Option Nat} (h : s.Canon) :
    (s.faultAt n a off fc detail cnt).Canon := by
  unfold State.faultAt
  extract_lets noted count landed
  have hnoted : noted.Canon := noteUe_wf h
  have hcount : ∀ u : State, u.Canon → (count u).Canon := by
    intro u hu
    dsimp only [count]
    split
    · exact canon.bumpPe hu
    · exact hu
  have hlanded : landed.Canon := landTo_wf hnoted
  refine keep_ite ?_ (raiseFault_wf (hcount _ hnoted))
  split
  · exact keep_ite (raiseFault_wf (hcount _ hlanded)) hlanded
  · exact hlanded

theorem checkEnd_wf {s : State} {n : Nat} {w : Word} {off : Nat} (h : s.Canon) :
    (s.checkEnd n w off).Canon := by
  unfold State.checkEnd
  split
  · exact keep_ite (faultAt_wf h) h
  · exact h

theorem tryFence_wf {s : State} {n : Nat} (h : s.Canon) :
    (s.tryFence n).Canon := by
  unfold State.tryFence
  split
  · split
    · exact keep_ite h (keep_ite (checkEnd_wf (canon.updPe (landTo_wf (canon.countSlots (canon.draw h))))) (landTo_wf (canon.countSlots
          (canon.draw h))))
    · exact h
  · exact h

theorem startFence_wf {s : State} {n : Nat} {k : FenceKind} (h : s.Canon) :
    (s.startFence n k).Canon := by
  unfold State.startFence
  split
  · exact h
  · exact keep_ite (tryFence_wf (canon.updPe (landTo_wf (canon.countSlots h)))) (landTo_wf (canon.countSlots h))

theorem endAct_wf {s : State} {n : Nat} (h : s.Canon) :
    (s.endAct n).Canon := by
  unfold State.endAct
  split
  · exact leave_wf h
  · exact h

theorem flowOn_wf {s : State} {n : Nat} {a : Act} {w : Word} {off : Nat} {fl : Flow} (h : s.Canon) :
    (s.flowOn n a w off fl).Canon := by
  unfold State.flowOn
  split
  · exact checkEnd_wf (canon.setAct h)
  · exact checkEnd_wf (canon.setAct h)
  · exact keep_ite (checkEnd_wf (canon.setAct h)) (canon.setAct h)
  · exact startFence_wf (canon.setAct h)
  · exact keep_ite (keep_ite (endAct_wf (landTo_wf (canon.setAct h))) (landTo_wf (canon.setAct h))) (endAct_wf (canon.setAct h))
  · exact keep_ite (canon.setAct h) (checkEnd_wf (canon.setAct h))

theorem issueIn_wf {s back : State} {n t : Nat} {o : Op} {f : Fields} {sem : State → Nat → Act → Fields → Issued} {a : Act} (h : s.Canon) (h1 :
    back.Canon) :
    (s.issueIn back n t o f sem a).Canon := by
  unfold State.issueIn
  extract_lets w off b u
  have hu : u.Canon := canon.setAct h
  refine keep_ite (faultAt_wf hu) (keep_ite (faultAt_wf hu) (keep_ite (faultAt_wf hu) ?_))
  split
  · exact faultAt_wf hu
  · refine keep_ite (faultAt_wf hu) ?_
    split
    · exact faultAt_wf hu
    · refine keep_ite h1 ?_
      extract_lets bad armed effs c landed
      have hlanded : landed.Canon := landTo_wf (canon.setAct (keep_ite (canon.setRfld hu) hu))
      split
      · exact keep_ite (flowOn_wf hlanded) hlanded
      · exact hlanded

theorem issue_wf {s : State} {n : Nat} {o : Op} {f : Fields} {sem : State → Nat → Act → Fields → Issued} (h : s.Canon) :
    (s.issue n o f sem).Canon := by
  unfold State.issue
  extract_lets u back
  have hu : u.Canon := tryFence_wf h
  refine keep_ite hu ?_
  split
  · exact hu
  · next a _ =>
    extract_lets t landed stepped
    refine keep_ite hu ?_
    have hstepped : stepped.Canon := canon.updPe (landTo_wf (canon.countSlots hu))
    split
    · exact keep_ite (issueIn_wf hstepped hu) hstepped
    · exact hstepped

/-! ### Results and flags -/

theorem runOp_wf {n : Nat} {o : Op} {f : Fields} {sem : State → Nat → Act → Fields → Issued} {s : State} (h : s.Canon) :
    OnNext State.Canon (runOp n o f sem s) :=
  canon.onPe h (fun _ h1 => issue_wf h1)

/-! ### The control group -/

theorem execNop_wf {pe : Nat} {w : Word} {s : State} (h : s.Canon) :
    OnNext State.Canon (execNop pe w s) :=
  keep_ite (canon.onPe h fun _ h1 => h1) (runOp_wf h)

/-! ### The fabric -/

theorem resendOne_wf {s : State} {e : Nat} {x : Parked} (h : s.Canon) :
    OnSome State.Canon (s.resendOne e x) := by
  unfold State.resendOne
  extract_lets t r p rd sent
  have ht : t.Canon := canon.updNi h
  have hr : r.2.Canon := keep_ite (P := fun x : Bool × State => x.2.Canon) (canon.microReads ht) ht
  have hsent : OnSome State.Canon sent := by
    refine keep_ite (canon.tokenIn hr) ?_
    split
    · exact onSome_none
    · exact canon.launch hr
  exact keep_ite (onSome_some (afterUe_wf ht hr))
    (keep_ite (onSome_some (canon.log hr)) (onSome_map (fun _ h1 => keep_ite h1 (canon.bumpNi h1)) hsent))

theorem resendNext_wf {s : State} {e : Nat} (h : s.Canon) :
    OnSome State.Canon (s.resendNext e) := by
  unfold State.resendNext
  dsimp only
  split
  · exact onSome_some (((onSome_bind (fun _ => resendOne_wf h) : OnSome State.Canon _) _ ‹_›))
  · exact onSome_findSome (fun _ => resendOne_wf h)

theorem resendParked_wf {s : State} {e : Nat} (h : s.Canon) :
    (s.resendParked e).Canon :=
  keep_ite h (keep_foldl (fun _ _ h1 => keep_getD (resendNext_wf h1) h1) h)

theorem inject_wf {s : State} {e : Nat} (h : s.Canon) :
    (s.inject e).Canon :=
  keep_getD (onSome_or (onSome_findSome (fun _ => canon.sendFormed h)) (onSome_or (keep_ite (onSome_or (resendNext_wf h) (canon.resendWaiting h))
      onSome_none) (onSome_or (onSome_findSome (fun _ => canon.sendUnit h)) (onSome_findSome (fun _ => canon.sendPe h))))) h

/-! ### Routers and links -/

theorem execRouterHop_wf {r c vn : Nat} {s : State} (h : s.Canon) :
    OnNext State.Canon (execRouterHop r c vn s) :=
  canon.onUnit h (fun _ h1 => keep_ite h1 (keep_ite (keep_ite (canon.hopRouter (inject_wf h1)) h1) (canon.hopCross (keep_foldl (fun _ _ h2 =>
      inject_wf h2) h1))))

theorem execLinkRetrain_wf {r p : Nat} {s : State} (h : s.Canon) :
    OnNext State.Canon (execLinkRetrain r p s) :=
  canon.onUnit h (fun _ h1 => keep_ite (canon.tryRetrain h1) h1)

theorem execRetrainPostponeRetry_wf {r p : Nat} {s : State} (h : s.Canon) :
    OnNext State.Canon (execRetrainPostponeRetry r p s) :=
  canon.onUnit h (fun _ h1 => keep_ite (canon.tryRetrain h1) h1)

theorem execLinkDown_wf {r p : Nat} {s : State} (h : s.Canon) :
    OnNext State.Canon (execLinkDown r p s) :=
  canon.onUnit h (fun _ h1 => keep_ite (canon.linkDown h1) h1)

theorem execDieEdgeTrainingDone_wf {r : Nat} {x : Trained} {s : State} (h : s.Canon) :
    OnNext State.Canon (execDieEdgeTrainingDone r x s) :=
  canon.onUnit h (fun _ h1 => keep_ite (canon.trained h1) h1)

/-! ### Network interfaces and shifts -/

theorem takeNack_wf {s : State} {e : Nat} {p : Packet} (h : s.Canon) :
    OnSome State.Canon (s.takeNack e p) := by
  unfold State.takeNack
  split
  · exact keep_ite (onSome_some (canon.logFree h)) (onSome_map (fun _ h1 => resendParked_wf h1) (canon.park h))
  · refine keep_ite (onSome_some (canon.shiftProgress (canon.updNi h))) ?_
    refine keep_ite (onSome_map (fun _ h1 => resendParked_wf h1) (canon.park h)) ?_
    refine keep_ite (onSome_some (canon.unitSend (canon.drainDiscard h))) ?_
    split
    · exact onSome_some (canon.nackSlot (canon.binTrip h))
    · exact onSome_some h

theorem nackArrival_wf {s : State} {e : Nat} (h : s.Canon) :
    (s.nackArrival e).Canon := by
  unfold State.nackArrival
  split
  · exact h
  · exact keep_getD (keep_ite (canon.forwardNack (canon.takeReq h _ ‹_›)) (takeNack_wf (canon.bumpNi (canon.takeReq h _ ‹_›)))) h

theorem bounceArrival_wf {s : State} {e : Nat} (h : s.Canon) :
    (s.bounceArrival e).Canon := by
  unfold State.bounceArrival
  split
  · exact h
  · split
    · exact keep_getD (onSome_map (fun _ h1 => resendParked_wf h1) (canon.park (canon.takeReq h _ ‹_›))) h
    · exact canon.takeReq h _ ‹_›

theorem swapBanks_wf {s : State} {e : Nat} (h : s.Canon) :
    (s.swapBanks e).Canon :=
  keep_ite (keep_foldl (fun _ _ h1 => resendParked_wf h1) (canon.shiftProgress (canon.setRfld (canon.setRfld (canon.setRfld (canon.updNi h))))))
      (canon.shiftProgress (canon.setRfld (canon.setRfld (canon.setRfld (canon.updNi h)))))

theorem shiftGo_wf {s : State} (h : s.Canon) :
    s.shiftGo.Canon :=
  keep_ite (canon.cfgReject h) (swapBanks_wf (keep_foldl (fun _ _ h1 => canon.unitSend h1) (canon.shiftRegs h)))

theorem shiftArrival_wf {s : State} {e : Nat} (h : s.Canon) :
    (s.shiftArrival e).Canon := by
  unfold State.shiftArrival
  split
  · exact h
  · exact keep_ite (canon.takeReq h _ ‹_›) (keep_ite (canon.unitSend (canon.takeReq h _ ‹_›)) (swapBanks_wf (canon.takeReq h _ ‹_›)))

theorem maskShift_wf {s : State} {c : Nat} {off : Bool} (h : s.Canon) :
    (s.maskShift c off).Canon :=
  shiftGo_wf (canon.setRfld (keep_foldl (fun _ _ h1 => canon.setRfld (canon.loadShadow h1)) h))

theorem reroute_wf {s : State} (h : s.Canon) :
    s.reroute.Canon :=
  shiftGo_wf (canon.setRfld (keep_foldl (fun _ _ h1 => canon.setRfld (canon.setReg (canon.writeRoutes h1))) h))

theorem powerShift_wf {s : State} (h : s.Canon) :
    s.powerShift.Canon := by
  unfold State.powerShift
  refine keep_ite h ?_
  extract_lets woken
  have hwoken : woken.Canon := keep_foldl (fun _ _ h1 => canon.wakeDone h1) h
  split
  · exact keep_ite (reroute_wf hwoken) hwoken
  · exact keep_ite (maskShift_wf (canon.setGoal (canon.setClState hwoken))) (maskShift_wf (canon.setGoal hwoken))

/-! ### The lock unit -/

theorem lockAcq_wf {s : State} (h : s.Canon) :
    s.lockAcq.Canon := by
  unfold State.lockAcq
  split
  · exact h
  · next p u hreq =>
    have hu : u.Canon := canon.takeReq h _ hreq
    dsimp only
    split
    · exact boostUpdate_wf (canon.answer (grantLock_wf hu))
    · exact keep_ite (canon.answer (setLock_wf hu))
        (keep_ite (boostUpdate_wf (canon.bumpLk (canon.answer (setLock_wf hu)))) (canon.bumpLk (canon.answer hu)))

theorem lockRel_wf {s : State} (h : s.Canon) :
    s.lockRel.Canon := by
  unfold State.lockRel
  split
  · exact h
  · exact keep_ite (canon.answer (endHold_wf (canon.takeReq h _ ‹_›))) (canon.refuse (canon.lockViolation (canon.takeReq h _ ‹_›)))

theorem lkAcqRead_wf {s : State} {n ep ctx : Nat} {observe : Bool} (h : s.Canon) :
    (s.lkAcqRead n ep ctx observe).2.Canon := by
  unfold State.lkAcqRead
  dsimp only
  split
  · dsimp only
    exact h
  · split
    · exact grantLock_wf h
    · split
      · dsimp only
        exact setLock_wf h
      · dsimp only
        exact h

theorem lkRelWrite_wf {s : State} {n ep ctx : Nat} (h : s.Canon) :
    (s.lkRelWrite n ep ctx).2.Canon := by
  unfold State.lkRelWrite
  dsimp only
  split
  · dsimp only
    exact endHold_wf h
  · dsimp only
    exact canon.lockViolation h

theorem execLkRelWrite_wf {n ep ctx : Nat} {s : State} (h : s.Canon) :
    OnNext State.Canon (execLkRelWrite n ep ctx s) :=
  canon.onLock h (fun _ h1 => canon.relAnswered (lkRelWrite_wf h1))

theorem execLockLeaseExpired_wf {n : Nat} {s : State} (h : s.Canon) :
    OnNext State.Canon (execLockLeaseExpired n s) :=
  canon.onLock h (fun _ h1 => keep_ite (abandon_wf (canon.bumpLk h1)) h1)

/-! ### Context managers -/

theorem cancelOf_wf {s : State} {n k : Nat} {f : MRec → Bool} (h : s.Canon) :
    (s.cancelOf n k f).Canon := by
  unfold State.cancelOf
  refine keep_ite ?_ ?_
  · refine keep_foldl (fun _ _ h1 => keep_ite (canon.unbindLacc h1) h1) ?_
    refine keep_foldl (fun _ _ h1 => canon.orphanFree h1) ?_
    refine canon.refillPe ?_
    refine keep_foldl (fun _ _ h1 => canon.freeFrame h1) ?_
    refine canon.setPe ?_
    refine canon.bumpPe ?_
    split
    · exact keep_ite (leave_wf h) h
    · exact h
  · refine keep_foldl (fun _ _ h1 => canon.orphanFree h1) ?_
    refine canon.refillPe ?_
    refine keep_foldl (fun _ _ h1 => canon.freeFrame h1) ?_
    refine canon.setPe ?_
    refine canon.bumpPe ?_
    split
    · exact keep_ite (leave_wf h) h
    · exact h

theorem cancelPe_wf {s : State} {n k : Nat} (h : s.Canon) :
    (s.cancelPe n k).Canon :=
  cancelOf_wf h

theorem takeKill_wf {s : State} {n k : Nat} (h : s.Canon) :
    (s.takeKill n k).Canon :=
  canon.pressureCheck (keep_ite (canon.voidDefers (cancelPe_wf h)) (canon.updKill (canon.voidDefers (cancelPe_wf h))))

theorem killArrival_wf {s : State} {u : UnitId} {k : Nat} {portKill : State → Nat → Nat → State} (h : s.Canon) (hf : ∀ (u : State) (x y : Nat),
    u.Canon → (portKill u x y).Canon) :
    (s.killArrival u k portKill).Canon := by
  unfold State.killArrival
  split
  · exact h
  · refine keep_ite h ?_
    split
    · exact keep_ite (keep_ite h (keep_ite (canon.setPe h) (keep_ite (canon.setPe h) h))) (keep_ite (canon.pressureCheck (canon.updKill
          (canon.voidDefers (cancelPe_wf (canon.updPe h))))) (keep_ite (canon.pressureCheck (canon.voidDefers (cancelPe_wf (canon.updPe h)))) h))
    · exact canon.pressureCheck (canon.updKill (canon.voidDefers (canon.purgeCm h)))
    · exact canon.pressureCheck (canon.updKill (lockKill_wf (canon.purgeParked h)))
    · exact canon.pressureCheck (canon.updKill (hf _ _ _ h))
    · exact h
    · exact h

theorem execMarkRetransmit_wf {e : Nat} {s : State} (h : s.Canon) :
    OnNext State.Canon (execMarkRetransmit e s) :=
  canon.onEndpoint h (fun _ h1 => canon.redrain (canon.markRetransmit h1))

theorem execDrainDoneArrival_wf {e : Nat} {s : State} (h : s.Canon) :
    OnNext State.Canon (execDrainDoneArrival e s) :=
  canon.onOwner h (fun _ h1 => canon.graphStopDone (canon.drainDone h1))

/-! ### Etryn-X ports -/

theorem portDown_wf {s : State} {p cause : Nat} (h : s.Canon) :
    (s.portDown p cause).Canon :=
  canon.showReplayQ (lockPortDown_wf (keep_foldl (fun _ _ h1 => canon.egressClosed h1) (canon.updPort (canon.setRfld (canon.setPtState
      (canon.flushWindows (keep_foldl (fun _ _ h1 => canon.setVc (canon.setEgress h1)) (canon.domsDown (canon.closeAllRx h)))))))))

theorem ptCmd_wf {s : State} {p cmd : Nat} (h : s.Canon) :
    (s.ptCmd p cmd).Canon :=
  keep_ite (canon.cfgReject h) (keep_ite (canon.beginTraining h) (keep_ite (canon.suspendPort h) (keep_ite (canon.resumePort h) (keep_ite
      (canon.enterRecovery h) (portDown_wf h)))))

theorem execReplayTimeout_wf {p : Nat} {s : State} (h : s.Canon) :
    OnNext State.Canon (execReplayTimeout p s) :=
  canon.onLink h (fun _ h1 => keep_ite (canon.replay h1) h1)

theorem execOpenPacketTimeout_wf {p vn : Nat} {s : State} (h : s.Canon) :
    OnNext State.Canon (execOpenPacketTimeout p vn s) :=
  canon.onLink h (fun _ h1 => canon.openTimeout h1)

theorem execPortTrainDone_wf {p : Nat} {rxrev txrev : Bool} {pol : Nat} {s : State} (h : s.Canon) :
    OnNext State.Canon (execPortTrainDone p rxrev txrev pol s) :=
  canon.onLink h (fun _ h1 => keep_ite (canon.portClosed (canon.setRfld (canon.setRfld (canon.setRfld h1)))) h1)

theorem execPortTrainFail_wf {p cause : Nat} {s : State} (h : s.Canon) :
    OnNext State.Canon (execPortTrainFail p cause s) :=
  canon.onPort h (fun _ h1 => keep_ite (canon.log (canon.setRfld (canon.setPtState h1))) h1)

theorem execPortTrainRetry_wf {p : Nat} {s : State} (h : s.Canon) :
    OnNext State.Canon (execPortTrainRetry p s) :=
  canon.onLink h (fun _ h1 => keep_ite (canon.beginTraining h1) h1)

theorem execBlockLockLost_wf {p : Nat} {s : State} (h : s.Canon) :
    OnNext State.Canon (execBlockLockLost p s) := by
  unfold execBlockLockLost
  exact canon.onLink h (fun _ h1 => canon.enterRecovery h1)

theorem execNoValidFrame_wf {p : Nat} {s : State} (h : s.Canon) :
    OnNext State.Canon (execNoValidFrame p s) := by
  unfold execNoValidFrame
  exact canon.onLink h (fun _ h1 => canon.enterRecovery h1)

theorem execPortRecoveryTimeout_wf {p : Nat} {s : State} (h : s.Canon) :
    OnNext State.Canon (execPortRecoveryTimeout p s) :=
  canon.onPort h (fun _ h1 => keep_ite (canon.log (portDown_wf h1)) h1)

theorem execPortAutoOpen_wf {p : Nat} {s : State} (h : s.Canon) :
    OnNext State.Canon (execPortAutoOpen p s) :=
  canon.onLink h (fun _ h1 => keep_ite (canon.portOpens h1) h1)

theorem execPtCtlTrain_wf {p : Nat} {s : State} (h : s.Canon) :
    OnNext State.Canon (execPtCtlTrain p s) := by
  unfold execPtCtlTrain
  exact canon.onLink h (fun _ h1 => ptCmd_wf h1)

theorem execPtCtlResume_wf {p : Nat} {s : State} (h : s.Canon) :
    OnNext State.Canon (execPtCtlResume p s) := by
  unfold execPtCtlResume
  exact canon.onLink h (fun _ h1 => ptCmd_wf h1)

theorem execPtCtlReset_wf {p : Nat} {s : State} (h : s.Canon) :
    OnNext State.Canon (execPtCtlReset p s) := by
  unfold execPtCtlReset
  exact canon.onLink h (fun _ h1 => ptCmd_wf h1)

theorem execPtOpenGo_wf {p : Nat} {s : State} (h : s.Canon) :
    OnNext State.Canon (execPtOpenGo p s) := by
  unfold execPtOpenGo
  exact canon.onLink h (fun _ h1 => canon.portOpens h1)

theorem execKillArrival_wf {u k : Nat} {s : State} (h : s.Canon) :
    OnNext State.Canon (execKillArrival u k s) :=
  canon.onModule h (fun _ h1 => killArrival_wf h1 (fun _ _ _ h2 => canon.voidHeld h2))

theorem execDrainReqArrival_wf {e src : Nat} {s : State} (h : s.Canon) :
    OnNext State.Canon (execDrainReqArrival e src s) :=
  canon.onOwner h (fun _ h1 => canon.drainReq h1 (fun _ _ _ h2 => canon.voidHeld h2))

/-! ### Matching and dispatch -/

theorem matchTok_wf {s : State} {n : Nat} {t : Token} {searched : Bool} (h : s.Canon) :
    OnSome State.Canon (s.matchTok n t searched) := by
  unfold State.matchTok
  extract_lets e p k base hdr arity u
  have hu : u.Canon := keep_ite h (canon.bumpPe h)
  refine keep_ite (onSome_some (canon.filterDrop h)) (keep_ite (onSome_some (canon.deliver (canon.bumpPe (noteUe_wf h)))) ?_)
  refine keep_ite (onSome_some (canon.badToken h)) (keep_ite (onSome_some (canon.startKill (canon.log h))) ?_)
  refine keep_ite (onSome_some (canon.badToken h)) (keep_ite (onSome_some ?_) (canon.placeTok hu))
  exact keep_ite (canon.poisonedAct hu) (canon.enable hu)

theorem tokenMatch_wf {s : State} {n : Nat} (h : s.Canon) :
    (s.tokenMatch n).Canon := by
  unfold State.tokenMatch
  refine keep_ite h ?_
  split
  · exact canon.fitOr h (matchTok_wf (canon.tick (canon.setPe h)))
  · refine keep_ite h ?_
    split
    · exact h
    · exact keep_ite (canon.filterDrop (canon.tick (canon.setPe h))) (keep_ite (canon.updPe (canon.tick (canon.setPe h))) (canon.fitOr h
          (matchTok_wf (canon.tick (canon.setPe h)))))

theorem lookupReply_wf {s : State} {n : Nat} (h : s.Canon) :
    (s.lookupReply n).Canon := by
  unfold State.lookupReply
  dsimp only
  split
  · exact h
  · refine keep_ite (canon.bump (canon.endSlot (canon.takeReq h _ ‹_›))) ?_
    split
    · exact canon.endSlot (canon.takeReq h _ ‹_›)
    · exact canon.fitOr h (matchTok_wf (canon.updPe (canon.endSlot (canon.takeReq h _ ‹_›))))

theorem dispatchNew_wf {s : State} {n : Nat} {r : ReadyE} {toks : List (Nat × Token)} (h : s.Canon) :
    (s.dispatchNew n r toks).Canon := by
  unfold State.dispatchNew
  have hrun : ∀ a, ((s.countDispatch n r.wait).setAct n a).Canon := fun _ => canon.setAct (canon.countDispatch h)
  exact keep_ite (canon.deliver (noteUe_wf h)) (keep_ite (canon.deliver h) (keep_ite (canon.deliver h) (canon.withSerial (hrun _))))

theorem dispatch_wf {s : State} {n : Nat} (h : s.Canon) :
    (s.dispatch n).Canon := by
  unfold State.dispatch
  extract_lets p
  refine keep_ite h ?_
  split
  · exact h
  · next r _ =>
    extract_lets src noted u
    have hnoted : noted.Canon := canon.noteDepth (canon.setPe h)
    have hu : u.Canon := keep_ite hnoted (canon.pressureCheck hnoted)
    split
    · exact dispatchNew_wf hu
    · split
      · exact hu
      · refine keep_ite (canon.voidRec hu) ?_
        extract_lets low taken filled
        have htaken : taken.Canon := canon.updPe (canon.touchOvf hu)
        have hfilled : filled.Canon := keep_ite (canon.pressureCheck (canon.bumpPe htaken)) htaken
        exact keep_ite (canon.poisonedAct hfilled) (dispatchNew_wf hfilled)
    · split
      · exact hu
      · exact checkEnd_wf (canon.setAct (canon.countDispatch (canon.freeFrame hu)))

theorem preempt_wf {s : State} {n : Nat} (h : s.Canon) :
    (s.preempt n).Canon := by
  unfold State.preempt
  dsimp only
  split
  · exact h
  · split
    · exact keep_ite (landTo_wf h) h
    · refine keep_ite h ?_
      refine keep_ite h ?_
      split
      · exact h
      · exact canon.enqueue (canon.bumpPe (canon.updPe (canon.bumpPe (canon.bumpPe (canon.saveFrame (canon.draw (leave_wf h)))))))
    · exact h

theorem preciseTrap_wf {s : State} {n : Nat} (h : s.Canon) :
    (s.preciseTrap n).Canon := by
  unfold State.preciseTrap
  split
  · exact h
  · split
    · exact landTo_wf h
    · exact h

theorem residueMismatch_wf {s : State} {n slot : Nat} (h : s.Canon) :
    (s.residueMismatch n slot).Canon := by
  unfold State.residueMismatch
  split
  · exact h
  · split
    · exact h
    · extract_lets u
      have hu : u.Canon := landTo_wf (canon.setAct h)
      split
      · exact keep_ite (residueDecide_wf hu) hu
      · exact hu

theorem divkLanding_wf {s : State} {n : Nat} (h : s.Canon) :
    (s.divkLanding n).Canon := by
  unfold State.divkLanding
  split
  · exact h
  · split
    · exact h
    · exact keep_ite (canon.updPe (landTo_wf (canon.countSlots h))) h

theorem lrdLanding_wf {s : State} {n upset : Nat} (h : s.Canon) :
    (s.lrdLanding n upset).Canon := by
  unfold State.lrdLanding
  split
  · exact h
  · split
    · exact h
    · extract_lets read l cyc t landed
      have hlanded : landed.Canon := landTo_wf (canon.countSlots (canon.bumpPe (canon.readLacc h)))
      split
      · exact hlanded
      · refine keep_ite hlanded ?_
        split
        · exact raiseFault_wf hlanded
        · have hdone : ∀ b, ((landed.bumpPe n psLRD).setAct n b).Canon := fun _ => canon.setAct (canon.bumpPe hlanded)
          exact keep_ite (checkEnd_wf (hdone _)) (hdone _)

/-! ## Operations that read stored words -/

/-- Besides, `P` survives the count of an uncorrectable error, which begins with a word or presence code that cannot be read. -/
structure Reads (P : State → Prop) : Prop extends Stable P where
  countUe : ∀ {s u : State} {a : Nat}, P s → (s.eccAt a = .ue ∨ s.presAt a = .lost) → P u → P u.countUe

theorem canonReads : Reads State.Canon where
  toStable := canon
  countUe _ _ h := countUe_wf h

section
variable {P : State → Prop} (hP : Reads P)
include hP


/-! ### Memory targets -/

theorem Reads.readWord {s : State} {e a : Nat} (h : P s) :
    P (s.readWord e a).2.2 := by
  unfold State.readWord
  extract_lets v ctr seen
  have hctr : ∀ u i j, P u → P (ctr u i j) := fun _ _ _ hu => keep_ite (hP.bump hu) (hP.bump hu)
  have hseen : ∀ u ue, P u → P (seen u ue) := fun _ _ hu => keep_ite hu (hP.errAddr hu)
  split
  · exact h
  · dsimp only
    exact hP.log (hseen _ _ (hctr _ _ _ (hP.check nofun (keep_ite (hP.noteCe h) h))))
  · next hue =>
    dsimp only
    exact hP.countUe h (.inl hue) (hP.log (hseen _ _ (hctr _ _ _ (hP.draw h))))
  · exact hctr _ _ _ h

theorem Reads.readPlain {s : State} {e a size : Nat} (h : P s) :
    P (s.readPlain e a size).2.2 := by
  unfold State.readPlain
  extract_lets one x y z
  have hone : ∀ u b, P u → P (one u b).2.2 := fun u b hu =>
    keep_ite (P := fun r : Word × Bool × State => P r.2.2) hu (hP.readWord hu)
  exact keep_ite (P := fun r : Wide × Bool × State => P r.2.2) (hone _ _ (hone _ _ h)) (hone _ _ h)

theorem Reads.targetRead {s : State} {e : Nat} (h : P s) :
    P (s.targetRead e) := by
  unfold State.targetRead
  split
  · exact h
  · split
    · exact hP.refuseTarget (hP.takeMem h _ ‹_›)
    · exact keep_ite (hP.answerValue (hP.takeMem h _ ‹_›)) (hP.answerValue (hP.readPlain (hP.atTarget (hP.takeMem h _ ‹_›))))

theorem Reads.writePlain {s : State} {e a k v : Nat} {poison : Bool} (h : P s) :
    P (s.writePlain e a k v poison) :=
  hP.check mergedEcc_ne_ue (hP.store (keep_ite (hP.readWord h) h))

theorem Reads.targetWrite {s : State} {e : Nat} {same : Bool} (h : P s) :
    P (s.targetWrite e same) := by
  unfold State.targetWrite
  split
  · exact h
  · split
    · exact hP.refuseTarget (hP.takeMem h _ ‹_›)
    · exact keep_ite (hP.collide (hP.atTarget (hP.takeMem h _ ‹_›))) (keep_ite (hP.refuseTarget (hP.atTarget (hP.takeMem h _ ‹_›)))
          (hP.answerStatus (hP.writePlain (hP.atTarget (hP.takeMem h _ ‹_›)))))

theorem Reads.lostPresence {s : State} {e a : Nat} {p : Packet} (h : P s) (hlost : s.presAt a = .lost) :
    P (s.lostPresence e p a) := by
  unfold State.lostPresence
  extract_lets d u
  have hu : P u := hP.log (hP.setDefers (hP.presence nofun (hP.draw h)))
  have hanswer : P (u.answerValue e p (mkWide 0 (Config.badRead a d.1)) true) := hP.answerValue hu
  exact hP.countUe h (.inr hlost) (keep_ite hanswer (hP.errAddr (hP.bump hanswer)))

theorem Reads.serveIread {s : State} {e : Nat} {p : Packet} (h : P s) :
    P (s.serveIread e p) := by
  unfold State.serveIread
  dsimp only
  split
  · exact hP.refuseTarget h
  · split
    · exact hP.lostPresence (hP.atTarget h) ‹_›
    · exact hP.answerValue (hP.readWord (hP.atTarget h))
    · split
      · exact hP.noDefer (hP.atTarget h)
      · exact hP.answer (hP.recordDefer (hP.atTarget h))
    · split
      · exact hP.noDefer (hP.atTarget h)
      · exact hP.answer (hP.recordDefer (hP.atTarget h))

theorem Reads.serveIwrite {s : State} {e : Nat} {p : Packet} {same : Bool} (h : P s) :
    P (s.serveIwrite e p same) := by
  unfold State.serveIwrite
  dsimp only
  split
  · exact hP.refuseTarget h
  · refine keep_ite (hP.collide (hP.atTarget h)) ?_
    split
    · exact hP.lostPresence (hP.atTarget h) ‹_›
    · exact hP.refuseTarget (hP.atTarget h)
    · exact hP.answerStatus (hP.presence nofun (hP.check ((by split <;> nofun)) (hP.store (hP.atTarget h))))
    · exact hP.withRels (hP.answerStatus (hP.presence nofun (hP.check ((by split <;> nofun)) (hP.store (hP.setDefers (hP.atTarget h))))))

theorem Reads.targetIread {s : State} {e : Nat} {same : Bool} (h : P s) :
    P (s.targetIread e same) := by
  unfold State.targetIread
  split
  · exact h
  · split
    · exact keep_ite (hP.serveIread (hP.serveIwrite (hP.dropReq (hP.takeMem h _ ‹_›)))) (hP.serveIread (hP.takeMem h _ ‹_›))
    · exact hP.serveIread (hP.takeMem h _ ‹_›)

theorem Reads.targetIwrite {s : State} {e : Nat} {same : Bool} (h : P s) :
    P (s.targetIwrite e same) := by
  unfold State.targetIwrite
  split
  · exact h
  · exact hP.serveIwrite (hP.takeMem h _ ‹_›)

theorem Reads.targetAtom {s : State} {e : Nat} (h : P s) :
    P (s.targetAtom e) := by
  unfold State.targetAtom
  split
  · exact h
  · split
    · exact hP.refuseTarget (hP.takeMem h _ ‹_›)
    · exact keep_ite (hP.refuseTarget (hP.atTarget (hP.takeMem h _ ‹_›))) (hP.answerValue (hP.check ((by split <;> nofun)) (hP.store (hP.readWord
          (hP.atTarget (hP.takeMem h _ ‹_›))))))

theorem Reads.serveIclr {s : State} {e : Nat} {p : Packet} (h : P s) :
    P (s.serveIclr e p) := by
  unfold State.serveIclr
  dsimp only
  split
  · exact hP.refuseTarget h
  · split
    · exact hP.lostPresence (hP.atTarget h) ‹_›
    · exact hP.answerStatus (hP.presence nofun (hP.atTarget h))
    · exact hP.answerStatus (hP.atTarget h)
    · exact hP.answerStatus (hP.atTarget h)

theorem Reads.targetIclr {s : State} {e : Nat} {same : Bool} (h : P s) :
    P (s.targetIclr e same) := by
  unfold State.targetIclr
  split
  · exact h
  · split
    · exact keep_ite (hP.serveIclr (hP.serveIread (hP.dropReq (hP.takeMem h _ ‹_›)))) (hP.serveIclr (hP.takeMem h _ ‹_›))
    · exact hP.serveIclr (hP.takeMem h _ ‹_›)

theorem Reads.copySeg {s : State} {c g : Nat} (h : P s) :
    P (s.copySeg c g) :=
  keep_foldl (fun _ _ h1 => keep_ite (hP.check nofun (hP.readWord h1)) (hP.readWord h1)) h

theorem Reads.testStart {s : State} {c : Nat} (h : P s) :
    P (s.testStart c) := by
  unfold State.testStart
  refine keep_ite h ?_
  split
  · exact h
  · exact keep_ite (hP.copySeg h) (hP.setRfld (hP.setRfld (hP.setRfld (hP.updTest (hP.copySeg h)))))

end

/-! ## The canonical form of memory over every command -/

/-! ### Memory targets -/

theorem presUe_wf {s : State} {e a : Nat} (h : s.Canon) :
    (s.presUe e a).Canon :=
  countUe_wf (keep_ite h (canon.errAddr (canon.bump h)))

theorem releaseNext_wf {s : State} {e : Nat} {f : Release → Bool} (h : s.Canon) :
    (s.releaseNext e f).Canon := by
  unfold State.releaseNext
  dsimp only
  split
  · exact h
  · split
    · exact h
    · exact keep_ite (afterUe_wf h (canon.readDefer h)) (keep_ite (canon.sendDeferred (canon.readDefer h)) (canon.logFree (canon.readDefer h)))

theorem releaseOne_wf {s : State} {e : Nat} (h : s.Canon) :
    (s.releaseOne e).Canon :=
  releaseNext_wf h

theorem upsetPres_wf {s : State} {e a upset : Nat} {seen : Bool} (h : s.Canon) :
    (s.upsetPres e a upset seen).Canon :=
  keep_ite (keep_ite (presUe_wf (keep_foldl (fun _ _ h1 => setPres_wf h1) h)) (keep_foldl (fun _ _ h1 => setPres_wf h1) h)) (keep_ite (canon.log
      (keep_ite (canon.bump h) (canon.errAddr (canon.bump h)))) h)

theorem copyUe_wf {s : State} {n : Nat} {both : Bool} {f : State → State} (h : s.Canon) (hf : ∀ (u : State), u.Canon → (f u).Canon) :
    (s.copyUe n both f).Canon :=
  keep_ite (countUe_wf (canon.haltPair h)) (hf _ h)

theorem patrol_wf {s : State} {addr upset : Nat} (h : s.Canon) :
    (s.patrol addr upset).Canon := by
  unfold State.patrol
  extract_lets a up mem c swept struck hit n ls k w i bad
  have hup : ∀ u : State, u.Canon → (up u).Canon := fun _ hu => setEcc_wf hu
  split
  · exact canon.strike h
  split
  · have hmem : mem.Canon := keep_ite (upsetPres_wf (hup s h)) (hup s h)
    exact keep_ite (canonReads.readWord hmem) hmem
  split
  · have hswept : swept.Canon := keep_ite (canon.updTest h) h
    have hstruck : struck.Canon := upsetPres_wf (canon.touchScratch (hup swept hswept))
    exact canonReads.readWord (keep_ite (canon.hitRecord hstruck) hstruck)
  split
  · split
    · exact canon.log (canon.check nofun (hup s h))
    · exact copyUe_wf (hup s h) (fun _ h1 => peUe_wf h1)
    · exact hup s h
  · have hbad : bad.Canon := keep_ite (canon.updPe h) h
    exact keep_ite (keep_ite (copyUe_wf hbad (fun _ h1 => peUe_wf h1)) (keep_ite (canon.log hbad) hbad)) h

theorem execRefreshRateCheck_wf {ch rate : Nat} {s : State} (h : s.Canon) :
    OnNext State.Canon (execRefreshRateCheck ch rate s) :=
  canon.onUnit h (fun _ h1 => keep_ite (canon.logFree (canon.setRfld h1)) (canon.setRfld h1))

/-! ### Patches, resets, micro-traps -/

theorem endKills_wf {s : State} {n : Nat} {l : List Nat} (h : s.Canon) :
    (s.endKills n l).Canon :=
  keep_foldl (fun _ _ h1 => takeKill_wf h1) h

theorem peReset_wf {s : State} {n : Nat} (h : s.Canon) :
    (s.peReset n).Canon :=
  canon.pressureCheck (endKills_wf (canon.loadPatches (lockPeReset_wf (canon.updPe (canon.freeFrames h)))))

theorem clusterReset_wf {s : State} {c : Nat} (h : s.Canon) :
    (s.clusterReset c).Canon :=
  clearScratch_wf _ _ _ (keep_foldl (fun _ _ h1 => peReset_wf h1) h)

theorem clReset_wf {s : State} {c : Nat} {v : Word} (h : s.Canon) :
    (s.clReset c v).Canon :=
  keep_ite h (keep_ite (canon.cfgReject h) (keep_ite (clusterReset_wf h) (keep_foldl (fun _ _ h1 => peReset_wf h1) h)))

theorem zeroSecret_wf {s : State} {p : Nat} (h : s.Canon) :
    (s.zeroSecret p).Canon :=
  zeroLs_wf _ _ _ _ (zeroLs_wf _ _ _ _ h)

theorem loadPair_wf {s : State} {p q : Nat} (h : s.Canon) :
    (s.loadPair p q).Canon :=
  zeroSecret_wf (canon.bytes (keep_foldl (fun _ _ h1 => setImem_wf h1) h))

theorem startPair_wf {s : State} {p boot : Nat} (h : s.Canon) :
    (s.startPair p boot).Canon := by
  unfold State.startPair
  split
  · exact canon.setPairState h
  · exact canon.startToken (canon.setPairState (endKills_wf (loadPair_wf (canon.loadPatches (canon.updPe (zeroLs_wf _ _ _ _ (zeroLs_wf _ _ _ _
        (lockPeReset_wf (canon.updPe (canon.freeFrames (canon.setPairState h)))))))))))

theorem restartPair_wf {s : State} {p : Nat} (h : s.Canon) :
    (s.restartPair p).Canon :=
  keep_ite h (keep_ite (canon.cfgReject h) (keep_ite (canon.updPair h) (startPair_wf h)))

theorem resetPair_wf {s : State} {p : Nat} (h : s.Canon) :
    (s.resetPair p).Canon :=
  keep_ite (startPair_wf h) (restartPair_wf h)

theorem anyPeReset_wf {s : State} {n : Nat} (h : s.Canon) :
    (s.anyPeReset n).Canon :=
  keep_ite (peReset_wf h) (resetPair_wf h)

theorem execPeReset_wf {pe : Nat} {s : State} (h : s.Canon) :
    OnNext State.Canon (execPeReset pe s) :=
  canon.onPe h (fun _ h1 => keep_ite (clReset_wf h1) (keep_ite (clReset_wf h1) (resetPair_wf h1)))

theorem execKeeperMismatch_wf {p point : Nat} {s : State} (h : s.Canon) :
    OnNext State.Canon (execKeeperMismatch p point s) :=
  canon.onPair h (fun _ h1 => keep_ite (canon.haltPair h1) h1)

theorem execKeeperZeroiseDone_wf {p : Nat} {s : State} (h : s.Canon) :
    OnNext State.Canon (execKeeperZeroiseDone p s) :=
  canon.onPair h (fun _ h1 => keep_ite (keep_ite (restartPair_wf (canon.updPair (zeroSecret_wf h1))) (canon.updPair (zeroSecret_wf h1))) h1)

theorem execKeeperWdog_wf {p : Nat} {s : State} (h : s.Canon) :
    OnNext State.Canon (execKeeperWdog p s) :=
  canon.onPair h (fun _ h1 => keep_ite (canon.logFree (canon.setSafeReq (canon.updPair h1))) h1)

theorem routineUnit_wf {s : State} {n : Nat} (h : s.Canon) :
    (s.routineUnit n).Canon := by
  unfold State.routineUnit
  split
  · exact h
  · next r _ =>
    dsimp only
    split
    · split
      · next ht =>
        have hspill : OnSome (fun x : State × Nat => x.1.Canon)
            (if r.set < msSets n then s.spillSets n (fun x => s.setOf n x.key == r.set) else none) :=
          keep_ite (canon.spillSets h) onSome_none
        exact canon.updUseq (hspill _ ht)
      · exact canon.updUseq h
    · exact canon.updUseq (canon.sweep h)
    · exact canon.updUseq (canon.sweep h)
    · exact keep_ite (canon.updUseq (releaseNext_wf h)) h
    · exact h
    · exact h

theorem serve_wf {s : State} {n e : Nat} (h : s.Canon) :
    (s.serve n e).Canon := by
  unfold State.serve
  refine keep_ite ?_ (keep_ite (canon.updUseq (canon.updPe (canon.updUseq h))) (keep_ite (canon.updUseq (keep_ite (canon.fillComplete h)
      (canon.shadowCopy h))) (canon.updUseq h)))
  split
  · exact canon.updUseq (cancelOf_wf (canon.updUseq h))
  · exact h

theorem microTrap_wf {s : State} {n : Nat} (h : s.Canon) :
    (s.microTrap n).Canon := by
  unfold State.microTrap
  split
  · exact h
  · exact keep_ite h (serve_wf (canon.bumpPe (canon.updUseq h)))

theorem routineDone_wf {s : State} {n : Nat} (h : s.Canon) :
    (s.routineDone n).Canon := by
  unfold State.routineDone
  extract_lets u t
  have hu : u.Canon := by
    dsimp only [u]
    split
    · exact takeKill_wf h
    · exact takeKill_wf h
    · exact keep_getD (fun x hx => by
        obtain ⟨y, hy, rfl⟩ := Option.map_eq_some_iff.mp hx
        exact canon.spillSets h y hy) h
    · exact h
  have ht : t.Canon := canon.updUseq hu
  refine keep_ite ht ?_
  split
  · exact serve_wf ht
  · exact ht

theorem ucodeFault_wf {s : State} {pe a : Nat} (h : s.Canon) :
    (s.ucodeFault pe a).Canon :=
  anyPeReset_wf (canon.log h)

theorem microFetch_wf {s : State} {pe : Nat} {conds : BitVec 32} {read : Nat} (h : s.Canon) :
    (s.microFetch pe conds read).Canon := by
  unfold State.microFetch
  dsimp only
  split
  · exact ucodeFault_wf h
  · exact routineDone_wf h
  · exact keep_ite (ucodeFault_wf h) (keep_ite (canon.log (canon.setMpc h)) (canon.setMpc h))

theorem execMicroTrap_wf {m : MicroStep} {s : State} (h : s.Canon) :
    OnNext State.Canon (execMicroTrap m s) := by
  unfold execMicroTrap
  refine canon.onPe h fun u hu => ?_
  dsimp only
  split
  · exact keep_ite (microTrap_wf (routineUnit_wf (canon.setMpc hu))) (canon.setMpc hu)
  · exact microFetch_wf hu

/-! ### Power states, sensors, clocks -/

theorem losePower_wf {s : State} {c : Nat} {saved : Bool} (h : s.Canon) :
    (s.losePower c saved).Canon := by
  unfold State.losePower
  extract_lets lost mine off cleared down reset
  have hcleared : cleared.Canon := wf_filter _ _ h
  have hreset : reset.Canon := keep_foldl (fun _ _ h1 => canon.updPe h1) (canon.domsDown hcleared)
  exact keep_ite (canon.log hreset) hreset

theorem fenceDone_wf {s : State} {c : Nat} (h : s.Canon) :
    (s.fenceDone c).Canon :=
  keep_ite (canon.setGoal (canon.setClState (canon.setRfld (losePower_wf (keep_ite (saveCluster_wf _ _ (canon.pressureCheck (canon.bulkSpill h)))
      (canon.pressureCheck (canon.bulkSpill h))))))) h

theorem refillImem_wf {s : State} {addr key n : Nat} (h : s.Canon) :
    (s.refillImem addr key n).Canon := by
  induction n generalizing s addr key with
  | zero => exact h
  | succ n ih =>
    have hw := setImem_wf (n := key / 16384) (w := key % 16384) (v := (s.readWord 64 addr).1) (canonReads.readWord (e := 64) (a := addr) h)
    exact ih (keep_ite (canon.updPe hw) hw)

theorem wakeCluster_wf {s : State} {c : Nat} (h : s.Canon) :
    (s.wakeCluster c).Canon := by
  unfold State.wakeCluster
  extract_lets loaded filled restored woken
  have hloaded : loaded.Canon := keep_foldl (fun _ _ h1 => canon.loadPatches h1) (canon.setClState h)
  have hfilled : filled.Canon := keep_foldl (fun _ _ h1 => keep_ite (refillImem_wf h1) h1) hloaded
  have hrestored : restored.Canon := keep_ite (restoreCluster_wf _ _ hfilled) hfilled
  have hwoken : woken.Canon := keep_foldl (fun _ _ h1 => canon.refillPe (canon.updPe h1)) hrestored
  exact keep_ite hfilled (powerShift_wf (canon.pressureCheck (canon.setGoal hwoken)))

theorem wakeRequest_wf {s : State} {c : Nat} (h : s.Canon) :
    (s.wakeRequest c).Canon :=
  keep_ite (wakeCluster_wf h) (keep_ite (powerShift_wf (canon.setGoal (canon.setClState (canon.stopSpill h)))) h)

theorem reqActive_wf {s : State} {c : Nat} (h : s.Canon) :
    (s.reqActive c).Canon :=
  keep_ite (canon.setGoal (canon.leaveFreewheel (canon.setRfld h))) (keep_ite (canon.setGoal (canon.setRfld h)) (wakeRequest_wf (canon.setRfld
      h)))

theorem reqFreewheel_wf {s : State} {c : Nat} (h : s.Canon) :
    (s.reqFreewheel c).Canon :=
  keep_ite (canon.setGoal (canon.setRfld h)) (wakeRequest_wf (canon.setRfld h))

theorem reqOff_wf {s : State} {c : Nat} (h : s.Canon) :
    (s.reqOff c).Canon :=
  keep_ite (powerShift_wf (canon.setGoal (canon.setRfld h))) (canon.setRfld h)

theorem pwrWrite_wf {s : State} {c : Nat} {v : Word} (h : s.Canon) :
    (s.pwrWrite c v).Canon :=
  keep_ite (canon.cfgReject h) (keep_ite (reqActive_wf (canon.setRfld (canon.setRfld (canon.setRfld h)))) (keep_ite (reqFreewheel_wf
      (canon.setRfld (canon.setRfld (canon.setRfld h)))) (reqOff_wf (canon.setRfld (canon.setRfld (canon.setRfld h))))))

theorem execThermalGovernorTick_wf {s : State} (h : s.Canon) :
    OnNext State.Canon (execThermalGovernorTick s) :=
  canon.onModule h (fun _ h1 => canon.govern (canon.draw h1))

theorem thermalKick_wf {s : State} {d : Nat} (h : s.Canon) :
    (s.thermalKick d).Canon :=
  keep_ite (kickstandEntry_wf h) h

theorem execRefclkLost_wf {s : State} (h : s.Canon) :
    OnNext State.Canon (execRefclkLost s) :=
  canon.onModule h (fun _ h1 => keep_ite (canon.logFree (canon.setPw h1)) (canon.setPw h1))

theorem execRefclkRestored_wf {s : State} (h : s.Canon) :
    OnNext State.Canon (execRefclkRestored s) :=
  canon.onModule h (fun _ h1 => keep_ite (canon.logFree (canon.setPw h1)) (canon.setPw h1))

theorem execPpsLockLost_wf {s : State} (h : s.Canon) :
    OnNext State.Canon (execPpsLockLost s) :=
  canon.onModule h (fun _ h1 => canon.setPw (canon.setRfld h1))

/-! ### Clock crossings and the log -/

theorem execCreditResetDone_wf {a : Nat} {s : State} (h : s.Canon) :
    OnNext State.Canon (execCreditResetDone a s) := by
  unfold execCreditResetDone
  exact canon.onModule h (fun _ h1 => canon.creditReset h1)

theorem execBeaconLaunch_wf {s : State} (h : s.Canon) :
    OnNext State.Canon (execBeaconLaunch s) :=
  canon.onModule h (fun _ h1 => keep_ite h1 h1)

/-! ### Register accesses -/

theorem mcRead_wf {s : State} {a : Nat} (h : s.Canon) :
    (s.mcRead a).2.Canon := by
  unfold State.mcRead
  split
  · exact lkAcqRead_wf h
  · exact canon.regRead h

theorem unbindNow_wf {s : State} {n i : Nat} (h : s.Canon) :
    (s.unbindNow n i).Canon := by
  unfold State.unbindNow
  dsimp only
  split
  · exact canon.unbindLacc h
  · exact canon.unbindLacc (landKept_wf (canon.setAct h))

theorem unbindWrite_wf {s : State} {n : Nat} {v : Word} (h : s.Canon) :
    (s.unbindWrite n v).Canon :=
  keep_foldl (fun _ _ h1 => unbindNow_wf h1) h

theorem shiftWrite_wf {s : State} {v : Word} (h : s.Canon) :
    (s.shiftWrite v).Canon :=
  keep_ite (shiftGo_wf (keep_ite h (canon.setRfld h))) (keep_ite h (canon.setRfld h))

theorem leaseWrite_wf {s : State} {v : Word} (h : s.Canon) :
    (s.leaseWrite v).Canon :=
  keep_ite h (setLock_wf h)

theorem pairCtlWrite_wf {s : State} {p : Nat} {v : Word} (h : s.Canon) :
    (s.pairCtlWrite p v).Canon :=
  keep_ite (canon.haltCmd (canon.writeFields h)) (keep_ite (restartPair_wf (canon.writeFields h)) (canon.writeFields h))

theorem clWrite_wf {s : State} {m : Master} {c q a : Nat} {v : Word} (h : s.Canon) :
    (s.clWrite m c q a v).Canon := by
  unfold State.clWrite
  refine keep_ite (canon.lockWrite h) ?_
  refine keep_ite (pwrWrite_wf h) ?_
  refine keep_ite (clReset_wf h) ?_
  refine keep_ite (canon.retWrite h) ?_
  refine keep_ite (canon.creditWrite h) ?_
  refine keep_ite (canon.ctxqSel h) ?_
  refine keep_ite (canon.portCtlWrite h) ?_
  refine keep_ite (unbindWrite_wf h) ?_
  split
  · exact canon.writeFields h
  · exact h
  · exact canon.cfgReject h

theorem hubWrite_wf {s : State} {m : Master} {b q a : Nat} {v : Word} (h : s.Canon) :
    (s.hubWrite m b q a v).Canon := by
  unfold State.hubWrite
  refine keep_ite (canon.lockWrite h) ?_
  refine keep_ite (shiftWrite_wf h) ?_
  refine keep_ite (canon.pstatSel h) ?_
  refine keep_ite (canon.pressWrite h) ?_
  refine keep_ite (canon.lkSel h) ?_
  refine keep_ite (leaseWrite_wf h) ?_
  refine keep_ite (keep_ite (canon.relAnswered (lkRelWrite_wf h)) h) ?_
  refine keep_ite (canon.domSel h) ?_
  refine keep_ite (pairCtlWrite_wf h) ?_
  refine keep_ite (pairCtlWrite_wf h) ?_
  refine keep_ite (canon.safeRest (canon.writeFields h)) ?_
  refine keep_ite (canon.creditWrite h) ?_
  refine keep_ite (canon.evtWrite h) ?_
  refine keep_ite (canon.atLink h (fun _ h1 => ptCmd_wf h1)) ?_
  refine keep_ite ?_ ?_
  · split
    · exact keep_ite (canon.atLink (canon.writeFields h) (fun _ h1 => canon.portOpens h1)) (canon.writeFields h)
    · exact h
  · refine keep_ite (canon.mapCommit h) ?_
    refine keep_ite (canon.stageWrite h) ?_
    split
    · exact canon.writeFields h
    · exact h
    · exact canon.cfgReject h

theorem regWrite_wf {s : State} {m : Master} {addr : Nat} {v : Word} (h : s.Canon) :
    (s.regWrite m addr v).Canon :=
  keep_ite h (keep_ite (canon.cfgReject h) (keep_ite (keep_ite (canon.dcqFlush (canon.wakeFor h)) (canon.wakeFor h)) (keep_ite
      (canon.statCtlWrite (canon.wakeFor h)) (keep_ite (clWrite_wf (canon.wakeFor h)) (hubWrite_wf (canon.wakeFor h))))))

theorem execRegisterWrite_wf {r : RegAt} {v : Word} {s : State} (h : s.Canon) :
    OnNext State.Canon (execRegisterWrite r v s) :=
  canon.onModule h (fun _ h1 => canon.hwSets (regWrite_wf h1))

theorem execRclRead_wf {r : RegAt} {s : State} (h : s.Canon) :
    OnNext State.Canon (execRclRead r s) :=
  canon.onModule h (fun _ h1 => canon.hwSets (mcRead_wf h1))

theorem execLockBitSet_wf {a : Nat} {s : State} (h : s.Canon) :
    OnNext State.Canon (execLockBitSet a s) :=
  canon.onModule h (fun _ h1 => keep_ite (regWrite_wf h1) h1)

theorem execLockBitUnlock_wf {a : Nat} {s : State} (h : s.Canon) :
    OnNext State.Canon (execLockBitUnlock a s) :=
  canon.onModule h (fun _ h1 => keep_ite (regWrite_wf h1) h1)

theorem execStatOvfClear_wf {a : Nat} {s : State} (h : s.Canon) :
    OnNext State.Canon (execStatOvfClear a s) :=
  canon.onModule h (fun _ h1 => keep_ite (regWrite_wf h1) h1)

theorem execMcEvtClear_wf {s : State} (h : s.Canon) :
    OnNext State.Canon (execMcEvtClear s) := by
  unfold execMcEvtClear
  exact canon.onModule h (fun _ h1 => regWrite_wf h1)

/-! ### Graph images -/

theorem placeReg_wf {s : State} {a v : Nat} (h : s.Canon) :
    (s.placeReg a v).Canon :=
  regWrite_wf h

theorem placeClusters_wf {s : State} (h : s.Canon) :
    s.placeClusters.Canon :=
  keep_foldl (fun _ _ h1 => keep_ite (keep_foldl (fun _ _ h2 => placeReg_wf h2) (placeReg_wf (placeReg_wf h1))) (placeReg_wf (placeReg_wf h1))) h

theorem putPlain_wf {s : State} {a : Nat} {l : List Byte} (h : s.Canon) :
    (s.putPlain a l).Canon :=
  keep_foldl (fun _ _ h1 => keep_ite h1 (putBytes_wf _ _ _ h1)) h

theorem putImem_wf {s : State} {g : GSec} (h : s.Canon) :
    (s.putImem g).Canon :=
  canon.setMc (putBytes_wf _ _ _ (canon.updPe (keep_foldl (fun _ _ h1 => setImem_wf h1) h)))

theorem putFull_wf {s : State} {g : GSec} (h : s.Canon) :
    (s.putFull g).Canon :=
  keep_foldl (fun _ _ h1 => canon.fillWord h1) (putBytes_wf _ _ _ h)

theorem putSection_wf {s : State} {g : GSec} (h : s.Canon) :
    (s.putSection g).Canon :=
  keep_ite (putImem_wf h) (keep_ite (putBytes_wf _ _ _ h) (keep_ite (putPlain_wf h) (keep_ite (putFull_wf h) (keep_ite (putPlain_wf h) h))))

theorem graphRun_wf {s : State} (h : s.Canon) :
    s.graphRun.Canon := by
  unfold State.graphRun
  split
  · exact h
  · extract_lets l used placed set put locked rooted started logged
    have hset : set.Canon := keep_foldl (fun _ _ h1 => keep_foldl (fun _ _ h2 => regWrite_wf h2) h1) (placeClusters_wf h)
    have hput : put.Canon := keep_foldl (fun _ _ h1 => putSection_wf h1) (canon.setMc hset)
    have hlocked : locked.Canon := keep_foldl (fun _ _ h1 => regWrite_wf h1) hput
    have hrooted : rooted.Canon := keep_foldl (fun _ _ h1 => canon.makeRoot h1) hlocked
    have hstarted : started.Canon := keep_foldl (fun _ _ h1 => canon.sendStarts h1) hrooted
    exact keep_ite h (canon.respond (canon.setMc (canon.log hstarted)))

theorem graphStart_wf {s : State} {q : McAsk} (h : s.Canon) :
    (s.graphStart q).Canon :=
  keep_ite (canon.respond h) (keep_ite (canon.respond (canon.logFree (canon.logInvalid h))) (graphRun_wf (keep_foldl (fun _ _ h1 => keep_ite
      (keep_ite (reqActive_wf h1) h1) (keep_ite (reqOff_wf h1) h1)) (canon.setMc (canon.takeCopy h)))))

theorem execNackArrival_wf {e : Nat} {s : State} (h : s.Canon) :
    OnNext State.Canon (execNackArrival e s) :=
  canon.onEndpoint h (fun _ h1 => graphRun_wf (powerShift_wf (nackArrival_wf h1)))

theorem execMarkAckArrival_wf {e : Nat} {s : State} (h : s.Canon) :
    OnNext State.Canon (execMarkAckArrival e s) :=
  canon.onEndpoint h (fun _ h1 => graphRun_wf (powerShift_wf (canon.markAckArrival h1)))

theorem execShiftDoneArrival_wf {s : State} (h : s.Canon) :
    OnNext State.Canon (execShiftDoneArrival s) :=
  canon.onModule h (fun _ h1 => graphRun_wf (powerShift_wf (canon.shiftDoneArrival h1)))

theorem execFenceDone_wf {c : Nat} {s : State} (h : s.Canon) :
    OnNext State.Canon (execFenceDone c s) :=
  canon.onCluster h (fun _ h1 => graphRun_wf (fenceDone_wf h1))

/-! ### Power input and start-up -/

theorem off_wf {s : State} (h : s.Canon) :
    s.off.Canon :=
  reset_wf

theorem hubLost_wf {s : State} {keep : Nat → Bool} (h : s.Canon) :
    (s.hubLost keep).Canon :=
  reset_wf

theorem softAbort_wf {s : State} (h : s.Canon) :
    s.softAbort.Canon :=
  keep_ite (off_wf h) h

theorem vinDip_wf {s : State} {a b : Nat} (h : s.Canon) :
    (s.vinDip a b).Canon :=
  keep_ite h (kickstandEntry_wf (canon.setVin h))

theorem beginShutdown_wf {s : State} (h : s.Canon) :
    s.beginShutdown.Canon :=
  keep_ite h (keep_ite (off_wf h) (canon.driveLands (canon.setMc (keep_foldl (fun _ _ h1 => canon.setRfld h1) (keep_ite (canon.noticeAll
      (canon.setRfld h)) (diesOff_wf (canon.noticeAll (canon.setRfld h))))))))

theorem endShutdown_wf {s : State} (h : s.Canon) :
    s.endShutdown.Canon :=
  off_wf (keep_ite (canon.writeRepairs (canon.setMc (keep_ite h (canon.draw h)))) (canon.setMc (keep_ite h (canon.draw h))))

theorem applyRegs_wf {s : State} {f : Nat → Bool} (h : s.Canon) :
    (s.applyRegs f).Canon :=
  keep_foldl (fun _ _ h1 => regWrite_wf h1) h

theorem keeperSettings_wf {s : State} (h : s.Canon) :
    s.keeperSettings.Canon := by
  unfold State.keeperSettings
  refine regWrite_wf ?_
  refine canon.safeRest ?_
  refine keep_foldl (fun _ _ h1 => placeReg_wf h1) ?_
  refine keep_foldl ?_ (applyRegs_wf (canon.loadRepairs h))
  intro _ _ h1
  split
  · exact regWrite_wf (canon.setRfld h1)
  · exact h1

theorem keeperStart_wf {s : State} {boot : Nat} (h : s.Canon) :
    (s.keeperStart boot).Canon := by
  unfold State.keeperStart
  dsimp only
  exact keep_ite (canon.logFree (canon.setPairState (canon.setPairState (canon.draw h)))) (startPair_wf (startPair_wf (canon.writeDesc
      (canon.setCtx (canon.draw h)))))

theorem applySettings_wf {s : State} (h : s.Canon) :
    s.applySettings.Canon :=
  keep_foldl (fun _ _ h1 => regWrite_wf h1) (keep_foldl (fun _ _ h1 => regWrite_wf (regWrite_wf (regWrite_wf h1))) (applyRegs_wf h))

theorem startOption_wf {s : State} (h : s.Canon) :
    s.startOption.Canon :=
  keep_ite (graphStart_wf h) h

theorem startHub_wf {s : State} {t boot : Nat} (h : s.Canon) :
    (s.startHub t boot).Canon := by
  unfold State.startHub
  extract_lets hub beacon memory good dies clusters base applied ports
  have hhub : hub.Canon := canon.setRfld (canon.atTime h)
  have hbeacon : beacon.Canon := canon.withBeacon hhub
  have hmemory : memory.Canon := keep_foldl (fun _ _ h1 => canon.setRfld h1) (canon.atTime hbeacon)
  have hgood : good.Canon := canon.setMc (canon.setRfld (canon.atTime hmemory))
  have hdies : dies.Canon := keeperSettings_wf (keep_foldl (fun _ _ h1 => canon.loadPatch h1) (canon.diesUp hgood))
  have hclusters : clusters.Canon := placeClusters_wf (canon.atTime hdies)
  have happlied : applied.Canon := applySettings_wf (canon.loadRoutes (placeReg_wf hclusters))
  have hports : ports.Canon := keep_foldl (fun _ _ h1 => canon.beginTraining (canon.atTime h1)) happlied
  exact startOption_wf (keeperStart_wf (canon.atTime (canon.setPw hports)))

theorem startUp_wf {s : State} {t boot : Nat} (h : s.Canon) :
    (s.startUp t boot).Canon := by
  unfold State.startUp
  extract_lets booted images src told clocked
  have hbooted : booted.Canon := canon.bootRom (canon.setRfld (canon.atTime (canon.setMc h)))
  have himages : images.Canon := canon.readImages (canon.atTime hbooted)
  have htold : told.Canon := keep_ite (canon.log (canon.withEv himages)) himages
  have hclocked : clocked.Canon := keep_ite htold (canon.logFree htold)
  exact keep_ite hbooted (keep_ite hclocked (startHub_wf hclocked))

theorem lateDies_wf {s : State} (h : s.Canon) :
    s.lateDies.Canon := by
  unfold State.lateDies
  exact keep_ite (canon.setPw h) (kickstandEntry_wf (keep_foldl (fun _ _ h1 => canon.logFree h1) (canon.setPw h)))

theorem powerOn_wf {s : State} (h : s.Canon) :
    s.powerOn.Canon := by
  unfold State.powerOn
  exact lateDies_wf (startUp_wf (canon.setMc (canon.setPw h)))

theorem moduleReset_wf {s : State} (h : s.Canon) :
    s.moduleReset.Canon :=
  keep_ite h (startUp_wf (canon.driveLands (canon.setMc (hubLost_wf h))))

theorem standby_wf {s : State} (h : s.Canon) :
    s.standby.Canon := by
  unfold State.standby
  refine canon.driveLands ?_
  refine canon.setMc ?_
  refine canon.setRfld ?_
  refine canon.setRfld ?_
  refine hubLost_wf ?_
  split
  · exact keep_ite (canon.endSession h) (canon.setMc h)
  · exact h

theorem zeroRegions_wf {s : State} (h : s.Canon) :
    s.zeroRegions.Canon :=
  keep_foldl (fun _ _ h1 => zeroMem_wf _ _ _ h1) (zeroMem_wf _ _ _ h)

theorem warmRun_wf {s : State} (h : s.Canon) :
    s.warmRun.Canon :=
  startOption_wf (keeperStart_wf (applyRegs_wf (canon.loadRoutes (placeClusters_wf (canon.atTime (canon.diesUp (canon.setRfld (canon.keeperReset
      (canon.setMc (zeroRegions_wf (canon.setMc (loseDies_wf _ (dropHolders_wf (canon.setMc (canon.noticeAll h)))))))))))))))

theorem warmReset_wf {s : State} (h : s.Canon) :
    s.warmReset.Canon :=
  keep_ite (warmRun_wf h) (keep_ite (startHub_wf (canon.setMc h)) (canon.logFree h))

theorem kickExit_wf {s : State} (h : s.Canon) :
    s.kickExit.Canon := by
  unfold State.kickExit
  extract_lets t routed up started back opened
  have hup : up.Canon := canon.setRfld (canon.atTime (canon.loadRoutes (canon.diesUp h)))
  have hstarted : started.Canon := keep_ite (graphStart_wf hup) hup
  have hback : ∀ u p, u.Canon → (back u p).Canon := fun _ _ hu => keep_ite hu (keep_ite (canon.resumePort hu) (canon.heldPort hu))
  have hopened : opened.Canon := keep_foldl (fun _ p h1 => canon.atLink h1 fun u h2 =>
    keep_ite (canon.portNotice (hback u p h2)) (hback u p h2)) hstarted
  exact canon.setMc hopened

theorem autoExit_wf {s : State} {bit : Nat} (h : s.Canon) :
    (s.autoExit bit).Canon :=
  keep_ite (kickExit_wf h) h

theorem vinRecover_wf {s : State} {a b : Nat} (h : s.Canon) :
    (s.vinRecover a b).Canon :=
  keep_ite h (autoExit_wf (canon.setVin h))

theorem tempExit_wf {s : State} (h : s.Canon) :
    s.tempExit.Canon :=
  keep_ite (autoExit_wf h) h

theorem dieFault_wf {s : State} {d : Nat} (h : s.Canon) :
    (s.dieFault d).Canon :=
  keep_ite (kickstandEntry_wf (canon.logFree h)) (keep_ite (canon.setPw h) h)

theorem idle_wf {s : State} (h : s.Canon) :
    s.idle.Canon :=
  keep_ite (powerOn_wf h) (keep_ite (endShutdown_wf h) (keep_ite (reroute_wf h) h))

theorem execVinUndervolt_wf {a b : Nat} {s : State} (h : s.Canon) :
    OnNext State.Canon (execVinUndervolt a b s) :=
  canon.onModule h (fun _ h1 => keep_ite h1 (beginShutdown_wf (canon.setVin h1)))

theorem execHoldupFail_wf {s : State} (h : s.Canon) :
    OnNext State.Canon (execHoldupFail s) :=
  canon.onModule h (fun _ h1 => keep_ite (beginShutdown_wf (canon.setRfld (canon.setVin h1))) h1)

theorem execVinSurge_wf {s : State} (h : s.Canon) :
    OnNext State.Canon (execVinSurge s) :=
  canon.onModule h (fun _ h1 => keep_ite (canon.logFree h1) h1)

theorem execHoldupCharged_wf {on : Bool} {s : State} (h : s.Canon) :
    OnNext State.Canon (execHoldupCharged on s) :=
  canon.onModule h (fun _ h1 => keep_ite (canon.setRfld h1) h1)

theorem execRepairRecordUpdate_wf {s : State} (h : s.Canon) :
    OnNext State.Canon (execRepairRecordUpdate s) :=
  canon.onModule h (fun _ h1 => keep_ite (canon.writeRepairs h1) h1)

/-! ### The mailbox -/

theorem windowWrite_wf {s : State} {ep o : Nat} {l : List Word} (h : s.Canon) :
    (s.windowWrite ep o l).Canon := by
  induction l generalizing s o with
  | nil => exact h
  | cons v r ih =>
    unfold State.windowWrite
    exact ih (keep_ite (canon.doorbell h) (canon.updWindow h))

theorem mgtMailbox_wf {s : State} {p : Packet} (h : s.Canon) :
    (s.mgtMailbox p).Canon := by
  unfold State.mgtMailbox
  extract_lets a l ok
  refine keep_ite h (keep_ite (canon.mgtDeny h) ?_)
  split
  · exact canon.mgtDeny h
  · next u hopen =>
    have hu : u.Canon := canon.openWindow h u hopen
    refine keep_ite (canon.mgtDone (windowWrite_wf hu)) ?_
    dsimp only
    split
    · exact canon.mgtDone (canon.updWindow hu)
    · exact canon.updWindow hu

theorem mgtAccess_wf {s : State} {e : Nat} {p : Packet} (h : s.Canon) :
    (s.mgtAccess e p).Canon :=
  keep_ite (mgtMailbox_wf h) (canon.mgtRegs h)

theorem execNiPacketEject_wf {e : Nat} {s : State} (h : s.Canon) :
    OnNext State.Canon (execNiPacketEject e s) :=
  canon.onEndpoint h (fun _ h1 => canon.ejectOne h1 (fun _ _ h2 => mgtAccess_wf h2))

/-! ### Commands of the MC -/

theorem readList_wf {s : State} {l : List Nat} (h : s.Canon) :
    (s.readList l).2.Canon := by
  induction l generalizing s with
  | nil => exact h
  | cons a r ih => exact ih (mcRead_wf h)

theorem regReadCmd_wf {s : State} {q : McAsk} {d : List Byte} (h : s.Canon) :
    (s.regReadCmd q d).Canon :=
  keep_ite (canon.respond h) (keep_ite (canon.respond (readList_wf h)) (canon.respond h))

theorem portCmd_wf {s : State} {q : McAsk} {d : List Byte} (h : s.Canon) :
    (s.portCmd q d).Canon :=
  keep_ite (canon.respond h) (keep_ite (canon.respond h) (keep_ite (canon.done (canon.atLink h (fun _ h1 => canon.portOpens h1))) (keep_ite
      (canon.done (canon.atLink h (fun _ h1 => ptCmd_wf h1))) (canon.respond h))))

theorem graphStartCmd_wf {s : State} {q : McAsk} {d : List Byte} (h : s.Canon) :
    (s.graphStartCmd q d).Canon :=
  keep_ite (canon.respond h) (graphStart_wf h)

theorem kickEnter_wf {s : State} {q : McAsk} {d : List Byte} (h : s.Canon) :
    (s.kickEnter q d).Canon :=
  canon.plain h (fun _ h1 => kickstandEntry_wf h1)

theorem kickLeave_wf {s : State} {q : McAsk} {d : List Byte} (h : s.Canon) :
    (s.kickLeave q d).Canon :=
  canon.plain h (fun _ h1 => kickExit_wf h1)

theorem warmCmd_wf {s : State} {q : McAsk} {d : List Byte} (h : s.Canon) :
    (s.warmCmd q d).Canon :=
  canon.plain h (fun _ h1 => warmReset_wf h1)

theorem standbyCmd_wf {s : State} {q : McAsk} {d : List Byte} (h : s.Canon) :
    (s.standbyCmd q d).Canon :=
  canon.plain h (fun _ h1 => standby_wf h1)

theorem keeperCtl_wf {s : State} {q : McAsk} {d : List Byte} (h : s.Canon) :
    (s.keeperCtl q d).Canon :=
  keep_ite (canon.respond h) (keep_ite (canon.respond h) (keep_ite (keep_ite (canon.done (canon.haltCmd h)) (canon.respond (canon.haltCmd h)))
      (keep_ite (canon.respond (restartPair_wf h)) (canon.done (restartPair_wf h)))))

theorem imgEnd_wf {s : State} {q : McAsk} {d : List Byte} (h : s.Canon) :
    (s.imgEnd q d).Canon := by
  unfold State.imgEnd
  split
  · exact canon.respond h
  · exact keep_ite (canon.respond h) (keep_ite (canon.respond (canon.setMc (canon.flashErase (canon.setMc h)))) (keep_ite (canon.done
        (canon.setMc h)) (startUp_wf (canon.done (canon.setMc h)))))

theorem zeroKeepers_wf {s : State} (h : s.Canon) :
    s.zeroKeepers.Canon :=
  keep_foldl (fun _ _ h1 => canon.updPe (zeroLs_wf _ _ _ _ h1)) h

theorem retire_wf {s : State} (h : s.Canon) :
    s.retire.Canon := by
  unfold State.retire
  refine canon.setMc ?_
  refine zeroKeepers_wf ?_
  split
  · exact keep_ite h (canon.graphKill h)
  · exact h

theorem lcRetire_wf {s : State} {q : McAsk} {d : List Byte} (h : s.Canon) :
    (s.lcRetire q d).Canon :=
  keep_ite (canon.respond h) (keep_ite (canon.respond (canon.spendLc h)) (canon.lcDone (retire_wf (canon.spendLc h))))

theorem execGetInfo_wf {r : McReq} {s : State} (h : s.Canon) :
    OnNext State.Canon (execGetInfo r s) :=
  canon.onModule h (fun _ h1 => canon.mcRun h1 (fun _ _ _ h2 => canon.getInfo h2))

theorem execGetSensors_wf {r : McReq} {s : State} (h : s.Canon) :
    OnNext State.Canon (execGetSensors r s) :=
  canon.onModule h (fun _ h1 => canon.mcRun h1 (fun _ _ _ h2 => canon.getSensors h2))

theorem execLogRead_wf {r : McReq} {s : State} (h : s.Canon) :
    OnNext State.Canon (execLogRead r s) :=
  canon.onModule h (fun _ h1 => canon.mcRun h1 (fun _ _ _ h2 => canon.logRead h2))

theorem execRegRead_wf {r : McReq} {s : State} (h : s.Canon) :
    OnNext State.Canon (execRegRead r s) :=
  canon.onModule h (fun _ h1 => canon.mcRun h1 (fun _ _ _ h2 => regReadCmd_wf h2))

theorem execAttest_wf {r : McReq} {s : State} (h : s.Canon) :
    OnNext State.Canon (execAttest r s) :=
  canon.onModule h (fun _ h1 => canon.mcRun h1 (fun _ _ _ h2 => canon.attest h2))

theorem execPortCmd_wf {r : McReq} {s : State} (h : s.Canon) :
    OnNext State.Canon (execPortCmd r s) :=
  canon.onModule h (fun _ h1 => canon.mcRun h1 (fun _ _ _ h2 => portCmd_wf h2))

theorem execGraphStart_wf {r : McReq} {s : State} (h : s.Canon) :
    OnNext State.Canon (execGraphStart r s) :=
  canon.onModule h (fun _ h1 => canon.mcRun h1 (fun _ _ _ h2 => graphStartCmd_wf h2))

theorem execGraphStop_wf {r : McReq} {s : State} (h : s.Canon) :
    OnNext State.Canon (execGraphStop r s) :=
  canon.onModule h (fun _ h1 => canon.mcRun h1 (fun _ _ _ h2 => canon.graphStopCmd h2))

theorem execKickstandEnter_wf {r : McReq} {s : State} (h : s.Canon) :
    OnNext State.Canon (execKickstandEnter r s) :=
  canon.onModule h (fun _ h1 => canon.mcRun h1 (fun _ _ _ h2 => kickEnter_wf h2))

theorem execKickstandExit_wf {r : McReq} {s : State} (h : s.Canon) :
    OnNext State.Canon (execKickstandExit r s) :=
  canon.onModule h (fun _ h1 => canon.mcRun h1 (fun _ _ _ h2 => kickLeave_wf h2))

theorem execWarmReset_wf {r : McReq} {s : State} (h : s.Canon) :
    OnNext State.Canon (execWarmReset r s) :=
  canon.onModule h (fun _ h1 => canon.mcRun h1 (fun _ _ _ h2 => warmCmd_wf h2))

theorem execStandbyEnter_wf {r : McReq} {s : State} (h : s.Canon) :
    OnNext State.Canon (execStandbyEnter r s) :=
  canon.onModule h (fun _ h1 => canon.mcRun h1 (fun _ _ _ h2 => standbyCmd_wf h2))

theorem execKeeperCtl_wf {r : McReq} {s : State} (h : s.Canon) :
    OnNext State.Canon (execKeeperCtl r s) :=
  canon.onModule h (fun _ h1 => canon.mcRun h1 (fun _ _ _ h2 => keeperCtl_wf h2))

theorem execFaultClear_wf {r : McReq} {s : State} (h : s.Canon) :
    OnNext State.Canon (execFaultClear r s) :=
  canon.onModule h (fun _ h1 => canon.mcRun h1 (fun _ _ _ h2 => canon.faultClear h2))

theorem execImgBegin_wf {r : McReq} {s : State} (h : s.Canon) :
    OnNext State.Canon (execImgBegin r s) :=
  canon.onModule h (fun _ h1 => canon.mcRun h1 (fun _ _ _ h2 => canon.imgBegin h2))

theorem execImgData_wf {r : McReq} {s : State} (h : s.Canon) :
    OnNext State.Canon (execImgData r s) :=
  canon.onModule h (fun _ h1 => canon.mcRun h1 (fun _ _ _ h2 => canon.imgData h2))

theorem execImgEnd_wf {r : McReq} {s : State} (h : s.Canon) :
    OnNext State.Canon (execImgEnd r s) :=
  canon.onModule h (fun _ h1 => canon.mcRun h1 (fun _ _ _ h2 => imgEnd_wf h2))

theorem execImgAbort_wf {r : McReq} {s : State} (h : s.Canon) :
    OnNext State.Canon (execImgAbort r s) :=
  canon.onModule h (fun _ h1 => canon.mcRun h1 (fun _ _ _ h2 => canon.imgAbort h2))

theorem execMinverRaise_wf {r : McReq} {s : State} (h : s.Canon) :
    OnNext State.Canon (execMinverRaise r s) :=
  canon.onModule h (fun _ h1 => canon.mcRun h1 (fun _ _ _ h2 => canon.minverRaise h2))

theorem execKsecretLoad_wf {r : McReq} {s : State} (h : s.Canon) :
    OnNext State.Canon (execKsecretLoad r s) :=
  canon.onModule h (fun _ h1 => canon.mcRun h1 (fun _ _ _ h2 => canon.ksecretLoad h2))

theorem execLcProvision_wf {r : McReq} {s : State} (h : s.Canon) :
    OnNext State.Canon (execLcProvision r s) :=
  canon.onModule h (fun _ h1 => canon.mcRun h1 (fun _ _ _ h2 => canon.lcProvision h2))

theorem execLcSecure_wf {r : McReq} {s : State} (h : s.Canon) :
    OnNext State.Canon (execLcSecure r s) :=
  canon.onModule h (fun _ h1 => canon.mcRun h1 (fun _ _ _ h2 => canon.lcSecure h2))

theorem execLcRetire_wf {r : McReq} {s : State} (h : s.Canon) :
    OnNext State.Canon (execLcRetire r s) :=
  canon.onModule h (fun _ h1 => canon.mcRun h1 (fun _ _ _ h2 => lcRetire_wf h2))

theorem execLcChallenge_wf {r : McReq} {s : State} (h : s.Canon) :
    OnNext State.Canon (execLcChallenge r s) :=
  canon.onModule h (fun _ h1 => canon.mcRun h1 (fun _ _ _ h2 => canon.lcChallenge h2))

/-! ### Debug sessions -/

theorem dbgZero_wf {s : State} (h : s.Canon) :
    s.dbgZero.Canon :=
  keep_foldl (fun _ _ h1 => canon.startKill h1) (zeroSecret_wf (zeroSecret_wf h))

theorem grant_wf {s : State} {q : McAsk} {level cell : Nat} {opsec : Option Nat} (h : s.Canon) :
    (s.grant q level cell opsec).Canon :=
  canon.done (keep_ite (dbgZero_wf (canon.showSession (canon.setMc h))) (canon.showSession (canon.setMc h)))

theorem dbgOpenCmd_wf {s : State} {q : McAsk} {d : List Byte} (h : s.Canon) :
    (s.dbgOpenCmd q d).Canon := by
  unfold State.dbgOpenCmd
  extract_lets level cell t
  have ht : t.Canon := canon.setMc h
  have hanswer : ∀ r, (t.respond q r []).Canon := fun _ => canon.respond ht
  refine keep_ite (hanswer 2) (keep_ite (hanswer 3) (keep_ite (hanswer 2) (keep_ite (hanswer 7) ?_)))
  exact keep_ite (grant_wf ht) (keep_ite (grant_wf ht) (hanswer 3))

theorem dbgRead_wf {s : State} {a : Nat} (h : s.Canon) :
    (s.dbgRead a).2.2.Canon := by
  unfold State.dbgRead
  dsimp only
  split
  · split
    · dsimp only
      exact peUe_wf (canon.dbgWake h)
    · dsimp only
      exact canon.dbgWake h
  · split
    · split
      · dsimp only
        exact canon.dbgWake h
      · dsimp only
        exact canon.log (canon.check nofun (canon.dbgWake h))
      · dsimp only
        exact peUe_wf (canon.dbgWake h)
      · dsimp only
        exact canon.dbgWake h
    · exact canonReads.readPlain (keep_ite (canon.touchScratch (canon.dbgWake h)) (canon.touchMem (canon.dbgWake h)))

theorem dbgWrite_wf {s : State} {a : Nat} {v : Word} (h : s.Canon) :
    (s.dbgWrite a v).Canon :=
  keep_ite (canon.updPe (setImem_wf (canon.dbgWake h))) (putBytes_wf _ _ _ (keep_ite (canon.dbgWake h) (keep_ite (canon.touchMem (canon.dbgWake
      h)) (canon.touchScratch (canon.dbgWake h)))))

theorem dbgGet_wf {s : State} {level a : Nat} (h : s.Canon) :
    (s.dbgGet level a).2.2.Canon := by
  unfold State.dbgGet
  split
  · have hwoken : (s.wakeFor a).Canon := canon.wakeFor h
    exact keep_ite (P := fun r : Word × State => r.2.Canon) (mcRead_wf hwoken) (canon.regRead hwoken)
  · split
    · exact dbgRead_wf h
    · exact h

theorem dbgReads_wf {s : State} {level a n : Nat} (h : s.Canon) :
    (s.dbgReads level a n).2.2.Canon := by
  induction n generalizing s a with
  | zero => exact h
  | succ n ih => exact ih (dbgGet_wf h)

theorem dbgPuts_wf {s : State} {a : Nat} {l : List Word} (h : s.Canon) :
    (s.dbgPuts a l).Canon := by
  induction l generalizing s a with
  | nil => exact h
  | cons v r ih =>
    refine ih (keep_ite (regWrite_wf h) ?_)
    split
    · exact dbgWrite_wf h
    · exact h

theorem dbgRd_wf {s : State} {q : McAsk} {level a n : Nat} (h : s.Canon) :
    (s.dbgRd q level a n).Canon :=
  keep_ite (canon.respond (canon.noteSecret h)) (keep_ite (canon.respond (dbgReads_wf h)) (canon.respond (dbgReads_wf h)))

theorem dbgWr_wf {s : State} {q : McAsk} {level a : Nat} {d : List Byte} (h : s.Canon) :
    (s.dbgWr q level a d).Canon := by
  unfold State.dbgWr
  refine keep_ite ?_ (keep_ite (canon.respond h) (canon.done (dbgPuts_wf h)))
  refine canon.respond ?_
  split
  · exact keep_ite h (canon.bump h)
  · exact h

theorem dbgOp_wf {s : State} {op : Nat} {q : McAsk} {d : List Byte} (h : s.Canon) :
    (s.dbgOp op q d).Canon := by
  unfold State.dbgOp
  refine keep_ite h (keep_ite (canon.respond h) ?_)
  split
  · exact canon.respond h
  · have ht : s.touchSession.Canon := canon.touchSession h
    refine keep_ite (dbgRd_wf ht) (keep_ite (canon.respond ht) (keep_ite (dbgWr_wf ht) (keep_ite (canon.respond ht) ?_)))
    refine keep_ite (canon.done (canon.dbgHaltPe ht)) (keep_ite ?_ (canon.done (canon.dbgResumePe ht)))
    exact keep_ite (canon.done (canon.updPe ht)) (canon.respond ht)

theorem execDbgChallenge_wf {r : McReq} {s : State} (h : s.Canon) :
    OnNext State.Canon (execDbgChallenge r s) :=
  canon.onModule h (fun _ h1 => canon.mcRun h1 (fun _ _ _ h2 => canon.dbgChallenge h2))

theorem execDbgOpen_wf {r : McReq} {s : State} (h : s.Canon) :
    OnNext State.Canon (execDbgOpen r s) :=
  canon.onModule h (fun _ h1 => canon.mcRun h1 (fun _ _ _ h2 => dbgOpenCmd_wf h2))

theorem execDbgClose_wf {r : McReq} {s : State} (h : s.Canon) :
    OnNext State.Canon (execDbgClose r s) :=
  canon.onModule h (fun _ h1 => canon.mcRun h1 (fun _ _ _ h2 => canon.dbgCloseCmd h2))

theorem execDbgHalt_wf {r : McReq} {s : State} (h : s.Canon) :
    OnNext State.Canon (execDbgHalt r s) :=
  canon.onModule h (fun _ h1 => canon.mcRun h1 (fun _ _ _ h2 => dbgOp_wf h2))

theorem execDbgStep_wf {r : McReq} {s : State} (h : s.Canon) :
    OnNext State.Canon (execDbgStep r s) :=
  canon.onModule h (fun _ h1 => canon.mcRun h1 (fun _ _ _ h2 => dbgOp_wf h2))

theorem execDbgResume_wf {r : McReq} {s : State} (h : s.Canon) :
    OnNext State.Canon (execDbgResume r s) :=
  canon.onModule h (fun _ h1 => canon.mcRun h1 (fun _ _ _ h2 => dbgOp_wf h2))

theorem execDbgMemRead_wf {r : McReq} {s : State} (h : s.Canon) :
    OnNext State.Canon (execDbgMemRead r s) :=
  canon.onModule h (fun _ h1 => canon.mcRun h1 (fun _ _ _ h2 => dbgOp_wf h2))

theorem execDbgMemWrite_wf {r : McReq} {s : State} (h : s.Canon) :
    OnNext State.Canon (execDbgMemWrite r s) :=
  canon.onModule h (fun _ h1 => canon.mcRun h1 (fun _ _ _ h2 => dbgOp_wf h2))

theorem execTraceStart_wf {r : McReq} {s : State} (h : s.Canon) :
    OnNext State.Canon (execTraceStart r s) :=
  canon.onModule h (fun _ h1 => canon.mcRun h1 (fun _ _ _ h2 => canon.traceCmd h2))

theorem execTraceStop_wf {r : McReq} {s : State} (h : s.Canon) :
    OnNext State.Canon (execTraceStop r s) :=
  canon.onModule h (fun _ h1 => canon.mcRun h1 (fun _ _ _ h2 => canon.traceCmd h2))

theorem execRngRetest_wf {ok : Bool} {s : State} (h : s.Canon) :
    OnNext State.Canon (execRngRetest ok s) :=
  canon.onModule h (fun _ h1 => keep_ite (canon.setMc h1) h1)

theorem execPmbusReadVin_wf {s : State} (h : s.Canon) :
    OnNext State.Canon (execPmbusReadVin s) := by
  unfold execPmbusReadVin
  exact canon.onModule h (fun _ h1 => canon.pmAnswer h1)

theorem execPmbusReadIin_wf {s : State} (h : s.Canon) :
    OnNext State.Canon (execPmbusReadIin s) := by
  unfold execPmbusReadIin
  exact canon.onModule h (fun _ h1 => canon.pmAnswer h1)

theorem execPmbusReadPin_wf {s : State} (h : s.Canon) :
    OnNext State.Canon (execPmbusReadPin s) := by
  unfold execPmbusReadPin
  exact canon.onModule h (fun _ h1 => canon.pmAnswer h1)

theorem execPmbusReadTemperature1_wf {s : State} (h : s.Canon) :
    OnNext State.Canon (execPmbusReadTemperature1 s) := by
  unfold execPmbusReadTemperature1
  exact canon.onModule h (fun _ h1 => canon.pmAnswer h1)

theorem execPmbusStatusWord_wf {s : State} (h : s.Canon) :
    OnNext State.Canon (execPmbusStatusWord s) := by
  unfold execPmbusStatusWord
  exact canon.onModule h (fun _ h1 => canon.pmAnswer h1)

theorem execJtagBypass_wf {s : State} (h : s.Canon) :
    OnNext State.Canon (execJtagBypass s) :=
  canon.onModule h (fun _ h1 => keep_ite (canon.tapSet h1) h1)

theorem execJtagIdcode_wf {s : State} (h : s.Canon) :
    OnNext State.Canon (execJtagIdcode s) := by
  unfold execJtagIdcode
  exact canon.onModule h (fun _ h1 => keep_ite (canon.withRdata (canon.tapSet h1)) h1)

theorem execJtagSamplePreload_wf {v : Nat} {s : State} (h : s.Canon) :
    OnNext State.Canon (execJtagSamplePreload v s) := by
  unfold execJtagSamplePreload
  exact canon.onModule h (fun _ h1 => keep_ite (canon.withRdata (canon.setMc (canon.tapSet (canon.draw h1)))) h1)

theorem execJtagExtest_wf {s : State} (h : s.Canon) :
    OnNext State.Canon (execJtagExtest s) :=
  canon.onModule h (fun _ h1 => keep_ite (canon.extest h1) h1)

theorem execArpIcmpEcho_wf {frame : List Byte} {s : State} (h : s.Canon) :
    OnNext State.Canon (execArpIcmpEcho frame s) :=
  canon.onModule h (fun _ h1 => keep_ite (canon.ethFrame h1) h1)

/-! ### The arithmetic engine -/

theorem execAeReply_wf {c u : Nat} {mismatch : Bool} {s : State} (h : s.Canon) :
    OnNext State.Canon (execAeReply c u mismatch s) :=
  canon.onCluster h (fun _ h1 => keep_ite (canon.aeReply h1) h1)

/-! ### The commands and the step -/

theorem exec_wf {i : Instr} {s : State} (h : s.Canon) :
    OnNext State.Canon (exec i s) := by
  cases i with
  | nop pe w => exact execNop_wf h
  | endBlk pe f => exact runOp_wf h
  | br pe f => exact runOp_wf h
  | brc pe f => exact runOp_wf h
  | repI pe f => exact runOp_wf h
  | repN pe f => exact runOp_wf h
  | fenceW pe f => exact runOp_wf h
  | fenceA pe f => exact runOp_wf h
  | resume pe f => exact runOp_wf h
  | add pe f => exact runOp_wf h
  | addi pe f => exact runOp_wf h
  | sub pe f => exact runOp_wf h
  | andd pe f => exact runOp_wf h
  | andi pe f => exact runOp_wf h
  | orr pe f => exact runOp_wf h
  | ori pe f => exact runOp_wf h
  | xor pe f => exact runOp_wf h
  | xori pe f => exact runOp_wf h
  | shl pe f => exact runOp_wf h
  | shr pe f => exact runOp_wf h
  | sar pe f => exact runOp_wf h
  | shli pe f => exact runOp_wf h
  | shri pe f => exact runOp_wf h
  | sari pe f => exact runOp_wf h
  | clz pe f => exact runOp_wf h
  | cmpeq pe f => exact runOp_wf h
  | cmplt pe f => exact runOp_wf h
  | cmpltu pe f => exact runOp_wf h
  | min pe f => exact runOp_wf h
  | max pe f => exact runOp_wf h
  | minu pe f => exact runOp_wf h
  | maxu pe f => exact runOp_wf h
  | sel pe f => exact runOp_wf h
  | movi pe f => exact runOp_wf h
  | movhi pe f => exact runOp_wf h
  | popc pe f => exact runOp_wf h
  | extu pe f => exact runOp_wf h
  | addq pe f => exact runOp_wf h
  | subq pe f => exact runOp_wf h
  | negq pe f => exact runOp_wf h
  | absq pe f => exact runOp_wf h
  | addq32 pe f => exact runOp_wf h
  | subq32 pe f => exact runOp_wf h
  | shlq pe f => exact runOp_wf h
  | shrq pe f => exact runOp_wf h
  | accq pe f => exact runOp_wf h
  | accqn pe f => exact runOp_wf h
  | accq32 pe f => exact runOp_wf h
  | gaadd pe f => exact runOp_wf h
  | movsGa pe f => exact runOp_wf h
  | movsQ31 pe f => exact runOp_wf h
  | movtsGa pe f => exact runOp_wf h
  | gashr pe f => exact runOp_wf h
  | mull pe f => exact runOp_wf h
  | mulhs pe f => exact runOp_wf h
  | mulhu pe f => exact runOp_wf h
  | mulq pe f => exact runOp_wf h
  | mulq32 pe f => exact runOp_wf h
  | divS pe f => exact runOp_wf h
  | divU pe f => exact runOp_wf h
  | remS pe f => exact runOp_wf h
  | remU pe f => exact runOp_wf h
  | mul128S pe f => exact runOp_wf h
  | mul128U pe f => exact runOp_wf h
  | divq pe f => exact runOp_wf h
  | fdivD pe f => exact runOp_wf h
  | fdivS pe f => exact runOp_wf h
  | fsqrtD pe f => exact runOp_wf h
  | fsqrtS pe f => exact runOp_wf h
  | isqrt pe f => exact runOp_wf h
  | faddD pe f => exact runOp_wf h
  | fsubD pe f => exact runOp_wf h
  | fmulD pe f => exact runOp_wf h
  | fmaD pe f => exact runOp_wf h
  | fmsD pe f => exact runOp_wf h
  | fnmaD pe f => exact runOp_wf h
  | fminD pe f => exact runOp_wf h
  | fmaxD pe f => exact runOp_wf h
  | fcmpD pe f => exact runOp_wf h
  | fcvtDS pe f => exact runOp_wf h
  | fcvtSD pe f => exact runOp_wf h
  | fcvtDI pe f => exact runOp_wf h
  | fcvtID pe f => exact runOp_wf h
  | fcvtDQ pe f => exact runOp_wf h
  | fcvtQD pe f => exact runOp_wf h
  | fsgnD pe f => exact runOp_wf h
  | faddS pe f => exact runOp_wf h
  | fsubS pe f => exact runOp_wf h
  | fmulS pe f => exact runOp_wf h
  | fmaS pe f => exact runOp_wf h
  | fmsS pe f => exact runOp_wf h
  | fnmaS pe f => exact runOp_wf h
  | fminS pe f => exact runOp_wf h
  | fmaxS pe f => exact runOp_wf h
  | fcmpS pe f => exact runOp_wf h
  | fclass pe f => exact runOp_wf h
  | fcvtSI pe f => exact runOp_wf h
  | fcvtIS pe f => exact runOp_wf h
  | fsgnS pe f => exact runOp_wf h
  | ldl pe f => exact runOp_wf h
  | stl pe f => exact runOp_wf h
  | movs pe f => exact runOp_wf h
  | movts pe f => exact runOp_wf h
  | send pe f => exact runOp_wf h
  | sendw pe f => exact runOp_wf h
  | read pe f => exact runOp_wf h
  | write pe f => exact runOp_wf h
  | iread pe f => exact runOp_wf h
  | iwrite pe f => exact runOp_wf h
  | atom pe f => exact runOp_wf h
  | newctx pe f => exact runOp_wf h
  | freectx pe f => exact runOp_wf h
  | freectxI pe f => exact runOp_wf h
  | killctx pe f => exact runOp_wf h
  | acq pe f => exact runOp_wf h
  | rel pe f => exact runOp_wf h
  | event pe f => exact runOp_wf h
  | mulS pe f => exact runOp_wf h
  | mulU pe f => exact runOp_wf h
  | macX pe f => exact runOp_wf h
  | macXn pe f => exact runOp_wf h
  | macQ pe f => exact runOp_wf h
  | macQn pe f => exact runOp_wf h
  | lrd pe f => exact runOp_wf h
  | lclr pe f => exact runOp_wf h
  | divkS pe f => exact runOp_wf h
  | divkU pe f => exact runOp_wf h
  | remkS pe f => exact runOp_wf h
  | remkU pe f => exact runOp_wf h
  | kzero pe f => exact runOp_wf h
  | safew pe f => exact runOp_wf h
  | activationDispatch pe => exact canon.onPe h (fun _ h1 => dispatch_wf h1)
  | preemption pe => exact canon.onPe h (fun _ h1 => preempt_wf h1)
  | preciseTrap pe => exact canon.onPe h (fun _ h1 => preciseTrap_wf h1)
  | residueMismatch pe slot => exact canon.onPe h (fun _ h1 => residueMismatch_wf h1)
  | divkLanding pe => exact canon.onPe h (fun _ h1 => divkLanding_wf h1)
  | lrdLanding x => exact canon.onPe h (fun _ h1 => lrdLanding_wf h1)
  | keeperMismatch p point => exact execKeeperMismatch_wf h
  | tokenMatch pe => exact canon.onPe h (fun _ h1 => tokenMatch_wf h1)
  | deepStoreLookupReply pe => exact canon.onPe h (fun _ h1 => lookupReply_wf h1)
  | fillComplete pe => exact canon.onPe h (fun _ h1 => canon.fillComplete h1)
  | shadowCopyComplete pe => exact canon.onPe h (fun _ h1 => canon.shadowCopy h1)
  | microTrap m => exact execMicroTrap_wf h
  | ucodeFault m read => exact canon.onPe h (fun _ h1 => microFetch_wf h1)
  | aeRequestAccept pe => exact canon.onPe h (fun _ h1 => canon.aeAccept h1)
  | aeReply c u mismatch => exact execAeReply_wf h
  | niPacketEject e => exact execNiPacketEject_wf h
  | windowCacheAnswer e k => exact canon.onOwner h (fun _ h1 => canon.windowAnswer h1)
  | windowAdvance e k => exact canon.onOwner h (fun _ h1 => canon.windowAdvance h1)
  | cmNewctxRequest e => exact canon.onOwner h (fun _ h1 => canon.cmNew h1)
  | spawnQueueAdmit e => exact canon.onOwner h (fun _ h1 => canon.spawnAdmit h1)
  | cmFreectxRequest e => exact canon.onOwner h (fun _ h1 => canon.cmFree h1)
  | cmFreectxIRequest e => exact canon.onOwner h (fun _ h1 => canon.cmRetire h1)
  | cmKillctxRequest e => exact canon.onOwner h (fun _ h1 => canon.cmKill h1)
  | killArrival u k => exact execKillArrival_wf h
  | killAckArrival e u k => exact canon.onOwner h (fun _ h1 => canon.killAck h1)
  | drainReqArrival e src => exact execDrainReqArrival_wf h
  | drainMarkArrival e => exact canon.onOwner h (fun _ h1 => canon.drainMark h1)
  | drainDoneArrival e => exact execDrainDoneArrival_wf h
  | cmResumeRequest e => exact canon.onOwner h (fun _ h1 => canon.resume h1)
  | mcEventRequest => exact canon.onModule h (fun _ h1 => canon.eventRequest h1)
  | stallExamination e => exact canon.onOwner h (fun _ h1 => canon.stallExam h1)
  | ctxCounterWriteback e => exact canon.onOwner h (fun _ h1 => canon.counterWriteback h1)
  | ctxVictim => exact canon.onModule h (fun _ h1 => canon.victim h1)
  | targetRead e => exact canon.onEndpoint h (fun _ h1 => canonReads.targetRead h1)
  | targetWrite e same => exact canon.onEndpoint h (fun _ h1 => canonReads.targetWrite h1)
  | targetIread x => exact canon.onEndpoint h (fun _ h1 => canonReads.targetIread h1)
  | targetIwrite e same => exact canon.onEndpoint h (fun _ h1 => canonReads.targetIwrite h1)
  | deferredReplyRelease e => exact canon.onEndpoint h (fun _ h1 => releaseOne_wf h1)
  | targetAtom e => exact canon.onEndpoint h (fun _ h1 => canonReads.targetAtom h1)
  | targetIclr x => exact canon.onEndpoint h (fun _ h1 => canonReads.targetIclr h1)
  | lockAcqRequest => exact canon.onModule h (fun _ h1 => lockAcq_wf h1)
  | lockRelRequest => exact canon.onModule h (fun _ h1 => lockRel_wf h1)
  | lkAcqRead n ep ctx observe => exact canon.onLock h (fun _ h1 => lkAcqRead_wf h1)
  | lkRelWrite n ep ctx => exact execLkRelWrite_wf h
  | lockLeaseExpired n => exact execLockLeaseExpired_wf h
  | boostArrival e => exact canon.onEndpoint h (fun _ h1 => canon.boostArrival h1)
  | boostEndArrival e => exact canon.onEndpoint h (fun _ h1 => canon.boostEndArrival h1)
  | respArrival e => exact canon.onEndpoint h (fun _ h1 => canon.respArrival h1)
  | nackArrival e => exact execNackArrival_wf h
  | responseSlotTimeout e k => exact canon.onEndpoint h (fun _ h1 => canon.slotTimeout h1)
  | routerHop r c vn => exact execRouterHop_wf h
  | flitReceiveCheck r p flit => exact canon.onUnit h (fun _ h1 => canon.flitReceive h1)
  | bounceArrival e => exact canon.onEndpoint h (fun _ h1 => bounceArrival_wf h1)
  | hbShiftGo => exact canon.onModule h (fun _ h1 => shiftGo_wf h1)
  | shiftArrival e => exact canon.onEndpoint h (fun _ h1 => shiftArrival_wf h1)
  | epochMarkArrival e => exact canon.onEndpoint h (fun _ h1 => canon.markArrival h1)
  | markAckArrival e => exact execMarkAckArrival_wf h
  | markRetransmit e => exact execMarkRetransmit_wf h
  | shiftDoneArrival => exact execShiftDoneArrival_wf h
  | rtPortDis r p => exact canon.onUnit h (fun _ h1 => canon.portDis h1)
  | rtPortEn r p => exact canon.onUnit h (fun _ h1 => canon.portEn h1)
  | rtPortRetrain r p => exact canon.onUnit h (fun _ h1 => canon.portRetrain h1)
  | linkRetrain r p => exact execLinkRetrain_wf h
  | retrainPostponeRetry r p => exact execRetrainPostponeRetry_wf h
  | linkDown r p => exact execLinkDown_wf h
  | frameReceive p frame => exact canon.onLink h (fun _ h1 => canon.lanesReceive h1)
  | replayTimeout p => exact execReplayTimeout_wf h
  | reorderTimeout p v => exact canon.onPort h (fun _ h1 => canon.skipGap h1)
  | openPacketTimeout p vn => exact execOpenPacketTimeout_wf h
  | egressPacket p vn => exact canon.onLink h (fun _ h1 => canon.egress h1)
  | egressCreditTimeout p vn => exact canon.onPort h (fun _ h1 => canon.egressTimeout h1)
  | partnerInfoArrival => exact canon.onModule h (fun _ h1 => canon.partnerInfo h1)
  | portTrainDone p rxrev txrev pol => exact execPortTrainDone_wf h
  | portTrainFail p cause => exact execPortTrainFail_wf h
  | portTrainRetry p => exact execPortTrainRetry_wf h
  | blockLockLost p => exact execBlockLockLost_wf h
  | noValidFrame p => exact execNoValidFrame_wf h
  | portRecoveryTimeout p => exact execPortRecoveryTimeout_wf h
  | portAutoOpen p => exact execPortAutoOpen_wf h
  | portCmd r => exact execPortCmd_wf h
  | ptCtlTrain p => exact execPtCtlTrain_wf h
  | ptCtlSuspend p => exact canon.onLink h (fun _ h1 => ptCmd_wf h1)
  | ptCtlResume p => exact execPtCtlResume_wf h
  | ptCtlRetrain p => exact canon.onLink h (fun _ h1 => ptCmd_wf h1)
  | ptCtlReset p => exact execPtCtlReset_wf h
  | ptOpenGo p => exact execPtOpenGo_wf h
  | ptMapW0Commit p w => exact canon.onPort h (fun _ h1 => canon.mapCommit h1)
  | dcqFlush a => exact canon.onModule h (fun _ h1 => canon.dcqFlush h1)
  | dcqPtrMismatch a => exact canon.onModule h (fun _ h1 => canon.ptrMismatch h1)
  | creditResetDone a => exact execCreditResetDone_wf h
  | dcqStall mech src dst a => exact canon.onModule h (fun _ h1 => canon.crossStall h1)
  | cdcResumed mech src dst a => exact canon.onModule h (fun _ h1 => canon.crossResume h1)
  | cdcUnstable mech src dst idx => exact canon.onModule h (fun _ h1 => canon.unstable h1)
  | pulseCrossing src dst idx ends => exact canon.onModule h (fun _ h1 => canon.pulse h1)
  | beaconLaunch => exact execBeaconLaunch_wf h
  | beaconAccept d here => exact canon.onModule h (fun _ h1 => canon.beaconAccept h1)
  | collectorForward k => exact canon.onColl h (fun _ h1 => canon.collForward h1)
  | progressMark k => exact canon.onColl h (fun _ h1 => canon.progressMark h1)
  | eventSeqAssign => exact canon.onModule h (fun _ h1 => canon.seqAssign h1)
  | collectorSilent k => exact canon.onColl h (fun _ h1 => canon.collSilent h1)
  | logPersist => exact canon.onModule h (fun _ h1 => canon.logPersist h1)
  | mbDoorbell ep => exact canon.onModule h (fun _ h1 => canon.doorbell h1)
  | mailboxWindowRelease ep => exact canon.onModule h (fun _ h1 => canon.setMc h1)
  | getInfo r => exact execGetInfo_wf h
  | getSensors r => exact execGetSensors_wf h
  | logRead r => exact execLogRead_wf h
  | regRead r => exact execRegRead_wf h
  | attest r => exact execAttest_wf h
  | graphStart r => exact execGraphStart_wf h
  | graphStop r => exact execGraphStop_wf h
  | kickstandEnter r => exact execKickstandEnter_wf h
  | kickstandExit r => exact execKickstandExit_wf h
  | kickstandAutoexitTemp => exact canon.onModule h (fun _ h1 => tempExit_wf h1)
  | warmReset r => exact execWarmReset_wf h
  | standbyEnter r => exact execStandbyEnter_wf h
  | keeperCtl r => exact execKeeperCtl_wf h
  | faultClear r => exact execFaultClear_wf h
  | imgBegin r => exact execImgBegin_wf h
  | imgData r => exact execImgData_wf h
  | imgEnd r => exact execImgEnd_wf h
  | imgAbort r => exact execImgAbort_wf h
  | minverRaise r => exact execMinverRaise_wf h
  | ksecretLoad r => exact execKsecretLoad_wf h
  | lcProvision r => exact execLcProvision_wf h
  | lcSecure r => exact execLcSecure_wf h
  | lcRetire r => exact execLcRetire_wf h
  | lcChallenge r => exact execLcChallenge_wf h
  | dbgChallenge r => exact execDbgChallenge_wf h
  | dbgOpen r => exact execDbgOpen_wf h
  | dbgClose r => exact execDbgClose_wf h
  | dbgHalt r => exact execDbgHalt_wf h
  | dbgStep r => exact execDbgStep_wf h
  | dbgResume r => exact execDbgResume_wf h
  | dbgMemRead r => exact execDbgMemRead_wf h
  | dbgMemWrite r => exact execDbgMemWrite_wf h
  | traceStart r => exact execTraceStart_wf h
  | traceStop r => exact execTraceStop_wf h
  | debugSessionTimeout => exact canon.onModule h (fun _ h1 => canon.endSession h1)
  | mcWatchdogRestart => exact canon.onModule h (fun _ h1 => canon.mcRestart h1)
  | rngRetest ok => exact execRngRetest_wf h
  | pmbusReadVin => exact execPmbusReadVin_wf h
  | pmbusReadIin => exact execPmbusReadIin_wf h
  | pmbusReadTemperature1 => exact execPmbusReadTemperature1_wf h
  | pmbusReadPin => exact execPmbusReadPin_wf h
  | pmbusStatusWord => exact execPmbusStatusWord_wf h
  | jtagBypass => exact execJtagBypass_wf h
  | jtagIdcode => exact execJtagIdcode_wf h
  | jtagSamplePreload v => exact execJtagSamplePreload_wf h
  | jtagExtest => exact execJtagExtest_wf h
  | kpPairHalt p => exact canon.onPair h (fun _ h1 => canon.haltCmd h1)
  | kpPairRestart p => exact canon.onPair h (fun _ h1 => restartPair_wf h1)
  | keeperZeroiseDone p => exact execKeeperZeroiseDone_wf h
  | keeperWdog p => exact execKeeperWdog_wf h
  | peLaccUnbind pe m => exact canon.onApe h (fun _ h1 => regWrite_wf h1)
  | peLaccInjectArm pe acc => exact canon.onApe h (fun _ h1 => regWrite_wf h1)
  | peResInjectArm pe u => exact canon.onPe h (fun _ h1 => regWrite_wf h1)
  | aeResInjectArm c u => exact canon.onCluster h (fun _ h1 => regWrite_wf h1)
  | peStatCtlClr pe => exact canon.onPe h (fun _ h1 => regWrite_wf h1)
  | aeStatCtlClr c => exact canon.onCluster h (fun _ h1 => regWrite_wf h1)
  | scCtlClr c => exact canon.onCluster h (fun _ h1 => regWrite_wf h1)
  | mmCtlClr ch => exact canon.onUnit h (fun _ h1 => regWrite_wf h1)
  | niStatCtlClr c => exact canon.onCluster h (fun _ h1 => regWrite_wf h1)
  | rtStatCtlClr c => exact canon.onCluster h (fun _ h1 => regWrite_wf h1)
  | ptStatCtlClr p => exact canon.onPort h (fun _ h1 => regWrite_wf h1)
  | lkStatCtlClr => exact canon.onModule h (fun _ h1 => regWrite_wf h1)
  | statOvfClear a => exact execStatOvfClear_wf h
  | rclRead a => exact execRclRead_wf h
  | lockBitSet a => exact execLockBitSet_wf h
  | lockBitUnlock a => exact execLockBitUnlock_wf h
  | cmCtxqSelWrite c lid => exact canon.onCluster h (fun _ h1 => canon.ctxqSel h1)
  | hbPstatSelWrite ep => exact canon.onModule h (fun _ h1 => regWrite_wf h1)
  | tbDomSelWrite d => exact canon.onModule h (fun _ h1 => regWrite_wf h1)
  | lkSelWrite n => exact canon.onModule h (fun _ h1 => regWrite_wf h1)
  | mcEvtClear => exact execMcEvtClear_wf h
  | registerWrite a v => exact execRegisterWrite_wf h
  | clusterReqActive c => exact canon.onCluster h (fun _ h1 => reqActive_wf h1)
  | clusterReqFreewheel c => exact canon.onCluster h (fun _ h1 => reqFreewheel_wf h1)
  | freewheelEntry c => exact canon.onCluster h (fun _ h1 => canon.freewheel h1)
  | freewheelWake c => exact canon.onCluster h (fun _ h1 => canon.freewheelWake h1)
  | freewheelAutoReturn c => exact canon.onCluster h (fun _ h1 => canon.freewheelReturn h1)
  | clusterReqOff c => exact canon.onCluster h (fun _ h1 => reqOff_wf h1)
  | fenceDone c => exact execFenceDone_wf h
  | offTokenPark => exact canon.onModule h (fun _ h1 => canon.parkToken h1)
  | clusterReset c => exact canon.onCluster h (fun _ h1 => clReset_wf h1)
  | peReset pe => exact execPeReset_wf h
  | vinRise a b => exact canon.onModule h (fun _ h1 => canon.vinRise h1)
  | vinSoftStartAbort => exact canon.onModule h (fun _ h1 => softAbort_wf h1)
  | vinLost k v => exact canon.onModule h (fun _ h1 => canon.vinLost h1)
  | vinDip a b => exact canon.onModule h (fun _ h1 => vinDip_wf h1)
  | vinRecover a b => exact canon.onModule h (fun _ h1 => vinRecover_wf h1)
  | vinUndervolt a b => exact execVinUndervolt_wf h
  | holdupFail => exact execHoldupFail_wf h
  | vinSurge => exact execVinSurge_wf h
  | resetNAssert => exact canon.onModule h (fun _ h1 => moduleReset_wf h1)
  | dieFault d => exact canon.onUnit h (fun _ h1 => dieFault_wf h1)
  | sensorSample kind k valid v w => exact canon.onModule h (fun _ h1 => canon.sample h1)
  | thermalGovernorTick => exact execThermalGovernorTick_wf h
  | thermalKickstand d => exact canon.onUnit h (fun _ h1 => thermalKick_wf h1)
  | agingGuardbandUpdate lost => exact canon.onModule h (fun _ h1 => canon.guardbands h1)
  | refclkLost => exact execRefclkLost_wf h
  | refclkRestored => exact execRefclkRestored_wf h
  | ppsEdge err => exact canon.onModule h (fun _ h1 => canon.ppsEdge h1)
  | ppsLockLost => exact execPpsLockLost_wf h
  | refLockChange on => exact canon.onModule h (fun _ h1 => canon.setRfld h1)
  | patrolScrub addr upset => exact canon.onModule h (fun _ h1 => patrol_wf h1)
  | bgTestSegmentStart c => exact canon.onCluster h (fun _ h1 => canonReads.testStart h1)
  | bgTestRelease c rows => exact canon.onCluster h (fun _ h1 => canon.testRelease h1)
  | bankRetentionEntry c b => exact canon.onCluster h (fun _ h1 => canon.retainBank h1)
  | scRetMaskWrite c v => exact canon.onCluster h (fun _ h1 => canon.retWrite h1)
  | refreshRateCheck ch rate => exact execRefreshRateCheck_wf h
  | mmInitDone ch => exact canon.onUnit h (fun _ h1 => canon.setRfld h1)
  | repairRecordUpdate => exact execRepairRecordUpdate_wf h
  | portRecoveryDone p recov next => exact canon.onLink h (fun _ h1 => canon.recoveryDone h1)
  | dieEdgeTrainingDone r x => exact execDieEdgeTrainingDone_wf h
  | spillEngineRequest => exact canon.onModule h (fun _ h1 => canon.spillEngine h1)
  | windowQuery e k => exact canon.onOwner h (fun _ h1 => canon.windowQuery h1)
  | rngFail => exact canon.onModule h (fun _ h1 => canon.rngFail h1)
  | holdupCharged on => exact execHoldupCharged_wf h
  | vinInputOk k v => exact canon.onModule h (fun _ h1 => canon.vinOk h1)
  | ppsOutEdge rise => exact canon.onModule h (fun _ h1 => canon.setPw h1)
  | arpIcmpEcho frame => exact execArpIcmpEcho_wf h

theorem step_wf {s : State} (h : s.Canon) :
    OnNext State.Canon (step s) := by
  unfold step
  split
  · exact onNext_next (idle_wf h)
  · exact exec_wf h

/-- Settles O58: whatever command runs, the next state's memory is canonical (`step_wf`). -/
theorem memoryCanonical : Obligations.MemoryCanonical := by
  unfold Obligations.MemoryCanonical
  intro s t h e
  exact step_wf h t e

end Sys2Proof.Machine
end

/-! # Requests at a memory target

Without an uncorrectable word, presence code or deferral entry no request counts an uncorrectable error, so none sets off KICKSTAND, and the invariant
`Kept` carries instruction memory and the locks along with the canonical form. -/
section
namespace Sys2Proof.Machine

theorem Tbl.get_eq_or_mem {α : Type} (d : α) (t : Tbl α) (k : Nat) : Tbl.get d t k = d ∨ (k, Tbl.get d t k) ∈ t := by
  induction t with
  | nil => exact .inl rfl
  | cons x r ih =>
    obtain ⟨j, v⟩ := x
    by_cases h : k = j
    · subst h; simp [Tbl.get]
    · simp only [Tbl.get, if_neg h, List.mem_cons]
      exact ih.imp id .inr

/-- `u` counts as many uncorrectable errors as `s`, in the same window. -/
def SameStorm (s u : State) : Prop := u.reg aUeStorm = s.reg aUeStorm ∧ u.ev.stormAt = s.ev.stormAt

theorem SameStorm.refl (s : State) : SameStorm s s := ⟨rfl, rfl⟩

theorem SameStorm.stormIn {s u : State} (h : SameStorm s u) : s.stormIn u = false := by
  obtain ⟨hreg, hat⟩ := h
  simp only [State.stormIn, State.rfld, hreg, hat, bne_self_eq_false, Bool.or_false, Bool.and_eq_false_imp, decide_eq_true_eq]
  exact fun hle => decide_eq_false (Nat.not_lt.mpr hle)

theorem SameStorm.setReg {s u : State} {a : Nat} {v : Word} (h : SameStorm s u) (ha : a ≠ aUeStorm) : SameStorm s (u.setReg a v) := by
  obtain ⟨hreg, hat⟩ := h
  exact ⟨by rw [State.reg_setReg, if_neg ha.symm, hreg], hat⟩

theorem SameStorm.log {s u : State} {e : Nat} {ev : Ev} {sev : Sev} {d : Word} {pe ctx : Option Nat} {psn : Bool} (h : SameStorm s u) :
    SameStorm s (u.log e ev sev d pe ctx psn) := by
  unfold State.log
  dsimp only
  split <;> exact h

/-- The counters of scratch `c` and their control register stand elsewhere than the count of uncorrectable errors. -/
theorem statCtlOf_scStat : ∀ c < 64, ∀ i < 16, statCtlOf (aScStat c i) = some (aScCtl c) := by decide +kernel
theorem statCtlOf_scConflict : ∀ c < 64, ∀ m < 6, statCtlOf (aScConflict c m) = some (aScCtl c) := by decide +kernel


theorem scAddr_ne_ueStorm : ∀ c < 64, aScCtl c ≠ aUeStorm ∧ aScRet c ≠ aUeStorm ∧
    (∀ i < 16, aScStat c i ≠ aUeStorm) ∧ ∀ m < 6, aScConflict c m ≠ aUeStorm := by
  decide +kernel

theorem SameStorm.noteFull {s u : State} {a ctl : Nat} (h : SameStorm s u) (hctl : statCtlOf a = some ctl) (hne : ctl ≠ aUeStorm) :
    SameStorm s (u.noteFull a) := by
  rw [noteFull_ctl u a ctl hctl]
  exact keep_ite h ((h.setReg hne).log)

theorem SameStorm.bumpSc {s u : State} {c i k : Nat} (h : SameStorm s u) (hc : c < 64) (hi : i < 16) : SameStorm s (u.bump (aScStat c i) k) := by
  obtain ⟨hctl, -, hstat, -⟩ := scAddr_ne_ueStorm c hc
  have hset := h.setReg (v := setFld (u.reg (aScStat c i)) 47 0 (satAdd 48 (u.rfld (aScStat c i) 47 0) k)) (hstat i hi)
  exact keep_ite hset (hset.noteFull (statCtlOf_scStat c hc i hi) hctl)

theorem SameStorm.countHeld {s u : State} {c m : Nat} (h : SameStorm s u) (hc : c < 64) (hm : m < 6) : SameStorm s (u.countHeld c m) := by
  obtain ⟨hctl, -, -, hconf⟩ := scAddr_ne_ueStorm c hc
  have hset := h.setReg (v := setFld (u.reg (aScConflict c m)) 31 0 (satInc 32 (u.rfld (aScConflict c m) 31 0))) (hconf m hm)
  exact keep_ite hset (hset.noteFull (statCtlOf_scConflict c hc m hm) hctl)

theorem SameStorm.foldl_countHeld {s u : State} {c : Nat} {l : List Nat} (h : SameStorm s u) (hc : c < 64) (hl : ∀ m ∈ l, m < 6) :
    SameStorm s (l.foldl (fun u k => u.countHeld c k) u) := by
  induction l generalizing u with
  | nil => exact h
  | cons m r ih => exact ih (h.countHeld hc (hl m List.mem_cons_self)) (fun k hk => hl k (List.mem_cons_of_mem m hk))

theorem SameStorm.serveBank {s u : State} {c b m : Nat} (h : SameStorm s u) (hc : c < 64) : SameStorm s (u.serveBank c b m) := by
  unfold State.serveBank
  exact SameStorm.foldl_countHeld (u := { u with banks := _ }) h hc (fun k hk => List.mem_range.mp (List.mem_of_mem_filter hk))

theorem SameStorm.touchScratch {s u : State} {c o : Nat} (h : SameStorm s u) (hc : c < 64) : SameStorm s (u.touchScratch c o) := by
  unfold State.touchScratch
  extract_lets b woken
  obtain ⟨-, hret, -, -⟩ := scAddr_ne_ueStorm c hc
  have hwoken : SameStorm s woken := keep_ite ((keep_ite h (h.setReg hret)).bumpSc hc (by decide)) h
  exact keep_ite (hwoken.bumpSc hc (by decide)) hwoken

theorem SameStorm.microRead {s u : State} {c a : Nat} (h : SameStorm s u) (hc : c < 64) (hue : (u.microTouch c (a % 0x80000)).eccAt a ≠ .ue) :
    SameStorm s (u.microRead c a).2 := by
  have htouch : SameStorm s (u.microTouch c (a % 0x80000)) := (h.serveBank hc).touchScratch hc
  unfold State.microRead
  extract_lets t
  split
  · exact htouch
  · dsimp only
    exact ((SameStorm.bumpSc (u := (t.setEcc a .ok).noteCe c a) htouch hc (by decide))).log
  · contradiction
  · exact htouch.bumpSc hc (by decide)

/-- What a request at a memory target keeps of `s`: `u` has memory in canonical form, no uncorrectable word or presence code, and the instruction
memory and the locks of `s`. -/
structure Kept (s u : State) : Prop where
  canon : u.Canon
  ecc : ∀ a, u.eccAt a ≠ .ue
  pres : ∀ a, u.presAt a ≠ .lost
  imem : u.imem = s.imem
  locks : u.locks = s.locks

theorem Kept.reads (s : State) : Reads (Kept s) where
  aside {u t} h e := by
    obtain ⟨hmem, hecc, hpres, himem, hlocks⟩ : t.mem = u.mem ∧ t.ecc = u.ecc ∧ t.pres = u.pres ∧ t.imem = u.imem ∧ t.locks = u.locks := by
      simpa [State.held] using e
    exact ⟨Machine.canon.aside h.canon e, fun a => by rw [State.eccAt, hecc]; exact h.ecc a, fun a => by rw [State.presAt, hpres]; exact h.pres a,
      himem.trans h.imem, hlocks.trans h.locks⟩
  bytes h := { h with canon := Machine.canon.bytes h.canon }
  check {u a e} he h := { h with
    ecc b := by
      rw [State.eccAt, State.setEcc, Tbl.get_set]
      exact keep_ite (P := fun x : Ecc => x ≠ .ue) he (h.ecc b) }
  presence {u a p} hp h := { h with
    pres b := by
      rw [State.presAt, State.setPres, Tbl.get_set]
      exact keep_ite (P := fun x : Presence => x ≠ .lost) hp (h.pres b) }
  countUe {u _ a} h e _ := absurd e (not_or.mpr ⟨h.ecc a, h.pres a⟩)

theorem Kept.readDefer {s u : State} {e : Nat} {d : Defer} (h : Kept s u) (hd : d.bad = false) : SameStorm u (u.readDefer e d).2 := by
  unfold State.readDefer
  split
  · next he => exact (SameStorm.refl u).microRead he.1 (((Kept.reads s).microTouch h).ecc _)
  · rw [if_neg (by simp [hd])]
    exact SameStorm.refl u

/-- With every entry readable, a release reaches none of the error counts that may set off KICKSTAND. -/
theorem Kept.releaseNext {s u : State} {e : Nat} {f : Release → Bool} (h : Kept s u)
    (hread : ∀ x ∈ u.rels, ∀ q ∈ x.2, ∀ d ∈ q.list, d.bad = false) : Kept s (u.releaseNext e f) := by
  have hP := Kept.reads s
  unfold State.releaseNext
  extract_lets l
  split
  · exact h
  · next r hfind =>
    extract_lets keep
    have hkeep : ∀ t x n, Kept s t → Kept s (keep t x n) := fun _ _ _ ht => hP.withRels ht
    split
    · exact hkeep _ _ _ h
    · next d x hlist =>
      have hr : r ∈ l := List.mem_of_find?_eq_some hfind
      have hl : (e, l) ∈ u.rels := (Tbl.get_eq_or_mem [] u.rels e).resolve_left (List.ne_nil_of_mem hr)
      have hd : d ∈ r.list := List.dropWhile_sublist _ |>.subset (hlist ▸ List.mem_cons_self)
      dsimp only
      rw [(h.readDefer (hread _ hl r hr d hd)).stormIn, if_neg Bool.false_ne_true]
      exact keep_ite (hP.sendDeferred (hkeep _ _ _ (hP.readDefer h))) (hP.logFree (hkeep _ _ _ (hP.readDefer h)))

/-- Settles O38: each request is an operation that `Reads` predicates survive, and `Kept s` is one of them. -/
theorem memoryStaysCanonical : Obligations.MemoryStaysCanonical := by
  unfold Obligations.MemoryStaysCanonical
  intro s t e b hmem hecc hpres hread c hc
  have hP := Kept.reads s
  have hs : Kept s s := ⟨hmem, hecc, hpres, rfl, rfl⟩
  have hstep : OnNext (Kept s) (exec c s) := by
    simp only [List.mem_cons, List.not_mem_nil, or_false] at hc
    obtain rfl | rfl | rfl | rfl | rfl | rfl | rfl := hc
    · exact hP.onEndpoint hs fun _ h => hP.targetRead h
    · exact hP.onEndpoint hs fun _ h => hP.targetWrite h
    · exact hP.onEndpoint hs fun _ h => hP.targetIread h
    · exact hP.onEndpoint hs fun _ h => hP.targetIwrite h
    · exact hP.onEndpoint hs fun _ h => hP.targetAtom h
    · exact hP.onEndpoint hs fun _ h => hP.targetIclr h
    · exact keep_ite (onNext_next (hP.withPending (hs.releaseNext hread))) onNext_refused
  intro hexec
  obtain ⟨hcanon, -, -, himem, hlocks⟩ := hstep t hexec
  exact ⟨hcanon, himem, hlocks⟩

end Sys2Proof.Machine
end

/-! # Register accesses by the controller

A command's run is a state `t` that its function reaches with the queue as it stands (`runs_onModule`). The route of a write is given once:
`regWrite_hub` outside the clusters, `regWrite_cluster` for a cluster that answers; the table facts about an address (its fields, its block and offset)
are `PlainReg` facts, evaluated over the finitely many registers of a kind. What is left of each clause is arithmetic on the fields of one word.

## Fields of a word -/
section
namespace Sys2Proof.Machine

theorem bitAt_ofNat {n : Nat} (x i : Nat) : bitAt (BitVec.ofNat n x) i = (decide (i < n) && x.testBit i) := by
  rw [bitAt, BitVec.toNat_ofNat, Nat.testBit_mod_two_pow]

theorem testBit_fld {n : Nat} (w : BitVec n) (hi lo i : Nat) : (fld w hi lo).testBit i = (decide (i < hi + 1 - lo) && bitAt w (lo + i)) := by
  rw [fld, Nat.testBit_mod_two_pow, Nat.testBit_shiftRight, bitAt]

/-- `setFld` splices the new value between what stands above the field and what stands below it. -/
theorem setFld_split {n : Nat} (w : BitVec n) {hi lo : Nat} (v : Nat) (hlo : lo ≤ hi) :
    w.toNat - put hi lo (fld w hi lo) + put hi lo v =
      2 ^ lo * (2 ^ (hi + 1 - lo) * (w.toNat / 2 ^ (hi + 1)) + v % 2 ^ (hi + 1 - lo)) + w.toNat % 2 ^ lo := by
  have hpow : 2 ^ (hi + 1) = 2 ^ lo * 2 ^ (hi + 1 - lo) := by rw [← Nat.pow_add]; congr 1; omega
  simp only [put, fld, Nat.shiftLeft_eq, Nat.shiftRight_eq_div_pow, Nat.mod_mod]
  rw [hpow, ← Nat.div_div_eq_div_mul]
  have h1 := Nat.div_add_mod w.toNat (2 ^ lo)
  have h2 := Nat.div_add_mod (w.toNat / 2 ^ lo) (2 ^ (hi + 1 - lo))
  generalize w.toNat % 2 ^ lo = r at *
  generalize w.toNat / 2 ^ lo = q at *
  generalize q / 2 ^ (hi + 1 - lo) = x at *
  generalize q % 2 ^ (hi + 1 - lo) = y at *
  rw [← h1, ← h2, Nat.mul_add (2 ^ lo), Nat.mul_add (2 ^ lo), Nat.mul_comm y, Nat.mul_comm (v % _)]
  omega

theorem bitAt_setFld {n : Nat} (w : BitVec n) {hi lo : Nat} (v i : Nat) (hlo : lo ≤ hi) (hhi : hi < n) :
    bitAt (setFld w hi lo v) i = if lo ≤ i ∧ i ≤ hi then v.testBit (i - lo) else bitAt w i := by
  have hlow : w.toNat % 2 ^ lo < 2 ^ lo := Nat.mod_lt _ (Nat.two_pow_pos lo)
  have hfield : v % 2 ^ (hi + 1 - lo) < 2 ^ (hi + 1 - lo) := Nat.mod_lt _ (Nat.two_pow_pos _)
  rw [setFld, bitAt_ofNat, setFld_split w v hlo, Nat.testBit_two_pow_mul_add _ hlow, Nat.testBit_two_pow_mul_add _ hfield, Nat.testBit_mod_two_pow,
    Nat.testBit_mod_two_pow, Nat.testBit_div_two_pow, bitAt]
  have hout : n ≤ i → w.toNat.testBit i = false := fun h => Nat.testBit_lt_two_pow (Nat.lt_of_lt_of_le w.isLt (Nat.pow_le_pow_right (by decide) h))
  by_cases hi1 : i < lo
  · have : i < n := by omega
    simp [hi1, this, show ¬ lo ≤ i by omega]
  · by_cases hi2 : i ≤ hi
    · have h3 : i - lo < hi + 1 - lo := by omega
      simp [hi1, h3, show i < n by omega, show lo ≤ i by omega, hi2]
    · have h3 : ¬ i - lo < hi + 1 - lo := by omega
      have h4 : hi + 1 + (i - lo - (hi + 1 - lo)) = i := by omega
      by_cases hin : i < n
      · simp [hi1, h3, hi2, hin, show i - lo - (hi + 1 - lo) + (hi + 1) = i by omega]
      · simp [hi2, hin, hout (by omega)]

theorem fld_setFld_same {n : Nat} (w : BitVec n) {hi lo : Nat} (v : Nat) (hlo : lo ≤ hi) (hhi : hi < n) :
    fld (setFld w hi lo v) hi lo = v % 2 ^ (hi + 1 - lo) := by
  refine Nat.eq_of_testBit_eq fun i => ?_
  rw [testBit_fld, bitAt_setFld w v _ hlo hhi, Nat.testBit_mod_two_pow]
  by_cases h : i < hi + 1 - lo
  · simp [show lo + i ≤ hi by omega]
  · simp [h]

theorem fld_setFld_other {n : Nat} (w : BitVec n) {hi lo hi' lo' : Nat} (v : Nat) (hlo : lo ≤ hi) (hhi : hi < n)
    (h : hi' < lo ∨ hi < lo') : fld (setFld w hi lo v) hi' lo' = fld w hi' lo' := by
  refine Nat.eq_of_testBit_eq fun i => ?_
  rw [testBit_fld, testBit_fld, bitAt_setFld w v _ hlo hhi]
  by_cases hin : i < hi' + 1 - lo'
  · rw [if_neg (by omega)]
  · simp [hin]

end Sys2Proof.Machine
end

/-! ## Writes and where they go -/
section
namespace Sys2Proof.Machine

/-! ## A command's run -/

theorem runs_onModule {c : Instr} {s t : State} {f : State → State} {P : State → Prop} (hexec : exec c s = onModule s f) (hrun : f s = t)
    (hpending : t.pending = s.pending) (h : P t) : Runs c s P := by
  refine ⟨t, ?_, h⟩
  rw [hexec, onModule, hrun, ← hpending]

theorem onModule_same {s : State} {f : State → State} (h : f s = s) : onModule s f = .next s := by
  rw [onModule, h]

/-! ## One register changes -/

theorem rfld_setRfld_same {s : State} {a hi lo v : Nat} (hlo : lo ≤ hi) (hhi : hi < 64) :
    (s.setRfld a hi lo v).rfld a hi lo = v % 2 ^ (hi + 1 - lo) := by
  rw [State.rfld, State.setRfld, State.reg_setReg, if_pos rfl, fld_setFld_same _ _ hlo hhi]

theorem rfld_setRfld_other {s : State} {a hi lo hi' lo' v : Nat} (hhi : lo ≤ hi ∧ hi < 64) (h : hi' < lo ∨ hi < lo') :
    (s.setRfld a hi lo v).rfld a hi' lo' = s.rfld a hi' lo' := by
  rw [State.rfld, State.setRfld, State.reg_setReg, if_pos rfl, fld_setFld_other _ _ hhi.1 hhi.2 h]
  rfl

theorem OnlyReg.refl (s : State) (a : Nat) : OnlyReg s s a := ⟨fun _ _ => rfl, rfl, rfl, rfl, rfl⟩

theorem OnlyReg.setReg {s u : State} {a : Nat} {v : Word} (h : OnlyReg s u a) : OnlyReg s (u.setReg a v) a := by
  obtain ⟨hreg, hmem, himem, hctxs, hpes⟩ := h
  exact ⟨fun b hb => by rw [State.reg_setReg, if_neg hb, hreg b hb], hmem, himem, hctxs, hpes⟩

/-- A register written back as it was is not changed. -/
theorem OnlyReg.setReg_same {s : State} {a b : Nat} : OnlyReg s (s.setReg a (s.reg a)) b :=
  ⟨fun r _ => by rw [State.reg_setReg]; split <;> simp [*], rfl, rfl, rfl, rfl⟩

/-- A rejected write leaves its address in MC_EVT, valid, and an event in the log. -/
theorem cfgReject_eq (s : State) (a : Nat) : ∃ w l, s.cfgReject a = { s.setReg aMcEvt w with coll := l } ∧ bitAt w 63 = true ∧ fld w 47 0 = a % 2 ^ 48 := by
  unfold State.cfgReject State.log
  refine ⟨_, _, rfl, ?_, fld_setFld_same _ _ (by decide) (by decide)⟩
  rw [bitAt_setFld _ _ _ (by decide) (by decide), bitAt_setFld _ _ _ (by decide) (by decide), bitAt_setFld _ _ _ (by decide) (by decide)]
  rfl

theorem reg_withColl (s : State) (l : Tbl (List EvRec)) (b : Nat) : ({ s with coll := l } : State).reg b = s.reg b := rfl

theorem OnlyReg.withColl {s u : State} {a : Nat} {l : Tbl (List EvRec)} (h : OnlyReg s u a) : OnlyReg s { u with coll := l } a := h

theorem cfgReject_pending (s : State) (a : Nat) : (s.cfgReject a).pending = s.pending := by
  obtain ⟨w, l, hu, -⟩ := cfgReject_eq s a
  rw [hu]
  rfl

theorem OnlyReg.cfgReject {s u : State} {a : Nat} (h : OnlyReg s u aMcEvt) : OnlyReg s (u.cfgReject a) aMcEvt := by
  obtain ⟨w, l, hu, -⟩ := cfgReject_eq u a
  rw [hu]
  exact h.setReg.withColl

theorem rejected_cfgReject {s : State} {a : Nat} (ha : a < 2 ^ 48) : Rejected (s.cfgReject a) a := by
  obtain ⟨w, l, hu, hvalid, haddr⟩ := cfgReject_eq s a
  have hreg : (s.cfgReject a).reg aMcEvt = w := by rw [hu, reg_withColl, State.reg_setReg, if_pos rfl]
  refine ⟨by rw [hreg, hvalid], ?_⟩
  rw [State.rfld, hreg, haddr, Nat.mod_eq_of_lt ha]

/-! ## What a write does to a register's fields -/

/-- The lock bit that holds for a register. -/
def State.lockedAt (s : State) (a : Nat) : Bool := (blockLock a).any fun l => bitAt (s.reg l) 0

/-- What a write of `v` makes of field `f` of a register that holds `x`, by the field's access code (R5, R522). -/
def writeField (lock : Bool) (v x : Word) (f : RField) : Word :=
  match f.acc with
  | .rw => setFld x f.hi f.lo (fld v f.hi f.lo)
  | .rwl => if lock then x else setFld x f.hi f.lo (fld v f.hi f.lo)
  | .w1c => setFld x f.hi f.lo (fld x f.hi f.lo &&& (2 ^ 64 - 1 - fld v f.hi f.lo))
  | .w1s => setFld x f.hi f.lo (fld x f.hi f.lo ||| fld v f.hi f.lo)
  | .ro | .wo | .rcl => x

theorem writeFields_eq {s : State} {a : Nat} {v : Word} {fs : List RField} (hspec : regSpec a = some fs) :
    s.writeFields a v =
      if s.lockedAt a ∧ fs.any (fun f => f.acc == .rwl && fld v f.hi f.lo != fld (s.reg a) f.hi f.lo) then
        (s.setReg a (fs.foldl (writeField (s.lockedAt a) v) (s.reg a))).cfgReject a
      else s.setReg a (fs.foldl (writeField (s.lockedAt a) v) (s.reg a)) := by
  unfold State.writeFields State.lockedAt
  rw [hspec]
  cases blockLock a <;> rfl

/-- A write that no lock stands against. -/
theorem writeFields_free {s : State} {a : Nat} {v : Word} {fs : List RField} (hspec : regSpec a = some fs)
    (h : s.lockedAt a = false ∨ fs.all (fun f => f.acc != .rwl) = true) :
    s.writeFields a v = s.setReg a (fs.foldl (writeField (s.lockedAt a) v) (s.reg a)) := by
  rw [writeFields_eq hspec, if_neg]
  rintro ⟨hlock, hany⟩
  obtain hfree | hall := h
  · rw [hfree] at hlock
    exact absurd hlock Bool.false_ne_true
  · obtain ⟨f, hf, hchange⟩ := List.any_eq_true.mp hany
    have := List.all_eq_true.mp hall f hf
    simp_all

/-! ## Where a write by the controller goes -/

/-- A register of fields `fs` at offset `q` of block `b`, no status register of a queue. -/
abbrev PlainReg (a b q : Nat) (fs : List RField) : Prop :=
  canonReg a = a ∧ regSpec a = some fs ∧ (dcqOf a).isNone = true ∧ regBlock a = b ∧ (a - regBase) % 0x10000 = q

/-- The block answers, and the access wakes no cluster. -/
structure State.Answers (s : State) (a : Nat) : Prop where
  reach : s.reachable a = true
  wake : s.wakeFor a = s

theorem State.answers_hub {s : State} {a : Nat} (h : 64 ≤ regBlock a) (hside : regBlock a ≠ 0x46 ∧ ¬ (0x50 ≤ regBlock a ∧ regBlock a < 0x60)) :
    s.Answers a where
  reach := by simp [State.reachable, show ¬ regBlock a < 64 by omega, hside]
  wake := by simp [State.wakeFor, show ¬ regBlock a < 64 by omega]

theorem State.answers_port {s : State} {a : Nat} (h : 64 ≤ regBlock a) (hpow : s.power ≠ 2) : s.Answers a where
  reach := by simp [State.reachable, show ¬ regBlock a < 64 by omega, hpow]
  wake := by simp [State.wakeFor, show ¬ regBlock a < 64 by omega]

theorem State.answers_cluster {s : State} {a c : Nat} (hb : regBlock a = c) (hc : c < 64) (hdie : s.dieOn c = true)
    (h : s.clState c ≤ 1 ∨ clusterSide a = false) : s.Answers a where
  reach := by
    simp only [State.reachable, hb, hc, if_true, hdie, Bool.true_and, Bool.not_eq_true', Bool.and_eq_false_iff, decide_eq_false_iff_not]
    exact h.elim (fun h => .inr (by omega)) .inl
  wake := by
    simp only [State.wakeFor, hb]
    rw [if_neg]
    rintro ⟨-, hside, hstate⟩
    obtain h | h := h
    · omega
    · rw [h] at hside; exact absurd hside Bool.false_ne_true

theorem PlainReg.spec {a b q : Nat} {fs : List RField} (h : PlainReg a b q fs) : regSpec a = some fs := h.2.1
theorem PlainReg.block {a b q : Nat} {fs : List RField} (h : PlainReg a b q fs) : regBlock a = b := h.2.2.2.1
theorem PlainReg.offset {a b q : Nat} {fs : List RField} (h : PlainReg a b q fs) : (a - regBase) % 0x10000 = q := h.2.2.2.2

theorem regWrite_mc {s : State} {a b q : Nat} {fs : List RField} {v : Word} (hr : PlainReg a b q fs) (ha : s.Answers a) :
    s.regWrite .mc a v =
      if isStatCtl a then s.statCtlWrite a v else if b < 64 then s.clWrite .mc b q a v else s.hubWrite .mc b q a v := by
  obtain ⟨hcanon, hspec, hdcq, rfl, rfl⟩ := hr
  have hnot : (dcqOf a).isSome = false := by simpa using hdcq
  simp [State.regWrite, hcanon, hspec, mayWrite, ha.reach, ha.wake, hnot]

theorem hwSets_zero {s : State} {a : Nat} : s.hwSets a 0 = s := by simp [State.hwSets]

theorem fld_lt {n : Nat} (w : BitVec n) (hi lo : Nat) : fld w hi lo < 2 ^ (hi + 1 - lo) := Nat.mod_lt _ (Nat.two_pow_pos _)

theorem rfld_setRfld_fld {s : State} {a hi lo : Nat} {v : Word} (hhi : lo ≤ hi ∧ hi < 64) :
    (s.setRfld a hi lo (fld v hi lo)).rfld a hi lo = fld v hi lo := by
  rw [rfld_setRfld_same hhi.1 hhi.2]
  exact Nat.mod_eq_of_lt (fld_lt v hi lo)

/-- The registers outside the clusters, the lock array and the ports whose write is more than setting fields. -/
def hubSpecial : List Nat :=
  [aHbLock, aKpLock, aMcLock, aPwLock, aHbShift, aPstatSel, aPressCfg, aLkSel, aLkLease, aDomSel, aPairCtl 0, aPairCtl 1, aSafeCfg, aCredit 69, aMcEvt]

/-- A register outside the clusters whose write sets its fields, unless its check refuses the value. -/
abbrev HubPlain (a b q : Nat) : Prop :=
  a ∉ hubSpecial ∧ b ≠ 0x43 ∧ ¬ (0x50 ≤ b ∧ b < 0x60 ∧ q ∈ [0x00, 0x08, 0x10, 0x30, 0x38])

theorem hubWrite_go {s : State} {m : Master} {a b q : Nat} {v : Word} (h : HubPlain a b q) (hgo : s.hubCheck b q a v = .go) :
    s.hubWrite m b q a v = s.writeFields a v := by
  obtain ⟨hreg, hlock, hport⟩ := h
  simp only [hubSpecial, List.mem_cons, List.not_mem_nil, or_false, not_or] at hreg
  have hoff : ∀ x ∈ [0x00, 0x08, 0x10, 0x30, 0x38], ¬ (0x50 ≤ b ∧ b < 0x60 ∧ q = x) := by
    rintro x hx ⟨hlo, hhi, rfl⟩
    exact hport ⟨hlo, hhi, hx⟩
  simp only [State.hubWrite, hreg, hlock, hoff 0x00 (by decide), hoff 0x08 (by decide), hoff 0x10 (by decide), hoff 0x30 (by decide),
    hoff 0x38 (by decide), or_false, if_false, hgo]

/-- A register of a cluster block whose write sets its fields, unless its check refuses the value. -/
abbrev ClPlain (c q : Nat) : Prop :=
  q ≠ 0x08 ∧ q ≠ 0x18 ∧ q ≠ 0x28 ∧ q ≠ 0x108 ∧ q ≠ 0x210 ∧ q ≠ 0x218 ∧ ¬ (0x408 ≤ q ∧ q < 0x430) ∧ ¬ (q = 0xC60 ∧ hasApe c = true)

theorem clWrite_go {s : State} {m : Master} {a c q : Nat} {v : Word} (h : ClPlain c q) (hgo : s.clCheck c q a v = .go) :
    s.clWrite m c q a v = s.writeFields a v := by
  obtain ⟨h1, h2, h3, h4, h5, h6, h7, h8⟩ := h
  rw [State.clWrite, if_neg h1, if_neg h2, if_neg h3, if_neg h4, if_neg h5, if_neg h6, if_neg h7, if_neg h8, hgo]

theorem clWrite_ignore {s : State} {m : Master} {a c q : Nat} {v : Word} (h : ClPlain c q) (hno : s.clCheck c q a v = .ignore) :
    s.clWrite m c q a v = s := by
  obtain ⟨h1, h2, h3, h4, h5, h6, h7, h8⟩ := h
  rw [State.clWrite, if_neg h1, if_neg h2, if_neg h3, if_neg h4, if_neg h5, if_neg h6, if_neg h7, if_neg h8, hno]

theorem exec_registerWrite (r : RegAt) (v : Word) (s : State) :
    exec (.registerWrite r v) s = onModule s fun s => (s.regWrite .mc r.a v).hwSets r.a r.hw := rfl

theorem registerWrite_nowhere {s : State} {a : Nat} {v : Word} (h : (regSpec (canonReg a)).isNone = true) :
    exec (.registerWrite ⟨a, 0⟩ v) s = .next s := by
  rw [exec_registerWrite]
  refine onModule_same ?_
  simp only [hwSets_zero, State.regWrite, h, true_or, if_true]

theorem regWrite_off {s : State} {a b q : Nat} {fs : List RField} {v : Word} (hr : PlainReg a b q fs) (hoff : s.reachable a = false) :
    s.regWrite .mc a v = s.cfgReject a := by
  obtain ⟨hcanon, hspec, -, -, -⟩ := hr
  simp [State.regWrite, hcanon, hspec, mayWrite, hoff]

theorem runs_registerWrite {s t : State} {a : Nat} {v : Word} {P : State → Prop} (hrun : s.regWrite .mc a v = t)
    (hpending : t.pending = s.pending) (h : P t) : Runs (.registerWrite ⟨a, 0⟩ v) s P :=
  runs_onModule (exec_registerWrite _ _ _) (hwSets_zero.trans hrun) hpending h

/-! ### MC_DBG_CFG and PT_TS_ADJ -/

theorem dbgCfg_plain : PlainReg aDbgCfg 0x60 0x10 [⟨15, 0, .rwl, 0x258⟩] := by decide
theorem dbgCfg_lock (s : State) : s.lockedAt aDbgCfg = bitAt (s.reg aMcLock) 0 := by
  rw [State.lockedAt, show blockLock aDbgCfg = some aMcLock by decide, Option.any_some]

theorem regWrite_dbgCfg {s : State} {v : Word} (hv : 10 ≤ fld v 15 0) : s.regWrite .mc aDbgCfg v = s.writeFields aDbgCfg v := by
  have hcheck : s.hubCheck 0x60 0x10 aDbgCfg v = .go := by
    simp [State.hubCheck, ignoreIf, hv]
  rw [regWrite_mc dbgCfg_plain (State.answers_hub (by decide) (by decide)), if_neg (by decide), if_neg (by decide),
    hubWrite_go (by decide) hcheck]

theorem registerWrite_dbgCfg_free {s : State} {v : Word} (hv : 10 ≤ fld v 15 0) (hfree : bitAt (s.reg aMcLock) 0 = false) :
    Runs (.registerWrite ⟨aDbgCfg, 0⟩ v) s fun u => u.rfld aDbgCfg 15 0 = fld v 15 0 ∧ OnlyReg s u aDbgCfg := by
  have hlock : s.lockedAt aDbgCfg = false := (dbgCfg_lock s).trans hfree
  have hrun : s.regWrite .mc aDbgCfg v = s.setRfld aDbgCfg 15 0 (fld v 15 0) := by
    rw [regWrite_dbgCfg hv, writeFields_free dbgCfg_plain.spec (.inl hlock), hlock]
    rfl
  exact runs_registerWrite hrun rfl ⟨rfld_setRfld_fld (by decide), (OnlyReg.refl s _).setReg⟩

theorem registerWrite_dbgCfg_locked {s : State} {v : Word} (hv : 10 ≤ fld v 15 0) (hlock : bitAt (s.reg aMcLock) 0 = true)
    (hne : fld v 15 0 ≠ s.rfld aDbgCfg 15 0) :
    Runs (.registerWrite ⟨aDbgCfg, 0⟩ v) s fun u => OnlyReg s u aMcEvt ∧ Rejected u aDbgCfg := by
  have hrun : s.regWrite .mc aDbgCfg v = (s.setReg aDbgCfg (s.reg aDbgCfg)).cfgReject aDbgCfg := by
    rw [regWrite_dbgCfg hv, writeFields_eq dbgCfg_plain.spec, dbgCfg_lock, hlock, if_pos]
    · rfl
    · exact ⟨rfl, by simpa [State.rfld] using hne⟩
  exact runs_registerWrite hrun (cfgReject_pending ..) ⟨OnlyReg.setReg_same.cfgReject, rejected_cfgReject (by decide)⟩

theorem tsAdj_plain : ∀ p < 16, PlainReg (aTsAdj p) (0x50 + p) 0x40 [⟨15, 0, .rw, 0⟩] := by decide
theorem tsAdj_hubPlain : ∀ p < 16, HubPlain (aTsAdj p) (0x50 + p) 0x40 := by decide
theorem tsAdj_notStat : ∀ p < 16, isStatCtl (aTsAdj p) = false ∧ aTsAdj p < 2 ^ 48 := by decide

theorem registerWrite_tsAdj {s : State} {p : Nat} {v : Word} (hp : p < 16) (hpow : s.power ≠ 2) :
    Runs (.registerWrite ⟨aTsAdj p, 0⟩ v) s fun u => u.rfld (aTsAdj p) 15 0 = fld v 15 0 ∧ OnlyReg s u (aTsAdj p) := by
  have hr := tsAdj_plain p hp
  have hblock : regBlock (aTsAdj p) = 0x50 + p := hr.block
  have hcheck : s.hubCheck (0x50 + p) 0x40 (aTsAdj p) v = .go := by
    simp [State.hubCheck, show ¬ (0x50 + p = 0x40) by omega, show ¬ (0x50 + p = 0x41) by omega, show ¬ (0x50 + p = 0x45) by omega,
      show ¬ (0x50 + p = 0x46) by omega, show ¬ (0x50 + p = 0x47) by omega, show 0x50 + p < 0x60 by omega]
  have hrun : s.regWrite .mc (aTsAdj p) v = s.setRfld (aTsAdj p) 15 0 (fld v 15 0) := by
    rw [regWrite_mc hr (State.answers_port (by omega) hpow), (tsAdj_notStat p hp).1, if_neg Bool.false_ne_true, if_neg (by omega),
      hubWrite_go (tsAdj_hubPlain p hp) hcheck, writeFields_free hr.spec (.inr rfl)]
    rfl
  exact runs_registerWrite hrun rfl ⟨rfld_setRfld_fld (by decide), (OnlyReg.refl s _).setReg⟩

theorem registerWrite_tsAdj_off {s : State} {p : Nat} {v : Word} (hp : p < 16) (hpow : s.power = 2) :
    Runs (.registerWrite ⟨aTsAdj p, 0⟩ v) s fun u => OnlyReg s u aMcEvt ∧ Rejected u (aTsAdj p) := by
  have hr := tsAdj_plain p hp
  have hblock : regBlock (aTsAdj p) = 0x50 + p := hr.block
  have hoff : s.reachable (aTsAdj p) = false := by
    simp [State.reachable, hblock, hpow, show ¬ (0x50 + p < 64) by omega, show 0x50 + p < 0x60 by omega]
  exact runs_registerWrite (regWrite_off hr hoff) (cfgReject_pending ..)
    ⟨(OnlyReg.refl s _).cfgReject, rejected_cfgReject (tsAdj_notStat p hp).2⟩

end Sys2Proof.Machine
end

/-! ## Reads that clear, lock bits, selectors and error injection -/
section
namespace Sys2Proof.Machine

/-! ### Sensor registers: reads that clear (R5, R6) -/

theorem mcTemp_plain : ∀ i < 24, PlainReg (aMcTemp i) 0x60 (0x100 + 8 * i) [⟨63, 63, .ro, 0⟩, ⟨31, 16, .rcl, 0x8000⟩, ⟨15, 0, .ro, 0⟩] ∧
    aMcTemp i ≠ aPstat 6 := by decide

theorem State.reachable_mc {s : State} {a : Nat} (h : regBlock a = 0x60) : s.reachable a = true := by
  simp [State.reachable, h]

theorem mcRead_mcTemp {s : State} {i : Nat} (hi : i < 24) :
    s.mcRead (aMcTemp i) = (s.reg (aMcTemp i), s.setRfld (aMcTemp i) 31 16 0x8000) := by
  obtain ⟨⟨hcanon, hspec, hdcq, hblock, hoff⟩, hne⟩ := mcTemp_plain i hi
  have hshown : s.regShown (aMcTemp i) = s.reg (aMcTemp i) := by
    rw [State.regShown, hcanon, hspec, hblock, hoff, Option.isNone_iff_eq_none.mp hdcq]
    simp [State.hubShown]
  have hclear : s.clearRcl (aMcTemp i) = s.setRfld (aMcTemp i) 31 16 0x8000 := by
    simp [State.clearRcl, hcanon, hspec, hne]
  rw [State.mcRead, hblock, if_neg (by simp), State.regRead, hshown, hclear]

theorem hwSets_mcTemp {s : State} {i : Nat} {hw : Word} (hi : i < 24) (hhw : hw ≠ 0) :
    s.hwSets (aMcTemp i) hw = s.setRfld (aMcTemp i) 31 16 (s.rfld (aMcTemp i) 31 16 ||| fld hw 31 16) := by
  obtain ⟨⟨hcanon, hspec, hdcq, hblock, hoff⟩, hne⟩ := mcTemp_plain i hi
  rw [State.hwSets, hcanon, State.reachable_mc hblock, if_neg (by simp only [hhw, Bool.not_true, Bool.false_eq_true, or_self, not_false_eq_true]), if_neg hne, hspec]
  rfl

theorem exec_rclRead (r : RegAt) (s : State) :
    exec (.rclRead r) s = onModule s fun s => { (s.mcRead r.a).2.hwSets r.a r.hw with rdata := [(s.mcRead r.a).1] } := rfl

theorem OnlyReg.withRdata {s u : State} {a : Nat} {l : List Word} (h : OnlyReg s u a) : OnlyReg s { u with rdata := l } a := h
theorem reg_withRdata (s : State) (l : List Word) (b : Nat) : ({ s with rdata := l } : State).reg b = s.reg b := rfl

theorem runs_rclRead {s t u : State} {r : RegAt} {v : Word} {P : State → Prop} (hread : s.mcRead r.a = (v, t)) (hset : t.hwSets r.a r.hw = u)
    (hpending : u.pending = s.pending) (h : P { u with rdata := [v] }) : Runs (.rclRead r) s P :=
  runs_onModule (t := { u with rdata := [v] }) (exec_rclRead r s) (by rw [hread, hset]) hpending h

theorem rclRead_mcTemp {s : State} {i : Nat} (hi : i < 24) : Runs (.rclRead ⟨aMcTemp i, 0⟩) s fun u =>
    u.rdata = [s.reg (aMcTemp i)] ∧ u.rfld (aMcTemp i) 31 16 = 0x8000 ∧ u.rfld (aMcTemp i) 15 0 = s.rfld (aMcTemp i) 15 0 ∧
      OnlyReg s u (aMcTemp i) := by
  refine runs_rclRead (mcRead_mcTemp hi) hwSets_zero (State.setReg_pending ..) ⟨rfl, ?_, ?_, (OnlyReg.refl s _).setReg.withRdata⟩
  · rw [State.rfld, reg_withRdata]
    exact rfld_setRfld_same (by decide) (by decide)
  · rw [State.rfld, reg_withRdata]
    exact rfld_setRfld_other (by decide) (.inl (by decide))

theorem rclRead_mcTemp_event {s : State} {i : Nat} {hw : Word} (hi : i < 24) : Runs (.rclRead ⟨aMcTemp i, hw⟩) s fun u =>
    u.rdata = [s.reg (aMcTemp i)] ∧ ∀ k, 16 ≤ k → k < 32 → bitAt hw k = true → bitAt (u.reg (aMcTemp i)) k = true := by
  by_cases hhw : hw = 0
  · subst hhw
    obtain ⟨u, hexec, hdata, -⟩ := rclRead_mcTemp (s := s) hi
    exact ⟨u, hexec, hdata, fun k _ _ hk => by simp [bitAt] at hk⟩
  · refine runs_rclRead (mcRead_mcTemp hi) (hwSets_mcTemp hi hhw) ((State.setReg_pending ..).trans (State.setReg_pending ..))
      ⟨rfl, fun k hlo hhi hk => ?_⟩
    rw [reg_withRdata, State.setRfld, State.reg_setReg, if_pos rfl, bitAt_setFld _ _ _ (by decide) (by decide), if_pos ⟨hlo, by omega⟩,
      Nat.testBit_or, testBit_fld hw]
    simp [show 16 + (k - 16) = k by omega, hk, show k - 16 < 16 by omega]

/-! ### MC_EVT (R461) -/

theorem mcEvt_plain : PlainReg aMcEvt 0x60 0x08 [⟨63, 63, .w1c, 0⟩, ⟨55, 48, .ro, 0⟩, ⟨47, 0, .ro, 0⟩] ∧ isStatCtl aMcEvt = false ∧
    aMcEvt ≠ aPstat 6 := by decide

theorem regWrite_hub {s : State} {a b q : Nat} {fs : List RField} {v : Word} (hr : PlainReg a b q fs) (hstat : isStatCtl a = false)
    (hb : 64 ≤ b ∧ b ≠ 0x46 ∧ ¬ (0x50 ≤ b ∧ b < 0x60)) : s.regWrite .mc a v = s.hubWrite .mc b q a v := by
  obtain ⟨hcanon, hspec, hdcq, rfl, rfl⟩ := hr
  rw [regWrite_mc ⟨hcanon, hspec, hdcq, rfl, rfl⟩ (State.answers_hub hb.1 hb.2), hstat, if_neg Bool.false_ne_true, if_neg (by omega)]

theorem regWrite_mcEvt {s : State} {v : Word} : s.regWrite .mc aMcEvt v = s.evtWrite v := by
  rw [regWrite_hub mcEvt_plain.1 mcEvt_plain.2.1 (by decide), State.hubWrite, if_neg (by decide), if_neg (by decide),
    if_neg (by decide), if_neg (by decide), if_neg (by decide), if_neg (by decide), if_neg (by decide),
    if_neg (by decide), if_neg (by decide), if_neg (by decide), if_neg (by decide), if_neg (by decide),
    if_pos rfl]

theorem OnlyReg.evtWrite {s : State} {v : Word} : OnlyReg s (s.evtWrite v) aMcEvt :=
  keep_ite (P := fun u => OnlyReg s u aMcEvt) (OnlyReg.refl s aMcEvt).setReg.setReg (OnlyReg.refl s aMcEvt)

theorem hwSets_mcEvt {s : State} {hw : Word} (hhw : hw ≠ 0) :
    s.hwSets aMcEvt hw = s.setRfld aMcEvt 63 63 (s.rfld aMcEvt 63 63 ||| fld hw 63 63) := by
  obtain ⟨⟨hcanon, hspec, hdcq, hblock, hoff⟩, -, hne⟩ := mcEvt_plain
  rw [State.hwSets, hcanon, State.reachable_mc hblock,
    if_neg (by simp only [hhw, Bool.not_true, Bool.false_eq_true, or_self, not_false_eq_true]), if_neg hne, hspec]
  rfl

theorem setRfld_pending {s : State} {a hi lo v : Nat} : (s.setRfld a hi lo v).pending = s.pending := rfl

theorem evtWrite_pending {s : State} {v : Word} : (s.evtWrite v).pending = s.pending := by
  unfold State.evtWrite
  split
  · exact setRfld_pending.trans setRfld_pending
  · rfl

theorem registerWrite_mcEvt_event {s : State} {v hw : Word} (hbit : bitAt hw 63 = true) :
    Runs (.registerWrite ⟨aMcEvt, hw⟩ v) s fun u => bitAt (u.reg aMcEvt) 63 = true ∧ OnlyReg s u aMcEvt := by
  have hhw : hw ≠ 0 := by
    rintro rfl
    simp [bitAt] at hbit
  refine runs_onModule (exec_registerWrite _ _ _) (t := (s.evtWrite v).setRfld aMcEvt 63 63 ((s.evtWrite v).rfld aMcEvt 63 63 ||| fld hw 63 63))
    (by rw [regWrite_mcEvt, hwSets_mcEvt hhw]) (setRfld_pending.trans evtWrite_pending) ⟨?_, OnlyReg.evtWrite.setReg⟩
  rw [State.setRfld, State.reg_setReg, if_pos rfl, bitAt_setFld _ _ _ (by decide) (by decide), if_pos (by decide), Nat.testBit_or, testBit_fld hw]
  simp [hbit]

theorem exec_mcEvtClear (s : State) : exec .mcEvtClear s = onModule s fun s => s.regWrite .mc aMcEvt (BitVec.ofNat 64 (2 ^ 63)) := rfl

theorem mcEvtClear_runs {s : State} : Runs .mcEvtClear s fun u => bitAt (u.reg aMcEvt) 63 = false ∧ u.rfld aMcEvt 55 48 = 0 ∧ OnlyReg s u aMcEvt := by
  refine runs_onModule (exec_mcEvtClear s) (t := (s.setRfld aMcEvt 63 63 0).setRfld aMcEvt 55 48 0)
    (by rw [regWrite_mcEvt, State.evtWrite, if_pos (by decide)]) (setRfld_pending.trans setRfld_pending)
    ⟨?_, rfld_setRfld_same (by decide) (by decide), (OnlyReg.refl s _).setReg.setReg⟩
  rw [State.setRfld, State.reg_setReg, if_pos rfl, bitAt_setFld _ _ _ (by decide) (by decide), if_neg (by decide), State.setRfld, State.reg_setReg,
    if_pos rfl, bitAt_setFld _ _ _ (by decide) (by decide), if_pos (by decide)]
  rfl

/-! ### Lock bits (R522) -/

theorem bit0_setRfld {s : State} {a v : Nat} : bitAt ((s.setRfld a 0 0 v).reg a) 0 = v.testBit 0 := by
  rw [State.setRfld, State.reg_setReg, if_pos rfl, bitAt_setFld _ _ _ (by decide) (by decide), if_pos (by decide)]

theorem lockWrite_set {s : State} {m : Master} {a : Nat} : s.lockWrite m a 1 = s.setRfld a 0 0 1 := by
  rw [State.lockWrite, if_neg (by decide), if_pos (by decide)]

theorem lockWrite_unlock {s : State} {a : Nat} (h : 64 ≤ regBlock a ∨ s.mc.graph = none) : s.lockWrite .mc a 2 = s.setRfld a 0 0 0 := by
  rw [State.lockWrite, if_neg (by decide), if_neg (by decide), if_pos ⟨by decide, rfl, h⟩]

theorem lockWrite_held {s : State} {a : Nat} (h : ¬ (64 ≤ regBlock a ∨ s.mc.graph = none)) : s.lockWrite .mc a 2 = s := by
  rw [State.lockWrite, if_neg (by decide), if_neg (by decide), if_neg fun hx => h hx.2.2]

theorem exec_lockBitSet (a : Nat) (s : State) :
    exec (.lockBitSet a) s = onModule s fun s => if (regSpec a) == some fLock then s.regWrite .mc a 1 else s := rfl
theorem exec_lockBitUnlock (a : Nat) (s : State) :
    exec (.lockBitUnlock a) s = onModule s fun s => if (regSpec a) == some fLock then s.regWrite .mc a 2 else s := rfl

theorem hubLock_plain : ∀ a ∈ [aHbLock, aMcLock, aPwLock], PlainReg a (regBlock a) 0 fLock ∧ isStatCtl a = false ∧
    64 ≤ regBlock a ∧ regBlock a ≠ 0x46 ∧ ¬ (0x50 ≤ regBlock a ∧ regBlock a < 0x60) := by decide

theorem regWrite_hubLock {s : State} {a : Nat} {v : Word} (ha : a ∈ [aHbLock, aMcLock, aPwLock]) : s.regWrite .mc a v = s.lockWrite .mc a v := by
  obtain ⟨hr, hstat, hb⟩ := hubLock_plain a ha
  simp only [List.mem_cons, List.not_mem_nil, or_false] at ha
  have hlock : a = aHbLock ∨ a = aKpLock ∨ a = aMcLock ∨ a = aPwLock := by
    obtain h | h | h := ha
    · exact .inl h
    · exact .inr (.inr (.inl h))
    · exact .inr (.inr (.inr h))
  rw [regWrite_hub hr hstat hb, State.hubWrite, if_pos (by omega)]

theorem hubLock_commands {s : State} {a : Nat} (ha : a ∈ [aHbLock, aMcLock, aPwLock]) :
    Runs (.lockBitSet a) s (fun u => bitAt (u.reg a) 0 = true ∧ OnlyReg s u a) ∧
      Runs (.lockBitUnlock a) s (fun u => bitAt (u.reg a) 0 = false ∧ OnlyReg s u a) := by
  obtain ⟨⟨-, hspec, -⟩, -, hb, -⟩ := hubLock_plain a ha
  exact ⟨runs_onModule (exec_lockBitSet a s) (by rw [hspec, if_pos (by decide), regWrite_hubLock ha, lockWrite_set]) setRfld_pending
      ⟨bit0_setRfld, (OnlyReg.refl s a).setReg⟩,
    runs_onModule (exec_lockBitUnlock a s) (by rw [hspec, if_pos (by decide), regWrite_hubLock ha, lockWrite_unlock (.inl hb)])
      setRfld_pending ⟨bit0_setRfld, (OnlyReg.refl s a).setReg⟩⟩

theorem clLock_plain : ∀ c < 64, PlainReg (aClLock c) c 0x08 fLock ∧ isStatCtl (aClLock c) = false ∧ clusterSide (aClLock c) = false := by
  decide

/-- Where a write to a register of a cluster goes that answers. -/
theorem regWrite_cluster {s : State} {a c q : Nat} {fs : List RField} {v : Word} (hr : PlainReg a c q fs) (hc : c < 64) (hdie : s.dieOn c = true)
    (hclk : s.clState c ≤ 1 ∨ clusterSide a = false) :
    s.regWrite .mc a v = if isStatCtl a then s.statCtlWrite a v else s.clWrite .mc c q a v := by
  rw [regWrite_mc hr (State.answers_cluster hr.block hc hdie hclk), if_pos hc]

theorem clLock_commands {s : State} {c : Nat} (hc : c < 64) (hdie : s.dieOn c = true) :
    (s.mc.graph = none → Runs (.lockBitUnlock (aClLock c)) s fun u => bitAt (u.reg (aClLock c)) 0 = false) ∧
      (s.mc.graph.isSome = true → exec (.lockBitUnlock (aClLock c)) s = .next s) := by
  obtain ⟨hr, hstat, hside⟩ := clLock_plain c hc
  obtain ⟨-, hspec, -, hblock, -⟩ := id hr
  have hwrite : s.regWrite .mc (aClLock c) 2 = s.lockWrite .mc (aClLock c) 2 := by
    rw [regWrite_cluster hr hc hdie (.inr hside), hstat, if_neg Bool.false_ne_true, State.clWrite, if_pos rfl]
  constructor
  · intro hgraph
    exact runs_onModule (exec_lockBitUnlock _ s) (by rw [hspec, if_pos (by decide), hwrite, lockWrite_unlock (.inr hgraph)]) setRfld_pending
      bit0_setRfld
  · intro hgraph
    have hheld : ¬ (64 ≤ regBlock (aClLock c) ∨ s.mc.graph = none) := by
      rw [hblock]
      rintro (h | h)
      · omega
      · simp [h] at hgraph
    rw [exec_lockBitUnlock]
    exact onModule_same (by rw [hspec, if_pos (by decide), hwrite, lockWrite_held hheld])

/-! ### Selectors (R334, R407, R424) -/

/-- The word of a selector register: VALID in bit 63, the number in bits hi:0. -/
theorem bitAt_selector {hi b e : Nat} (i : Nat) (hhi : hi < 63) : bitAt (BitVec.ofNat 64 (put 63 63 b + put hi 0 e)) i =
    (decide (i < 64) && if i < 63 then (e % 2 ^ (hi + 1)).testBit i else (b % 2).testBit (i - 63)) := by
  have hlt : e % 2 ^ (hi + 1) < 2 ^ 63 :=
    Nat.lt_of_lt_of_le (Nat.mod_lt _ (Nat.two_pow_pos _)) (Nat.pow_le_pow_right (by decide) (by omega))
  have hput : put 63 63 b + put hi 0 e = 2 ^ 63 * (b % 2) + e % 2 ^ (hi + 1) := by simp [put, Nat.shiftLeft_eq, Nat.mul_comm]
  rw [bitAt_ofNat, hput, Nat.testBit_two_pow_mul_add _ hlt]

theorem selector_fld {hi b e : Nat} (hhi : hi < 63) : fld (BitVec.ofNat 64 (put 63 63 b + put hi 0 e)) hi 0 = e % 2 ^ (hi + 1) := by
  refine Nat.eq_of_testBit_eq fun i => ?_
  rw [testBit_fld, bitAt_selector _ hhi, Nat.testBit_mod_two_pow]
  by_cases h : i < hi + 1
  · simp [h, show i < 64 by omega, show i < 63 by omega]
  · simp [h]

theorem selector_valid {hi e : Nat} {b : Bool} (hhi : hi < 63) : bitAt (BitVec.ofNat 64 (put 63 63 b.toNat + put hi 0 e)) 63 = b := by
  rw [bitAt_selector _ hhi]
  cases b <;> rfl

theorem selector_runs {c : Instr} {s : State} {f : State → State} {a hi e : Nat} {b : Bool} (hexec : exec c s = onModule s f)
    (hrun : f s = s.setReg a (BitVec.ofNat 64 (put 63 63 b.toNat + put hi 0 e))) (hhi : hi < 63) :
    Runs c s fun u => u.rfld a hi 0 = e % 2 ^ (hi + 1) ∧ bitAt (u.reg a) 63 = b ∧ OnlyReg s u a := by
  refine runs_onModule hexec hrun (State.setReg_pending ..) ⟨?_, ?_, (OnlyReg.refl s a).setReg⟩
  · rw [State.rfld, State.reg_setReg, if_pos rfl, selector_fld hhi]
  · rw [State.reg_setReg, if_pos rfl, selector_valid hhi]

theorem fld_ofNat_low {e hi : Nat} (hhi : hi < 64) : fld (BitVec.ofNat 64 e) hi 0 = e % 2 ^ (hi + 1) := by
  rw [fld, BitVec.toNat_ofNat, Nat.shiftRight_zero, Nat.sub_zero, Nat.mod_mod_of_dvd _ (Nat.pow_dvd_pow 2 (by omega))]

theorem exec_hbPstatSelWrite (e : Nat) (s : State) : exec (.hbPstatSelWrite e) s = onModule s fun s => s.regWrite .mc aPstatSel (BitVec.ofNat 64 e) := rfl
theorem exec_tbDomSelWrite (d : Nat) (s : State) : exec (.tbDomSelWrite d) s = onModule s fun s => s.regWrite .mc aDomSel (BitVec.ofNat 64 d) := rfl
theorem exec_lkSelWrite (n : Nat) (s : State) : exec (.lkSelWrite n) s = onModule s fun s => s.regWrite .mc aLkSel (BitVec.ofNat 64 n) := rfl

theorem pstatSel_plain : PlainReg aPstatSel 0x40 0x30 [⟨63, 63, .ro, 0⟩, ⟨12, 0, .rw, 0x100⟩] ∧ isStatCtl aPstatSel = false := by decide
theorem domSel_plain : PlainReg aDomSel 0x44 0x10 [⟨63, 63, .ro, 0⟩, ⟨6, 0, .rw, 0⟩] ∧ isStatCtl aDomSel = false := by decide
theorem lkSel_plain : PlainReg aLkSel 0x42 0x00 [⟨63, 63, .ro, 0⟩, ⟨9, 0, .rw, 0⟩] ∧ isStatCtl aLkSel = false := by decide

theorem regWrite_pstatSel {s : State} {v : Word} : s.regWrite .mc aPstatSel v = s.pstatSel v := by
  rw [regWrite_hub pstatSel_plain.1 pstatSel_plain.2 (by decide), State.hubWrite]
  iterate 2 rw [if_neg (by decide)]
  exact if_pos rfl

theorem regWrite_domSel {s : State} {v : Word} : s.regWrite .mc aDomSel v = s.domSel v := by
  rw [regWrite_hub domSel_plain.1 domSel_plain.2 (by decide), State.hubWrite]
  iterate 7 rw [if_neg (by decide)]
  exact if_pos rfl

theorem regWrite_lkSel {s : State} {v : Word} : s.regWrite .mc aLkSel v = s.lkSel v := by
  rw [regWrite_hub lkSel_plain.1 lkSel_plain.2 (by decide), State.hubWrite]
  iterate 4 rw [if_neg (by decide)]
  exact if_pos rfl

theorem hbPstatSelWrite_runs {s : State} (e : Nat) : Runs (.hbPstatSelWrite e) s fun u => u.rfld aPstatSel 12 0 = e % 8192 ∧
    (bitAt (u.reg aPstatSel) 63 = true ↔ 256 ≤ e % 8192 ∧ e % 8192 ≤ 4351) ∧ OnlyReg s u aPstatSel := by
  have hnum : fld (BitVec.ofNat 64 e) 12 0 = e % 8192 := fld_ofNat_low (by decide)
  obtain ⟨u, hexec, hsel, hvalid, honly⟩ := selector_runs (b := decide (256 ≤ e % 8192 ∧ e % 8192 ≤ 4351)) (hi := 12) (e := e % 8192)
    (exec_hbPstatSelWrite e s) (by rw [regWrite_pstatSel, State.pstatSel, hnum]) (by decide)
  exact ⟨u, hexec, hsel.trans (Nat.mod_mod _ _), by rw [hvalid, decide_eq_true_eq], honly⟩

theorem tbDomSelWrite_runs {s : State} {d : Nat} (hd : d < 128) : Runs (.tbDomSelWrite d) s fun u => u.rfld aDomSel 6 0 = d ∧
    (bitAt (u.reg aDomSel) 63 = true ↔ d ≠ 92 ∧ d < 94) ∧ OnlyReg s u aDomSel := by
  have hnum : fld (BitVec.ofNat 64 d) 6 0 = d := (fld_ofNat_low (by decide)).trans (Nat.mod_eq_of_lt hd)
  obtain ⟨u, hexec, hsel, hvalid, honly⟩ := selector_runs (b := decide (d ≠ 92 ∧ d < 94)) (hi := 6) (e := d) (exec_tbDomSelWrite d s)
    (by rw [regWrite_domSel, State.domSel, hnum]) (by decide)
  exact ⟨u, hexec, hsel.trans (Nat.mod_eq_of_lt hd), by rw [hvalid, decide_eq_true_eq], honly⟩

theorem lkSelWrite_runs {s : State} {n : Nat} (hn : n < 1024) : Runs (.lkSelWrite n) s fun u => u.rfld aLkSel 9 0 = n ∧
    bitAt (u.reg aLkSel) 63 = true ∧ OnlyReg s u aLkSel := by
  have hnum : fld (BitVec.ofNat 64 n) 9 0 = n := (fld_ofNat_low (by decide)).trans (Nat.mod_eq_of_lt hn)
  obtain ⟨u, hexec, hsel, hvalid, honly⟩ := selector_runs (b := true) (hi := 9) (e := n) (exec_lkSelWrite n s)
    (by rw [regWrite_lkSel, State.lkSel, hnum]; rfl) (by decide)
  exact ⟨u, hexec, hsel.trans (Nat.mod_eq_of_lt hn), hvalid, honly⟩

/-! ### Error injection (R222, R243) -/

/-- A register that arms an injection: the number of the unit above bit 0, which arms it. -/
theorem writeFields_arm {s : State} {a hi r k : Nat} (hspec : regSpec a = some [⟨hi, 1, .rw, r⟩, ⟨0, 0, .rw, 0⟩]) (hhi : 1 ≤ hi ∧ hi < 64)
    (hk : k < 2 ^ hi) :
    let u := s.writeFields a (BitVec.ofNat 64 (k * 2 + 1))
    u.pending = s.pending ∧ bitAt (u.reg a) 0 = true ∧ u.rfld a hi 1 = k ∧ OnlyReg s u a := by
  have hk64 : k * 2 + 1 < 2 ^ 64 := by
    have : 2 ^ hi ≤ 2 ^ 63 := Nat.pow_le_pow_right (by decide) (by omega)
    omega
  have hnum : fld (BitVec.ofNat 64 (k * 2 + 1)) hi 1 = k := by
    rw [fld, BitVec.toNat_ofNat, Nat.mod_eq_of_lt hk64, Nat.shiftRight_eq_div_pow, show (k * 2 + 1) / 2 ^ 1 = k by omega, Nat.add_sub_cancel,
      Nat.mod_eq_of_lt hk]
  have hbit : fld (BitVec.ofNat 64 (k * 2 + 1)) 0 0 = 1 := by
    rw [fld_ofNat_low (by decide)]
    omega
  have hrun : s.writeFields a (BitVec.ofNat 64 (k * 2 + 1)) = s.setReg a (setFld (setFld (s.reg a) hi 1 k) 0 0 1) := by
    rw [writeFields_free hspec (.inr rfl)]
    simp only [List.foldl, writeField, hnum, hbit]
  refine ⟨by rw [hrun]; exact State.setReg_pending .., ?_, ?_, by rw [hrun]; exact (OnlyReg.refl s a).setReg⟩
  · rw [hrun, State.reg_setReg, if_pos rfl, bitAt_setFld _ _ _ (by decide) (by decide), if_pos (by decide)]
    rfl
  · rw [hrun, State.rfld, State.reg_setReg, if_pos rfl, fld_setFld_other _ _ (by decide) (by decide) (.inr (by decide)), fld_setFld_same _ _ hhi.1 hhi.2]
    exact Nat.mod_eq_of_lt (by rwa [Nat.add_sub_cancel])

theorem exec_peLaccInjectArm {n k : Nat} (hn : 256 ≤ n ∧ n < 272) (s : State) : exec (.peLaccInjectArm n k) s =
    onModule s fun s => s.regWrite .mc (aLaccInject n) (BitVec.ofNat 64 (k % 4 * 2 + 1)) := if_pos hn
theorem exec_peResInjectArm {n k : Nat} (hn : n < 276) (s : State) : exec (.peResInjectArm n k) s =
    onModule s fun s => s.regWrite .mc (aPeResInject n) (BitVec.ofNat 64 (k % 8 * 2 + 1)) := if_pos hn
theorem exec_aeResInjectArm {c k : Nat} (hc : c < 64) (s : State) : exec (.aeResInjectArm c k) s =
    onModule s fun s => s.regWrite .mc (aAeResInject c) (BitVec.ofNat 64 (k % 8 * 2 + 1)) := if_pos hc

theorem peCluster_lt {n : Nat} (hn : n < 272) : peCluster n < 64 := by
  have hape : ∀ i < 16, apeClusters.getD i 0 < 64 := by decide
  unfold peCluster
  split
  · omega
  · exact hape _ (by omega)

theorem laccInject_plain : ∀ n < 272, 256 ≤ n → PlainReg (aLaccInject n) (peCluster n) 0xC68 [⟨2, 1, .rw, 0⟩, ⟨0, 0, .rw, 0⟩] ∧
    isStatCtl (aLaccInject n) = false ∧ peRegAt (aLaccInject n) = none := by decide +kernel

theorem peLaccInjectArm_runs {s : State} {n k : Nat} (hlo : 256 ≤ n) (hhi : n < 272) (hk : k < 4) (hdie : s.dieOn (peCluster n) = true)
    (hclk : s.clState (peCluster n) ≤ 1) : Runs (.peLaccInjectArm n k) s fun u =>
      bitAt (u.reg (aLaccInject n)) 0 = true ∧ u.rfld (aLaccInject n) 2 1 = k ∧ OnlyReg s u (aLaccInject n) := by
  obtain ⟨hr, hstat, hnone⟩ := laccInject_plain n hhi hlo
  have hrun : s.regWrite .mc (aLaccInject n) (BitVec.ofNat 64 (k % 4 * 2 + 1)) = s.writeFields (aLaccInject n) (BitVec.ofNat 64 (k * 2 + 1)) := by
    rw [Nat.mod_eq_of_lt hk, regWrite_cluster hr (peCluster_lt hhi) hdie (.inl hclk), hstat, if_neg Bool.false_ne_true,
      clWrite_go (by simp [ClPlain]) (by simp [State.clCheck, hnone])]
  obtain ⟨hpending, h⟩ := writeFields_arm (s := s) (k := k) hr.spec (by decide) hk
  exact runs_onModule (exec_peLaccInjectArm ⟨hlo, hhi⟩ s) hrun hpending h

theorem aeInject_plain : ∀ c < 64, PlainReg (aAeResInject c) c 0x608 [⟨3, 1, .rw, 0⟩, ⟨0, 0, .rw, 0⟩] ∧ isStatCtl (aAeResInject c) = false := by
  decide

theorem fld_arm {k : Nat} (hk : k < 8) : fld (BitVec.ofNat 64 (k * 2 + 1)) 3 1 = k := by
  simp only [fld, BitVec.toNat_ofNat, Nat.shiftRight_eq_div_pow]
  omega

theorem aeResInjectArm_runs {s : State} {c k : Nat} (hc : c < 64) (hk : k < 2) (hdie : s.dieOn c = true) (hclk : s.clState c ≤ 1) :
    Runs (.aeResInjectArm c k) s fun u =>
      bitAt (u.reg (aAeResInject c)) 0 = true ∧ u.rfld (aAeResInject c) 3 1 = k ∧ OnlyReg s u (aAeResInject c) := by
  obtain ⟨hr, hstat⟩ := aeInject_plain c hc
  have hrun : s.regWrite .mc (aAeResInject c) (BitVec.ofNat 64 (k % 8 * 2 + 1)) = s.writeFields (aAeResInject c) (BitVec.ofNat 64 (k * 2 + 1)) := by
    have hcheck : s.clCheck c 0x608 (aAeResInject c) (BitVec.ofNat 64 (k * 2 + 1)) = .go := by
      simp [State.clCheck, ignoreIf, fld_arm (show k < 8 by omega), hk]
    rw [Nat.mod_eq_of_lt (by omega), regWrite_cluster hr hc hdie (.inl hclk), hstat, if_neg Bool.false_ne_true, clWrite_go (by simp [ClPlain]) hcheck]
  obtain ⟨hpending, h⟩ := writeFields_arm (s := s) (k := k) hr.spec (by decide) (by omega)
  exact runs_onModule (exec_aeResInjectArm hc s) hrun hpending h

theorem peInject_plain : ∀ n < 272, PlainReg (aPeResInject n) (peCluster n) ((aPeResInject n - regBase) % 0x10000) [⟨3, 1, .rw, 0⟩, ⟨0, 0, .rw, 0⟩] ∧
    isStatCtl (aPeResInject n) = false ∧ peRegAt (aPeResInject n) = some (n, 2) ∧
    0x800 ≤ (aPeResInject n - regBase) % 0x10000 ∧ (aPeResInject n - regBase) % 0x10000 < 0xC60 := by decide +kernel

theorem clCheck_peInject {s : State} {c q a n : Nat} {v : Word} (hq : 0x800 ≤ q ∧ q < 0xC60) (hpe : peRegAt a = some (n, 2)) :
    s.clCheck c q a v = ignoreIf (decide (6 ≤ fld v 3 1)) := by
  rw [State.clCheck]
  iterate 10 rw [if_neg (by omega)]
  rw [hpe]
  rfl

theorem regWrite_peInject {s : State} {n k : Nat} (hn : n < 272) (hk : k < 8) (hdie : s.dieOn (peCluster n) = true)
    (hclk : s.clState (peCluster n) ≤ 1) : s.regWrite .mc (aPeResInject n) (BitVec.ofNat 64 (k % 8 * 2 + 1)) =
      if k < 6 then s.writeFields (aPeResInject n) (BitVec.ofNat 64 (k * 2 + 1)) else s := by
  obtain ⟨hr, hstat, hpe, hq⟩ := peInject_plain n hn
  have hcheck := clCheck_peInject (s := s) (c := peCluster n) (v := BitVec.ofNat 64 (k * 2 + 1)) hq hpe
  rw [fld_arm hk] at hcheck
  have hplain : ClPlain (peCluster n) ((aPeResInject n - regBase) % 0x10000) := by
    refine ⟨?_, ?_, ?_, ?_, ?_, ?_, ?_, ?_⟩ <;> omega
  rw [Nat.mod_eq_of_lt hk, regWrite_cluster hr (peCluster_lt hn) hdie (.inl hclk), hstat, if_neg Bool.false_ne_true]
  split
  · next h => exact clWrite_go hplain (hcheck.trans (by simp [ignoreIf, h]))
  · next h => exact clWrite_ignore hplain (hcheck.trans (by simp [ignoreIf, Nat.not_lt.mp h]))

theorem peResInjectArm_runs {s : State} {n k : Nat} (hn : n < 272) (hdie : s.dieOn (peCluster n) = true) (hclk : s.clState (peCluster n) ≤ 1) :
    (k < 6 → Runs (.peResInjectArm n k) s fun u =>
      bitAt (u.reg (aPeResInject n)) 0 = true ∧ u.rfld (aPeResInject n) 3 1 = k ∧ OnlyReg s u (aPeResInject n)) ∧
      (6 ≤ k → k < 8 → exec (.peResInjectArm n k) s = .next s) := by
  constructor
  · intro hk
    obtain ⟨hpending, h⟩ := writeFields_arm (s := s) (k := k) (peInject_plain n hn).1.spec (by decide) (by omega)
    exact runs_onModule (exec_peResInjectArm (by omega) s) ((regWrite_peInject hn (by omega) hdie hclk).trans (if_pos hk)) hpending h
  · intro hlo hk
    rw [exec_peResInjectArm (by omega)]
    exact onModule_same ((regWrite_peInject hn hk hdie hclk).trans (if_neg (by omega)))

/-! ### Long accumulators given up (R243) -/

theorem lacc_unbindLacc {s : State} {n i k : Nat} : (s.unbindLacc n i).lacc n k = if k = i then Lacc.init else s.lacc n k := by
  rw [State.lacc, State.unbindLacc, State.setLacc, updPe_pe, Tbl.get_set]
  rfl

theorem unbindNow_idle {s : State} {n i : Nat} (h : s.act n = none) : s.unbindNow n i = s.unbindLacc n i := by
  rw [State.unbindNow, h]

theorem unbindLacc_act {s : State} {n i : Nat} : (s.unbindLacc n i).act n = s.act n := by
  rw [State.act, State.unbindLacc, State.setLacc, updPe_pe]
  rfl

theorem foldl_unbindNow {s : State} {n : Nat} {l : List Nat} (h : s.act n = none) :
    let u := l.foldl (fun s i => s.unbindNow n i) s
    u.pending = s.pending ∧ u.regs = s.regs ∧ ∀ k, u.lacc n k = if k ∈ l then Lacc.init else s.lacc n k := by
  induction l generalizing s with
  | nil => exact ⟨rfl, rfl, fun k => by simp⟩
  | cons i r ih =>
    obtain ⟨hpending, hregs, hlacc⟩ := ih (s := s.unbindLacc n i) (unbindLacc_act.trans h)
    dsimp only [List.foldl]
    rw [unbindNow_idle h]
    refine ⟨hpending, hregs, fun k => (hlacc k).trans ?_⟩
    rw [lacc_unbindLacc]
    by_cases hr : k ∈ r <;> by_cases hi : k = i <;> simp [hr, hi]

theorem exec_peLaccUnbind {n m : Nat} (hn : 256 ≤ n ∧ n < 272) (s : State) : exec (.peLaccUnbind n m) s =
    onModule s fun s => s.regWrite .mc (aLaccCtl n) (BitVec.ofNat 64 (m % 16)) := if_pos hn

theorem laccCtl_plain : ∀ n < 272, 256 ≤ n → PlainReg (aLaccCtl n) (peCluster n) 0xC60 [⟨3, 0, .wo, 0⟩] ∧
    isStatCtl (aLaccCtl n) = false ∧ hasApe (peCluster n) = true ∧ slotPe (peCluster n) 4 = n := by decide +kernel

theorem peLaccUnbind_runs {s : State} {n : Nat} (m : Nat) (hlo : 256 ≤ n) (hhi : n < 272) (hdie : s.dieOn (peCluster n) = true)
    (hclk : s.clState (peCluster n) ≤ 1) (hidle : s.act n = none) : Runs (.peLaccUnbind n m) s fun u =>
      u.regs = s.regs ∧ ∀ k, k < 4 → u.lacc n k = if m.testBit k then Lacc.init else s.lacc n k := by
  obtain ⟨hr, hstat, hape, hslot⟩ := laccCtl_plain n hhi hlo
  have hrun : s.regWrite .mc (aLaccCtl n) (BitVec.ofNat 64 (m % 16)) = s.unbindWrite n (BitVec.ofNat 64 (m % 16)) := by
    rw [regWrite_cluster hr (peCluster_lt hhi) hdie (.inl hclk), hstat, if_neg Bool.false_ne_true, State.clWrite]
    iterate 7 rw [if_neg (by omega)]
    rw [if_pos ⟨rfl, hape⟩, hslot]
  obtain ⟨hpending, hregs, hlacc⟩ := foldl_unbindNow (l := (List.range 4).filter fun i => bitAt (BitVec.ofNat 64 (m % 16)) i) hidle
  refine runs_onModule (exec_peLaccUnbind ⟨hlo, hhi⟩ s) hrun hpending ⟨hregs, fun k hk => (hlacc k).trans ?_⟩
  have hbit : bitAt (BitVec.ofNat 64 (m % 16)) k = m.testBit k := by
    rw [bitAt_ofNat, show 16 = 2 ^ 4 from rfl, Nat.testBit_mod_two_pow]
    simp [hk, show k < 64 by omega]
  simp [hk, hbit]

end Sys2Proof.Machine
end

/-! ## Statistics, and the obligation -/
section
namespace Sys2Proof.Machine

/-! ### Groups of statistics (R109) -/

/-- Memory, contexts, PEs and the queue are those of s. -/
structure Beside (s u : State) : Prop where
  mem : u.mem = s.mem
  ctxs : u.ctxs = s.ctxs
  pes : u.pes = s.pes
  pending : u.pending = s.pending

/-- The registers from lo up to hi read their reset values, and nothing beside registers changed. -/
structure Cleared (s u : State) (lo hi : Nat) : Prop extends Beside s u where
  reg : ∀ a, lo ≤ a → a < hi → u.reg a = regReset a

theorem Tbl.get_filter_out {α : Type} (d : α) (t : Tbl α) (f : Nat × α → Bool) (k : Nat) (h : ∀ v, f (k, v) = false) :
    Tbl.get d (t.filter f) k = d := by
  induction t with
  | nil => rfl
  | cons x r ih =>
    obtain ⟨j, v⟩ := x
    rw [List.filter_cons]
    split
    · next hf =>
      have hne : k ≠ j := by
        rintro rfl
        simp [h v] at hf
      rw [Tbl.get, if_neg hne, ih]
    · exact ih

theorem Beside.refl (s : State) : Beside s s := ⟨rfl, rfl, rfl, rfl⟩
theorem Beside.setReg {s u : State} {a : Nat} {v : Word} (h : Beside s u) : Beside s (u.setReg a v) := ⟨h.mem, h.ctxs, h.pes, h.pending⟩
theorem Beside.zeroRegs {s u : State} {lo hi : Nat} (h : Beside s u) : Beside s (u.zeroRegs lo hi) := ⟨h.mem, h.ctxs, h.pes, h.pending⟩

theorem Cleared.of_zeroRegs {s u : State} {lo hi : Nat} (h : Beside s u) : Cleared s (u.zeroRegs lo hi) lo hi where
  toBeside := h.zeroRegs
  reg a hlo hhi := by
    rw [State.reg, State.zeroRegs]
    exact Tbl.get_filter_out _ _ _ _ fun v => by simp [hlo, hhi]

theorem Cleared.setReg {s u : State} {lo hi b : Nat} {v : Word} (h : Cleared s u lo hi) (hb : b < lo ∨ hi ≤ b) :
    Cleared s (u.setReg b v) lo hi where
  toBeside := h.toBeside.setReg
  reg a hlo hhi := by rw [State.reg_setReg, if_neg (by omega), h.reg a hlo hhi]

theorem Cleared.setRfld {s u : State} {lo hi b h l v : Nat} (hu : Cleared s u lo hi) (hb : b < lo ∨ hi ≤ b) : Cleared s (u.setRfld b h l v) lo hi :=
  hu.setReg hb

/-- The counters of a queue's status registers, which clear with the group, stand outside the group's range. -/
theorem Cleared.zeroDcqs {s u : State} {lo hi b n : Nat} (h : Cleared s u lo hi) (hb : b + 8 * n ≤ lo ∨ hi ≤ b) : Cleared s (u.zeroDcqs b n) lo hi := by
  unfold State.zeroDcqs
  refine List.foldlRecOn (motive := fun t => Cleared s t lo hi) _ _ h fun t ht i hmem => ?_
  have hout : b + 8 * i < lo ∨ hi ≤ b + 8 * i := by
    have := List.mem_range.mp hmem
    omega
  exact ((ht.setRfld hout).setRfld hout).setRfld hout

/-- What a statistics clear does to the registers of its group, and what it leaves. -/
def Zeroes (s : State) (c : Instr) (lo hi : Nat) : Prop :=
  Runs c s fun u => (∀ a, lo ≤ a → a < hi → u.reg a = regReset a) ∧ u.mem = s.mem ∧ u.ctxs = s.ctxs ∧ u.pes = s.pes

theorem Cleared.runs {c : Instr} {s u : State} {f : State → State} {lo hi : Nat} (hexec : exec c s = onModule s f) (hrun : f s = u)
    (h : Cleared s u lo hi) : Zeroes s c lo hi :=
  runs_onModule hexec hrun h.pending ⟨h.reg, h.mem, h.ctxs, h.pes⟩

/-- A write of 1 to a statistics control register sets its own fields and clears its group. -/
theorem statCtlWrite_clr {s : State} {a : Nat} : s.statCtlWrite a 1 = (s.writeFields a 1).clearGroup a := by
  unfold State.statCtlWrite
  exact if_pos (by decide)

theorem writeFields_statCtl {s : State} {a : Nat} {v : Word} (hspec : regSpec a = some fStatCtl) :
    s.writeFields a v = s.setRfld a 1 1 (s.rfld a 1 1 &&& (2 ^ 64 - 1 - fld v 1 1)) :=
  writeFields_free hspec (.inr (by decide))

theorem Beside.writeFields_statCtl {s : State} {a : Nat} {v : Word} (hspec : regSpec a = some fStatCtl) : Beside s (s.writeFields a v) := by
  rw [Machine.writeFields_statCtl hspec]
  exact (Beside.refl s).setReg

theorem regWrite_clusterStat {s : State} {a c q : Nat} (hr : PlainReg a c q fStatCtl) (hstat : isStatCtl a = true) (hc : c < 64)
    (hdie : s.dieOn c = true) (hclk : s.clState c ≤ 1) : s.regWrite .mc a 1 = (s.writeFields a 1).clearGroup a := by
  rw [regWrite_cluster hr hc hdie (.inl hclk), hstat, if_pos rfl, statCtlWrite_clr]

theorem exec_peStatCtlClr {n : Nat} (hn : n < 276) (s : State) : exec (.peStatCtlClr n) s =
    onModule s fun s => s.regWrite .mc (aPeStatCtl n) 1 := if_pos hn
theorem exec_aeStatCtlClr {c : Nat} (hc : c < 64) (s : State) : exec (.aeStatCtlClr c) s =
    onModule s fun s => s.regWrite .mc (aAeStatCtl c) 1 := if_pos hc
theorem exec_scCtlClr {c : Nat} (hc : c < 64) (s : State) : exec (.scCtlClr c) s = onModule s fun s => s.regWrite .mc (aScCtl c) 1 := if_pos hc
theorem exec_niStatCtlClr {c : Nat} (hc : c < 64) (s : State) : exec (.niStatCtlClr c) s =
    onModule s fun s => s.regWrite .mc (aNiStatCtl c) 1 := if_pos hc
theorem exec_rtStatCtlClr {c : Nat} (hc : c < 64) (s : State) : exec (.rtStatCtlClr c) s =
    onModule s fun s => s.regWrite .mc (aRtStatCtl c) 1 := if_pos hc
theorem exec_mmCtlClr {h : Nat} (hh : h < 4) (s : State) : exec (.mmCtlClr h) s = onModule s fun s => s.regWrite .mc (aMmCtl h) 1 := if_pos hh
theorem exec_ptStatCtlClr {p : Nat} (hp : p < 16) (s : State) : exec (.ptStatCtlClr p) s =
    onModule s fun s => s.regWrite .mc (aPtStatCtl p) 1 := if_pos hp
theorem exec_lkStatCtlClr (s : State) : exec .lkStatCtlClr s = onModule s fun s => s.regWrite .mc aLkStatCtl 1 := rfl
theorem exec_statOvfClear (a : Nat) (s : State) : exec (.statOvfClear a) s =
    onModule s fun s => if isStatCtl a then s.regWrite .mc a 2 else s := rfl

theorem peStat_plain : ∀ n < 272, PlainReg (aPeStatCtl n) (peCluster n) ((aPeStatCtl n - regBase) % 0x10000) fStatCtl ∧
    isStatCtl (aPeStatCtl n) = true ∧ peRegAt (aPeStatCtl n) = some (n, 4) ∧
    0x800 ≤ (aPeStatCtl n - regBase) % 0x10000 := by decide +kernel

theorem peStatCtlClr_runs {s : State} {n : Nat} (hn : n < 272) (hdie : s.dieOn (peCluster n) = true) (hclk : s.clState (peCluster n) ≤ 1) :
    Zeroes s (.peStatCtlClr n) (peStats n) (peStats n + 0x200) := by
  obtain ⟨hr, hstat, hpe, hq⟩ := peStat_plain n hn
  have hc := peCluster_lt hn
  have hgroup : ∀ t : State, t.clearGroup (aPeStatCtl n) = t.zeroRegs (peStats n) (peStats n + 0x200) := by
    intro t
    rw [State.clearGroup, hr.block]
    iterate 7 rw [if_neg (by omega)]
    rw [hpe]
    rfl
  exact (Cleared.of_zeroRegs (Beside.writeFields_statCtl hr.spec)).runs (exec_peStatCtlClr (by omega) s)
    ((regWrite_clusterStat hr hstat hc hdie hclk).trans (hgroup _))

theorem clStat_plain : ∀ c < 64, (PlainReg (aAeStatCtl c) c 0x600 fStatCtl ∧ isStatCtl (aAeStatCtl c) = true) ∧
    (PlainReg (aScCtl c) c 0x100 fStatCtl ∧ isStatCtl (aScCtl c) = true) ∧ (PlainReg (aNiStatCtl c) c 0x310 fStatCtl ∧ isStatCtl (aNiStatCtl c) = true) ∧
    (PlainReg (aRtStatCtl c) c 0x400 fStatCtl ∧ isStatCtl (aRtStatCtl c) = true) := by decide

theorem clearGroup_engine {s : State} {c : Nat} (hc : c < 64) (h : PlainReg (aAeStatCtl c) c 0x600 fStatCtl) :
    s.clearGroup (aAeStatCtl c) = s.zeroRegs (clBlock c + 0x610) (clBlock c + 0x620) := by
  rw [State.clearGroup, h.block, h.offset, if_neg (by omega), if_neg (by omega), if_neg (by omega), if_pos ⟨hc, rfl⟩]
  rfl

theorem clearGroup_scratch {s : State} {c : Nat} (hc : c < 64) (h : PlainReg (aScCtl c) c 0x100 fStatCtl) :
    s.clearGroup (aScCtl c) = ((s.zeroRegs (clBlock c + 0x30) (clBlock c + 0x38)).zeroRegs (clBlock c + 0x140) (clBlock c + 0x180)).zeroRegs
      (clBlock c + 0x1D00) (clBlock c + 0x1D48) := by
  rw [State.clearGroup, h.block, h.offset, if_pos ⟨hc, rfl⟩]
  rfl

theorem clearGroup_interface {s : State} {c : Nat} (hc : c < 64) (h : PlainReg (aNiStatCtl c) c 0x310 fStatCtl) :
    s.clearGroup (aNiStatCtl c) = (s.zeroRegs (clBlock c + 0x1A00) (clBlock c + 0x1B20)).zeroDcqs (clBlock c + 0x340) 8 := by
  rw [State.clearGroup, h.block, h.offset, if_neg (by omega), if_pos ⟨hc, rfl⟩]
  rfl

theorem clearGroup_router {s : State} {c : Nat} (hc : c < 64) (h : PlainReg (aRtStatCtl c) c 0x400 fStatCtl) :
    s.clearGroup (aRtStatCtl c) = (s.zeroRegs (clBlock c + 0x1C00) (clBlock c + 0x1CB8)).zeroDcqs (clBlock c + 0x480) (if isSpoke c then 20 else 16) := by
  rw [State.clearGroup, h.block, h.offset, if_neg (by omega), if_neg (by omega), if_pos ⟨hc, rfl⟩]
  rfl

theorem clusterStats_run {s : State} {c : Nat} (hc : c < 64) (hdie : s.dieOn c = true) (hclk : s.clState c ≤ 1) :
    Zeroes s (.aeStatCtlClr c) (clBlock c + 0x610) (clBlock c + 0x620) ∧ Zeroes s (.scCtlClr c) (clBlock c + 0x1D00) (clBlock c + 0x1D48) ∧
      Zeroes s (.niStatCtlClr c) (clBlock c + 0x1A00) (clBlock c + 0x1B20) ∧
      Zeroes s (.rtStatCtlClr c) (clBlock c + 0x1C00) (clBlock c + 0x1CB8) := by
  obtain ⟨⟨hae, haeStat⟩, ⟨hsc, hscStat⟩, ⟨hni, hniStat⟩, hrt, hrtStat⟩ := clStat_plain c hc
  refine ⟨?engine, ?scratch, ?interface, ?router⟩
  case engine =>
    exact (Cleared.of_zeroRegs (Beside.writeFields_statCtl hae.spec)).runs (exec_aeStatCtlClr hc s)
      ((regWrite_clusterStat hae haeStat hc hdie hclk).trans (clearGroup_engine hc hae))
  case scratch =>
    exact (Cleared.of_zeroRegs (Beside.writeFields_statCtl hsc.spec).zeroRegs.zeroRegs).runs (exec_scCtlClr hc s)
      ((regWrite_clusterStat hsc hscStat hc hdie hclk).trans (clearGroup_scratch hc hsc))
  case interface =>
    exact ((Cleared.of_zeroRegs (Beside.writeFields_statCtl hni.spec)).zeroDcqs (.inl (by omega))).runs (exec_niStatCtlClr hc s)
      ((regWrite_clusterStat hni hniStat hc hdie hclk).trans (clearGroup_interface hc hni))
  case router =>
    have hqueues : clBlock c + 0x480 + 8 * (if isSpoke c then 20 else 16) ≤ clBlock c + 0x1C00 := by split <;> omega
    exact ((Cleared.of_zeroRegs (Beside.writeFields_statCtl hrt.spec)).zeroDcqs (.inl hqueues)).runs (exec_rtStatCtlClr hc s)
      ((regWrite_clusterStat hrt hrtStat hc hdie hclk).trans (clearGroup_router hc hrt))

/-- The statistics control registers outside the clusters: of the memory channels, of the ports, of the lock array. -/
theorem hubStat_plain : (∀ h < 4, PlainReg (aMmCtl h) 0x45 ((aMmCtl h - regBase) % 0x10000) fStatCtl ∧ isStatCtl (aMmCtl h) = true) ∧
    (∀ p < 16, PlainReg (aPtStatCtl p) (0x50 + p) 0x50 fStatCtl ∧ isStatCtl (aPtStatCtl p) = true) ∧
    PlainReg aLkStatCtl 0x42 0x18 fStatCtl ∧ isStatCtl aLkStatCtl = true := by decide

theorem regWrite_hubStat {s : State} {a b q : Nat} {v : Word} (hr : PlainReg a b q fStatCtl) (hstat : isStatCtl a = true) (ha : s.Answers a) :
    s.regWrite .mc a v = s.statCtlWrite a v := by
  rw [regWrite_mc hr ha, hstat, if_pos rfl]

theorem mmCtlClr_runs {s : State} {h : Nat} (hh : h < 4) : Zeroes s (.mmCtlClr h) (aMmCtl h + 0x10) (aMmCtl h + 0x40) := by
  obtain ⟨hr, hstat⟩ := hubStat_plain.1 h hh
  have hblock : regBlock (aMmCtl h) = 0x45 := hr.block
  have hgroup : ∀ t : State, t.clearGroup (aMmCtl h) = (t.zeroRegs (aMmCtl h + 0x10) (aMmCtl h + 0x40)).zeroDcqs (aMmCtl h + 0x40) 2 := by
    intro t
    rw [State.clearGroup, hblock]
    iterate 5 rw [if_neg (by omega)]
    exact if_pos rfl
  exact ((Cleared.of_zeroRegs (Beside.writeFields_statCtl hr.spec)).zeroDcqs (.inr (Nat.le_refl _))).runs (exec_mmCtlClr hh s)
    ((regWrite_hubStat hr hstat (State.answers_hub (by omega) (by omega))).trans (statCtlWrite_clr.trans (hgroup _)))

theorem lkStatCtlClr_runs {s : State} : Zeroes s .lkStatCtlClr (lkBlock + 0x20) (lkBlock + 0x58) := by
  obtain ⟨hr, hstat⟩ := hubStat_plain.2.2
  have hgroup : ∀ t : State, t.clearGroup aLkStatCtl = t.zeroRegs (lkBlock + 0x20) (lkBlock + 0x58) := by
    intro t
    rw [State.clearGroup, hr.block, hr.offset]
    iterate 4 rw [if_neg (by decide)]
    exact if_pos ⟨rfl, rfl⟩
  exact (Cleared.of_zeroRegs (Beside.writeFields_statCtl hr.spec)).runs (exec_lkStatCtlClr s)
    ((regWrite_hubStat hr hstat (State.answers_hub (by decide) (by decide))).trans (statCtlWrite_clr.trans (hgroup _)))

theorem ptStatCtlClr_runs {s : State} {p : Nat} (hp : p < 16) (hpow : s.power ≠ 2) :
    Zeroes s (.ptStatCtlClr p) (ptBlock p + 0x100) (ptBlock p + 0x178) := by
  obtain ⟨hr, hstat⟩ := hubStat_plain.2.1 p hp
  have hblock : regBlock (aPtStatCtl p) = 0x50 + p := hr.block
  have hbase : regBase + (0x50 + p) * 0x10000 = ptBlock p := by simp only [ptBlock]; omega
  have hgroup : ∀ t : State, t.clearGroup (aPtStatCtl p) = (t.zeroRegs (ptBlock p + 0x100) (ptBlock p + 0x178)).zeroDcqs (ptBlock p + 0x80) 9 := by
    intro t
    rw [State.clearGroup, hblock, hbase]
    iterate 6 rw [if_neg (by omega)]
    exact if_pos (by omega)
  exact ((Cleared.of_zeroRegs (Beside.writeFields_statCtl hr.spec)).zeroDcqs (.inl (by omega))).runs (exec_ptStatCtlClr hp s)
    ((regWrite_hubStat hr hstat (State.answers_port (by omega) hpow)).trans (statCtlWrite_clr.trans (hgroup _)))

theorem statOvfClear_runs {s : State} {p : Nat} (hp : p < 16) (hpow : s.power ≠ 2) : Runs (.statOvfClear (aPtStatCtl p)) s fun u =>
    u.rfld (aPtStatCtl p) 1 1 = 0 ∧ OnlyReg s u (aPtStatCtl p) := by
  obtain ⟨hr, hstat⟩ := hubStat_plain.2.1 p hp
  have hblock : regBlock (aPtStatCtl p) = 0x50 + p := hr.block
  have hrun : s.regWrite .mc (aPtStatCtl p) 2 = s.setRfld (aPtStatCtl p) 1 1 (s.rfld (aPtStatCtl p) 1 1 &&& (2 ^ 64 - 1 - fld (2 : Word) 1 1)) := by
    rw [regWrite_hubStat hr hstat (State.answers_port (by omega) hpow)]
    unfold State.statCtlWrite
    exact (if_neg (by decide)).trans (writeFields_statCtl hr.spec)
  refine runs_onModule (exec_statOvfClear _ s) (by rw [hstat, if_pos rfl]; exact hrun) setRfld_pending ⟨?_, (OnlyReg.refl s _).setReg⟩
  rw [rfld_setRfld_same (by decide) (by decide), show fld (2 : Word) 1 1 = 1 by decide]
  rw [Nat.and_mod_two_pow, show (2 ^ 64 - 1 - 1) % 2 ^ (1 + 1 - 1) = 0 by decide, Nat.and_zero]

/-- Settles O52: each command's run is one of the lemmas above, in the order of the statement's clauses. -/
theorem registerCommands : Obligations.RegisterCommands := by
  unfold Obligations.RegisterCommands
  intro s
  refine ⟨?nowhere, ?lockedField, ?portField, ?clearOnRead, ?writeWithEvent, ?readWithEvent, ?hubLocks, ?clusterLock, ?statistics, ?pstatSel, ?domSel,
    ?lkSel, ?mcEvt, ?longAccumulators, ?peInjection, ?engineInjection⟩
  case nowhere => exact fun _ _ hnone => registerWrite_nowhere hnone
  case lockedField => exact fun _ hv => ⟨registerWrite_dbgCfg_free hv, registerWrite_dbgCfg_locked hv⟩
  case portField => exact fun _ _ hp => ⟨registerWrite_tsAdj hp, registerWrite_tsAdj_off hp⟩
  case clearOnRead => exact fun _ hi => rclRead_mcTemp hi
  case writeWithEvent => exact fun _ _ hbit => registerWrite_mcEvt_event hbit
  case readWithEvent => exact fun _ _ hi => rclRead_mcTemp_event hi
  case hubLocks => exact fun _ ha => hubLock_commands ha
  case clusterLock => exact fun _ hc hdie => clLock_commands hc hdie
  case statistics =>
    exact ⟨fun _ hn hdie hclk => peStatCtlClr_runs hn hdie hclk, fun _ hc hdie hclk => clusterStats_run hc hdie hclk, fun _ hh => mmCtlClr_runs hh,
      fun _ hp hpow => ⟨ptStatCtlClr_runs hp hpow, statOvfClear_runs hp hpow⟩, lkStatCtlClr_runs⟩
  case pstatSel => exact hbPstatSelWrite_runs
  case domSel => exact fun _ hd => tbDomSelWrite_runs hd
  case lkSel => exact fun _ hn => lkSelWrite_runs hn
  case mcEvt => exact mcEvtClear_runs
  case longAccumulators =>
    exact fun _ hlo hhi hdie hclk => ⟨fun m hidle => peLaccUnbind_runs m hlo hhi hdie hclk hidle, fun _ hk => peLaccInjectArm_runs hlo hhi hk hdie hclk⟩
  case peInjection => exact fun _ _ hn hdie hclk => peResInjectArm_runs hn hdie hclk
  case engineInjection => exact fun _ _ hc hk hdie hclk => aeResInjectArm_runs hc hk hdie hclk

end Sys2Proof.Machine
end

/-! # SEND and SENDW

Counting an issue slot touches the statistics registers of one PE, and no route table stands among them: so the route that SEND sees at issue is that
of the state before. What remains is one equation for the decoding of SEND and SENDW, and the two ends it can have. -/
section
namespace Sys2Proof.Machine

/-! ## Routes do not depend on a PE's statistics (R109, R314) -/

theorem peEndpoint_le {n : Nat} : peEndpoint n ≤ 69 := by
  unfold peEndpoint
  split
  · next hn => exact (peCluster_lt hn).le.trans (by decide)
  · exact Nat.le_refl _

theorem peEndpoint_lt_of_cluster {n : Nat} (hn : n < 272) : peEndpoint n < 64 := by
  rw [peEndpoint, if_pos hn]
  exact peCluster_lt hn

theorem peEndpoint_keeper {n : Nat} (hn : 272 ≤ n) : peEndpoint n = 69 := if_neg (by omega)

/-- The statistics of PE n all lie from `base + 0x800` up to `base + 0x2000`. -/
def StatsWithin (n base : Nat) : Prop :=
  base + 0x800 ≤ aPeStatCtl (pairPe n) ∧ aPeStatCtl (pairPe n) < base + 0x2000 ∧
    base + 0x800 ≤ peStats (pairPe n) ∧ peStats (pairPe n) + 0x200 ≤ base + 0x2000

theorem statsWithin_cluster : ∀ n < 272, StatsWithin n (clBlock (peEndpoint n)) := by
  unfold StatsWithin
  decide +kernel

theorem statsWithin_keeper : ∀ n < 276, 272 ≤ n → StatsWithin n kpBlock := by
  unfold StatsWithin
  decide +kernel

theorem StatsWithin.isPeStat_eq_false {n base r : Nat} (h : StatsWithin n base) (hr : r < base + 0x800 ∨ base + 0x2000 ≤ r) :
    isPeStat n r = false := by
  obtain ⟨hctl, hctl', hstats, hstats'⟩ := h
  have hwindow : ¬ (peStats (pairPe n) ≤ r ∧ r < peStats (pairPe n) + 0x200) := by omega
  have hne : r ≠ aPeStatCtl (pairPe n) := by omega
  simp [isPeStat, hwindow, hne]

theorem isPeStat_niRoute {n : Nat} (hn : n < 272) :
    isPeStat n (aNiRtCtl (peEndpoint n)) = false ∧ ∀ b e, isPeStat n (aNiRt (peEndpoint n) b e) = false := by
  have hstats := statsWithin_cluster n hn
  refine ⟨hstats.isPeStat_eq_false (.inl ?_), fun b e => hstats.isPeStat_eq_false (.inr ?_)⟩
  · rw [aNiRtCtl, if_pos (peEndpoint_lt_of_cluster hn)]
    omega
  · rw [aNiRt]
    omega

theorem isPeStat_hubRoute {n b e : Nat} (hn : n < 276) (hkeeper : 272 ≤ n) (hb : b < 2) (he : e < 64) :
    isPeStat n (aNiRtCtl 64) = false ∧ isPeStat n (aHbRt b e 0) = false := by
  have hstats := statsWithin_keeper n hn hkeeper
  refine ⟨hstats.isPeStat_eq_false (.inl (by decide)), hstats.isPeStat_eq_false (.inl ?_)⟩
  simp only [aHbRt, hbBlock, kpBlock]
  omega

/-- The route of PE n's endpoint stays when nothing but PE n and its statistics changed. -/
theorem State.OnlyPe.routeEntry {n : Nat} {s t : State} (h : State.OnlyPe n s t) (hn : n < 276) (dest : Nat) :
    t.routeEntry (peEndpoint n) dest = s.routeEntry (peEndpoint n) dest := by
  unfold State.routeEntry State.rfld
  by_cases hcluster : n < 272
  · have hsrc := peEndpoint_lt_of_cluster hcluster
    obtain ⟨hctl, hentry⟩ := isPeStat_niRoute hcluster
    rw [if_pos hsrc, if_pos hsrc, h.reg _ hctl, h.reg _ (hentry _ _)]
  · have hkeeper : 272 ≤ n := by omega
    rw [peEndpoint_keeper hkeeper, if_neg (show ¬ 69 < 64 by decide), if_neg (show ¬ 69 < 64 by decide)]
    by_cases hdest : dest < 64
    · have hbank : fld (s.reg (aNiRtCtl 64)) 8 8 < 2 := fld_lt _ 8 8
      obtain ⟨hctl, hentry⟩ := isPeStat_hubRoute hn hkeeper hbank hdest
      rw [if_pos hdest, if_pos hdest, h.reg _ hctl, h.reg _ hentry]
    · rw [if_neg hdest, if_neg hdest]

theorem State.OnlyPe.noRoute {n : Nat} {s t : State} (h : State.OnlyPe n s t) (hn : n < 276) (dest : Nat) :
    t.noRoute (peEndpoint n) dest = s.noRoute (peEndpoint n) dest := by
  unfold State.noRoute
  rw [h.routeEntry hn]

/-! ## ROUTE_MISS (R18, R314) -/

theorem reservedEp_peEndpoint (p : Nat) : reservedEp (peEndpoint p) = false := by
  have := peEndpoint_le (n := p)
  simp only [reservedEp, decide_eq_false_iff_not, Bool.or_eq_false_iff]
  omega

theorem routeMiss_noPe {s : State} {n dest p : Nat} (hp : 275 < p) : s.routeMiss n dest (some p) = some (.bad .routeMiss (2 ^ 47 + p) none) :=
  if_pos hp

theorem routeMiss_pe {s : State} {n p : Nat} (hp : p ≤ 275) : s.routeMiss n (peEndpoint p) (some p) =
    if s.noRoute (peEndpoint n) (peEndpoint p) then some (.bad .routeMiss (peEndpoint p) none) else none := by
  simp only [State.routeMiss, if_neg (Nat.not_lt.mpr hp), reservedEp_peEndpoint, Bool.false_or, ownEp]

theorem sendOr_eq_getD (s : State) (n : Nat) (p : Option Nat) (m : Msg) : sendOr s n p m = (s.routeMiss n m.dest p).getD (oneMsg m) := by
  unfold sendOr
  cases s.routeMiss n m.dest p <;> rfl

/-! ## What SEND and SENDW decode to -/

/-- The tag of R30, for a descriptor that names a PE. -/
theorem outTag_eq_sentTag {s : State} {n : Nat} {a : Act} {f : Fields} {wide poison : Bool} (hpe : dEpm f.i = false) :
    outTag s n a f wide poison = sentTag a f wide poison := by
  have hPe : dDest f.i / 2 ^ 15 = f.i / 2 ^ 15 % 2 ^ 9 := by simp only [dDest]; omega
  have hIp : put 14 2 (dDest f.i / 4) = put 14 2 (f.i / 4 % 2 ^ 13) := by
    simp only [put, dDest]
    congr 1
    omega
  have hPort : put 1 0 (dDest f.i) = put 1 0 (f.i % 4) := by
    simp only [put, dDest]
    congr 1
    omega
  simp only [outTag, sentTag, hpe, Bool.false_eq_true, if_false, mkTag, hPe, hIp, hPort]

/-- Operands of SEND, or with `wide` of SENDW, that name a PE and read no poisoned tag register (R157, R175, R178). -/
structure SendOperands (a : Act) (f : Fields) (wide : Bool) : Prop where
  low : isSrc f.a = true
  high : if wide then isSrc f.b = true else f.sb = 0
  noDst : f.dst = 0
  desc : descOk .token f = true
  namesPe : dEpm f.i = false
  cleanTag : dXt f.i = true → a.poisoned f.c = false

/-- The token sent: its value is SA, with SB above it in a wide one. -/
def sentToken (a : Act) (f : Fields) (wide : Bool) : Msg :=
  tokenMsg (peEndpoint (dPe f.i)) (sentTag a f wide (a.poisoned f.a || (wide && a.poisoned f.b))) (mkWide (if wide then a.src f.b else 0) (a.src f.a))
    a.serial .a

section
variable {a : Act} {f : Fields} {wide : Bool}

theorem SendOperands.uses_ok (h : SendOperands a f wide) (code : Nat) : (opSend code wide).uses.ok f = true := by
  cases wide with
  | false =>
    have hsb : f.sb = 0 := h.high
    simp [opSend, Uses.ok, h.noDst, hsb]
  | true => simp [opSend, Uses.ok, h.noDst]

theorem SendOperands.decodes (h : SendOperands a f wide) : (isSrc f.a && (!wide || isSrc f.b) && descOk .token f) = true := by
  cases wide with
  | false => simp [h.low, h.desc]
  | true =>
    have hhigh : isSrc f.b = true := h.high
    simp [h.low, hhigh, h.desc]

theorem SendOperands.noPoison (h : SendOperands a f wide) : (dXt f.i && a.poisoned f.c) = false :=
  Bool.and_eq_false_imp.mpr h.cleanTag

theorem SendOperands.withSlot (h : SendOperands a f wide) (k : Nat) : SendOperands { a with slot := k } f wide :=
  ⟨h.low, h.high, h.noDst, h.desc, h.namesPe, h.cleanTag⟩

theorem semSend_eq_sendOr (h : SendOperands a f wide) (code : Nat) (t : State) (n : Nat) :
    semSend code wide t n a f = sendOr t n (some (dPe f.i)) (sentToken a f wide) := by
  simp only [semSend, h.decodes, h.noPoison, outTag_eq_sentTag h.namesPe, h.namesPe, sentToken, Bool.not_true, Bool.false_eq_true, if_false]

/-- At issue, where the slot has moved on and nothing that a token carries has. -/
theorem semSend_atIssue (h : SendOperands a f wide) (code : Nat) (t : State) (n : Nat) :
    semSend code wide t n { a with slot := a.slot + 1 } f =
      (t.routeMiss n (peEndpoint (dPe f.i)) (some (dPe f.i))).getD (oneMsg (sentToken a f wide)) :=
  (semSend_eq_sendOr (h.withSlot _) code t n).trans (sendOr_eq_getD t n _ (sentToken a f wide))

end

section
variable {s : State} {n : Nat} {a : Act} {f : Fields} {wide : Bool} {c : Instr} {code : Nat}

/-- A token for a PE that a route leads to is queued. -/
theorem issuesMsg_send (hissue : s.CanIssue n a) (hroom : (s.pe n).outQ.length < 64) (h : SendOperands a f wide) (hpe : dPe f.i ≤ 275)
    (hroute : s.noRoute (peEndpoint n) (peEndpoint (dPe f.i)) = false) (hexec : exec c s = runOp n (opSend code wide) f (semSend code wide) s) :
    IssuesMsg c s n a (packWord code f) (sentToken a f wide) := by
  refine issuesMsg_of hissue (opSend code wide) f _ _ true hexec hroom (allKinds_all n) (h.uses_ok code) rfl fun t ht => ?_
  have hmiss : t.routeMiss n (peEndpoint (dPe f.i)) (some (dPe f.i)) = none := by
    rw [routeMiss_pe hpe, ht.only.noRoute hissue.pe, hroute]
    rfl
  rw [semSend_atIssue h, hmiss, Option.getD_none]

/-- A token whose destination is missed, whatever the reason, faults. -/
theorem faultsWith_send {detail : Nat} (hissue : s.CanIssue n a) (h : SendOperands a f wide)
    (hmiss : ∀ t, s.AtIssue n a t → t.routeMiss n (peEndpoint (dPe f.i)) (some (dPe f.i)) = some (.bad .routeMiss detail none))
    (hexec : exec c s = runOp n (opSend code wide) f (semSend code wide) s) : FaultsWith c s n a .routeMiss detail := by
  refine faultsWith_of hissue (opSend code wide) f _ _ _ hexec (allKinds_all n) (h.uses_ok code) (by decide) (by decide) fun t ht => ?_
  rw [semSend_atIssue h, hmiss t ht, Option.getD_some]

end

theorem exec_send (n : Nat) (f : Fields) (s : State) : exec (.send n f) s = runOp n (opSend 0xC0 false) f (semSend 0xC0 false) s := rfl
theorem exec_sendw (n : Nat) (f : Fields) (s : State) : exec (.sendw n f) s = runOp n (opSend 0xC1 true) f (semSend 0xC1 true) s := rfl

/-- Settles O15: SEND and SENDW decode to one token or to the ROUTE_MISS of its PE, and the route is that of the state before. -/
theorem tokenSendOps : Obligations.TokenSendOps := by
  unfold Obligations.TokenSendOps
  constructor
  · intro s n a f hissue hroom hlow hdst hdesc hepm hclean hpe hroute
    refine ⟨fun hsb => ?send, fun hhigh => ?sendw⟩
    case send =>
      have hsent := issuesMsg_send hissue hroom (wide := false) ⟨hlow, hsb, hdst, hdesc, hepm, hclean⟩ hpe hroute (exec_send n f s)
      simpa [sentToken] using hsent
    case sendw => exact issuesMsg_send hissue hroom (wide := true) ⟨hlow, hhigh, hdst, hdesc, hepm, hclean⟩ hpe hroute (exec_sendw n f s)
  · intro s n a f hissue hlow hsb hdst hdesc hepm hclean
    have hoperands : SendOperands a f false := ⟨hlow, hsb, hdst, hdesc, hepm, hclean⟩
    refine ⟨fun hno => ?noPe, fun hpe hno => ?noRoute⟩
    case noPe => exact faultsWith_send hissue hoperands (fun _ _ => routeMiss_noPe hno) (exec_send n f s)
    case noRoute =>
      refine faultsWith_send hissue hoperands (fun t ht => ?_) (exec_send n f s)
      rw [routeMiss_pe hpe, ht.only.noRoute hissue.pe, if_pos hno]

end Sys2Proof.Machine
end

/-! # O12: a store that merges into an uncorrectable word is counted -/

section

namespace Sys2Proof.Machine

/-- An activation of a block without AW at its second instruction, whose one input is the local address 0x7FFF. -/
def storingAct : Act :=
  { serial := 5, tag := mkTag 3 false false false 9 2 3 16 0, stamp := 4, hdr := 0x1014000000000000, base := 16,
    ins := [⟨mkTag 3 false false false 9 2 3 16 0, 0, false, 0, false⟩], gp := 0,
    g := (Vector.replicate 16 0).set 1 0x7FFF, ga := Vector.replicate 4 0, rc := 0, fps := 0,
    fxs := 0, ctl := 0, mh := 0, ml := 0, lsel := 0, off := 1, slot := 9, delay := none, rep := none, flights := [], mulFree := 0, divUntil := 0,
    lrd := none, fence := none, handles := none, visible := false, retried := false, resumed := false }

/-- The store of the low byte of G0 at the address in G1. -/
def byteStore : Fields := ⟨0, 1, 0, 7, 0⟩

/-- PE 3 runs that activation, and the last word of its local store cannot be corrected. -/
def uncorrectableStore : State :=
  { State.reset.updPe 3 (fun p => { p with act := some storingAct, clk := 4 }) with ecc := [(lsAddr 3 storingAct byteStore / 8 * 8, .ue)] }

theorem canIssue_uncorrectableStore : uncorrectableStore.CanIssue 3 storingAct :=
  ⟨by decide, rfl, rfl, rfl, rfl, rfl, rfl, rfl, by decide, by decide, rfl, by decide +kernel⟩

/-- The storm count of uncorrectable words in the state a command leaves. -/
def stormCountAfter : Out → Nat
  | .next t => t.rfld aUeStorm 47 32
  | _ => 0

theorem stormCount_reset : uncorrectableStore.rfld aUeStorm 47 32 = 0 := by decide +kernel
theorem stormCount_byteStore : stormCountAfter (exec (.stl 3 byteStore) uncorrectableStore) = 1 := by decide +kernel

/-- Refutes O12: the frame of a store does not hold when the word cannot be corrected, which is counted in UE_STORM (R279, R283). -/
theorem not_localMemory : ¬ Obligations.LocalMemory := by
  unfold Obligations.LocalMemory
  rintro ⟨-, hstore, -⟩
  have hclause := hstore uncorrectableStore 3 storingAct byteStore canIssue_uncorrectableStore
    (by decide) (by decide) (by decide) (by decide) (by decide)
  rw [if_neg (by decide)] at hclause
  obtain ⟨t, hexec, honly, -, -, -⟩ := hclause
  have hcount : t.rfld aUeStorm 47 32 = 1 := by
    have h := stormCount_byteStore
    rwa [hexec] at h
  have hkept : t.rfld aUeStorm 47 32 = uncorrectableStore.rfld aUeStorm 47 32 :=
    congrArg (fld · 47 32) (honly.reg aUeStorm (by decide +kernel))
  rw [hkept, stormCount_reset] at hcount
  exact absurd hcount (by decide)

end Sys2Proof.Machine
end

/-! # O35: a kill that lands a store in flight can end the kill -/

section

namespace Sys2Proof.Machine

/-- An activation of context 9 on PE 3, with a store of one byte in flight. -/
def dyingAct : Act :=
  { serial := 5, tag := mkTag 3 false false false 9 2 3 16 0, stamp := 4, hdr := 0x1014000000000000, base := 16,
    ins := [], gp := 0, g := Vector.replicate 16 0, ga := Vector.replicate 4 0, rc := 0, fps := 0,
    fxs := 0, ctl := 0, mh := 0, ml := 0, lsel := 0, off := 2, slot := 9, delay := none, rep := none,
    flights := [⟨9, 13, 1, 0, false, .store (lsBase 3) 1 0 false⟩], mulFree := 0, divUntil := 0,
    lrd := none, fence := none, handles := none, visible := false, retried := false, resumed := false }

/-- The kill of context 9, to reach PE 3. -/
def killAtPe : Kill := ⟨9, [.pe 3], [], none⟩

/-- In RUN, the byte stands in a word that cannot be corrected, and one such word within the window of UE_STORM brings the module to KICKSTAND. -/
def stormyKill : State :=
  { (((State.reset.updCm 0 fun m => { m with kills := [killAtPe] }).updPe 3 fun p => { p with act := some dyingAct }).setRfld aUeStorm 15 0 1).setRfld aPwState 63 62 0 with
    ecc := [(lsBase 3, .ue)] }

/-- The kill filter of PE 3 in the state a command leaves. -/
def killFilterAfter : Out → List Nat
  | .next t => (t.pe 3).killFilter
  | _ => []

/-- A packet; the clause about KILL names none. -/
def anyPacket : Packet :=
  { vn := 0, opc := .token, route := 0, dest := 0, src := 0, pri := 0, seq := 0, epoch := 0, spec := 0, crc := 0, bad := [], body := [],
    fault := false, note := 0 }

theorem killFilter_stormyKill : killFilterAfter (exec (.killArrival 3 9) stormyKill) = [] := by decide +kernel

/-- Refutes O35: a KILL whose cancelled activation has a store in flight to an uncorrectable word can reach the threshold of UE_STORM; the
module enters KICKSTAND (R283, R502), and the PE loses the kill filter with its power. -/
theorem not_contextLife : ¬ Obligations.ContextLife := by
  unfold Obligations.ContextLife
  intro h
  obtain ⟨-, -, -, hkill, -⟩ := h stormyKill 0 anyPacket [] (by decide)
  obtain ⟨t, hexec, hfilter, -⟩ := hkill 9 3 killAtPe (by decide) (by decide +kernel) (by decide)
    (by decide +kernel) (by decide +kernel) (by decide +kernel)
  have hwiped : (t.pe 3).killFilter = [] := by
    have hafter := killFilter_stormyKill
    rwa [hexec] at hafter
  rw [hwiped] at hfilter
  exact absurd hfilter.symm (by simp)

end Sys2Proof.Machine
end

/-! # Counts and records, and the gates that a change of token pressure opens -/

section

namespace Sys2Proof.Machine

/-- s and t agree but for registers, event records, free values, the counters noted as full, what the management controller reports and the turns
at the banks of the scratches, and no record of s is lost: what counting and recording change. -/
structure Quiet (s t : State) : Prop where
  rest : t = { s with regs := t.regs, coll := t.coll, free := t.free, sat := t.sat, mc := t.mc, banks := t.banks }
  coll : ∀ k, ∀ x ∈ Tbl.get [] s.coll k, x ∈ Tbl.get [] t.coll k

namespace Quiet

variable {s t u : State}

theorem refl (s : State) : Quiet s s := ⟨rfl, fun _ _ h => h⟩

theorem trans (h : Quiet s t) (g : Quiet t u) : Quiet s u := by
  refine ⟨?_, fun k x hx => g.coll k x (h.coll k x hx)⟩
  have hu := g.rest
  rw [h.rest] at hu
  exact hu

theorem pe (h : Quiet s t) (n : Nat) : t.pe n = s.pe n := by rw [h.rest]; rfl
theorem act (h : Quiet s t) (n : Nat) : t.act n = s.act n := by rw [h.rest]; rfl
theorem cm (h : Quiet s t) (e : Nat) : t.cm e = s.cm e := by rw [h.rest]; rfl
theorem ni (h : Quiet s t) (e : Nat) : t.ni e = s.ni e := by rw [h.rest]; rfl
theorem nis (h : Quiet s t) : t.nis = s.nis := by rw [h.rest]
theorem ctxs (h : Quiet s t) : t.ctxs = s.ctxs := by rw [h.rest]
theorem ctx (h : Quiet s t) (k : Nat) : t.ctx k = s.ctx k := by rw [h.rest]; rfl
theorem reqAt (h : Quiet s t) (e : Nat) : t.reqAt e = s.reqAt e := by rw [h.rest]; rfl
theorem reqs (h : Quiet s t) : t.reqs = s.reqs := by rw [h.rest]
theorem mem (h : Quiet s t) : t.mem = s.mem := by rw [h.rest]
theorem imem (h : Quiet s t) : t.imem = s.imem := by rw [h.rest]

end Quiet

theorem quiet_draw (s : State) : Quiet s s.draw.2 := ⟨rfl, fun _ _ h => h⟩
theorem quiet_setReg (s : State) (a : Nat) (v : Word) : Quiet s (s.setReg a v) := ⟨rfl, fun _ _ h => h⟩
theorem quiet_setRfld (s : State) (a hi lo v : Nat) : Quiet s (s.setRfld a hi lo v) := quiet_setReg s a _
theorem log_reg (s : State) (e : Nat) (ev : Ev) (sev : Sev) (d : Word) (pe ctx : Option Nat) (psn : Bool) (r : Nat) :
    (s.log e ev sev d pe ctx psn).reg r = s.reg r := by
  unfold State.log
  split <;> rfl

theorem logFree_reg (s : State) (e : Nat) (ev : Ev) (sev : Sev) (pe ctx : Option Nat) (r : Nat) :
    (s.logFree e ev sev pe ctx).reg r = s.reg r := log_reg ..

/-- A record goes to the end of its collector's list. -/
theorem log_coll (s : State) (e : Nat) (ev : Ev) (sev : Sev) (d : Word) (pe ctx : Option Nat) (psn : Bool) :
    ∃ x : EvRec, (x.code = ev ∧ x.sev = sev ∧ x.detail = d ∧ x.src = e) ∧
      (s.log e ev sev d pe ctx psn).coll = Tbl.set [] s.coll (collectorOf e) (Tbl.get [] s.coll (collectorOf e) ++ [x]) := by
  unfold State.log
  by_cases h : sev = .fatalModule
  · simp only [h, if_true]
    exact ⟨_, ⟨rfl, rfl, rfl, rfl⟩, rfl⟩
  · simp only [h, if_false]
    exact ⟨_, ⟨rfl, rfl, rfl, rfl⟩, rfl⟩

theorem quiet_log (s : State) (e : Nat) (ev : Ev) (sev : Sev) (d : Word) (pe ctx : Option Nat) (psn : Bool) :
    Quiet s (s.log e ev sev d pe ctx psn) := by
  constructor
  · unfold State.log
    split <;> rfl
  · intro k x hx
    obtain ⟨y, -, hy⟩ := log_coll s e ev sev d pe ctx psn
    rw [hy, Tbl.get_set]
    split
    · next h => exact List.mem_append_left _ (h ▸ hx)
    · exact hx

/-- What is logged stands at its collector. -/
theorem logged_log (s : State) (e : Nat) (ev : Ev) (sev : Sev) (d : Word) (pe ctx : Option Nat) (psn : Bool) :
    Logged (s.log e ev sev d pe ctx psn) e ev sev d := by
  obtain ⟨x, hx, hcoll⟩ := log_coll s e ev sev d pe ctx psn
  exact ⟨x, by rw [hcoll, Tbl.get_set, if_pos rfl]; simp, hx⟩

theorem Logged.mono {s t : State} {e : Nat} {ev : Ev} {sev : Sev} {d : Word} (h : Logged s e ev sev d)
    (hcoll : ∀ k, ∀ x ∈ Tbl.get [] s.coll k, x ∈ Tbl.get [] t.coll k) : Logged t e ev sev d :=
  let ⟨x, hx, hfields⟩ := h
  ⟨x, hcoll _ x hx, hfields⟩

theorem quiet_logFree (s : State) (e : Nat) (ev : Ev) (sev : Sev) (pe ctx : Option Nat) : Quiet s (s.logFree e ev sev pe ctx) :=
  (quiet_draw s).trans (quiet_log ..)

theorem quiet_noteFull (s : State) (a : Nat) : Quiet s (s.noteFull a) := by
  unfold State.noteFull
  cases statCtlOf a with
  | none =>
    simp only [Option.elim]
    split
    · exact .refl s
    · exact Quiet.trans (t := { s with sat := s.sat ++ [a / 256] }) ⟨rfl, fun _ _ h => h⟩ (quiet_log ..)
  | some ctl =>
    simp only [Option.elim]
    split
    · exact .refl s
    · exact (quiet_setRfld s ..).trans (quiet_log ..)

theorem quiet_bump (s : State) (a k : Nat) : Quiet s (s.bump a k) := by
  unfold State.bump
  simp only
  split
  · exact quiet_setRfld ..
  · exact (quiet_setRfld ..).trans (quiet_noteFull ..)

theorem setRfld_reg_other {s : State} {a hi lo v r : Nat} (hr : r ≠ a) : (s.setRfld a hi lo v).reg r = s.reg r := by
  simp [State.setRfld, hr]

/-- A full counter of a group without a control register changes no register. -/
theorem noteFull_reg_of_noCtl {s : State} {a : Nat} (hctl : statCtlOf a = none) (r : Nat) : (s.noteFull a).reg r = s.reg r := by
  unfold State.noteFull
  rw [hctl]
  simp only [Option.elim]
  split
  · rfl
  · exact log_reg ..

theorem bump_reg_of_noCtl {s : State} {a k r : Nat} (hctl : statCtlOf a = none) (hr : r ≠ a) : (s.bump a k).reg r = s.reg r := by
  unfold State.bump
  simp only
  split
  · exact setRfld_reg_other hr
  · exact (noteFull_reg_of_noCtl hctl r).trans (setRfld_reg_other hr)

theorem quiet_bumpPe (s : State) (n i k : Nat) : Quiet s (s.bumpPe n i k) := quiet_bump ..
theorem quiet_bumpNi (s : State) (e i k : Nat) : Quiet s (s.bumpNi e i k) := by
  unfold State.bumpNi
  split
  · exact quiet_bump ..
  · exact .refl s
theorem quiet_countHeld (s : State) (c m : Nat) : Quiet s (s.countHeld c m) := by
  unfold State.countHeld
  simp only
  split
  · exact quiet_setRfld ..
  · exact (quiet_setRfld ..).trans (quiet_noteFull ..)
theorem quiet_serveBank (s : State) (c b m : Nat) : Quiet s (s.serveBank c b m) := by
  unfold State.serveBank
  exact keep_foldl (P := Quiet s) (fun u k h => h.trans (quiet_countHeld u c k)) ⟨rfl, fun _ _ h => h⟩
theorem quiet_touchScratch (s : State) (c o : Nat) : Quiet s (s.touchScratch c o) := by
  unfold State.touchScratch
  extract_lets b woken
  have hwoken : Quiet s woken := keep_ite ((keep_ite (.refl s) (quiet_setReg ..)).trans (quiet_bump ..)) (.refl s)
  exact keep_ite (hwoken.trans (quiet_bump ..)) hwoken
theorem quiet_microTouch (s : State) (c o : Nat) : Quiet s (s.microTouch c o) := (quiet_serveBank ..).trans (quiet_touchScratch ..)
theorem quiet_noteDepth (s : State) (n : Nat) : Quiet s (s.noteDepth n) := quiet_setRfld ..

/-- Nothing is released where no gate holds a token. -/
theorem releaseAll_of_noGate {s : State} (h : ∀ e, (s.cm e).gate = []) : s.releaseAll = s := by
  unfold State.releaseAll
  have hstep : ∀ e, ((s.cm e).heldCtxs).foldl (fun s k => s.gateRelease e k) s = s := fun e => by simp [Cm.heldCtxs, h e]
  induction allOwners with
  | nil => rfl
  | cons e l ih => rw [List.foldl_cons, hstep e, ih]

/-- A pressure check is quiet where pressure does not end, or ends with nothing held. -/
theorem quiet_pressureCheck {s : State} (h : s.pressure = false ∨ ∀ e, (s.cm e).gate = []) : Quiet s s.pressureCheck := by
  have hend : Quiet s ((s.setRfld aPressStatus 0 0 0).logFree 66 .tokenPressureEnd .info) := (quiet_setRfld ..).trans (quiet_logFree ..)
  have hset : Quiet s ((s.setRfld aPressStatus 0 0 1).logFree 66 .tokenPressure .deferred) := (quiet_setRfld ..).trans (quiet_logFree ..)
  unfold State.pressureCheck
  simp only
  split
  · next hp =>
    have hgate : ∀ e, (s.cm e).gate = [] := h.resolve_left (by simp [hp])
    split
    · rw [releaseAll_of_noGate fun e => by rw [hend.cm]; exact hgate e]
      exact hend
    · exact .refl s
  · split
    · exact hset
    · exact .refl s

/-- The registers that a gate changes: token pressure, the tokens a stopped pair has lost, and the counters of the context managers. -/
def gateReg (r : Nat) : Prop := r = aPressStatus ∨ r = aHaltDrop ∨ ∃ e < 64, ∃ i < 8, r = aCmStat e i

theorem statCtlOf_cmStat : ∀ e < 64, ∀ i < 8, statCtlOf (aCmStat e i) = none := by decide +kernel
theorem statCtlOf_haltDrop : statCtlOf aHaltDrop = none := by decide +kernel

/-- s and t agree on what gates do not move: of a PE all but its inbox and outbound queue, of a context manager all but its gate and its kills, of
a context all but its state; instruction memory, waiting requests and every register but theirs. -/
structure GateMoves (s t : State) : Prop where
  pe : ∀ n, t.pe n = { s.pe n with inbox := (t.pe n).inbox, outQ := (t.pe n).outQ }
  cm : ∀ e, t.cm e = { s.cm e with gate := (t.cm e).gate, kills := (t.cm e).kills }
  ctx : ∀ k, t.ctx k = { s.ctx k with state := (t.ctx k).state }
  imem : t.imem = s.imem
  reqs : t.reqs = s.reqs
  reg : ∀ r, ¬ gateReg r → t.reg r = s.reg r

namespace GateMoves

variable {s t u : State}

theorem refl (s : State) : GateMoves s s := ⟨fun _ => rfl, fun _ => rfl, fun _ => rfl, rfl, rfl, fun _ _ => rfl⟩

theorem trans (h : GateMoves s t) (g : GateMoves t u) : GateMoves s u where
  pe n := by rw [g.pe n, h.pe n]
  cm e := by rw [g.cm e, h.cm e]
  ctx k := by rw [g.ctx k, h.ctx k]
  imem := g.imem.trans h.imem
  reqs := g.reqs.trans h.reqs
  reg r hr := (g.reg r hr).trans (h.reg r hr)

/-- A fold of steps that move no more. -/
theorem foldl {α : Type} (f : State → α → State) (hf : ∀ s x, GateMoves s (f s x)) (l : List α) : ∀ s, GateMoves s (l.foldl f s) := by
  induction l with
  | nil => exact refl
  | cons x l ih => exact fun s => (hf s x).trans (ih _)

end GateMoves

theorem Quiet.gateMoves {s t : State} (h : Quiet s t) (hreg : ∀ r, ¬ gateReg r → t.reg r = s.reg r) : GateMoves s t where
  pe n := by rw [h.pe]
  cm e := by rw [h.cm]
  ctx k := by rw [h.ctx]
  imem := h.imem
  reqs := h.reqs
  reg := hreg

theorem gateMoves_log (s : State) (e : Nat) (ev : Ev) (sev : Sev) (d : Word) (pe ctx : Option Nat) (psn : Bool) :
    GateMoves s (s.log e ev sev d pe ctx psn) := (quiet_log ..).gateMoves fun _ _ => log_reg ..
theorem gateMoves_logFree (s : State) (e : Nat) (ev : Ev) (sev : Sev) (pe ctx : Option Nat) : GateMoves s (s.logFree e ev sev pe ctx) :=
  (quiet_logFree ..).gateMoves fun _ _ => logFree_reg ..
theorem gateMoves_setPressure (s : State) (v : Nat) : GateMoves s (s.setRfld aPressStatus 0 0 v) :=
  (quiet_setRfld ..).gateMoves fun r hr => by
    have : r ≠ aPressStatus := fun h => hr (.inl h)
    simp [State.setRfld, this]
theorem gateMoves_haltDrop (s : State) : GateMoves s (s.bump aHaltDrop) :=
  (quiet_bump ..).gateMoves fun _ hr => bump_reg_of_noCtl statCtlOf_haltDrop fun h => hr (.inr (.inl h))
theorem gateMoves_bumpCm (s : State) (e i : Nat) (hi : i < 8) : GateMoves s (s.bumpCm e i) := by
  unfold State.bumpCm
  split
  · next he => exact (quiet_bump ..).gateMoves fun r hr => bump_reg_of_noCtl (statCtlOf_cmStat e he i hi) fun h => hr (.inr (.inr ⟨e, he, i, hi, h⟩))
  · exact .refl s

theorem gateMoves_updPe {s : State} {n : Nat} {f : Pe → Pe} (hf : ∀ p, f p = { p with inbox := (f p).inbox, outQ := (f p).outQ }) :
    GateMoves s (s.updPe n f) := by
  refine { GateMoves.refl s with pe := fun m => ?_ }
  by_cases h : pairPe m = pairPe n
  · have hm : s.pe m = s.pe n := by unfold State.pe; rw [h]
    simpa [State.updPe, h, hm] using hf (s.pe n)
  · simp [State.updPe, h]

theorem gateMoves_updCm {s : State} {c : Nat} {f : Cm → Cm} (hf : ∀ m, f m = { m with gate := (f m).gate, kills := (f m).kills }) :
    GateMoves s (s.updCm c f) := by
  refine { GateMoves.refl s with cm := fun e => ?_ }
  by_cases h : e = c
  · subst h; simpa [State.updCm] using hf (s.cm e)
  · simp [State.updCm, h]

theorem gateMoves_unitSend (s : State) (e : Nat) (m : Msg) : GateMoves s (s.unitSend e m) := { GateMoves.refl s with }

theorem gateMoves_ctxState {s : State} {k : Nat} {v : CtxState} : GateMoves s (s.setCtx k { s.ctx k with state := v }) := by
  refine { GateMoves.refl s with ctx := fun j => ?_ }
  by_cases h : j = k
  · subst h; simp
  · simp [h]

theorem gateMoves_putWord (s : State) (a : Nat) (v : Word) : GateMoves s (s.putWord a v) := { GateMoves.refl s with }

theorem gateMoves_storeWords (l : List Word) : ∀ (s : State) (a : Nat), GateMoves s (s.storeWords a l) := by
  induction l with
  | nil => exact fun s _ => .refl s
  | cons w l ih => exact fun s a => (gateMoves_putWord s a w).trans (ih _ _)

theorem gateMoves_writeDesc (s : State) (k : Nat) : GateMoves s (s.writeDesc k) := by
  unfold State.writeDesc
  split
  · exact .refl s
  · exact gateMoves_storeWords ..

theorem gateMoves_startKill (s : State) (k : Nat) (reply : Option Packet) : GateMoves s (s.startKill k reply) := by
  unfold State.startKill
  simp only
  split
  · exact (gateMoves_ctxState.trans (gateMoves_writeDesc ..)).trans (gateMoves_updCm fun _ => rfl)
  · exact .refl s

theorem gateMoves_orphanFree (s : State) (e : Nat) (t : Token) : GateMoves s (s.orphanFree e t) := by
  unfold State.orphanFree
  simp only
  split
  · exact gateMoves_unitSend ..
  · exact .refl s

theorem gateMoves_deliverTo (s : State) (k e : Nat) (pe : Option Nat) (ftag : Word) (unit : Bool) (fc : FaultCode) (off detail : Nat)
    (handles : Option Nat) : GateMoves s (s.deliverTo k e pe ftag unit fc off detail handles) := by
  unfold State.deliverTo
  cases handles with
  | some old => exact (gateMoves_log ..).trans (gateMoves_startKill ..)
  | none =>
    simp only
    split
    · cases pe with
      | some n => exact gateMoves_updPe fun _ => rfl
      | none => exact gateMoves_unitSend ..
    · exact (gateMoves_log ..).trans (gateMoves_startKill ..)

theorem gateMoves_deliver (s : State) (e : Nat) (pe : Option Nat) (ftag : Word) (unit : Bool) (fc : FaultCode) (off detail : Nat)
    (handles : Option Nat) : GateMoves s (s.deliver e pe ftag unit fc off detail handles) := gateMoves_deliverTo ..

theorem gateMoves_admitToken (s : State) (t : Token) : GateMoves s (s.admitToken t) := by
  unfold State.admitToken
  split
  · exact gateMoves_updPe fun _ => rfl
  · exact gateMoves_haltDrop s

theorem gateMoves_gateDrop (s : State) (e : Nat) (t : Token) (d : GateDec) : GateMoves s (s.gateDrop e t d) := by
  cases d with
  | free => exact ((gateMoves_bumpCm s e csNOCTX (by decide)).trans (gateMoves_logFree ..)).trans (gateMoves_orphanFree ..)
  | dead => exact (gateMoves_bumpCm s e csKILLED (by decide)).trans (gateMoves_orphanFree ..)
  | stale b => exact (gateMoves_bumpCm s e csSTALE (by decide)).trans (gateMoves_deliver ..)
  | accept => exact gateMoves_admitToken s t
  | hold => exact .refl s
  | ask => exact .refl s

theorem gateMoves_gateRelease (s : State) (e k : Nat) : GateMoves s (s.gateRelease e k) :=
  (gateMoves_updCm fun _ => rfl).trans (.foldl _ (fun _ _ => gateMoves_gateDrop ..) _ _)

theorem gateMoves_releaseAll (s : State) : GateMoves s s.releaseAll :=
  GateMoves.foldl _ (fun s _ => .foldl _ (fun _ _ => gateMoves_gateRelease ..) _ s) _ s

theorem gateMoves_pressureCheck (s : State) : GateMoves s s.pressureCheck := by
  unfold State.pressureCheck
  simp only
  split
  · split
    · exact ((gateMoves_setPressure ..).trans (gateMoves_logFree ..)).trans (gateMoves_releaseAll _)
    · exact .refl s
  · split
    · exact ((gateMoves_setPressure ..).trans (gateMoves_logFree ..))
    · exact .refl s

end Sys2Proof.Machine
end

/-! # Runs, requests and answers, and one token at a gate -/

section

namespace Sys2Proof.Machine

/-- A command run on the module reaches what its function gives, for a property that the queue of waiting commands has no part in. -/
theorem runs_module {c : Instr} {s : State} {f : State → State} {P : State → Prop} (hexec : exec c s = onModule s f)
    (hP : ∀ (t : State) (q : List Instr), P t → P { t with pending := q }) (h : P (f s)) : Runs c s P := ⟨_, hexec, hP _ _ h⟩

theorem runs_unit {c : Instr} {s : State} {what : String} {n lim : Nat} {f : State → State} {P : State → Prop} (hn : n < lim)
    (hexec : exec c s = onUnit what n lim s f) (hP : ∀ (t : State) (q : List Instr), P t → P { t with pending := q }) (h : P (f s)) : Runs c s P :=
  runs_module (hexec.trans (if_pos hn)) hP h

theorem runs_owner {c : Instr} {s : State} {e : Nat} {f : State → State} {P : State → Prop} (he : e < 64 ∨ e = 69)
    (hexec : exec c s = onOwner e s f) (hP : ∀ (t : State) (q : List Instr), P t → P { t with pending := q }) (h : P (f s)) : Runs c s P :=
  runs_module (hexec.trans (if_pos he)) hP h

/-- A request that passes the test and waits first is the one taken. -/
theorem takeReq_head {s : State} {e : Nat} {f : Packet → Bool} {p : Packet} {r : List Packet} (hreq : s.reqAt e = p :: r) (hf : f p = true) :
    s.takeReq e f = some (p, s.setReqs e r) := by
  simp [State.takeReq, hreq, hf]

theorem takeSvc_head {s : State} {e sub : Nat} {p : Packet} {r : List Packet} (hreq : s.reqAt e = p :: r) (hopc : p.opc = .service)
    (hsvc : p.svc = sub) : s.takeSvc e sub = some (p, s.setReqs e r) :=
  takeReq_head hreq (by simp [hopc, hsvc])

/-- A SERVICE request is answered by a RESP message. -/
theorem answer_service {s : State} {e st : Nat} {p : Packet} {tok : Option (Word × Wide)} {newctxr : Bool} (hopc : p.opc = .service) :
    s.answer e p st tok newctxr = s.unitSend e (respMsg p st tok newctxr) := by
  have hremote : localReq e p = false := by simp [localReq, hopc, show Opc.isMem .service = false from rfl]
  rw [State.answer, hremote]; rfl

theorem unitSend_outQ (s : State) (e : Nat) (m : Msg) : ((s.unitSend e m).ni e).outQ = (s.ni e).outQ ++ [m] := by
  simp [State.unitSend, State.updNi]

/-- A gate that holds nothing releases nothing. -/
theorem gateRelease_of_empty {s : State} {e k : Nat} (h : (s.cm e).gate = []) : s.gateRelease e k = s.updCm e (fun m => { m with gate := [] }) := by
  simp [State.gateRelease, h]

/-- The one token held goes to its PE when the gate accepts it. -/
theorem gateRelease_accept {s : State} {e k : Nat} {t : Token} {x : Bool} (h : (s.cm e).gate = [⟨t, x⟩]) (hk : tKey t.tag = k)
    (hdec : s.gateDec e t = .accept) : s.gateRelease e k = (s.updCm e (fun m => { m with gate := [] })).admitToken t := by
  simp [State.gateRelease, h, hk, hdec, State.gateDrop]

/-- A field written with its own value stays. -/
theorem setFld_fld {n : Nat} (w : BitVec n) (hi lo : Nat) : setFld w hi lo (fld w hi lo) = w := by
  have hle : put hi lo (fld w hi lo) ≤ w.toNat := by
    rw [put, fld, Nat.mod_mod, Nat.shiftLeft_eq, Nat.shiftRight_eq_div_pow]
    exact (Nat.mul_le_mul_right _ (Nat.mod_le _ _)).trans (Nat.div_mul_le_self _ _)
  rw [setFld, Nat.sub_add_cancel hle, BitVec.ofNat_toNat, BitVec.setWidth_eq]

theorem pairPe_of_lt {n : Nat} (h : n < 272) : pairPe n = n := by
  unfold pairPe; split <;> [skip; split] <;> omega

/-- A token for a cluster's PE goes to its inbox as it is. -/
theorem admitToken_cluster {s : State} {t : Token} (hpe : tPe t.tag < 272) :
    s.admitToken t = s.updPe (tPe t.tag) (fun p => { p with inbox := p.inbox ++ [t] }) := by
  have hsame : t.forPair = t := by
    have htag : setFld t.tag 23 15 (pairPe (tPe t.tag)) = t.tag := by rw [pairPe_of_lt hpe]; exact setFld_fld ..
    rw [Token.forPair, htag]
  simp [State.admitToken, State.pairRuns, hpe, hsame]

/-- A context with a copy of BASE has an entry of the cache. -/
theorem mem_keys_of_get_ne {α : Type} {d : α} {t : Tbl α} {k : Nat} (h : Tbl.get d t k ≠ d) : k ∈ t.map (·.1) :=
  List.mem_map_of_mem (f := (·.1)) ((Tbl.get_eq_or_mem d t k).resolve_left h)

/-- The cache of a gate takes a copy of BASE in a free entry, or over the context's own. -/
theorem cacheBase_of_room {s : State} {g k b : Nat} (h : k ∈ (s.cm g).cache.map (·.1) ∨ (s.cm g).cache.length < 64) :
    s.cacheBase g k b = s.updCm g (fun m => { m with cache := Tbl.set 0 m.cache k (b + 1) }) := by
  simp only [State.cacheBase, List.contains_iff_mem, h, if_true]

theorem updCm_cm (s : State) (e : Nat) (f : Cm → Cm) : (s.updCm e f).cm e = f (s.cm e) := by simp [State.updCm]

end Sys2Proof.Machine
end

/-! # Words of memory -/

section

namespace Sys2Proof.Machine

theorem memBytes_congr {m l : List Host.Cell} {k : Nat} : ∀ {a : Nat}, (∀ x, a ≤ x → x < a + k → Tbl.get 0 m x = Tbl.get 0 l x) →
    memBytes m a k = memBytes l a k := by
  induction k with
  | zero => exact fun _ => rfl
  | succ k ih =>
    intro a h
    rw [memBytes, memBytes, h a (by omega) (by omega), ih fun x hx hk => h x (by omega) (by omega)]

theorem word_congr {s t : State} {a : Nat} (h : ∀ x, a ≤ x → x < a + 8 → t.byte x = s.byte x) : t.word a = s.word a := by
  rw [State.word, State.word, State.load, State.load, memBytes_congr h]

theorem putWord_word (s : State) (a : Nat) (v : Word) : (s.putWord a v).word a = v := by
  have h : (s.putWord a v).load a 8 = v.toNat % 256 ^ 8 := load_store s a 8 v.toNat
  rw [State.word, h, Nat.mod_eq_of_lt (show v.toNat < 256 ^ 8 from v.isLt), BitVec.ofNat_toNat, BitVec.setWidth_eq]

theorem putWord_byte_other {s : State} {a x : Nat} {v : Word} (h : x < a ∨ a + 8 ≤ x) : (s.putWord a v).byte x = s.byte x :=
  store_byte_other s a 8 v.toNat x h

theorem storeWords_byte_other {x : Nat} (l : List Word) : ∀ {s : State} {a : Nat}, x < a ∨ a + 8 * l.length ≤ x →
    (s.storeWords a l).byte x = s.byte x := by
  induction l with
  | nil => exact fun _ => rfl
  | cons w l ih =>
    intro s a h
    rw [List.length_cons] at h
    rw [State.storeWords, ih (by omega), putWord_byte_other (by omega)]

theorem storeWords_word (l : List Word) : ∀ {s : State} {a i : Nat}, (hi : i < l.length) → (s.storeWords a l).word (a + 8 * i) = l[i] := by
  induction l with
  | nil => exact fun hi => absurd hi (Nat.not_lt_zero _)
  | cons w l ih =>
    intro s a i hi
    rw [State.storeWords]
    cases i with
    | zero => exact (word_congr fun x _ _ => storeWords_byte_other l (by omega)).trans (putWord_word s a w)
    | succ i => simpa [Nat.mul_add, Nat.add_assoc, Nat.add_comm 8] using ih (s := s.putWord a w) (a := a + 8) (Nat.lt_of_succ_lt_succ hi)

/-- s and t agree but for the bytes of memory and their check states. -/
def MemOnly (s t : State) : Prop := t = { s with mem := t.mem, ecc := t.ecc }

namespace MemOnly

theorem refl (s : State) : MemOnly s s := rfl
theorem trans {s t u : State} (h : MemOnly s t) (g : MemOnly t u) : MemOnly s u := by
  have hu : u = { t with mem := u.mem, ecc := u.ecc } := g
  rw [show t = { s with mem := t.mem, ecc := t.ecc } from h] at hu
  exact hu

variable {s t : State} (h : MemOnly s t)
include h

theorem ctxs : t.ctxs = s.ctxs := by rw [show t = { s with mem := t.mem, ecc := t.ecc } from h]
theorem ctx (k : Nat) : t.ctx k = s.ctx k := by rw [State.ctx, State.ctx, h.ctxs]
theorem reg (a : Nat) : t.reg a = s.reg a := by rw [show t = { s with mem := t.mem, ecc := t.ecc } from h]; rfl
theorem nis : t.nis = s.nis := by rw [show t = { s with mem := t.mem, ecc := t.ecc } from h]
theorem cm (e : Nat) : t.cm e = s.cm e := by rw [show t = { s with mem := t.mem, ecc := t.ecc } from h]; rfl
theorem coll : t.coll = s.coll := by rw [show t = { s with mem := t.mem, ecc := t.ecc } from h]
theorem descWords (k : Nat) : t.descWords k = s.descWords k := by rw [show t = { s with mem := t.mem, ecc := t.ecc } from h]; rfl

end MemOnly

theorem memOnly_storeWords (l : List Word) : ∀ (s : State) (a : Nat), MemOnly s (s.storeWords a l) := by
  induction l with
  | nil => exact fun s _ => .refl s
  | cons w l ih => exact fun s a => MemOnly.trans (t := s.putWord a w) rfl (ih _ _)

theorem memOnly_writeDesc (s : State) (k : Nat) : MemOnly s (s.writeDesc k) := by
  unfold State.writeDesc
  split
  · exact .refl s
  · exact memOnly_storeWords ..

end Sys2Proof.Machine
end

/-! # O34: iteration windows -/

section

namespace Sys2Proof.Machine

/-- Gates change neither the copies of BASE of a context manager nor what is on its way about them. -/
theorem GateMoves.copies {s t : State} (h : GateMoves s t) (e : Nat) :
    (t.cm e).cache = (s.cm e).cache ∧ (t.cm e).answers = (s.cm e).answers ∧ (t.cm e).advances = (s.cm e).advances := by
  rw [h.cm e]; exact ⟨rfl, rfl, rfl⟩

theorem windowQuery_runs {s : State} {g k : Nat} (hg : g < 64 ∨ g = 69) (hasked : k ∈ (s.cm g).asked) :
    Runs (.windowQuery g k) s fun u => (u.cm g).asked = (s.cm g).asked.erase k ∧ (u.cm g).answers = (s.cm g).answers ++ [(k, (s.ctx k).base)] ∧
      g ∈ (u.ctx k).copies ∧ (u.ctx k).base = (s.ctx k).base := by
  refine runs_owner hg rfl (fun _ _ h => h) ?_
  rw [State.windowQuery, if_pos (List.contains_iff_mem.mpr hasked)]
  refine ⟨by simp [State.updCm, State.updCtx], by simp [State.updCm, State.updCtx], ?_, by simp [State.updCm, State.updCtx]⟩
  simp only [State.updCm, State.updCtx, State.ctx_setCm_of, State.ctx_setCtx, if_true]
  split
  · next h => exact List.contains_iff_mem.mp h
  · simp

section

variable {s : State} {g k b : Nat}

/-- The gate of g with f done to its context manager, and then a copy b of the BASE of context k. -/
def State.withCopy (s : State) (g k b : Nat) (f : Cm → Cm) : State :=
  (s.updCm g f).updCm g (fun m => { m with cache := Tbl.set 0 m.cache k (b + 1) })

theorem withCopy_cm (f : Cm → Cm) : (s.withCopy g k b f).cm g = { f (s.cm g) with cache := Tbl.set 0 (f (s.cm g)).cache k (b + 1) } := by
  rw [State.withCopy, updCm_cm, updCm_cm]

theorem windowAnswer_eq (hanswer : (s.cm g).answers = [(k, b)]) (hroom : (s.cm g).cache.length < 64) :
    s.windowAnswer g k =
      ((s.withCopy g k b fun m => { m with answers := m.answers.erase (k, b) }).gateRelease g k).pressureCheck := by
  have hfind : (s.cm g).answers.find? (fun x => x.1 = k) = some (k, b) := by simp [hanswer]
  simp only [State.windowAnswer, hfind]
  rw [cacheBase_of_room (.inr (by rw [updCm_cm]; exact hroom))]
  rfl

theorem windowAnswer_runs (hg : g < 64 ∨ g = 69) (hanswer : (s.cm g).answers = [(k, b)]) (hroom : (s.cm g).cache.length < 64) :
    Runs (.windowCacheAnswer g k) s fun u => Tbl.get 0 (u.cm g).cache k = b + 1 ∧ (u.cm g).answers = [] := by
  refine runs_owner hg rfl (fun _ _ h => h) ?_
  obtain ⟨hcache, hans, -⟩ := ((gateMoves_gateRelease (s.withCopy g k b fun m => { m with answers := m.answers.erase (k, b) }) g k).trans
    (gateMoves_pressureCheck _)).copies g
  rw [windowAnswer_eq hanswer hroom, hcache, hans, withCopy_cm]
  simp [hanswer]

/-- With a copy of BASE, the gate of another endpoint accepts a token of the window. -/
theorem gateDec_accept {t : Token} (hk : tKey t.tag = k) (hother : ctxOwner k ≠ g) (hlive : (s.ctx k).state = .live)
    (hfault : t.fault = false) (hpressure : s.pressure = false) (hcopy : Tbl.get 0 (s.cm g).cache k = b + 1)
    (hwindow : winDist (tIter t.tag) b < 2 ^ (s.ctx k).itw) : s.gateDec g t = .accept := by
  simp [State.gateDec, State.baseAt, hk, hother, hlive, hfault, hpressure, hcopy, hwindow]

theorem windowAnswer_releases {t : Token} {x : Bool} (hg : g < 64 ∨ g = 69) (hanswer : (s.cm g).answers = [(k, b)])
    (hroom : (s.cm g).cache.length < 64) (hgate : (s.cm g).gate = [⟨t, x⟩]) (hk : tKey t.tag = k) (hother : ctxOwner k ≠ g)
    (hlive : (s.ctx k).state = .live) (hfault : t.fault = false) (hpressure : s.pressure = false)
    (hwindow : winDist (tIter t.tag) b < 2 ^ (s.ctx k).itw) (hpe : tPe t.tag < 272) :
    Runs (.windowCacheAnswer g k) s fun u => (u.cm g).gate = [] ∧ (u.pe (tPe t.tag)).inbox = (s.pe (tPe t.tag)).inbox ++ [t] := by
  refine runs_owner hg rfl (fun _ _ h => h) ?_
  let w := s.withCopy g k b fun m => { m with answers := m.answers.erase (k, b) }
  have hcm : w.cm g = { s.cm g with answers := (s.cm g).answers.erase (k, b), cache := Tbl.set 0 (s.cm g).cache k (b + 1) } := withCopy_cm _
  have hdec : w.gateDec g t = .accept := gateDec_accept hk hother hlive hfault hpressure (by rw [hcm]; simp) hwindow
  have hrelease := gateRelease_accept (by rw [hcm]; exact hgate) hk hdec
  have hquiet := quiet_pressureCheck (s := w.gateRelease g k) (.inl (by rw [hrelease, admitToken_cluster hpe]; exact hpressure))
  rw [windowAnswer_eq hanswer hroom, hquiet.cm, hquiet.pe, hrelease, admitToken_cluster hpe]
  refine ⟨?_, by rw [updPe_pe]; rfl⟩
  change ((w.updCm g fun m => { m with gate := [] }).cm g).gate = []
  rw [updCm_cm]

theorem windowAdvance_runs (hg : g < 64 ∨ g = 69) (hadvance : (s.cm g).advances = [(k, b)]) (hanswer : (s.cm g).answers = [])
    (hcopy : Tbl.get 0 (s.cm g).cache k ≠ 0) :
    Runs (.windowAdvance g k) s fun u => Tbl.get 0 (u.cm g).cache k = b + 1 ∧ (u.cm g).advances = [] := by
  refine runs_owner hg rfl (fun _ _ h => h) ?_
  have heq : s.windowAdvance g k =
      ((s.withCopy g k b fun m => { m with advances := m.advances.erase (k, b) }).gateRelease g k).pressureCheck := by
    have hfind : (s.cm g).advances.find? (fun x => x.1 = k) = some (k, b) := by simp [hadvance]
    simp only [State.windowAdvance, hfind, hanswer, List.any_nil, Bool.false_eq_true, if_false]
    rw [if_pos (.inl (by rw [updCm_cm]; exact hcopy)), cacheBase_of_room (.inl (by rw [updCm_cm]; exact mem_keys_of_get_ne hcopy))]
    rfl
  obtain ⟨hcache, -, hadv⟩ := ((gateMoves_gateRelease (s.withCopy g k b fun m => { m with advances := m.advances.erase (k, b) }) g k).trans
    (gateMoves_pressureCheck _)).copies g
  rw [heq, hcache, hadv, withCopy_cm]
  simp [hadvance]

end

section

variable {s : State} {e k : Nat} {p : Packet} {r : List Packet}

/-- What a FREECTX.I of the live context k does: the reply leaves, and BASE moves or the iteration is kept. -/
theorem cmRetire_live (hreq : s.reqAt e = p :: r) (hopc : p.opc = .service) (hsvc : p.svc = 2) (hargs : fld p.argB 63 12 = 0 ∧ p.len = 2)
    (hctx : p.ctxArg e = some k) (hlive : (s.ctx k).state = .live) (hretired : (s.ctx k).retired = [])
    (hwindow : winDist (fld p.argB 11 0) (s.ctx k).base < 2 ^ (s.ctx k).itw) :
    s.cmRetire e =
      let t := (s.setReqs e r).unitSend e (respMsg p 0 none false)
      let i := fld p.argB 11 0
      let m := advanceBase (s.ctx k).base [i] 1
      if m.1 = (s.ctx k).base then t.updCtx k (fun c => { c with retired := [i] }) else t.moveBase e k m.1 m.2 := by
  have hanswer : ∀ t : State, t.answer e p stDONE none = t.unitSend e (respMsg p 0 none false) := fun _ => answer_service hopc
  simp only [State.cmRetire, takeSvc_head hreq hopc hsvc, if_pos hargs, hctx, State.ctx_setReqs_of, hlive, hretired, hanswer, if_pos hwindow,
    ne_eq, not_true_eq_false, if_false, List.contains_nil, Bool.false_eq_true, List.nil_append, List.length_singleton]

theorem cmRetire_advances (he : e < 64 ∨ e = 69) (hreq : s.reqAt e = p :: r) (hopc : p.opc = .service) (hsvc : p.svc = 2)
    (hargs : fld p.argB 63 12 = 0 ∧ p.len = 2) (hctx : p.ctxArg e = some k) (hlive : (s.ctx k).state = .live) (hretired : (s.ctx k).retired = [])
    (hpressure : s.pressure = false) (hbase : fld p.argB 11 0 = (s.ctx k).base) (hcopies : (s.ctx k).copies = []) (hgate : (s.cm e).gate = []) :
    Runs (.cmFreectxIRequest e) s fun u => (u.ctx k).base = ((s.ctx k).base + 1) % 4096 ∧ (u.ctx k).retired = [] ∧ u.reqAt e = r ∧
      (u.ni e).outQ = (s.ni e).outQ ++ [respMsg p 0 none false] := by
  refine runs_owner he rfl (fun _ _ h => h) ?_
  have hlt : (s.ctx k).base < 4096 := hbase ▸ fld_lt _ 11 0
  have hdist : winDist (fld p.argB 11 0) (s.ctx k).base = 0 := by rw [hbase, winDist]; omega
  have hmoved : advanceBase (s.ctx k).base [fld p.argB 11 0] 1 = (((s.ctx k).base + 1) % 4096, []) := by simp [advanceBase, hbase]
  have hne : ¬ ((s.ctx k).base + 1) % 4096 = (s.ctx k).base := by omega
  rw [cmRetire_live hreq hopc hsvc hargs hctx hlive hretired (by rw [hdist]; exact Nat.two_pow_pos _)]
  simp only [hmoved, if_neg hne]
  let t := (s.setReqs e r).unitSend e (respMsg p 0 none false)
  have hempty : ((t.updCtx k fun c => { c with base := ((s.ctx k).base + 1) % 4096, retired := [] }).cm e).gate = [] := hgate
  have hmove : t.moveBase e k (((s.ctx k).base + 1) % 4096) [] =
      ((t.updCtx k fun c => { c with base := ((s.ctx k).base + 1) % 4096, retired := [] }).updCm e fun m => { m with gate := [] }).pressureCheck := by
    have hlist : ((t.updCtx k fun c => { c with base := ((s.ctx k).base + 1) % 4096, retired := [] }).ctx k).copies = [] := by
      rw [State.updCtx, State.ctx_setCtx, if_pos rfl]
      exact hcopies
    rw [State.moveBase, hlist, List.foldl_nil, gateRelease_of_empty hempty]
  have hquiet := quiet_pressureCheck
    (s := (t.updCtx k fun c => { c with base := ((s.ctx k).base + 1) % 4096, retired := [] }).updCm e fun m => { m with gate := [] }) (.inl hpressure)
  rw [hmove, hquiet.ctx, hquiet.reqAt, hquiet.ni]
  refine ⟨by simp [State.updCm, State.updCtx], by simp [State.updCm, State.updCtx], ?_, unitSend_outQ (s.setReqs e r) e _⟩
  change (s.setReqs e r).reqAt e = r
  simp

theorem cmRetire_keeps (he : e < 64 ∨ e = 69) (hreq : s.reqAt e = p :: r) (hopc : p.opc = .service) (hsvc : p.svc = 2)
    (hargs : fld p.argB 63 12 = 0 ∧ p.len = 2) (hctx : p.ctxArg e = some k) (hlive : (s.ctx k).state = .live) (hretired : (s.ctx k).retired = [])
    (hbase : fld p.argB 11 0 ≠ (s.ctx k).base) (hwindow : winDist (fld p.argB 11 0) (s.ctx k).base < 2 ^ (s.ctx k).itw) :
    Runs (.cmFreectxIRequest e) s fun u => (u.ctx k).base = (s.ctx k).base ∧ (u.ctx k).retired = [fld p.argB 11 0] ∧
      (u.ni e).outQ = (s.ni e).outQ ++ [respMsg p 0 none false] := by
  refine runs_owner he rfl (fun _ _ h => h) ?_
  have hstays : advanceBase (s.ctx k).base [fld p.argB 11 0] 1 = ((s.ctx k).base, [fld p.argB 11 0]) := by simp [advanceBase, Ne.symm hbase]
  rw [cmRetire_live hreq hopc hsvc hargs hctx hlive hretired hwindow]
  simp only [hstays, if_true]
  exact ⟨by simp [State.updCtx, State.unitSend, State.updNi], by simp [State.updCtx], unitSend_outQ (s.setReqs e r) e _⟩

end

/-- Settles O34: the gate's answers and advances through what a release moves, and FREECTX.I through the one step that BASE can make. -/
theorem windows : Obligations.Windows := by
  unfold Obligations.Windows
  refine ⟨fun s g k hg hasked => windowQuery_runs hg hasked, fun s g k b hg hanswer hroom => ⟨fun _ => windowAnswer_runs hg hanswer hroom, ?release⟩,
    fun s g k b hg hadvance hanswer _ hcopy => windowAdvance_runs hg hadvance hanswer hcopy, ?retire⟩
  case release =>
    intro t x hgate hk hother hlive hfault hpressure hwindow hpe
    exact windowAnswer_releases hg hanswer hroom hgate hk hother hlive hfault hpressure hwindow hpe
  case retire =>
    intro s e k p r he hreq hopc hsvc hzero hlen hctx hlive hretired hpressure
    refine ⟨fun hbase hcopies hgate => ?_, fun hbase _ hwindow => ?_⟩
    · exact cmRetire_advances he hreq hopc hsvc ⟨hzero, hlen⟩ hctx hlive hretired hpressure hbase hcopies hgate
    · exact cmRetire_keeps he hreq hopc hsvc ⟨hzero, hlen⟩ hctx hlive hretired hbase hwindow

end Sys2Proof.Machine
end

/-! # O36: drain rounds and the examinations of a context manager -/

section

namespace Sys2Proof.Machine

/-! Counters of contexts written back. -/

/-- Where the descriptor of context k of cluster e stands in its context table. -/
def State.descAddr (s : State) (e k : Nat) : Nat := s.rfld (aCtxtBase e) 47 20 * 2 ^ 20 + k % 16384 * 64

theorem writeDesc_eq {s : State} {e k : Nat} (he : e < 64) (hk : ctxOwner k = e) :
    s.writeDesc k = s.storeWords (s.descAddr e k) (s.descWords k) := by
  unfold ctxOwner at hk
  split at hk
  · omega
  · next h => rw [State.writeDesc, if_neg h, hk]; rfl

theorem descAddr_apart {s : State} {e k j : Nat} (he : e < 64) (hk : ctxOwner k = e) (hj : ctxOwner j = e) (hne : k ≠ j) :
    s.descAddr e k + 64 ≤ s.descAddr e j ∨ s.descAddr e j + 64 ≤ s.descAddr e k := by
  unfold ctxOwner at hk hj
  unfold State.descAddr
  split at hk <;> split at hj <;> omega

/-- The descriptors of contexts of cluster e, written one after another. -/
def State.writeDescs (s : State) (l : List Nat) : State := l.foldl State.writeDesc s

theorem memOnly_writeDescs (l : List Nat) : ∀ s : State, MemOnly s (s.writeDescs l) := by
  induction l with
  | nil => exact .refl
  | cons k l ih => exact fun s => (memOnly_writeDesc s k).trans (ih _)

theorem descAddr_writeDesc {s : State} {e k : Nat} (j : Nat) : (s.writeDesc j).descAddr e k = s.descAddr e k := by
  rw [State.descAddr, State.rfld, (memOnly_writeDesc s j).reg]; rfl

theorem writeDescs_byte_other {e k x : Nat} (he : e < 64) (hk : ctxOwner k = e) (l : List Nat) (hl : ∀ j ∈ l, ctxOwner j = e) (hkl : k ∉ l) :
    ∀ s : State, s.descAddr e k ≤ x → x < s.descAddr e k + 64 → (s.writeDescs l).byte x = s.byte x := by
  induction l with
  | nil => exact fun _ _ _ => rfl
  | cons j l ih =>
    intro s hx hx'
    have hj : ctxOwner j = e := hl j List.mem_cons_self
    have hne : k ≠ j := fun h => hkl (h ▸ List.mem_cons_self)
    have hrest := ih (fun i hi => hl i (List.mem_cons_of_mem j hi)) (fun h => hkl (List.mem_cons_of_mem j h)) (s.writeDesc j)
      (by rwa [descAddr_writeDesc]) (by rwa [descAddr_writeDesc])
    refine hrest.trans ?_
    rw [writeDesc_eq he hj]
    refine storeWords_byte_other _ ?_
    have := descAddr_apart (s := s) he hk hj hne
    have hlen : (s.descWords j).length = 8 := rfl
    omega

theorem writeDescs_word {e k i : Nat} (he : e < 64) (hi : i < 8) (l : List Nat) (hl : ∀ j ∈ l, ctxOwner j = e) (hkl : k ∈ l) :
    ∀ s : State, (s.writeDescs l).word (s.descAddr e k + 8 * i) = ((s.descWords k)[i]?).getD 0 := by
  induction l with
  | nil => simp at hkl
  | cons j l ih =>
    intro s
    have hlater : ∀ i ∈ l, ctxOwner i = e := fun i hi => hl i (List.mem_cons_of_mem j hi)
    by_cases hmem : k ∈ l
    · have hrest := ih hlater hmem (s.writeDesc j)
      rwa [descAddr_writeDesc, (memOnly_writeDesc s j).descWords] at hrest
    · obtain rfl : k = j := (List.mem_cons.mp hkl).resolve_right hmem
      have hk : ctxOwner k = e := hl k List.mem_cons_self
      have hkeep : ((s.writeDesc k).writeDescs l).word (s.descAddr e k + 8 * i) = (s.writeDesc k).word (s.descAddr e k + 8 * i) :=
        word_congr fun x hx hx' => writeDescs_byte_other he hk l hlater hmem _ (by rw [descAddr_writeDesc]; omega) (by rw [descAddr_writeDesc]; omega)
      have hlen : i < (s.descWords k).length := hi
      rw [State.writeDescs, List.foldl_cons]
      refine hkeep.trans ?_
      rw [writeDesc_eq he hk, storeWords_word _ hlen, List.getElem?_eq_getElem hlen]
      rfl

theorem counterWriteback_runs {s : State} {e : Nat} (he : e < 64) : Runs (.ctxCounterWriteback e) s fun u => u.ctxs = s.ctxs ∧
    ∀ k ∈ s.ctxs.map (·.1), ctxOwner k = e → ∀ i, i < 8 → u.word (s.descAddr e k + 8 * i) = ((s.descWords k)[i]?).getD 0 := by
  refine runs_owner (.inl he) rfl (fun _ _ h => h) ?_
  have heq : s.counterWriteback e = s.writeDescs ((s.ownCtxs e).map (·.1)) := by
    rw [State.counterWriteback, State.writeDescs, List.foldl_map]
  have howner : ∀ j ∈ (s.ownCtxs e).map (·.1), ctxOwner j = e := by simp [State.ownCtxs]
  rw [heq]
  refine ⟨(memOnly_writeDescs _ s).ctxs, fun k hk hown i hi => writeDescs_word he hi _ howner ?_ s⟩
  obtain ⟨x, hx, rfl⟩ := List.mem_map.mp hk
  exact List.mem_map_of_mem (List.mem_filter.mpr ⟨hx, by simpa using hown⟩)

/-! Drain rounds. -/

theorem updNi_ni (s : State) (e : Nat) (f : Ni → Ni) : (s.updNi e f).ni e = f (s.ni e) := by simp [State.updNi]

/-- Messages sent one after another join the queue in their order. -/
theorem unitSends_ni {α : Type} (e : Nat) (m : α → Msg) (l : List α) : ∀ s : State,
    (l.foldl (fun s x => s.unitSend e (m x)) s).ni e = { s.ni e with outQ := (s.ni e).outQ ++ l.map m } := by
  induction l with
  | nil => exact fun s => by simp
  | cons x l ih =>
    intro s
    rw [List.foldl_cons, ih, State.unitSend, updNi_ni]
    simp

theorem unitSends_cm {α : Type} (e c : Nat) (m : α → Msg) (l : List α) (s : State) :
    (l.foldl (fun s x => s.unitSend e (m x)) s).cm c = s.cm c :=
  keep_foldl (P := fun t => t.cm c = s.cm c) (fun _ _ h => h) rfl

theorem drainReq_runs {s : State} {e src : Nat} {d : Drain} (he : e < 64 ∨ e = 69) (hsrc : src < 64) (hdrain : (s.cm e).drain = some d)
    (hreq : src ∈ d.toReq) (hsent : s.unsentOf src d.ctxs = false) :
    Runs (.drainReqArrival e src) s fun u => (u.cm e).drain = some { d with toReq := d.toReq.erase src } ∧
      (u.ni src).drains = (s.ni src).drains ++ [(e, d.ctxs)] ∧ (u.ni src).outQ = (s.ni src).outQ ++ d.dests.map (fun x => drainMsg x d.number) ∧
      ∀ x ∈ (u.ni src).parked, x ∈ (s.ni src).parked ∧ (x.pkt.opc = .token → x.pkt.toModule = true → tKey x.pkt.token.tag ∉ d.ctxs) := by
  refine runs_owner he rfl (fun _ _ h => h) ?_
  simp only [State.drainReq, hdrain, List.contains_iff_mem.mpr hreq, hsent, Bool.not_true, Bool.false_eq_true, or_self, if_false,
    if_neg (show ¬ 256 ≤ src by omega), if_neg (show ¬ src = 66 by omega), State.drainDiscard]
  rw [unitSends_cm, unitSends_ni, updNi_ni, updNi_ni]
  refine ⟨?_, rfl, rfl, fun x hx => ?_⟩
  · change ((s.updCm e fun m => { m with drain := some { d with toReq := d.toReq.erase src } }).cm e).drain = _
    rw [updCm_cm]
  · obtain ⟨hparked, hkept⟩ := List.mem_filter.mp hx
    refine ⟨hparked, fun hopc hmodule hctx => ?_⟩
    simp [hopc, hmodule, hctx] at hkept

theorem orphanFree_reqs (s : State) (e : Nat) (t : Token) : (s.orphanFree e t).reqs = s.reqs := (gateMoves_orphanFree s e t).reqs

theorem filterInbox_reqs (s : State) (e : Nat) (l : List Nat) : (s.filterInbox e l).reqs = s.reqs := by
  refine keep_foldl (P := fun t => t.reqs = s.reqs) (fun t n ht => ?_) rfl
  exact keep_foldl (P := fun t => t.reqs = s.reqs) (fun u x hu => (orphanFree_reqs ..).trans ((quiet_bumpPe ..).reqs.trans hu)) ht

theorem drainMark_runs {s : State} {e o : Nat} {d : Drain} {p : Packet} {r : List Packet} (he : e < 64 ∨ e = 69) (hreq : s.reqAt e = p :: r)
    (hopc : p.opc = .drainMark) (howner : s.roundOwner (p.spec % 65536) = some o) (hdrain : (s.cm o).drain = some d) :
    Runs (.drainMarkArrival e) s fun u => u.reqAt e = r ∧
      ∃ x, (u.cm o).drain = some x ∧ (p.src, e) ∈ x.seen ∧ (∀ y ∈ d.seen, y ∈ x.seen) ∧ x.ctxs = d.ctxs ∧ x.toReq = d.toReq := by
  refine runs_owner he rfl (fun _ _ h => h) ?_
  have hround : (s.setReqs e r).roundOwner (p.spec % 65536) = some o := howner
  simp only [State.drainMark, takeReq_head (f := fun p => p.opc == .drainMark) hreq (by simp [hopc]), hround, State.cm_setReqs_of, hdrain]
  refine ⟨?_, { d with seen := if d.seen.contains (p.src, e) then d.seen else d.seen ++ [(p.src, e)] }, by rw [updCm_cm], ?_, fun y hy => ?_, rfl, rfl⟩
  · have hreqs := (gateMoves_pressureCheck ((s.setReqs e r).filterInbox e d.ctxs)).reqs.trans (filterInbox_reqs ..)
    change Tbl.get [] ((s.setReqs e r).filterInbox e d.ctxs).pressureCheck.reqs e = r
    rw [hreqs]
    exact (State.reqAt_setReqs s e e r).trans (if_pos rfl)
  · dsimp only
    split
    · next h => exact List.contains_iff_mem.mp h
    · simp
  · dsimp only
    split
    · exact hy
    · exact List.mem_append_left _ hy

/-- Contexts freed one after another are free. -/
theorem freeCtxs_ctx {k : Nat} (l : List Nat) : ∀ s : State, k ∈ l ∨ s.ctx k = Ctx.init →
    (l.foldl (fun s k => (s.setCtx k Ctx.init).writeDesc k) s).ctx k = Ctx.init := by
  induction l with
  | nil => exact fun s h => h.resolve_left (by simp)
  | cons j l ih =>
    intro s h
    rw [List.foldl_cons]
    refine ih _ ?_
    rw [(memOnly_writeDesc ..).ctx, State.ctx_setCtx]
    by_cases hj : k = j
    · exact .inr (if_pos hj)
    · rw [if_neg hj]
      exact h.imp_left fun hmem => (List.mem_cons.mp hmem).resolve_left hj

theorem beginDrain_ctxs (s : State) (e : Nat) : (s.beginDrain e).ctxs = s.ctxs := by
  unfold State.beginDrain
  exact keep_ite (P := fun t : State => t.ctxs = s.ctxs) rfl rfl

theorem respond_ctxs (s : State) (q : McAsk) (st : Nat) (pl : List Byte) : (s.respond q st pl).ctxs = s.ctxs := by
  unfold State.respond
  exact keep_ite (P := fun t : State => t.ctxs = s.ctxs) rfl rfl

theorem graphStopDone_ctxs (s : State) : s.graphStopDone.ctxs = s.ctxs := by
  unfold State.graphStopDone
  cases s.mc.graph with
  | none => rfl
  | some g =>
    simp only
    split
    · refine ((quiet_logFree ..).ctxs.trans (respond_ctxs ..)).trans ?_
      exact keep_foldl (P := fun t => t.ctxs = s.ctxs) (fun _ _ h => h) rfl
    · rfl

theorem drainDone_runs {s : State} {e : Nat} {d : Drain} (he : e < 64 ∨ e = 69) (hdrain : (s.cm e).drain = some d) (hall : d.complete = true) :
    Runs (.drainDoneArrival e) s fun u => ∀ k ∈ d.ctxs, u.ctx k = Ctx.init := by
  refine runs_owner he rfl (fun _ _ h => h) fun k hk => ?_
  rw [State.ctx, graphStopDone_ctxs]
  simp only [State.drainDone, hdrain, hall, Bool.not_true, Bool.false_eq_true, if_false, beginDrain_ctxs]
  exact freeCtxs_ctx _ _ (.inl hk)

/-! Stall examination and victims. -/

section

variable {s : State} {e k : Nat} {c : Ctx}

theorem ctx_of_single (hctxs : s.ctxs = [(k, c)]) : s.ctx k = c := by simp [State.ctx, hctxs, Tbl.get]

theorem ctx_other_of_single {j : Nat} (hctxs : s.ctxs = [(k, c)]) (hj : j ≠ k) : s.ctx j = Ctx.init := by simp [State.ctx, hctxs, Tbl.get, hj]

/-- Noting a full counter of a context changes its note alone, and records an event. -/
theorem noteSat_spec (s : State) (k : Nat) : (∃ b, (s.noteSat k).ctx k = { s.ctx k with satNoted := b }) ∧
    (s.noteSat k).nis = s.nis ∧ ∀ e, (s.noteSat k).cm e = s.cm e := by
  unfold State.noteSat
  simp only
  split
  · exact ⟨⟨_, rfl⟩, rfl, fun _ => rfl⟩
  · have hquiet := quiet_log (s.setCtx k { s.ctx k with satNoted := true }) (ctxOwner k) .statSat .info (BitVec.ofNat 64 (ctxId k)) none none false
    exact ⟨⟨true, by rw [hquiet.ctx]; simp⟩, hquiet.nis, fun e => hquiet.cm e⟩

theorem stallExam_single (hctxs : s.ctxs = [(k, c)]) (howner : ctxOwner k = e) : s.stallExam e = s.examine e k := by
  simp [State.stallExam, State.ownCtxs, hctxs, howner]

/-- What an examination leaves of a LIVE context k that has tokens waiting and has not fired, before a stall is reported. -/
def State.stalled (s : State) (k run : Nat) : State :=
  (s.setCtx k { s.ctx k with fired := false, stallRun := run, stallTime := min ((s.ctx k).stallTime + 100) (2 ^ 48 - 1) }).noteSat k

theorem examine_waits (hctx : s.ctx k = c) (hlive : c.state = .live) (hfired : c.fired = false) (hwait : s.waiting k ≠ 0)
    (hlimit : c.stallLimit ≠ 0) (he : e < 64) : s.examine e k =
      if c.stallLimit ≤ c.stallRun + 100 then
        let r := (s.stalled k 0).snapshot e k
        r.2.deliverTo k e none (r.2.ctxTag k) true .ctxStall 0 r.1
      else s.stalled k (c.stallRun + 100) := by
  simp only [State.examine, State.stalled, hctx, hlive, hlimit, hfired, hwait, he, ne_eq, not_true_eq_false, not_false_eq_true, or_self, if_false,
    Bool.false_eq_true, if_true]
  split <;> rfl

theorem stalled_ctx (run : Nat) : (∃ b, (s.stalled k run).ctx k =
    { s.ctx k with fired := false, stallRun := run, stallTime := min ((s.ctx k).stallTime + 100) (2 ^ 48 - 1), satNoted := b }) := by
  obtain ⟨⟨b, hb⟩, -, -⟩ := noteSat_spec
    (s.setCtx k { s.ctx k with fired := false, stallRun := run, stallTime := min ((s.ctx k).stallTime + 100) (2 ^ 48 - 1) }) k
  exact ⟨b, by rw [State.stalled, hb]; simp⟩

theorem stallExam_runs (hctxs : s.ctxs = [(k, c)]) (he : e < 64) (howner : ctxOwner k = e) (hlive : c.state = .live) (hfired : c.fired = false)
    (hwait : s.waiting k ≠ 0) (hlimit : c.stallRun + 100 < c.stallLimit) :
    Runs (.stallExamination e) s fun u => (u.ctx k).stallRun = c.stallRun + 100 ∧
      (u.ctx k).stallTime = min (c.stallTime + 100) (2 ^ 48 - 1) ∧ u.nis = s.nis := by
  refine runs_owner (.inl he) rfl (fun _ _ h => h) ?_
  have hctx := ctx_of_single hctxs
  rw [stallExam_single hctxs howner, examine_waits hctx hlive hfired hwait (by omega) he, if_neg (by omega)]
  obtain ⟨b, hb⟩ := stalled_ctx (s := s) (k := k) (c.stallRun + 100)
  rw [hb, hctx]
  exact ⟨rfl, rfl, (noteSat_spec _ k).2.1⟩

/-- A snapshot is written to memory, and the next slot is up. -/
theorem snapshot_spec (s : State) (e k : Nat) : ∃ t, MemOnly s t ∧ (s.snapshot e k).2 =
    t.updCm e (fun m => { m with snapIdx := (m.snapIdx + 1) % 16, snapSeq := (m.snapSeq + 1) % 2 ^ 32 }) :=
  ⟨_, memOnly_storeWords .., rfl⟩

/-- A fault with a handler that can be told goes out as one FAULT token. -/
theorem deliverTo_handled {pe : Nat} {ftag : Word} {unit : Bool} {fc : FaultCode} {off detail : Nat} (h : s.handled k) :
    ∃ m, s.deliverTo k pe none ftag unit fc off detail = s.unitSend pe m ∧ m.fault = true ∧ m.opc = .token ∧ m.dest = peEndpoint (s.ctx k).hpe := by
  obtain ⟨hhandler, hused⟩ := h
  simp only [State.deliverTo, hhandler, hused, ne_eq, not_false_eq_true, and_self, if_true]
  exact ⟨_, rfl, rfl, rfl, rfl⟩

/-- The snapshot of a stalled context: its counters stand as the examination leaves them, the queues of the interfaces and the other fields of the
context manager as before. -/
theorem snapshot_stalled (s : State) (e k : Nat) : let t := ((s.stalled k 0).snapshot e k).2
    (∃ b, t.ctx k = { s.ctx k with fired := false, stallRun := 0, stallTime := min ((s.ctx k).stallTime + 100) (2 ^ 48 - 1), satNoted := b }) ∧
      (t.ni e).outQ = (s.ni e).outQ ∧ (t.cm e).snapIdx = ((s.cm e).snapIdx + 1) % 16 := by
  obtain ⟨-, hnis, hcm⟩ := noteSat_spec
    (s.setCtx k { s.ctx k with fired := false, stallRun := 0, stallTime := min ((s.ctx k).stallTime + 100) (2 ^ 48 - 1) }) k
  obtain ⟨t, ht, hsnap⟩ := snapshot_spec (s.stalled k 0) e k
  rw [hsnap]
  refine ⟨?_, ?_, ?_⟩
  · exact (stalled_ctx (s := s) (k := k) 0).imp fun _ h => (ht.ctx k).trans h
  · change (Tbl.get Ni.init t.nis e).outQ = (Tbl.get Ni.init s.nis e).outQ
    rw [ht.nis]
    exact congrArg (fun l => (Tbl.get Ni.init l e).outQ) hnis
  · rw [updCm_cm, ht.cm]
    exact congrArg (fun m : Cm => (m.snapIdx + 1) % 16) (hcm e)

theorem stallExam_faults (hctxs : s.ctxs = [(k, c)]) (he : e < 64) (howner : ctxOwner k = e) (hlive : c.state = .live) (hfired : c.fired = false)
    (hwait : s.waiting k ≠ 0) (hlimit : c.stallLimit ≤ c.stallRun + 100) (hset : c.stallLimit ≠ 0) (hhandler : c.hv = true) :
    Runs (.stallExamination e) s fun u => (u.ctx k).stallRun = 0 ∧ FaultSent s u e k ∧ (u.cm e).snapIdx = ((s.cm e).snapIdx + 1) % 16 := by
  refine runs_owner (.inl he) rfl (fun _ _ h => h) ?_
  have hctx := ctx_of_single hctxs
  obtain ⟨⟨b, hb⟩, hout, hidx⟩ := snapshot_stalled s e k
  rw [stallExam_single hctxs howner, examine_waits hctx hlive hfired hwait hset he, if_pos hlimit]
  dsimp only
  generalize ((s.stalled k 0).snapshot e k).1 = detail
  generalize ((s.stalled k 0).snapshot e k).2 = t at hb hout hidx ⊢
  obtain ⟨m, hm, hfault, hopc, hdest⟩ := deliverTo_handled (s := t) (k := k) (pe := e) (ftag := t.ctxTag k) (unit := true) (fc := .ctxStall)
    (off := 0) (detail := detail) (by rw [State.handled, hb, hctx]; exact ⟨hhandler, by simp [hlive]⟩)
  rw [hm]
  exact ⟨show (t.ctx k).stallRun = 0 by rw [hb], ⟨m, by rw [unitSend_outQ, hout], hfault, hopc, by rw [hdest, hb]⟩, hidx⟩

theorem victimBefore_irrefl (policy a : Nat) : s.victimBefore policy a a = false := by
  simp [State.victimBefore]

/-- The kill of a LIVE context that is no root context commits. -/
theorem startKill_live {reply : Option Packet} (hlive : (s.ctx k).state = .live) (hroot : isRoot k = false) :
    s.startKill k reply = ((s.setCtx k { s.ctx k with state := .killing }).writeDesc k).updCm (ctxOwner k)
      (fun m => { m with kills := m.kills ++ [⟨k, killUnits, [], reply⟩] }) := by
  simp [State.startKill, hlive, hroot]

/-- With one context that may be a victim, the victim is that one. -/
theorem victim_single (hctxs : s.ctxs = [(k, c)]) (hk : k < 2 ^ 20) (hroot : isRoot k = false) (hlive : c.state = .live)
    (hpressure : s.pressure = true) (hpolicy : s.rfld aPressCfg 1 0 ≠ 3) :
    s.victim =
      let t := (s.log 66 .ctxVictim .fatalContext (BitVec.ofNat 64 k) none (some k)).startKill k none
      let o := (t.ctx k).creator
      if (t.ctx o).state = .live ∧ (t.ctx o).hv then t.deliverTo o 66 none (t.ctxTag o) true .ctxKilled 0 k else t := by
  have hcands : (s.ctxs.filter fun x => decide (x.1 < 2 ^ 20) && !isRoot x.1 && x.2.state == .live).map (·.1) = [k] := by
    rw [hctxs, List.filter_cons_of_pos (by simp only [hroot, hlive, decide_eq_true hk]; rfl)]
    rfl
  have hbest : [k].filter (fun a => [k].all (fun b => !s.victimBefore (s.rfld aPressCfg 1 0) b a)) = [k] := by simp [victimBefore_irrefl]
  have hone : s.freeOf [k] = (some k, s) := rfl
  simp only [State.victim, hpressure, hpolicy, hcands, hbest, hone, Bool.not_true, Bool.false_eq_true, or_self, if_false]

theorem victim_runs (hctxs : s.ctxs = [(k, c)]) (hk : k < 2 ^ 20) (hroot : isRoot k = false) (hlive : c.state = .live) (hpressure : s.pressure = true)
    (hpolicy : s.rfld aPressCfg 1 0 ≠ 3) :
    Runs .ctxVictim s fun u => (u.ctx k).state = .killing ∧ Logged u 66 .ctxVictim .fatalContext (BitVec.ofNat 64 k) := by
  refine runs_module rfl (fun _ _ h => h) ?_
  have hctx := ctx_of_single hctxs
  have hlogged := logged_log s 66 .ctxVictim .fatalContext (BitVec.ofNat 64 k) none (some k) false
  have hquiet := quiet_log s 66 .ctxVictim .fatalContext (BitVec.ofNat 64 k) none (some k) false
  rw [victim_single hctxs hk hroot hlive hpressure hpolicy, startKill_live (by rw [hquiet.ctx, hctx]; exact hlive) hroot]
  generalize s.log 66 .ctxVictim .fatalContext (BitVec.ofNat 64 k) none (some k) = t at hlogged hquiet ⊢
  have hdesc := memOnly_writeDesc (t.setCtx k { t.ctx k with state := .killing }) k
  generalize (t.setCtx k { t.ctx k with state := .killing }).writeDesc k = u at hdesc ⊢
  have hctxs' : ∀ j, (u.ctx j) = if j = k then { t.ctx k with state := .killing } else t.ctx j := fun j => by rw [hdesc.ctx, State.ctx_setCtx]
  have hnone : ∀ j, (u.ctx j).state ≠ .live := fun j => by
    rw [hctxs']
    split
    · simp
    · next hj =>
      rw [hquiet.ctx, ctx_other_of_single hctxs hj]
      decide
  dsimp only
  rw [if_neg fun h => hnone _ h.1]
  refine ⟨?_, hlogged.mono fun j x hx => ?_⟩
  · change (u.ctx k).state = .killing
    rw [hctxs', if_pos rfl]
  · change x ∈ Tbl.get [] u.coll j
    rwa [hdesc.coll]

end

/-! The readout of a context's counters. -/

/-- VALID and LID of a readout: the index is read back, and the bit above it. -/
theorem ctxqSel_word (b : Bool) {i : Nat} (hi : i < 16384) : fld (BitVec.ofNat 64 (put 63 63 b.toNat + put 13 0 i)) 13 0 = i ∧
    bitAt (BitVec.ofNat 64 (put 63 63 b.toNat + put 13 0 i)) 63 = b := by
  have hlow : put 13 0 i = i := by simp [put]; omega
  have hhigh : put 63 63 b.toNat = b.toNat * 2 ^ 63 := by cases b <;> rfl
  rw [hlow, hhigh, bitAt_ofNat, Nat.testBit_eq_decide_div_mod_eq, fld, BitVec.toNat_ofNat, Nat.shiftRight_zero]
  cases b <;> simp <;> omega

/-- The three counters of a readout, as registers hold them. -/
def State.setCounters (s : State) (c x y z : Nat) : State :=
  ((s.setRfld (aCtxqVal c 0) 47 0 x).setRfld (aCtxqVal c 1) 47 0 y).setRfld (aCtxqVal c 2) 47 0 z

theorem rfld_setRfld_ne {s : State} {a b hi lo hi' lo' v : Nat} (h : b ≠ a) : (s.setRfld a hi lo v).rfld b hi' lo' = s.rfld b hi' lo' := by
  rw [State.rfld, setRfld_reg_other h]; rfl

theorem setCounters_spec (s : State) {c x y z : Nat} (hx : x < 2 ^ 48) (hz : z < 2 ^ 48) : let t := s.setCounters c x y z
    t.reg (aCtxqSel c) = s.reg (aCtxqSel c) ∧ t.ctxs = s.ctxs ∧ t.rfld (aCtxqVal c 0) 47 0 = x ∧ t.rfld (aCtxqVal c 2) 47 0 = z := by
  have hsel : ∀ j, aCtxqSel c ≠ aCtxqVal c j := fun j => by unfold aCtxqSel aCtxqVal; omega
  have hapart : ∀ j k, j ≠ k → aCtxqVal c j ≠ aCtxqVal c k := fun j k _ => by unfold aCtxqVal; omega
  intro t
  refine ⟨?_, ?_, ?_, ?_⟩
  · rw [show t = s.setCounters c x y z from rfl, State.setCounters, setRfld_reg_other (hsel 2), setRfld_reg_other (hsel 1), setRfld_reg_other (hsel 0)]
  · simp [t, State.setCounters, State.setRfld]
  · rw [show t = s.setCounters c x y z from rfl, State.setCounters, rfld_setRfld_ne (hapart 0 2 (by decide)), rfld_setRfld_ne (hapart 0 1 (by decide)),
      rfld_setRfld_same (by decide) (by decide), Nat.mod_eq_of_lt hx]
  · rw [show t = s.setCounters c x y z from rfl, State.setCounters, rfld_setRfld_same (by decide) (by decide), Nat.mod_eq_of_lt hz]

theorem ctxqSel_eq (s : State) {c i : Nat} (hc : c < 64) (hi : i < 16384) : let x := s.ctx (c * 16384 + i)
    let t := s.setReg (aCtxqSel c) (BitVec.ofNat 64 (put 63 63 (decide (x.state ≠ .free)).toNat + put 13 0 i))
    s.ctxqSel c i = if x.state ≠ .free then
      t.setCounters c (min x.fires (2 ^ 48 - 1)) (t.waiting (c * 16384 + i)) (min x.stallTime (2 ^ 48 - 1)) else t := by
  have hkey : ownKey c (i % 16384) = c * 16384 + i := by rw [ownKey, if_neg (by omega), Nat.mod_eq_of_lt hi]
  simp only [State.ctxqSel, hkey, decide_eq_true_eq, State.setCounters]

theorem ctxqSel_runs {s : State} {c i : Nat} (hc : c < 64) (hi : i < 16384) :
    let x := s.ctx (c * 16384 + i)
    Runs (.cmCtxqSelWrite c i) s fun u => u.rfld (aCtxqSel c) 13 0 = i ∧ u.ctxs = s.ctxs ∧
      (bitAt (u.reg (aCtxqSel c)) 63 = true ↔ x.state ≠ .free) ∧
      (x.state ≠ .free → u.rfld (aCtxqVal c 0) 47 0 = min x.fires (2 ^ 48 - 1) ∧ u.rfld (aCtxqVal c 2) 47 0 = min x.stallTime (2 ^ 48 - 1)) := by
  intro x
  refine runs_unit hc rfl (fun _ _ h => h) ?_
  obtain ⟨hindex, hvalid⟩ := ctxqSel_word (decide (x.state ≠ .free)) hi
  rw [ctxqSel_eq s hc hi]
  generalize BitVec.ofNat 64 (put 63 63 (decide (x.state ≠ .free)).toNat + put 13 0 i) = w at hindex hvalid
  have hreg : (s.setReg (aCtxqSel c) w).reg (aCtxqSel c) = w := by simp
  split
  · next hused =>
    obtain ⟨hsel, hctxs, hfires, hstall⟩ := setCounters_spec (s.setReg (aCtxqSel c) w) (c := c) (y := (s.setReg (aCtxqSel c) w).waiting (c * 16384 + i))
      (show min x.fires (2 ^ 48 - 1) < 2 ^ 48 by omega) (show min x.stallTime (2 ^ 48 - 1) < 2 ^ 48 by omega)
    rw [State.rfld, hsel, hreg, hvalid]
    exact ⟨hindex, hctxs.trans (State.setReg_ctxs ..), by simp, fun _ => ⟨hfires, hstall⟩⟩
  · next hfree =>
    rw [State.rfld, hreg, hvalid]
    exact ⟨hindex, State.setReg_ctxs .., by simp, fun h => absurd h hfree⟩

/-- Settles O36: each clause by the lemma on its command. -/
theorem drainsAndStalls : Obligations.DrainsAndStalls := by
  unfold Obligations.DrainsAndStalls
  refine ⟨fun s e src d he hsrc hdrain hreq hsent => drainReq_runs he hsrc hdrain hreq hsent,
    fun s e o d p r he hreq hopc howner hdrain => drainMark_runs he hreq hopc howner hdrain,
    fun s e d he hdrain hall => drainDone_runs he hdrain hall, fun s e k c he hctxs howner hlive hfired hwait => ⟨fun hlimit => ?_, ?_⟩,
    fun s e he => counterWriteback_runs he,
    fun s k c hctxs hk hroot hlive hpressure hpolicy => victim_runs hctxs hk hroot hlive hpressure hpolicy, fun s c i hc hi => ctxqSel_runs hc hi⟩
  · exact stallExam_runs hctxs he howner hlive hfired hwait hlimit
  · exact fun hlimit hset hhandler => stallExam_faults hctxs he howner hlive hfired hwait hlimit hset hhandler

end Sys2Proof.Machine
end

/-! # O22: dispatch -/

section

namespace Sys2Proof.Machine

theorem bestReady_mem {l : List ReadyE} : ∀ {r : ReadyE}, bestReady l = some r → r ∈ l := by
  induction l with
  | nil => exact fun h => by simp [bestReady] at h
  | cons x l ih =>
    intro r h
    rw [bestReady] at h
    cases hl : bestReady l with
    | none =>
      simp only [hl, Option.some.injEq] at h
      exact h ▸ List.mem_cons_self
    | some q =>
      simp only [hl] at h
      split at h <;> obtain rfl := Option.some.inj h
      · exact List.mem_cons_of_mem x (ih hl)
      · exact List.mem_cons_self

/-- Refilling the ready list moves entries and loses none. -/
theorem refillReady_length (lim : Nat) : ∀ (fuel : Nat) (ready backlog : List ReadyE),
    (refillReady lim ready backlog fuel).1.length + (refillReady lim ready backlog fuel).2.length = ready.length + backlog.length := by
  intro fuel
  induction fuel with
  | zero => exact fun _ _ => rfl
  | succ fuel ih =>
    intro ready backlog
    rw [refillReady]
    split
    · cases hb : bestReady backlog with
      | none => rfl
      | some r =>
        have hmem := bestReady_mem hb
        have hpos : 0 < backlog.length := List.length_pos_of_mem hmem
        simp only [ih, List.length_append, List.length_singleton, List.length_erase_of_mem hmem]
        omega
    · rfl

/-- PE p with its best entry r taken off the ready list, which is filled up again. -/
def Pe.without (p : Pe) (r : ReadyE) : Pe := { { p with ready := p.ready.erase r, shadow := none }.refillTo 255 with act := p.act }

theorem without_length {p : Pe} {r : ReadyE} (hr : r ∈ p.ready) :
    (p.without r).ready.length + (p.without r).backlog.length + 1 = p.ready.length + p.backlog.length := by
  have hrefill := refillReady_length 255 p.backlog.length (p.ready.erase r) p.backlog
  have hpos : 0 < p.ready.length := List.length_pos_of_mem hr
  rw [List.length_erase_of_mem hr] at hrefill
  change (refillReady 255 (p.ready.erase r) p.backlog p.backlog.length).1.length +
    (refillReady 255 (p.ready.erase r) p.backlog p.backlog.length).2.length + 1 = _
  omega

/-- The state in which the entry chosen has left the ready list of PE n. -/
def State.chosen (s : State) (n : Nat) (r : ReadyE) : State :=
  let t := (s.setPe n ((s.pe n).without r)).noteDepth n
  if (s.pe n).backlog = [] then t else t.pressureCheck

theorem not_gateReg_secStatus : ¬ gateReg aSecStatus := by
  rintro (h | h | ⟨e, he, i, hi, h⟩)
  · exact absurd h (by decide)
  · exact absurd h (by decide)
  · unfold aSecStatus secBlock aCmStat clBlock regBase at h
    omega

theorem aSecStatus_ne_depth {n : Nat} (hn : n < 276) : aSecStatus ≠ aPeRqDepth (pairPe n) := by
  have hall : ∀ m < 276, aSecStatus ≠ aPeRqDepth m := by decide +kernel
  refine hall _ ?_
  unfold pairPe; split <;> [skip; split] <;> omega

/-- Taking an entry off the ready list leaves contexts, instruction memory, the bar to CAD and the rest of the PE as they are. -/
theorem chosen_spec {s : State} {n : Nat} (hn : n < 276) (r : ReadyE) : let t := s.chosen n r
    (∃ i o, t.pe n = { (s.pe n).without r with inbox := i, outQ := o }) ∧ (∀ k, (t.ctx k).cad = (s.ctx k).cad) ∧ t.imem = s.imem ∧
      t.cadBarred = s.cadBarred := by
  have hquiet := quiet_noteDepth (s.setPe n ((s.pe n).without r)) n
  have hreg : ((s.setPe n ((s.pe n).without r)).noteDepth n).reg aSecStatus = s.reg aSecStatus := setRfld_reg_other (aSecStatus_ne_depth hn)
  have hpe : ((s.setPe n ((s.pe n).without r)).noteDepth n).pe n = (s.pe n).without r := by rw [hquiet.pe]; simp
  have hbarred : ∀ t : State, t.reg aSecStatus = s.reg aSecStatus → t.cadBarred = s.cadBarred := fun t h => by
    rw [State.cadBarred, State.cadBarred, State.rfld, State.rfld, State.rfld, State.rfld, h]
  unfold State.chosen
  generalize (s.setPe n ((s.pe n).without r)).noteDepth n = t at hquiet hreg hpe ⊢
  dsimp only
  split
  · exact ⟨⟨_, _, hpe⟩, fun k => by rw [hquiet.ctx]; rfl, by rw [hquiet.imem]; rfl, hbarred t hreg⟩
  · have hmoves := gateMoves_pressureCheck t
    refine ⟨⟨_, _, by rw [hmoves.pe, hpe]⟩, fun k => ?_, ?_, hbarred _ ((hmoves.reg _ not_gateReg_secStatus).trans hreg)⟩
    · rw [hmoves.ctx, hquiet.ctx]; rfl
    · rw [hmoves.imem, hquiet.imem]; rfl

theorem dispatch_one {s : State} {n : Nat} {r : ReadyE} {t : Token} (hact : (s.pe n).act = none) (hhalt : (s.pe n).halt = .run)
    (hmay : s.mayDispatch n = true) (hbest : bestReady (s.pe n).ready = some r) (hsrc : r.src = .one t) :
    s.dispatch n = (s.chosen n r).dispatchNew n r [(0, t)] := by
  simp only [State.dispatch, State.chosen, Pe.without, hact, hhalt, hmay, hbest, hsrc, Option.isSome_none, Bool.false_eq_true, ne_eq,
    not_true_eq_false, Bool.not_true, or_self, if_false]

/-- A good block is dispatched. -/
theorem dispatchNew_pe {s : State} {n : Nat} {r : ReadyE} {t : Token} (hword : (s.pe n).imemBad.contains (blockAddr n r.key) = false)
    (hhead : headerOk n (blockAddr n r.key) (s.imemAt n (blockAddr n r.key)) = true) (hbar : s.cadBarred = false) :
    let hdr := s.imemAt n (blockAddr n r.key)
    let cad := tCad t.tag || (s.ctx (tagCtxKey n (tCtx r.key))).cad || bitAt hdr 44
    ∃ handles, (s.dispatchNew n r [(0, t)]).pe n = { s.pe n with
      act := some (Act.fresh s.serial (setFld (setFld r.key 63 61 r.base) 60 60 cad.toNat) hdr r.stamp (blockAddr n r.key) [t] handles) } := by
  intro hdr cad
  refine ⟨([(0, t)].find? fun x => x.2.fault).map fun x => fld x.2.val 63 56, ?_⟩
  simp only [State.dispatchNew, hword, hhead, hbar, Bool.false_eq_true, Bool.not_true, if_false, and_false, List.any_cons, List.any_nil,
    Bool.or_false, List.map_cons, List.map_nil]
  change ((s.countDispatch n r.wait).setAct n _).pe n = _
  rw [State.setAct, updPe_pe, State.countDispatch, bumpPe_pe, bumpPe_pe]

theorem fresh_src (serial : Nat) (tag hdr : Word) (stamp base : Nat) (t : Token) (handles : Option Nat) :
    (∀ q, q < 16 → (Act.fresh serial tag hdr stamp base [t] handles).src q = 0) ∧
      (Act.fresh serial tag hdr stamp base [t] handles).src 16 = lo64 t.val := by
  refine ⟨fun q hq => ?_, rfl⟩
  simp [Act.src, hq, Act.fresh]

/-- Settles O22: the entry chosen leaves the ready list, and what may run between keeps all that the new activation is made of. -/
theorem dispatch : Obligations.Dispatch := by
  unfold Obligations.Dispatch
  intro s n r t hn hact hhalt hmay hbest hsrc hword hhead hbar
  refine runs_unit hn rfl (fun _ _ h => h) ?_
  obtain ⟨⟨i, o, hpe⟩, hcad, himem, hbarred⟩ := chosen_spec (s := s) hn r
  rw [dispatch_one hact hhalt hmay hbest hsrc]
  generalize s.chosen n r = u at hpe hcad himem hbarred ⊢
  have hat : u.imemAt n (blockAddr n r.key) = s.imemAt n (blockAddr n r.key) := by rw [State.imemAt, himem]; rfl
  obtain ⟨handles, hnew⟩ := dispatchNew_pe (s := u) (n := n) (r := r) (t := t) (by rw [hpe]; exact hword) (by rw [hat]; exact hhead)
    (hbarred.trans hbar)
  rw [State.act, hnew, hat, hcad, hpe]
  obtain ⟨hregs, hin⟩ := fresh_src u.serial (setFld (setFld r.key 63 61 r.base) 60 60
    (tCad t.tag || (s.ctx (tagCtxKey n (tCtx r.key))).cad || bitAt (s.imemAt n (blockAddr n r.key)) 44).toNat) (s.imemAt n (blockAddr n r.key))
    r.stamp (blockAddr n r.key) t handles
  exact ⟨_, rfl, rfl, rfl, rfl, rfl, rfl, rfl, hregs, hin, rfl, rfl, rfl, without_length (bestReady_mem hbest)⟩

end Sys2Proof.Machine
end

/-! # O21: the matching stage -/

section

namespace Sys2Proof.Machine

/-! Space in the deep store while a token is matched. -/

/-- Token pressure does not end here: there is none, or a region lacks the free space. -/
def State.Held (s : State) : Prop :=
  s.pressure = false ∨ ¬ (s.matchChunks ≤ 32 * (s.matchChunks - s.matchUsed) ∧ s.auxChunks ≤ 32 * (s.auxChunks - s.auxUsed))

/-- t has the pressure and the quota of s, and its buckets take no less. -/
structure NoLess (s t : State) : Prop where
  pressure : t.reg aPressStatus = s.reg aPressStatus
  quota : t.reg aQuota = s.reg aQuota
  matching : s.matchUsed ≤ t.matchUsed
  aux : s.auxUsed ≤ t.auxUsed

theorem State.Held.mono {s t : State} (h : s.Held) (hless : NoLess s t) : t.Held := by
  have hm : t.matchChunks = s.matchChunks := by rw [State.matchChunks, State.rfld, hless.quota]; rfl
  have ha : t.auxChunks = s.auxChunks := by rw [State.auxChunks, State.rfld, hless.quota]; rfl
  have hmatch := hless.matching
  have haux := hless.aux
  refine h.imp (fun hp => ?_) fun hspace hend => hspace ?_
  · rw [State.pressure, hless.pressure]; exact hp
  · rw [hm, ha] at hend
    exact ⟨hend.1.trans (by omega), hend.2.trans (by omega)⟩

theorem NoLess.trans {s t u : State} (h : NoLess s t) (g : NoLess t u) : NoLess s u :=
  ⟨g.pressure.trans h.pressure, g.quota.trans h.quota, h.matching.trans g.matching, h.aux.trans g.aux⟩

/-- Buckets of states that agree on contexts' managers, interfaces, parked packets and PEs take the same. -/
theorem Quiet.used {s t : State} (h : Quiet s t) : t.matchUsed = s.matchUsed ∧ t.auxUsed = s.auxUsed := by
  rw [h.rest]; exact ⟨rfl, rfl⟩

theorem Quiet.noLess {s t : State} (h : Quiet s t) (hpressure : t.reg aPressStatus = s.reg aPressStatus) (hquota : t.reg aQuota = s.reg aQuota) :
    NoLess s t := ⟨hpressure, hquota, h.used.1.ge, h.used.2.ge⟩

theorem held_pressureCheck {s : State} (h : s.Held) : Quiet s s.pressureCheck ∧ s.pressureCheck.Held := by
  have hset := (quiet_setRfld s aPressStatus 0 0 1).trans (quiet_logFree (s.setRfld aPressStatus 0 0 1) 66 .tokenPressure .deferred none none)
  unfold State.pressureCheck
  simp only
  split
  · next hp =>
    rw [if_neg (h.resolve_left (by simp [hp]))]
    exact ⟨.refl s, h⟩
  · split
    · next hlow =>
      refine ⟨hset, .inr ?_⟩
      have hquota : ((s.setRfld aPressStatus 0 0 1).logFree 66 .tokenPressure .deferred).reg aQuota = s.reg aQuota :=
        (logFree_reg ..).trans (setRfld_reg_other (by decide))
      have hm : ((s.setRfld aPressStatus 0 0 1).logFree 66 .tokenPressure .deferred).matchChunks = s.matchChunks := by
        rw [State.matchChunks, State.rfld, hquota]; rfl
      have ha : ((s.setRfld aPressStatus 0 0 1).logFree 66 .tokenPressure .deferred).auxChunks = s.auxChunks := by
        rw [State.auxChunks, State.rfld, hquota]; rfl
      rw [hm, ha, hset.used.1, hset.used.2]
      omega
    · exact ⟨.refl s, h⟩

theorem foldl_le_foldl {α : Type} {f g : Nat → α → Nat} (hfg : ∀ a b x, a ≤ b → f a x ≤ g b x) (l : List α) : ∀ {a b : Nat}, a ≤ b →
    l.foldl f a ≤ l.foldl g b := by
  induction l with
  | nil => exact id
  | cons x l ih => exact fun hab => ih (hfg _ _ x hab)

/-- A PE whose backlog grows, with its records, outbound backlog and saved accumulators as before, frees no space. -/
theorem noLess_setPe {s : State} {n : Nat} {p : Pe} (hrecs : p.recs = (s.pe n).recs) (hback : p.outBack = (s.pe n).outBack)
    (hsaved : p.laccSaved = (s.pe n).laccSaved) (hgrow : (s.pe n).backlog.length ≤ p.backlog.length) : NoLess s (s.setPe n p) := by
  have hpe : ∀ m, (s.setPe n p).pe m = s.pe m ∨ s.pe m = s.pe n ∧ (s.setPe n p).pe m = p := fun m => by
    by_cases h : pairPe m = pairPe n
    · exact .inr ⟨by unfold State.pe; rw [h], by simp [h]⟩
    · exact .inl (by simp [h])
  have hunits : ∀ c, (s.setPe n p).deepUnits c = s.deepUnits c := fun c => by
    have hone : ∀ m, ((s.setPe n p).pe m).unitsAt .deep = (s.pe m).unitsAt .deep := fun m => by
      rcases hpe m with h | ⟨hm, h⟩
      · rw [h]
      · rw [h, hm, Pe.unitsAt, Pe.unitsAt, hrecs]
    simp only [State.deepUnits, hone]
  have hbytes : ∀ c k, s.auxBytes c k ≤ (s.setPe n p).auxBytes c k := fun c k => by
    cases k with
    | gate | bounce | spawn => exact Nat.le_refl _
    | pes =>
      refine foldl_le_foldl (fun a b m hab => ?_) _ (Nat.le_refl 0)
      rcases hpe m with h | ⟨hm, h⟩
      · rw [h]; omega
      · rw [h, hm, hback, hsaved]; omega
  refine ⟨rfl, rfl, ?_, ?_⟩
  · simp only [State.matchUsed, hunits]
    exact Nat.le_refl _
  · refine foldl_le_foldl (fun a b c hab => foldl_le_foldl (fun a b k hab => ?_) _ hab) _ (Nat.le_refl 0)
    have := hbytes c k
    unfold chunksFor
    omega

/-! One token. -/

theorem pairPe_lt {n : Nat} (h : n < 276) : pairPe n < 276 := by
  unfold pairPe; split <;> [skip; split] <;> omega

/-- Registers that the counts of a PE leave alone, whatever the PE. -/
def NoPeStat (r : Nat) : Prop := ∀ n < 276, isPeStat n r = false

theorem noPeStat_press : NoPeStat aPressStatus := by unfold NoPeStat; decide +kernel
theorem noPeStat_quota : NoPeStat aQuota := by unfold NoPeStat; decide +kernel
theorem noPeStat_msCfg {n : Nat} (hn : n < 276) : isPeStat n (aMsCfg (pairPe n)) = false := by
  have hall : ∀ m < 276, isPeStat m (aMsCfg (pairPe m)) = false := by decide +kernel
  exact hall n hn

theorem bumpPe_reg {n i r : Nat} (hn : n < 276) (hi : i < 16) (hr : NoPeStat r) (s : State) (k : Nat) : (s.bumpPe n i k).reg r = s.reg r :=
  (OnlyPe_bumpPe n hn s i k hi).reg r (hr n hn)

theorem bumpPe_noLess {n i : Nat} (hn : n < 276) (hi : i < 16) (s : State) (k : Nat) : NoLess s (s.bumpPe n i k) :=
  (quiet_bumpPe ..).noLess (bumpPe_reg hn hi noPeStat_press s k) (bumpPe_reg hn hi noPeStat_quota s k)

theorem noteDepth_noLess {n : Nat} (hn : n < 276) (s : State) : NoLess s (s.noteDepth n) := by
  have hall : ∀ m < 276, aPressStatus ≠ aPeRqDepth m ∧ aQuota ≠ aPeRqDepth m := by decide +kernel
  obtain ⟨hpress, hquota⟩ := hall _ (pairPe_lt hn)
  exact (quiet_noteDepth ..).noLess (setRfld_reg_other hpress) (setRfld_reg_other hquota)

/-- The state in which PE n has taken its first waiting token and one cycle has passed; r is what is left of the inbox. -/
def State.taken (s : State) (n : Nat) (r : List Token) : State := (s.setPe n { s.pe n with inbox := r }).tick n

theorem taken_spec {s : State} {n : Nat} (hn : n < 276) (r : List Token) :
    State.OnlyPe n s (s.taken n r) ∧ (s.taken n r).pe n = { s.pe n with inbox := r, clk := (s.pe n).clk + 1 } := by
  refine ⟨?_, ?_⟩
  · unfold State.taken State.tick
    exact (((OnlyPe_setPe ..).trans (OnlyPe_bumpPe n hn _ psCYCLES _ (by decide))).trans (OnlyPe_bumpPe n hn _ psRQAREA _ (by decide))).trans (OnlyPe_updPe ..)
  · rw [State.taken, State.tick, updPe_pe, bumpPe_pe, bumpPe_pe]
    simp

section

variable {s u : State} {n : Nat} {t : Token} {r : List Token}

/-- A token that is taken goes through the matching stage; its outcome stands where it found space. -/
theorem tokenMatch_eq (hpair : s.pairRuns n = true) (hlookups : (s.pe n).lookups = [])
    (hfilter : (s.pe n).killFilter = [] ∧ (s.pe n).killStage = []) (hinbox : (s.pe n).inbox = t :: r) :
    s.tokenMatch n = s.fitOr n ((s.taken n r).matchTok n t false) := by
  have hkilled : ∀ k, (s.pe n).killed k = false := fun k => by simp [Pe.killed, hfilter]
  have hidle : ∀ x, (s.pe n).setBusy x = false := fun x => by simp [Pe.setBusy, hlookups]
  have hnone : (s.pe n).lookups.find? (fun l => !l.asked && !(s.pe n).setBusy l.set) = none := by rw [hlookups]; rfl
  have hroom : ¬ 32 ≤ (s.pe n).lookups.length := by rw [hlookups]; decide
  simp only [State.tokenMatch, hpair, Bool.not_true, Bool.false_eq_true, if_false, hnone, hroom]
  simp only [hinbox, hkilled, hidle, Bool.false_eq_true, if_false, State.taken]

/-- What found space is kept. -/
theorem fitOr_some (hfits : (u.pe n).backlog.length ≤ (s.pe n).backlog.length ∨ s.auxRoom (peEndpoint n) .pes 64 = true) :
    s.fitOr n (some u) = u.pressureCheck := by
  have hbacklog : s.backlogFits u n = true := by simpa [State.backlogFits] using hfits
  simp [State.fitOr, hbacklog]

/-- A token that meets no filter, at a good header with a port for it, enables its activation when the block has one input and is placed with
the others otherwise. -/
theorem matchTok_good (hkilled : ∀ k, (u.pe n).killed k = false) (hword : (u.pe n).imemBad.contains (blockAddr n t.tag) = false)
    (hbase : blockAddr n t.tag < imemWords n) (hhead : opOf (u.imemAt n (blockAddr n t.tag)) = 0x10)
    (hport : tPort t.tag ≤ fld (u.imemAt n (blockAddr n t.tag)) 47 46)
    (hfault : t.fault = true → fld (u.imemAt n (blockAddr n t.tag)) 47 46 = 0) :
    u.matchTok n t false =
      if fld (u.imemAt n (blockAddr n t.tag)) 47 46 + 1 = 1 then
        some (if tPoison t.tag then (u.bumpPe n psMATCH).poisonedAct n [(0, t)]
          else (u.bumpPe n psMATCH).enable n [(0, t)] (matchKey t.tag) (.one t))
      else (u.bumpPe n psMATCH).placeTok n t (fld (u.imemAt n (blockAddr n t.tag)) 47 46 + 1) false := by
  have hlost : ¬ (t.fault = true ∧ fld (u.imemAt n (blockAddr n t.tag)) 47 46 + 1 ≠ 1) := fun h => h.2 (by rw [hfault h.1])
  simp only [State.matchTok, hkilled, hword, Bool.false_eq_true, if_false, hhead, ne_eq, not_true_eq_false, or_false,
    if_neg (Nat.not_le.mpr hbase), if_neg (show ¬ fld (u.imemAt n (blockAddr n t.tag)) 47 46 + 1 ≤ tPort t.tag by omega)]
  rw [if_neg hlost]

/-- The state in which a token taken is placed. -/
def State.placing (s : State) (n : Nat) (r : List Token) : State := (s.taken n r).bumpPe n psMATCH

theorem placing_spec (hn : n < 276) (s : State) (r : List Token) :
    State.OnlyPe n s (s.placing n r) ∧ (s.placing n r).pe n = { s.pe n with inbox := r, clk := (s.pe n).clk + 1 } := by
  obtain ⟨honly, hpe⟩ := taken_spec (s := s) hn r
  exact ⟨honly.trans (OnlyPe_bumpPe n hn _ psMATCH _ (by decide)), by rw [State.placing, bumpPe_pe, hpe]⟩

/-- With a token that can be matched at the head of the inbox, the command is its placing, if the outcome found space. -/
theorem tokenMatch_good (h : s.CanMatch n t) (hinbox : (s.pe n).inbox = t :: r) :
    s.tokenMatch n = s.fitOr n (
      if fld (s.imemAt n (blockAddr n t.tag)) 47 46 + 1 = 1 then
        some (if tPoison t.tag then (s.placing n r).poisonedAct n [(0, t)] else (s.placing n r).enable n [(0, t)] (matchKey t.tag) (.one t))
      else (s.placing n r).placeTok n t (fld (s.imemAt n (blockAddr n t.tag)) 47 46 + 1) false) := by
  obtain ⟨honly, hpe⟩ := taken_spec (s := s) h.pe r
  have hat : (s.taken n r).imemAt n (blockAddr n t.tag) = s.imemAt n (blockAddr n t.tag) := by rw [honly.rest]; rfl
  have hkilled : ∀ k, ((s.taken n r).pe n).killed k = false := fun k => by rw [hpe]; simp [Pe.killed, h.filter]
  rw [tokenMatch_eq h.pair h.lookups h.filter hinbox,
    matchTok_good hkilled (by rw [hpe]; exact h.word) h.base (by rw [hat]; exact h.head) (by rw [hat]; exact h.port) (by rw [hat]; exact h.fault), hat]
  rfl

/-! The only input of its block. -/

/-- The state in which the activation of context k has been counted as fired. -/
def State.fired (s : State) (n k : Nat) : State :=
  ((s.updCtx k (fun c => { c with fires := min (c.fires + 1) (2 ^ 48 - 1), fired := true })).noteSat k).bumpPe n psFIRE

theorem noteSat_noLess (s : State) (k : Nat) : NoLess s (s.noteSat k) := by
  unfold State.noteSat
  simp only
  split
  · exact ⟨rfl, rfl, Nat.le_refl _, Nat.le_refl _⟩
  · exact NoLess.trans (t := s.setCtx k { s.ctx k with satNoted := true }) ⟨rfl, rfl, Nat.le_refl _, Nat.le_refl _⟩
      ((quiet_log ..).noLess (log_reg ..) (log_reg ..))

theorem noteSat_keeps (s : State) (k : Nat) : (∀ m, (s.noteSat k).pe m = s.pe m) ∧ (s.noteSat k).mem = s.mem := by
  unfold State.noteSat
  simp only
  split
  · exact ⟨fun _ => rfl, rfl⟩
  · exact ⟨fun m => (quiet_log ..).pe m, (quiet_log ..).mem⟩

theorem fired_spec (hn : n < 276) (s : State) (k : Nat) : (s.fired n k).pe n = s.pe n ∧ (s.fired n k).mem = s.mem ∧ NoLess s (s.fired n k) ∧
    ((s.fired n k).ctx k).fires = min ((s.ctx k).fires + 1) (2 ^ 48 - 1) := by
  have hquiet := quiet_bumpPe ((s.updCtx k fun c => { c with fires := min (c.fires + 1) (2 ^ 48 - 1), fired := true }).noteSat k) n psFIRE 1
  have hcount := bumpPe_noLess hn (show psFIRE < 16 by decide) ((s.updCtx k fun c => { c with fires := min (c.fires + 1) (2 ^ 48 - 1), fired := true }).noteSat k) 1
  have hnote := noteSat_noLess (s.updCtx k fun c => { c with fires := min (c.fires + 1) (2 ^ 48 - 1), fired := true }) k
  obtain ⟨hpe, hmem⟩ := noteSat_keeps (s.updCtx k fun c => { c with fires := min (c.fires + 1) (2 ^ 48 - 1), fired := true }) k
  obtain ⟨⟨b, hctx⟩, -, -⟩ := noteSat_spec (s.updCtx k fun c => { c with fires := min (c.fires + 1) (2 ^ 48 - 1), fired := true }) k
  unfold State.fired
  refine ⟨(hquiet.pe n).trans (hpe n), hquiet.mem.trans hmem, NoLess.trans ?_ (hnote.trans hcount), ?_⟩
  · exact ⟨rfl, rfl, Nat.le_refl _, Nat.le_refl _⟩
  · rw [hquiet.ctx, hctx]
    simp [State.updCtx]

theorem enable_eq (toks : List (Nat × Token)) (key : Word) (src : RSrc) (s : State) (n : Nat) : let k := tagCtxKey n (tCtx key)
    let pri := toks.foldl (fun m t => max m (tPri t.2.tag)) (s.ctx k).pri
    s.enable n toks key src = (s.fired n k).enqueue n ⟨max pri ((s.pe n).boostOf k), pri, (s.pe n).clk, (s.pe n).clk, key, src⟩ := rfl

/-- An entry that finds room, with no backlog, joins the ready list. -/
theorem enqueue_room {e : ReadyE} (hback : (s.pe n).backlog = []) (hroom : (s.pe n).ready.length < (s.pe n).readyLim) :
    s.enqueue n e = (s.setPe n { s.pe n with ready := (s.pe n).ready ++ [e] }).noteDepth n := by
  simp only [State.enqueue, hback, if_true, hroom]

/-- A full ready list takes nothing from its backlog. -/
theorem refillTo_full {p : Pe} (h : p.ready.length = p.readyLim) : p.refillTo p.readyLim = p := by
  have hstays : refillReady p.readyLim p.ready p.backlog p.backlog.length = (p.ready, p.backlog) := by
    cases p.backlog.length with
    | zero => rfl
    | succ k => rw [refillReady, if_neg (by omega)]
  rw [Pe.refillTo, hstays]

theorem refillPe_full (hn : n < 276) (h : (s.pe n).ready.length = (s.pe n).readyLim) : (s.refillPe n).pe n = s.pe n ∧ NoLess s (s.refillPe n) := by
  have hsame : s.updPe n (fun p => p.refillTo p.readyLim) = s.setPe n (s.pe n) := by rw [State.updPe, refillTo_full h]
  unfold State.refillPe
  rw [hsame]
  exact ⟨((quiet_noteDepth ..).pe n).trans (by simp), (noLess_setPe rfl rfl rfl (Nat.le_refl _)).trans (noteDepth_noLess hn _)⟩

/-- An entry that finds the ready list full goes to the end of the backlog, and pressure does not end. -/
theorem enqueue_full {e : ReadyE} (hn : n < 276) (hheld : s.Held) (hfull : (s.pe n).ready.length = (s.pe n).readyLim) :
    (s.enqueue n e).pe n = { s.pe n with backlog := (s.pe n).backlog ++ [e] } ∧ (s.enqueue n e).Held := by
  have hbegin : ∃ t : State, t.pe n = s.pe n ∧ t.Held ∧
      s.enqueue n e = ((t.setPe n { t.pe n with backlog := (t.pe n).backlog ++ [e] }).bumpPe n psBACKLOG).pressureCheck := by
    by_cases hback : (s.pe n).backlog = []
    · refine ⟨s, rfl, hheld, ?_⟩
      simp only [State.enqueue, if_pos hback, hfull, Nat.lt_irrefl, if_false]
    · obtain ⟨hpe, hless⟩ := refillPe_full hn hfull
      obtain ⟨hquiet, hafter⟩ := held_pressureCheck (hheld.mono hless)
      have hsame : (s.refillPe n).pressureCheck.pe n = s.pe n := (hquiet.pe n).trans hpe
      refine ⟨_, hsame, hafter, ?_⟩
      simp only [State.enqueue, if_neg hback, hsame, hfull, Nat.lt_irrefl, if_false]
  obtain ⟨t, hpe, ht, heq⟩ := hbegin
  have hgrown : NoLess t (t.setPe n { t.pe n with backlog := (t.pe n).backlog ++ [e] }) := noLess_setPe rfl rfl rfl (by simp)
  obtain ⟨hquiet, hafter⟩ := held_pressureCheck (ht.mono (hgrown.trans (bumpPe_noLess hn (show psBACKLOG < 16 by decide) _ 1)))
  rw [heq]
  refine ⟨?_, hafter⟩
  rw [hquiet.pe, bumpPe_pe, hpe]
  simp

/-- One cycle at the matching stage frees no space. -/
theorem tick_noLess (hn : n < 276) (s : State) : NoLess s (s.tick n) := by
  have hcycles := bumpPe_noLess hn (show psCYCLES < 16 by decide) s 1
  have harea := bumpPe_noLess hn (show psRQAREA < 16 by decide) (s.bumpPe n psCYCLES) (s.pe n).ready.length
  let u := (s.bumpPe n psCYCLES).bumpPe n psRQAREA (s.pe n).ready.length
  have hclock : NoLess u (u.setPe n { u.pe n with clk := (u.pe n).clk + 1 }) := noLess_setPe rfl rfl rfl (Nat.le_refl _)
  exact (hcycles.trans harea).trans hclock

theorem placing_noLess (hn : n < 276) (s : State) (r : List Token) : NoLess s (s.placing n r) := by
  have htaken : NoLess s (s.setPe n { s.pe n with inbox := r }) := noLess_setPe rfl rfl rfl (Nat.le_refl _)
  exact (htaken.trans (tick_noLess hn _)).trans (bumpPe_noLess hn (show psMATCH < 16 by decide) _ 1)

/-- An activation enabled with the ready list full goes to the end of the backlog. -/
theorem enable_full {toks : List (Nat × Token)} {key : Word} {src : RSrc} (hn : n < 276) (hheld : s.Held)
    (hfull : (s.pe n).ready.length = (s.pe n).readyLim) : ∃ e : ReadyE, (e.src = src ∧ e.key = key) ∧
      (s.enable n toks key src).pe n = { s.pe n with backlog := (s.pe n).backlog ++ [e] } ∧ (s.enable n toks key src).Held := by
  obtain ⟨hpe, -, hless, -⟩ := fired_spec hn s (tagCtxKey n (tCtx key))
  rw [enable_eq]
  have hqueued := fun e => enqueue_full (e := e) hn (hheld.mono hless) (by rw [hpe]; exact hfull)
  rw [hpe] at hqueued
  refine ⟨_, ?_, hqueued _⟩
  exact ⟨rfl, rfl⟩

/-- An activation enabled with room and no backlog joins the ready list. -/
theorem enable_room {toks : List (Nat × Token)} {key : Word} {src : RSrc} (hn : n < 276) (hback : (s.pe n).backlog = [])
    (hroom : (s.pe n).ready.length < (s.pe n).readyLim) : let u := s.enable n toks key src
    let k := tagCtxKey n (tCtx key)
    let pri := toks.foldl (fun m t => max m (tPri t.2.tag)) (s.ctx k).pri
    u.pe n = { s.pe n with ready := (s.pe n).ready ++ [⟨max pri ((s.pe n).boostOf k), pri, (s.pe n).clk, (s.pe n).clk, key, src⟩] } ∧
      (u.ctx k).fires = min ((s.ctx k).fires + 1) (2 ^ 48 - 1) ∧ u.mem = s.mem ∧ u.pressure = s.pressure := by
  intro u k pri
  obtain ⟨hpe, hmem, hless, hfires⟩ := fired_spec hn s k
  have heq : u = ((s.fired n k).setPe n { s.pe n with
      ready := (s.pe n).ready ++ [⟨max pri ((s.pe n).boostOf k), pri, (s.pe n).clk, (s.pe n).clk, key, src⟩] }).noteDepth n := by
    have hqueued := enqueue_room (s := s.fired n k) (n := n) (e := ⟨max pri ((s.pe n).boostOf k), pri, (s.pe n).clk, (s.pe n).clk, key, src⟩)
      (by rw [hpe]; exact hback) (by rw [hpe]; exact hroom)
    rwa [hpe] at hqueued
  have hquiet := quiet_noteDepth ((s.fired n k).setPe n { s.pe n with
    ready := (s.pe n).ready ++ [⟨max pri ((s.pe n).boostOf k), pri, (s.pe n).clk, (s.pe n).clk, key, src⟩] }) n
  have hdepth := noteDepth_noLess hn ((s.fired n k).setPe n { s.pe n with
    ready := (s.pe n).ready ++ [⟨max pri ((s.pe n).boostOf k), pri, (s.pe n).clk, (s.pe n).clk, key, src⟩] })
  rw [heq]
  refine ⟨by rw [hquiet.pe]; simp, ?_, hquiet.mem.trans hmem, ?_⟩
  · rw [hquiet.ctx]
    exact hfires
  · rw [State.pressure, State.pressure, hdepth.pressure]
    exact congrArg (bitAt · 0) hless.pressure

theorem tokenMatch_backlog (h : s.CanMatch n t) (hinbox : (s.pe n).inbox = t :: r) (hclean : tPoison t.tag = false)
    (hone : fld (s.imemAt n (blockAddr n t.tag)) 47 46 + 1 = 1) (hfull : (s.pe n).ready.length = (s.pe n).readyLim)
    (hspace : s.auxRoom (peEndpoint n) .pes 64 = true) :
    Runs (.tokenMatch n) s fun u => (u.pe n).inbox = r ∧ (u.pe n).ready = (s.pe n).ready ∧
      ∃ e, (u.pe n).backlog = (s.pe n).backlog ++ [e] ∧ e.src = .one t ∧ e.key = matchKey t.tag := by
  refine runs_unit h.pe rfl (fun _ _ h => h) ?_
  obtain ⟨-, hpe⟩ := placing_spec h.pe s r
  have hheld : (s.placing n r).Held := State.Held.mono (s := s) (.inl h.pressure) (placing_noLess h.pe s r)
  obtain ⟨e, ⟨hsrc, hkey⟩, hqueued, hafter⟩ := enable_full (toks := [(0, t)]) (key := matchKey t.tag) (src := .one t) h.pe hheld
    (by rw [hpe]; exact hfull)
  rw [tokenMatch_good h hinbox, if_pos hone, hclean, if_neg Bool.false_ne_true, fitOr_some (.inr hspace),
    (held_pressureCheck hafter).1.pe, hqueued, hpe]
  exact ⟨rfl, rfl, e, rfl, hsrc, hkey⟩

/-- The match key of a tag has its context (R28). -/
theorem tCtx_matchKey (w : Word) : tCtx (matchKey w) = tCtx w := by
  have hctx : tCtx w < 2 ^ 20 := fld_lt w 55 36
  have hiter : tIter w < 2 ^ 12 := fld_lt w 35 24
  have hpe : tPe w < 2 ^ 9 := fld_lt w 23 15
  have hip : tIp w < 2 ^ 13 := fld_lt w 14 2
  have hkey : (matchKey w).toNat = tCtx w * 2 ^ 36 + tIter w * 2 ^ 24 + tPe w * 2 ^ 15 + tIp w * 2 ^ 2 := by
    simp only [matchKey, mkTag, put, BitVec.toNat_ofNat, Nat.shiftLeft_eq, Bool.toNat_false]
    omega
  rw [tCtx, fld, hkey, Nat.shiftRight_eq_div_pow]
  omega

/-- The only input of a block enables its activation. -/
theorem tokenMatch_enables (h : s.CanMatch n t) (hinbox : (s.pe n).inbox = t :: r) (hclean : tPoison t.tag = false)
    (hone : fld (s.imemAt n (blockAddr n t.tag)) 47 46 + 1 = 1) (hback : (s.pe n).backlog = [])
    (hroom : (s.pe n).ready.length < (s.pe n).readyLim) :
    let p := s.pe n
    let k := tagCtxKey n (tCtx t.tag)
    let pri := max (s.ctx k).pri (tPri t.tag)
    Runs (.tokenMatch n) s fun u => (u.pe n).inbox = r ∧
      (u.pe n).ready = p.ready ++ [⟨max pri (p.boostOf k), pri, p.clk + 1, p.clk + 1, matchKey t.tag, .one t⟩] ∧
      (u.ctx k).fires = min ((s.ctx k).fires + 1) (2 ^ 48 - 1) ∧ u.mem = s.mem := by
  intro p k pri
  refine runs_unit h.pe rfl (fun _ _ h => h) ?_
  obtain ⟨honly, hpe⟩ := placing_spec h.pe s r
  have hctx : ∀ k, (s.placing n r).ctx k = s.ctx k := fun k => by rw [honly.rest]; rfl
  obtain ⟨hready, hfires, hmem, hpressure⟩ := enable_room (toks := [(0, t)]) (key := matchKey t.tag) (src := .one t) h.pe
    (show ((s.placing n r).pe n).backlog = [] by rw [hpe]; exact hback) (by rw [hpe]; exact hroom)
  rw [tCtx_matchKey, hctx, hpe] at hready
  rw [tCtx_matchKey, hctx] at hfires
  have hquiet := quiet_pressureCheck (.inl (hpressure.trans (by
    rw [State.pressure, (placing_noLess h.pe s r).pressure]; exact h.pressure)))
  rw [tokenMatch_good h hinbox, if_pos hone, hclean, if_neg Bool.false_ne_true, fitOr_some (.inl (by rw [hready, hback])), hquiet.pe, hquiet.ctx,
    hquiet.mem, hready]
  exact ⟨rfl, rfl, hfires, hmem.trans (by rw [honly.rest])⟩

/-! Records. -/

end

/-! An access to a scratch counts in a few registers of its cluster. -/

/-- r is none of the registers that an access to the scratch of cluster c changes. -/
structure OffScratch (c r : Nat) : Prop where
  ctl : r ≠ aScCtl c
  ret : r ≠ aScRet c
  stat : ∀ i < 16, r ≠ aScStat c i
  conflict : ∀ m < 6, r ≠ aScConflict c m

theorem scAddr_lt_hub : ∀ c < 64, aScCtl c < hbBlock ∧ aScRet c < hbBlock ∧ (∀ i < 16, aScStat c i < hbBlock) ∧
    ∀ m < 6, aScConflict c m < hbBlock := by decide +kernel

/-- The registers of the hub and beyond are none of them. -/
theorem offScratch_of_hub {c r : Nat} (hc : c < 64) (hr : hbBlock ≤ r) : OffScratch c r := by
  obtain ⟨hctl, hret, hstat, hconf⟩ := scAddr_lt_hub c hc
  exact ⟨by omega, by omega, fun i hi => by have := hstat i hi; omega, fun m hm => by have := hconf m hm; omega⟩

section

variable {s : State} {c a r : Nat} (hoff : OffScratch c r) (hc : c < 64)
include hoff hc

omit hc in
theorem noteFull_reg_off (hctl : statCtlOf a = some (aScCtl c)) : (s.noteFull a).reg r = s.reg r := by
  rw [noteFull_ctl s a _ hctl]
  exact keep_ite (P := fun t : State => t.reg r = s.reg r) rfl ((log_reg ..).trans (setRfld_reg_other hoff.ctl))

theorem bumpSc_reg_off {i k : Nat} (hi : i < 16) : (s.bump (aScStat c i) k).reg r = s.reg r := by
  have hset : (s.setRfld (aScStat c i) 47 0 (satAdd 48 (s.rfld (aScStat c i) 47 0) k)).reg r = s.reg r := setRfld_reg_other (hoff.stat i hi)
  exact keep_ite (P := fun t : State => t.reg r = s.reg r) hset ((noteFull_reg_off hoff (statCtlOf_scStat c hc i hi)).trans hset)

theorem countHeld_reg_off {m : Nat} (hm : m < 6) : (s.countHeld c m).reg r = s.reg r := by
  have hset : (s.setRfld (aScConflict c m) 31 0 (satInc 32 (s.rfld (aScConflict c m) 31 0))).reg r = s.reg r :=
    setRfld_reg_other (hoff.conflict m hm)
  exact keep_ite (P := fun t : State => t.reg r = s.reg r) hset ((noteFull_reg_off hoff (statCtlOf_scConflict c hc m hm)).trans hset)

theorem countHelds_reg_off (l : List Nat) (hl : ∀ m ∈ l, m < 6) :
    ∀ s : State, (l.foldl (fun u k => u.countHeld c k) s).reg r = s.reg r := by
  induction l with
  | nil => exact fun _ => rfl
  | cons m l ih =>
    exact fun s => (ih (fun k hk => hl k (List.mem_cons_of_mem m hk)) _).trans (countHeld_reg_off hoff hc (hl m List.mem_cons_self))

theorem serveBank_reg_off {b m : Nat} : (s.serveBank c b m).reg r = s.reg r := by
  unfold State.serveBank
  exact countHelds_reg_off hoff hc _ (fun k hk => List.mem_range.mp (List.mem_of_mem_filter hk)) _

theorem touchScratch_reg_off {o : Nat} : (s.touchScratch c o).reg r = s.reg r := by
  unfold State.touchScratch
  extract_lets b woken
  have hset : ∀ v, (s.setReg (aScRet c) v).reg r = s.reg r := fun v => by rw [State.reg_setReg, if_neg hoff.ret]
  have hwoken : woken.reg r = s.reg r :=
    keep_ite (P := fun u : State => u.reg r = s.reg r)
      ((bumpSc_reg_off hoff hc (by decide)).trans (keep_ite (P := fun u : State => u.reg r = s.reg r) rfl (hset _))) rfl
  exact keep_ite (P := fun u : State => u.reg r = s.reg r) ((bumpSc_reg_off hoff hc (by decide)).trans hwoken) hwoken

theorem microTouch_reg_off {o : Nat} : (s.microTouch c o).reg r = s.reg r :=
  (touchScratch_reg_off hoff hc).trans (serveBank_reg_off hoff hc)

end

section

variable {s u : State} {n : Nat} {t : Token} {r : List Token}

/-- An access to a bucket is quiet and leaves token pressure. -/
theorem touchOvf_spec (s : State) (n : Nat) (key : Word) (l : Level) : Quiet s (s.touchOvf n key l) ∧ (s.touchOvf n key l).pressure = s.pressure := by
  unfold State.touchOvf
  simp only
  split
  · next h =>
    refine ⟨quiet_microTouch .., ?_⟩
    rw [State.pressure, State.pressure, microTouch_reg_off (offScratch_of_hub h.2 (by decide)) h.2]
  · exact ⟨.refl s, rfl⟩

/-! Records. -/

theorem voidBad_none {set : Nat} {levels : List Level} (h : ∀ q ∈ (u.pe n).recs, q.keyBad = false) : u.voidBad n set levels = u := by
  have hnone : (u.pe n).recs.filter (fun q => q.keyBad && q.set == set && levels.contains q.level) = [] :=
    List.filter_eq_nil_iff.mpr fun q hq => by simp [h q hq]
  rw [State.voidBad, hnone]
  rfl

/-- The record that the first token of a key makes. -/
def firstRec (t : Token) (arity arrived set : Nat) : MRec :=
  { key := matchKey t.tag, arity := arity, toks := [(tPort t.tag, t)], ready := false, poison := false, keyBad := false, arrived := arrived,
    level := .store, set := set }

theorem firstRec_units {arity arrived set : Nat} : (firstRec t arity arrived set).units = if tWide t.tag then 2 else 1 := by
  simp [MRec.units, MRec.wide, firstRec]

/-- The first token of a key makes a record in the matching store, when its set has room and nothing below. -/
theorem placeTok_first {arity : Nat} (hrecs : ∀ q ∈ (u.pe n).recs, q.key ≠ matchKey t.tag ∧ q.keyBad = false)
    (hdeep : (u.pe n).lowCount (u.setOf n t.tag) .deep = 0)
    (hroom : (u.pe n).waysUsed (u.setOf n t.tag) + (if tWide t.tag then 2 else 1) ≤ 4) :
    ∃ x, u.placeTok n t arity false = some x ∧ x.pressure = u.pressure ∧
      x.pe n = { u.pe n with recs := (u.pe n).recs ++ [firstRec t arity (fld u.tb 31 0) (u.setOf n t.tag)] } := by
  have hvoid := voidBad_none (u := u) (n := n) (set := u.setOf n t.tag) (levels := [.store, .overflow, .fill]) fun q hq => (hrecs q hq).2
  have hbegin : ∃ z : State, Quiet u z ∧ z.pressure = u.pressure ∧ u.placeTok n t arity false = z.newRec n t arity (u.setOf n t.tag) := by
    let z := if (u.pe n).lowCount (u.setOf n t.tag) .overflow != 0 && !(u.pe n).recs.any (fun r => r.key = matchKey t.tag ∧ r.level = .store)
      then u.touchOvf n (matchKey t.tag) .overflow else u
    obtain ⟨htouch, hkeep⟩ := touchOvf_spec u n (matchKey t.tag) .overflow
    have hquiet : Quiet u z := keep_ite htouch (.refl u)
    have hfound : ∀ l : List Level, (z.pe n).recs.find? (fun r => r.key = matchKey t.tag ∧ l.contains r.level) = none := fun l => by
      rw [hquiet.pe]
      exact List.find?_eq_none.mpr fun q hq => by simp [(hrecs q hq).1]
    have hlow : (z.pe n).lowCount (u.setOf n t.tag) .deep = 0 := by rw [hquiet.pe]; exact hdeep
    have hways : decide (4 < (z.pe n).waysUsed (u.setOf n t.tag) + if tWide t.tag then 2 else 1) = false := by
      rw [hquiet.pe]; exact decide_eq_false (Nat.not_lt.mpr hroom)
    refine ⟨z, hquiet, keep_ite (P := fun t : State => t.pressure = u.pressure) hkeep rfl, ?_⟩
    simp only [State.placeTok, hvoid, Bool.not_false, Bool.true_and, Bool.false_eq_true, if_false]
    rw [show (if (u.pe n).lowCount (u.setOf n t.tag) .overflow != 0 && !(u.pe n).recs.any (fun r => r.key = matchKey t.tag ∧ r.level = .store)
      then u.touchOvf n (matchKey t.tag) .overflow else u) = z from rfl]
    simp only [hfound, hlow, hways, Option.filter_none, Option.or_none, ne_eq, not_true_eq_false, Bool.false_and, Bool.false_eq_true, if_false]
  obtain ⟨z, hquiet, hpressure, heq⟩ := hbegin
  have hnew : z.newRec n t arity (u.setOf n t.tag) =
      some (z.updPe n fun p => { p with recs := p.recs ++ [firstRec t arity (fld z.tb 31 0) (u.setOf n t.tag)] }) := by
    have hunits := firstRec_units (t := t) (arity := arity) (arrived := fld z.tb 31 0) (set := u.setOf n t.tag)
    have hfits : (z.pe n).waysUsed (u.setOf n t.tag) + (firstRec t arity (fld z.tb 31 0) (u.setOf n t.tag)).units ≤ 4 := by
      rw [hunits, hquiet.pe]; exact hroom
    exact if_pos hfits
  have htime : z.tb = u.tb := by rw [hquiet.rest]; rfl
  rw [heq, hnew]
  exact ⟨_, rfl, hpressure, by rw [updPe_pe, hquiet.pe, htime]⟩

/-- In the state in which a token is placed, the set, the header's words and token pressure are as before. -/
theorem placing_same (hn : n < 276) (s : State) (r : List Token) (w : Word) : (s.placing n r).setOf n w = s.setOf n w ∧ (s.placing n r).tb = s.tb ∧
    (s.placing n r).pressure = s.pressure := by
  obtain ⟨honly, -⟩ := placing_spec hn s r
  refine ⟨?_, by rw [honly.rest]; rfl, congrArg (bitAt · 0) (placing_noLess hn s r).pressure⟩
  rw [State.setOf, State.setOf, State.rfld, State.rfld, honly.reg _ (noPeStat_msCfg hn)]

theorem tokenMatch_records (h : s.CanMatch n t) (hinbox : (s.pe n).inbox = t :: r)
    (hmany : 1 < fld (s.imemAt n (blockAddr n t.tag)) 47 46 + 1) (hrecs : ∀ q ∈ (s.pe n).recs, q.key ≠ matchKey t.tag ∧ q.keyBad = false)
    (hdeep : (s.pe n).lowCount (s.setOf n t.tag) .deep = 0)
    (hroom : (s.pe n).waysUsed (s.setOf n t.tag) + (if tWide t.tag then 2 else 1) ≤ 4) :
    Runs (.tokenMatch n) s fun u => (u.pe n).inbox = r ∧ (u.pe n).ready = (s.pe n).ready ∧
      (u.pe n).recs = (s.pe n).recs ++
        [firstRec t (fld (s.imemAt n (blockAddr n t.tag)) 47 46 + 1) (fld s.tb 31 0) (s.setOf n t.tag)] := by
  refine runs_unit h.pe rfl (fun _ _ h => h) ?_
  obtain ⟨-, hpe⟩ := placing_spec h.pe s r
  obtain ⟨hset, htime, hpressure⟩ := placing_same h.pe s r t.tag
  obtain ⟨x, hx, hkeep, hrec⟩ := placeTok_first (u := s.placing n r) (n := n) (t := t) (arity := fld (s.imemAt n (blockAddr n t.tag)) 47 46 + 1)
    (by rw [hpe]; exact hrecs) (by rw [hset, hpe]; exact hdeep) (by rw [hset, hpe]; exact hroom)
  rw [hpe, hset, htime] at hrec
  have hquiet := quiet_pressureCheck (.inl (hkeep.trans (hpressure.trans h.pressure)))
  rw [tokenMatch_good h hinbox, if_neg (by omega), hx, fitOr_some (.inl (by rw [hrec])), hquiet.pe, hrec]
  exact ⟨rfl, rfl, rfl⟩

/-! The last input of a record. -/

/-- Record q with its two tokens, x and then t or the other way round. -/
theorem ins_other_port {x : Token} {port : Nat} (hport : port ≤ 1) : ∃ y, Tbl.ins [(1 - port, x)] port t = y ∧ y.length = 2 ∧ (port, t) ∈ y ∧
    (1 - port, x) ∈ y ∧ ∀ z ∈ y, z = (port, t) ∨ z = (1 - port, x) := by
  interval_cases port <;> simp [Tbl.ins]

section

variable {q : MRec} {x : Token}

/-- A record of a token with another port than t's, in the matching store, of two inputs, neither of which is poisoned. -/
structure HalfRec (t : Token) (q : MRec) (x : Token) : Prop where
  key : q.key = matchKey t.tag
  keyBad : q.keyBad = false
  poison : q.poison = false
  level : q.level = .store
  arity : q.arity = 2
  toks : q.toks = [(1 - tPort t.tag, x)]
  port : tPort t.tag ≤ 1
  clean : tPoison x.tag = false ∧ tPoison t.tag = false
  narrow : tWide t.tag = false

/-- A narrow token does not widen a record. -/
theorem units_not_grown {y : List (Nat × Token)} (h : HalfRec t q x) (hall : ∀ z ∈ y, z = (tPort t.tag, t) ∨ z = (1 - tPort t.tag, x)) :
    ({ q with toks := y } : MRec).units ≤ q.units := by
  have hwide : ({ q with toks := y } : MRec).wide = true → q.wide = true := fun hw => by
    obtain ⟨z, hz, hzw⟩ := List.any_eq_true.mp hw
    rcases hall z hz with rfl | rfl
    · exact absurd hzw (by simp [h.narrow])
    · simpa [MRec.wide, h.toks] using hzw
  unfold MRec.units
  by_cases hy : ({ q with toks := y } : MRec).wide = true
  · rw [if_pos hy, if_pos (hwide hy)]
  · rw [if_neg hy]; split <;> omega

theorem replaceRec_single {p r : MRec} (h : p.key = r.key) : replaceRec [p] r = [r] := by simp [replaceRec, h]

/-- A record of unpoisoned tokens in the matching store becomes READY when it is complete, and its activation is enabled. -/
theorem complete_store {v : State} (hrecs : (v.pe n).recs = [q]) (hpoison : q.poison = false) (hlevel : q.level = .store)
    (hclean : ∀ z ∈ q.toks, tPoison z.2.tag = false) : ∃ z : State, z.pressure = v.pressure ∧
      z.pe n = { v.pe n with recs := [{ q with ready := true }] } ∧ v.complete n q = z.enable n q.toks q.key (.record q.key) := by
  have hmarked : q.marked.any (fun z => tPoison z.2.tag) = false := by
    rw [List.any_eq_false]
    intro z hz
    simp only [MRec.marked, hpoison, Bool.false_eq_true, if_false, List.mem_map] at hz
    obtain ⟨w, hw, rfl⟩ := hz
    simpa using hclean w hw
  have hlow : (q.level == .overflow || q.level == .deep) = false := by rw [hlevel]; rfl
  refine ⟨v.updPe n fun p => { p with recs := replaceRec p.recs { q with ready := true }, fillBuf := p.fillBuf }, rfl, ?_, ?_⟩
  · rw [updPe_pe, hrecs, replaceRec_single (p := q) (r := { q with ready := true }) rfl]
  · simp only [State.complete, hmarked, hlow, Bool.false_and, Bool.false_eq_true, if_false]

/-- Its second token completes the record. -/
theorem placeTok_second (hrecs : (u.pe n).recs = [q]) (h : HalfRec t q x) : ∃ y, ∃ z : State, (y.length = 2 ∧ (tPort t.tag, t) ∈ y ∧ (1 - tPort t.tag, x) ∈ y) ∧
    z.pressure = u.pressure ∧ z.pe n = { u.pe n with recs := [{ q with toks := y, ready := true }] } ∧
      u.placeTok n t 2 false = some (z.enable n y q.key (.record q.key)) := by
  obtain ⟨y, hy, hlen, ht, hx, hall⟩ := ins_other_port (t := t) (x := x) h.port
  have hvoid := voidBad_none (u := u) (n := n) (set := u.setOf n t.tag) (levels := [.store, .overflow, .fill])
    fun r hr => by rw [hrecs, List.mem_singleton] at hr; rw [hr]; exact h.keyBad
  obtain ⟨z, hpressure, hpe, hcomplete⟩ := complete_store (v := u.setRecs n [{ q with toks := y }]) (n := n) (q := { q with toks := y })
    (by rw [State.setRecs, updPe_pe]) h.poison h.level fun w hw => by rcases hall w hw with rfl | rfl <;> [exact h.clean.2; exact h.clean.1]
  have hmerge : u.mergeTok n q t = some ((u.setRecs n [{ q with toks := y }]).complete n { q with toks := y }) := by
    have hport : q.toks.any (fun z => z.1 = tPort t.tag) = false := by
      have hne : ¬ 1 - tPort t.tag = tPort t.tag := by have := h.port; omega
      simp [h.toks, hne]
    have htoks : Tbl.ins q.toks (tPort t.tag) t = y := by rw [h.toks, hy]
    have hgrow : decide (q.units < ({ q with toks := y } : MRec).units) = false := decide_eq_false (Nat.not_lt.mpr (units_not_grown h hall))
    have hstore : u.touchOvf n q.key q.level = u := by simp [State.touchOvf, h.level]
    have hcount : y.length = q.arity := by rw [h.arity]; exact hlen
    simp only [State.mergeTok, hport, htoks, hgrow, hstore, hrecs, replaceRec_single (p := q) (r := { q with toks := y }) rfl, hcount,
      Bool.false_eq_true, if_false, Bool.not_false, Bool.true_or, if_true]
  have hfind : (u.pe n).recs.find? (fun r => r.key = matchKey t.tag ∧ [Level.store, .fill, .overflow].contains r.level) = some q := by
    rw [hrecs]; simp [h.key, h.level]
  have hany : (u.pe n).recs.any (fun r => r.key = matchKey t.tag ∧ r.level = .store) = true := by
    rw [hrecs]; simp [h.key, h.level]
  refine ⟨y, z, ⟨hlen, ht, hx⟩, hpressure, ?_, ?_⟩
  · rw [hpe, State.setRecs, updPe_pe]
  · simp only [State.placeTok, hvoid, hany, Bool.not_true, Bool.and_false, Bool.false_eq_true, if_false, hfind, Option.some_or, hmerge, hcomplete]

theorem tokenMatch_completes (hmatch : s.CanMatch n t) (hinbox : (s.pe n).inbox = t :: r)
    (hpair : fld (s.imemAt n (blockAddr n t.tag)) 47 46 + 1 = 2) (hrecs : (s.pe n).recs = [q]) (h : HalfRec t q x) (hback : (s.pe n).backlog = [])
    (hroom : (s.pe n).ready.length < (s.pe n).readyLim) :
    Runs (.tokenMatch n) s fun u =>
      (u.pe n).inbox = r ∧ (∃ y, (u.pe n).recs = [{ q with toks := y, ready := true }] ∧ y.length = 2 ∧ (tPort t.tag, t) ∈ y ∧
        (1 - tPort t.tag, x) ∈ y) ∧ ∃ e, (u.pe n).ready = (s.pe n).ready ++ [e] ∧ e.src = .record (matchKey t.tag) ∧ e.key = matchKey t.tag := by
  refine runs_unit hmatch.pe rfl (fun _ _ h => h) ?_
  obtain ⟨-, hpe⟩ := placing_spec hmatch.pe s r
  obtain ⟨-, -, hpressure⟩ := placing_same hmatch.pe s r t.tag
  obtain ⟨y, z, ⟨hlen, ht, hx⟩, hkeep, hz, hplace⟩ := placeTok_second (u := s.placing n r) (n := n) (by rw [hpe]; exact hrecs) h
  rw [hpe] at hz
  obtain ⟨hready, -, -, hafter⟩ := enable_room (toks := y) (key := q.key) (src := .record q.key) hmatch.pe
    (show (z.pe n).backlog = [] by rw [hz]; exact hback) (by rw [hz]; exact hroom)
  rw [hz] at hready
  have hquiet := quiet_pressureCheck (.inl (hafter.trans (hkeep.trans (hpressure.trans hmatch.pressure))))
  rw [tokenMatch_good hmatch hinbox, if_neg (by omega), hpair, hplace, fitOr_some (.inl (by rw [hready])), hquiet.pe, hready]
  exact ⟨rfl, ⟨y, rfl, hlen, ht, hx⟩, _, rfl, by rw [h.key], by rw [h.key]⟩

end

/-! Tokens refused. -/

theorem updPe_pressure (s : State) (n : Nat) (f : Pe → Pe) : (s.updPe n f).pressure = s.pressure := rfl

/-- The fault of a handled context, raised from PE n, goes out as one FAULT token of that PE. -/
theorem deliver_fromPe {e : Nat} {ftag : Word} {fc : FaultCode} {off detail : Nat} {unit : Bool} (h : s.handled (tKey ftag)) :
    ∃ m : Msg, m.fault = true ∧ m.dest = peEndpoint (s.ctx (tKey ftag)).hpe ∧
      s.deliver e (some (pairPe n)) ftag unit fc off detail = s.updPe (pairPe n) (fun p => { p with outQ := p.outQ ++ [m] }) := by
  obtain ⟨hhandler, hused⟩ := h
  refine ⟨_, ?_, ?_, by simp only [State.deliver, State.deliverTo, hhandler, hused, ne_eq, not_false_eq_true, and_self, if_true]; rfl⟩ <;> rfl

/-- A token for a port beyond the arity, or for a word that is no header, is refused. -/
theorem matchTok_bad (hkilled : ∀ k, (u.pe n).killed k = false) (hword : (u.pe n).imemBad = []) (hbase : blockAddr n t.tag < imemWords n)
    (hfault : t.fault = false)
    (hbad : opOf (u.imemAt n (blockAddr n t.tag)) ≠ 0x10 ∨ fld (u.imemAt n (blockAddr n t.tag)) 47 46 < tPort t.tag) :
    ∃ fc, u.matchTok n t false = some (u.badToken n t fc) := by
  by_cases hhead : opOf (u.imemAt n (blockAddr n t.tag)) = 0x10
  · have hport : fld (u.imemAt n (blockAddr n t.tag)) 47 46 + 1 ≤ tPort t.tag := hbad.resolve_left (by simp [hhead])
    refine ⟨.illegalField, ?_⟩
    simp only [State.matchTok, hkilled, hword, List.contains_nil, Bool.false_eq_true, if_false, hhead, ne_eq, not_true_eq_false, or_false,
      if_neg (Nat.not_le.mpr hbase), hfault, false_and, if_pos hport]
  · refine ⟨.illegalOpcode, ?_⟩
    simp only [State.matchTok, hkilled, hword, List.contains_nil, Bool.false_eq_true, if_false, ne_eq, hhead, not_false_eq_true, or_true, if_true]

theorem tokenMatch_refuses (hn : n < 276) (hpair : s.pairRuns n = true) (hlookups : (s.pe n).lookups = [])
    (hfilter : (s.pe n).killFilter = [] ∧ (s.pe n).killStage = []) (hword : (s.pe n).imemBad = []) (hpressure : s.pressure = false)
    (hinbox : (s.pe n).inbox = t :: r) (hfault : t.fault = false) (hbase : blockAddr n t.tag < imemWords n)
    (hbad : opOf (s.imemAt n (blockAddr n t.tag)) ≠ 0x10 ∨ fld (s.imemAt n (blockAddr n t.tag)) 47 46 < tPort t.tag)
    (hhandled : s.handled (tKey t.tag)) :
    Runs (.tokenMatch n) s fun u =>
      (u.pe n).inbox = r ∧ (u.pe n).ready = (s.pe n).ready ∧ (u.pe n).recs = (s.pe n).recs ∧
      ∃ m, (u.pe n).outQ = (s.pe n).outQ ++ [m] ∧ m.fault = true ∧ m.dest = peEndpoint (s.ctx (tKey t.tag)).hpe := by
  refine runs_unit hn rfl (fun _ _ h => h) ?_
  obtain ⟨honly, hpe⟩ := taken_spec (s := s) hn r
  have hat : (s.taken n r).imemAt n (blockAddr n t.tag) = s.imemAt n (blockAddr n t.tag) := by rw [honly.rest]; rfl
  obtain ⟨fc, hmatch⟩ := matchTok_bad (u := s.taken n r) (n := n) (t := t) (fun k => by rw [hpe]; simp [Pe.killed, hfilter])
    (by rw [hpe]; exact hword) hbase hfault (by rw [hat]; exact hbad)
  have hcounted := (honly.trans (OnlyPe_bumpPe n hn (s.taken n r) psBADTOK 1 (by decide)))
  have hctx : ∀ k, ((s.taken n r).bumpPe n psBADTOK).ctx k = s.ctx k := fun k => by rw [hcounted.rest]; rfl
  obtain ⟨m, hm, hdest, hsent⟩ := deliver_fromPe (s := (s.taken n r).bumpPe n psBADTOK) (n := n) (e := peEndpoint n) (ftag := t.tag) (fc := fc)
    (off := 0) (detail := 0) (unit := true) (by rw [State.handled, hctx]; exact hhandled)
  have hbadTok : (s.taken n r).badToken n t fc = ((s.taken n r).bumpPe n psBADTOK).updPe (pairPe n) (fun p => { p with outQ := p.outQ ++ [m] }) := hsent
  have hafter : ((s.taken n r).badToken n t fc).pe n =
      { s.pe n with inbox := r, clk := (s.pe n).clk + 1, outQ := (s.pe n).outQ ++ [m] } := by
    rw [hbadTok, updPe_pair, bumpPe_pe, hpe]
  have hquiet := quiet_pressureCheck (s := (s.taken n r).badToken n t fc) (.inl (by
    rw [hbadTok, updPe_pressure, State.pressure, hcounted.reg _ (noPeStat_press n hn)]
    exact hpressure))
  rw [tokenMatch_eq hpair hlookups hfilter hinbox, hmatch, fitOr_some (.inl (by rw [hafter])), hquiet.pe, hafter]
  exact ⟨rfl, rfl, rfl, m, rfl, hm, by rw [hdest, hctx]⟩

end

/-- Settles O21: a token taken is placed by what its header and the records say, and the pressure checks that follow release nothing. -/
theorem tokenMatching : Obligations.TokenMatching := by
  unfold Obligations.TokenMatching
  refine ⟨fun s n t r h hinbox hclean => ⟨?full, ?room, ?first, ?second⟩, fun s n hn hpair => ?stopped, ?refused⟩
  case full => exact fun hone hfull hspace => tokenMatch_backlog h hinbox hclean hone hfull hspace
  case room => exact fun hone hback hroom => tokenMatch_enables h hinbox hclean hone hback hroom
  case first => exact fun hmany hrecs hdeep hroom => tokenMatch_records h hinbox hmany hrecs hdeep hroom
  case second =>
    intro hpair q x hrecs hkey hkeyBad hpoison hlevel harity htoks hxclean hnarrow hback hroom
    have hport : tPort t.tag ≤ 1 := by have := h.port; omega
    exact tokenMatch_completes h hinbox hpair hrecs ⟨hkey, hkeyBad, hpoison, hlevel, harity, htoks, hport, ⟨hxclean, hclean⟩, hnarrow⟩ hback hroom
  case stopped =>
    have hstands : s.tokenMatch n = s := by simp [State.tokenMatch, hpair]
    exact (if_pos hn).trans (onModule_same hstands)
  case refused =>
    intro s n t r hn hpair hlookups hfilter hstage hword hpressure hinbox hfault hbase hbad hhandler hused
    exact tokenMatch_refuses hn hpair hlookups ⟨hfilter, hstage⟩ hword hpressure hinbox hfault hbase hbad ⟨hhandler, hused⟩

end Sys2Proof.Machine
end

/-! # O37: memory targets -/

section

namespace Sys2Proof.Machine

namespace Quiet

variable {s t : State} (h : Quiet s t)
include h

theorem presAt (a : Nat) : t.presAt a = s.presAt a := by rw [h.rest]; rfl
theorem eccAt (a : Nat) : t.eccAt a = s.eccAt a := by rw [h.rest]; rfl
theorem defers : t.defers = s.defers := by rw [h.rest]
theorem rels : t.rels = s.rels := by rw [h.rest]
theorem word (a : Nat) : t.word a = s.word a := by rw [h.rest]; rfl
theorem load (a k : Nat) : t.load a k = s.load a k := by rw [h.rest]; rfl
theorem byte (a : Nat) : t.byte a = s.byte a := by rw [h.rest]; rfl

end Quiet

theorem quiet_touchMem (s : State) (a : Nat) (w : Bool) : Quiet s (s.touchMem a w) := ((quiet_draw s).trans (quiet_bump ..)).trans (quiet_bump ..)
theorem quiet_noteBank (s : State) (e : Nat) (p : Packet) : Quiet s (s.noteBank e p) := keep_ite (.refl s) (quiet_serveBank ..)
theorem quiet_atTarget (s : State) (e : Nat) (p : Packet) (w : Bool) : Quiet s (s.atTarget e p w) :=
  keep_ite ((quiet_noteBank ..).trans (quiet_touchScratch ..)) (keep_ite (quiet_touchMem ..) (.refl s))

/-- Request p waits first at target e, of another endpoint of the module that wants an answer, and at a scratch it is its turn. -/
structure Serves (s : State) (e : Nat) (p : Packet) (r : List Packet) : Prop where
  unit : e < 70
  first : s.reqAt e = p :: r
  replies : p.nr = false
  remote : p.src ≠ e
  module : p.src < 256
  turn : e < 64 → portB e p = true ∨ s.bankWinner e p.bank = some p

/-- An answer to a request of another endpoint is a RESP message. -/
theorem answer_remote {s : State} {e st : Nat} {p : Packet} {tok : Option (Word × Wide)} {newctxr : Bool} (h : p.src ≠ e) :
    s.answer e p st tok newctxr = s.unitSend e (respMsg p st tok newctxr) := by
  have hremote : localReq e p = false := by simp [localReq, h]
  rw [State.answer, hremote]; rfl

theorem answerValue_remote {s : State} {e : Nat} {p : Packet} {v : Wide} (h : p.src ≠ e) (hnr : p.nr = false) :
    s.answerValue e p v false = s.unitSend e (respMsg p 0 (some (p.rtag, v)) false) := by
  rw [State.answerValue, answer_remote h, hnr]; rfl

theorem answerStatus_remote {s : State} {e rsp st : Nat} {p : Packet} (h : p.src ≠ e) (hnr : p.nr = false) :
    s.answerStatus e p rsp st = s.unitSend e (respMsg p rsp (some (p.rtag, statusVal st 0)) false) := by
  rw [State.answerStatus, answer_remote h, hnr]; rfl

section

variable {s : State} {e : Nat} {p : Packet} {r : List Packet}

/-- It is the one taken. -/
theorem Serves.takeMem (h : Serves s e p r) {f : Packet → Bool} (hf : f p = true) (hmem : p.opc.isMem = true) :
    s.takeMem e f = some (p, s.setReqs e r) := by
  have hready : s.memReady e = p :: (s.memReady e).tail := by
    have hnone : ((p :: r).takeWhile (· ≠ p)).any (fun q => s.goesFirst e q p) = false := by simp
    simp only [State.memReady, h.first]
    rw [List.filter_cons_of_pos (by rw [hmem, hnone]; rfl)]
    rfl
  have hturn : (f p && (decide (64 ≤ e) || portB e p || s.bankWinner e p.bank == some p)) = true := by
    rw [hf, Bool.true_and]
    by_cases he : e < 64
    · rcases h.turn he with hb | hb <;> simp [hb]
    · simp [Nat.not_lt.mp he]
  have hpick : s.memPick e f = some p := by rw [State.memPick, hready, List.find?_cons, hturn]
  simp only [State.takeMem, hpick, Option.map_some, State.dropReq, h.first, List.erase_cons_head]

/-- The state in which request p has been taken and its access made. -/
def State.accessed (s : State) (e : Nat) (p : Packet) (r : List Packet) (w : Bool) : State := (s.setReqs e r).atTarget e p w

theorem quiet_accessed (s : State) (e : Nat) (p : Packet) (r : List Packet) (w : Bool) : Quiet (s.setReqs e r) (s.accessed e p r w) :=
  quiet_atTarget ..

theorem accessed_reqAt (w : Bool) : (s.accessed e p r w).reqAt e = r := by rw [(quiet_accessed ..).reqAt]; simp

theorem accessed_ni (w : Bool) : (s.accessed e p r w).ni e = s.ni e := (quiet_accessed ..).ni e

end

/-! Bytes of a word. -/

theorem readWord_ok {s : State} {e a : Nat} (h : s.eccAt a = .ok) : s.readWord e a = (s.word a, false, s) := by
  rw [State.readWord, h]

/-- k bytes from byte i of a word. -/
theorem leNat_memBytes_append {m : List Host.Cell} {i : Nat} : ∀ {a k : Nat}, leNat (memBytes m a (i + k)) =
    leNat (memBytes m a i) + 256 ^ i * leNat (memBytes m (a + i) k) := by
  induction i with
  | zero => intro a k; simp [memBytes, leNat]
  | succ i ih =>
    intro a k
    rw [Nat.add_right_comm, memBytes, memBytes, leNat, leNat, ih, show a + 1 + i = a + (i + 1) by omega, Nat.pow_succ]
    ring

theorem leNat_memBytes_lt (m : List Host.Cell) : ∀ a k : Nat, leNat (memBytes m a k) < 256 ^ k := by
  intro a k
  induction k generalizing a with
  | zero => exact Nat.one_pos
  | succ k ih =>
    have hbyte := (Tbl.get (0 : Byte) m a).isLt
    have hrest := ih (a + 1)
    rw [memBytes, leNat, Nat.pow_succ]
    omega

theorem word_toNat (s : State) (a : Nat) : (s.word a).toNat = s.load a 8 := by
  rw [State.word, BitVec.toNat_ofNat]
  exact Nat.mod_eq_of_lt (leNat_memBytes_lt s.mem a 8)

/-- An aligned access within a word reads its bytes of it. -/
theorem word_bytes {s : State} {a k : Nat} (hk : a % 8 + k ≤ 8) :
    (s.word (a / 8 * 8)).toNat / 256 ^ (a % 8) % 256 ^ k = s.load a k := by
  obtain ⟨j, hj⟩ : ∃ j, 8 = a % 8 + (k + j) := ⟨8 - a % 8 - k, by omega⟩
  have hword : (s.word (a / 8 * 8)).toNat = leNat (memBytes s.mem (a / 8 * 8) 8) := word_toNat s _
  have hsplit : leNat (memBytes s.mem (a / 8 * 8) 8) = leNat (memBytes s.mem (a / 8 * 8) (a % 8)) +
      256 ^ (a % 8) * (s.load a k + 256 ^ k * leNat (memBytes s.mem (a + k) j)) := by
    have hat : a / 8 * 8 + a % 8 = a := by omega
    rw [congrArg (memBytes s.mem (a / 8 * 8)) hj, leNat_memBytes_append, hat, leNat_memBytes_append]
    rfl
  rw [hword, hsplit, Nat.add_mul_div_left _ _ (by positivity), Nat.div_eq_of_lt (leNat_memBytes_lt ..), Nat.zero_add, Nat.add_mul_mod_self_left]
  exact Nat.mod_eq_of_lt (leNat_memBytes_lt ..)

/-! READ. -/

theorem sizeOf_cases : ∀ n, sizeOf n = 8 ∨ sizeOf n = 4 ∨ sizeOf n = 2 ∨ sizeOf n = 1 ∨ sizeOf n = 16
  | 0 => .inl rfl
  | 1 => .inr (.inl rfl)
  | 2 => .inr (.inr (.inl rfl))
  | 3 => .inr (.inr (.inr (.inl rfl)))
  | _ + 4 => .inr (.inr (.inr (.inr rfl)))

theorem size_cases (p : Packet) : p.size = 8 ∨ p.size = 4 ∨ p.size = 2 ∨ p.size = 1 ∨ p.size = 16 := sizeOf_cases _

/-- An aligned access of a narrow size stays within its word. -/
theorem within_word {a : Nat} {p : Packet} (hsize : p.size ≤ 8) (halign : a % p.size = 0) : a % 8 + p.size ≤ 8 := by
  have hcases := size_cases p
  generalize p.size = k at *
  rcases hcases with rfl | rfl | rfl | rfl | rfl <;> omega

theorem load_pair (s : State) (a : Nat) : mkWide (s.word (a + 8)) (s.word a) = BitVec.ofNat 128 (s.load a 16) := by
  have h : s.load a 16 = s.load a 8 + 256 ^ 8 * s.load (a + 8) 8 := leNat_memBytes_append (m := s.mem) (a := a) (i := 8) (k := 8)
  rw [mkWide, word_toNat, word_toNat, h, Nat.add_comm, Nat.mul_comm]
  rfl

/-- Good words that are not DEFERRED read as the bytes stored. -/
theorem readPlain_ok {s : State} {e a : Nat} {p : Packet} (hecc : s.eccAt a = .ok) (hpres : s.presAt a ≠ .deferred)
    (hwide : p.size = 16 → s.eccAt (a + 8) = .ok ∧ s.presAt (a + 8) ≠ .deferred) (halign : a % p.size = 0) :
    s.readPlain e a p.size = (BitVec.ofNat 128 (s.load a p.size), false, s) := by
  by_cases h16 : p.size = 16
  · obtain ⟨hecc', hpres'⟩ := hwide h16
    simp only [State.readPlain, h16, if_true, if_neg hpres, if_neg hpres', readWord_ok hecc, readWord_ok hecc', Bool.or_self, load_pair]
  · have hsize : p.size ≤ 8 := by have := size_cases p; omega
    have haligned : a / 8 * 8 / 8 * 8 = a / 8 * 8 := by omega
    have hecc' : s.eccAt (a / 8 * 8) = .ok := by rw [State.eccAt, haligned]; exact hecc
    have hpres' : ¬ s.presAt (a / 8 * 8) = .deferred := by rw [State.presAt, haligned]; exact hpres
    simp only [State.readPlain, if_neg h16, if_neg hpres', readWord_ok hecc', word_bytes (within_word hsize halign)]

section

variable {s : State} {e : Nat} {p : Packet} {r : List Packet}

theorem targetRead_runs (h : Serves s e p r) (he : e ≠ 68) (hopc : p.opc = .read) (hcheck : s.targetCheck e p.addr p.size false = none)
    (hecc : s.eccAt (plainOf p.addr) = .ok) (hpres : s.presAt (plainOf p.addr) ≠ .deferred)
    (hwide : p.size = 16 → s.eccAt (plainOf p.addr + 8) = .ok ∧ s.presAt (plainOf p.addr + 8) ≠ .deferred) (halign : plainOf p.addr % p.size = 0) :
    Runs (.targetRead e) s fun u => u.reqAt e = r ∧ u.mem = s.mem ∧
      (u.ni e).outQ = (s.ni e).outQ ++ [respMsg p 0 (some (p.rtag, BitVec.ofNat 128 (s.load (plainOf p.addr) p.size))) false] := by
  refine runs_unit h.unit rfl (fun _ _ h => h) ?_
  have hquiet := quiet_accessed s e p r false
  have hread := readPlain_ok (s := s.accessed e p r false) (e := e) (a := plainOf p.addr) (p := p) (by rw [hquiet.eccAt]; exact hecc)
    (by rw [hquiet.presAt]; exact hpres) (by rw [hquiet.eccAt, hquiet.presAt]; exact hwide) halign
  have heq : s.targetRead e = (s.accessed e p r false).unitSend e
      (respMsg p 0 (some (p.rtag, BitVec.ofNat 128 (s.load (plainOf p.addr) p.size))) false) := by
    simp only [State.targetRead, h.takeMem (f := fun p => p.opc == .read) (by rw [hopc]; rfl) (by rw [hopc]; rfl),
      show (s.setReqs e r).targetCheck e p.addr p.size false = none from hcheck, if_neg he]
    rw [show (s.setReqs e r).atTarget e p false = s.accessed e p r false from rfl, hread, answerValue_remote h.remote h.replies, hquiet.load]
    rfl
  rw [heq]
  exact ⟨accessed_reqAt false, hquiet.mem, by rw [unitSend_outQ, accessed_ni]⟩

end

/-! WRITE and ATOM. -/

/-- Reading a word that is not uncorrectable changes neither memory nor any request or interface. -/
theorem readWord_keeps {s : State} {e a : Nat} (h : s.eccAt a ≠ .ue) :
    (s.readWord e a).2.2.mem = s.mem ∧ (s.readWord e a).2.2.reqs = s.reqs ∧ (s.readWord e a).2.2.nis = s.nis := by
  have hcount : ∀ (t : State) (i j : Nat), Quiet t (if e < 64 then t.bump (aScStat e i) else t.bump (aMmStat (channelOf a) j)) := fun t i j =>
    keep_ite (quiet_bump ..) (quiet_bump ..)
  have hseen : ∀ (t : State) (ue : Bool), Quiet t (if e < 64 then t else t.errAddr a ue) := fun t ue => keep_ite (.refl t) (quiet_setReg ..)
  rw [State.readWord]
  cases hecc : s.eccAt a with
  | ok => exact ⟨rfl, rfl, rfl⟩
  | ce =>
    have hfixed : ((if e < 64 then s.noteCe e a else s).setEcc a .ok).mem = s.mem ∧ ((if e < 64 then s.noteCe e a else s).setEcc a .ok).reqs = s.reqs ∧
        ((if e < 64 then s.noteCe e a else s).setEcc a .ok).nis = s.nis := by split <;> exact ⟨rfl, rfl, rfl⟩
    have hquiet := ((hcount ((if e < 64 then s.noteCe e a else s).setEcc a .ok) ssCE msCE).trans (hseen _ false)).trans
      (quiet_log _ (wordSrc e a) (if e < 64 then .scCe else .memCe) .corrected (BitVec.ofNat 64 a) none none false)
    exact ⟨hquiet.mem.trans hfixed.1, hquiet.reqs.trans hfixed.2.1, hquiet.nis.trans hfixed.2.2⟩
  | ue => exact absurd hecc h
  | poison =>
    have hquiet := hcount s ssPOISON msPOISON
    exact ⟨hquiet.mem, hquiet.reqs, hquiet.nis⟩

/-- A store of k bytes by a target, whatever check state it leaves: what is stored, what is not, and the answer. -/
theorem stored_spec {x : State} {e a k v : Nat} {c : Ecc} {m : Msg} : let u := ((x.store a k v).setEcc a c).unitSend e m
    u.load a k = v % 256 ^ k ∧ (∀ b, b < a ∨ a + k ≤ b → u.byte b = x.byte b) ∧ u.reqAt e = x.reqAt e ∧
      (u.ni e).outQ = (x.ni e).outQ ++ [m] :=
  ⟨load_store x a k v, fun b hb => store_byte_other x a k v b hb, rfl, unitSend_outQ ((x.store a k v).setEcc a c) e m⟩

section

variable {s : State} {e : Nat} {p : Packet} {r : List Packet}

theorem targetWrite_runs (h : Serves s e p r) (hopc : p.opc = .write) (hcheck : s.targetCheck e p.addr p.size false = none)
    (hecc : s.eccAt (plainOf p.addr) ≠ .ue) (hpres : s.presAt (plainOf p.addr) ≠ .deferred) :
    Runs (.targetWrite e false) s fun u => u.reqAt e = r ∧ (u.ni e).outQ = (s.ni e).outQ ++ [respMsg p 0 (some (p.rtag, statusVal 0 0)) false] ∧
      u.load (plainOf p.addr) p.size = p.argB.toNat % 256 ^ p.size ∧
      ∀ b, b < plainOf p.addr ∨ plainOf p.addr + p.size ≤ b → u.byte b = s.byte b := by
  refine runs_unit h.unit rfl (fun _ _ h => h) ?_
  have hquiet := quiet_accessed s e p r true
  have heq : ∃ x : State, (x.mem = s.mem ∧ x.reqs = (s.setReqs e r).reqs ∧ x.nis = s.nis) ∧ ∃ c, s.targetWrite e false =
      ((x.store (plainOf p.addr) p.size p.argB.toNat).setEcc (plainOf p.addr) c).unitSend e (respMsg p 0 (some (p.rtag, statusVal 0 0)) false) := by
    have hecc' : (s.accessed e p r true).eccAt (plainOf p.addr / 8 * 8) ≠ .ue := by
      rw [hquiet.eccAt, State.eccAt, show plainOf p.addr / 8 * 8 / 8 * 8 = plainOf p.addr / 8 * 8 by omega]
      exact hecc
    obtain ⟨hmem, hreqs, hnis⟩ := readWord_keeps (e := e) hecc'
    refine ⟨if p.size < 8 then ((s.accessed e p r true).readWord e (plainOf p.addr / 8 * 8)).2.2 else s.accessed e p r true, ?_,
      (s.accessed e p r true).mergedEcc (plainOf p.addr) p.size p.dpsn, ?_⟩
    · split
      · exact ⟨hmem.trans hquiet.mem, hreqs.trans hquiet.reqs, hnis.trans hquiet.nis⟩
      · exact ⟨hquiet.mem, hquiet.reqs, hquiet.nis⟩
    · have hpres' : ¬ (s.accessed e p r true).presAt (plainOf p.addr) = .deferred := by rw [hquiet.presAt]; exact hpres
      simp only [State.targetWrite, h.takeMem (f := fun p => p.opc == .write) (by rw [hopc]; rfl) (by rw [hopc]; rfl),
        show (s.setReqs e r).targetCheck e p.addr p.size false = none from hcheck, collides, Bool.false_and, Bool.false_eq_true, if_false]
      rw [show (s.setReqs e r).atTarget e p true = s.accessed e p r true from rfl, if_neg hpres', answerStatus_remote h.remote h.replies]
      rfl
  obtain ⟨x, ⟨hmem, hreqs, hnis⟩, c, heq⟩ := heq
  obtain ⟨hload, hother, hreq, hout⟩ := stored_spec (x := x) (e := e) (a := plainOf p.addr) (k := p.size) (v := p.argB.toNat) (c := c)
    (m := respMsg p 0 (some (p.rtag, statusVal 0 0)) false)
  rw [heq]
  refine ⟨hreq.trans ?_, hout.trans ?_, hload, fun b hb => (hother b hb).trans ?_⟩
  · rw [State.reqAt, hreqs]
    exact (State.reqAt_setReqs s e e r).trans (if_pos rfl)
  · rw [State.ni, hnis]; rfl
  · rw [State.byte, hmem]; rfl

end

end Sys2Proof.Machine
end

/-! ATOM. -/

section

namespace Sys2Proof.Machine

theorem storeWord_word (s : State) (a : Nat) (v : Word) (c : Ecc) : ((s.store a 8 v.toNat).setEcc a c).word a = v := by
  have h : ((s.store a 8 v.toNat).setEcc a c).load a 8 = v.toNat % 256 ^ 8 := load_store s a 8 v.toNat
  rw [State.word, h, Nat.mod_eq_of_lt (show v.toNat < 256 ^ 8 from v.isLt), BitVec.ofNat_toNat, BitVec.setWidth_eq]

/-- What the forms of R181 make of a word, written with the signed and unsigned values of the operands. -/
theorem atomOf_spec (x b c : Word) : ∀ f ∈ ([(0, b), (1, if x = c then b else x), (2, x + b), (3, x &&& b), (4, x ||| b), (5, x ^^^ b),
    (6, if b.toInt < x.toInt then b else x), (7, if x.toInt < b.toInt then b else x), (8, if b.toNat < x.toNat then b else x),
    (9, if x.toNat < b.toNat then b else x)] : List (Nat × Word)), atomOf f.1 x b c = f.2 := by
  simp [atomOf, BitVec.slt, BitVec.ult]

section

variable {s : State} {e : Nat} {p : Packet} {r : List Packet}

theorem targetAtom_runs (h : Serves s e p r) (hopc : p.opc = .atom) (hform : p.form ≤ 9) (hcheck : s.targetCheck e p.addr 8 false = none)
    (hecc : s.eccAt (plainOf p.addr) = .ok) (hpres : s.presAt (plainOf p.addr) ≠ .deferred) :
    Runs (.targetAtom e) s fun u => u.reqAt e = r ∧
      (u.ni e).outQ = (s.ni e).outQ ++ [respMsg p 0 (some (p.rtag, mkWide 0 (s.word (plainOf p.addr)))) false] ∧
      u.word (plainOf p.addr) = atomOf p.form (s.word (plainOf p.addr)) p.argB p.argC ∧
      ∀ b, b < plainOf p.addr ∨ plainOf p.addr + 8 ≤ b → u.byte b = s.byte b := by
  refine runs_unit h.unit rfl (fun _ _ h => h) ?_
  have hquiet := quiet_accessed s e p r true
  have hread : (s.accessed e p r true).readWord e (plainOf p.addr) = (s.word (plainOf p.addr), false, s.accessed e p r true) :=
    (readWord_ok (by rw [hquiet.eccAt]; exact hecc)).trans (by rw [hquiet.word]; rfl)
  have hpres' : ¬ (s.accessed e p r true).presAt (plainOf p.addr) = .deferred := by rw [hquiet.presAt]; exact hpres
  have heq : ∃ c, s.targetAtom e = (((s.accessed e p r true).store (plainOf p.addr) 8
      (atomOf p.form (s.word (plainOf p.addr)) p.argB p.argC).toNat).setEcc (plainOf p.addr) c).unitSend e
        (respMsg p 0 (some (p.rtag, mkWide 0 (s.word (plainOf p.addr)))) false) := by
    refine ⟨if atomPoison p.form (s.word (plainOf p.addr)) p.argC false p.dpsn then .poison else .ok, ?_⟩
    have htake : (fun q : Packet => q.opc == .atom && q.form != 10) p = true := by
      have hne : p.form ≠ 10 := by omega
      simp [hopc, hne]
    simp only [State.targetAtom, h.takeMem (f := fun q => q.opc == .atom && q.form != 10) htake (by rw [hopc]; rfl),
      show (s.setReqs e r).targetCheck e p.addr 8 false = none from hcheck]
    rw [show (s.setReqs e r).atTarget e p true = s.accessed e p r true from rfl, if_neg hpres', hread]
    simp only [answerValue_remote h.remote h.replies]
  obtain ⟨c, heq⟩ := heq
  obtain ⟨-, hother, hreq, hout⟩ := stored_spec (x := s.accessed e p r true) (e := e) (a := plainOf p.addr) (k := 8)
    (v := (atomOf p.form (s.word (plainOf p.addr)) p.argB p.argC).toNat) (c := c)
    (m := respMsg p 0 (some (p.rtag, mkWide 0 (s.word (plainOf p.addr)))) false)
  rw [heq]
  refine ⟨hreq.trans (accessed_reqAt true), hout.trans (by rw [accessed_ni]), ?_, fun b hb => (hother b hb).trans (hquiet.byte b)⟩
  exact storeWord_word (s.accessed e p r true) (plainOf p.addr) (atomOf p.form (s.word (plainOf p.addr)) p.argB p.argC) c

end

/-! The I-view. -/

theorem setPres_presAt (s : State) (a : Nat) (v : Presence) : (s.setPres a v).presAt a = v := by
  simp [State.presAt, State.setPres]

theorem setEcc_eccAt (s : State) (a : Nat) (c : Ecc) : (s.setEcc a c).eccAt a = c := by
  simp [State.eccAt, State.setEcc]

theorem Quiet.deferLevel {s t : State} (h : Quiet s t) (e : Nat) : t.deferLevel e = s.deferLevel e := by rw [h.rest]; rfl
theorem Quiet.scratchPe {s t : State} (h : Quiet s t) (e : Nat) : t.scratchPe e = s.scratchPe e := by rw [h.rest]; rfl

/-- The state in which an IWRITE has filled its word. -/
def State.wrote (s : State) (p : Packet) : State :=
  ((s.store (plainOf p.addr) 8 p.argB.toNat).setEcc (plainOf p.addr) (if p.dpsn then .poison else .ok)).setPres (plainOf p.addr) .full

section

variable {s : State} {e : Nat} {p q : Packet}

theorem wrote_spec (s : State) (p : Packet) : (s.wrote p).presAt (plainOf p.addr) = .full ∧ (s.wrote p).word (plainOf p.addr) = p.argB ∧
    ∀ b, b < plainOf p.addr ∨ plainOf p.addr + 8 ≤ b → (s.wrote p).byte b = s.byte b :=
  ⟨setPres_presAt .., storeWord_word s _ _ (if p.dpsn then .poison else .ok), fun b hb => store_byte_other s (plainOf p.addr) 8 p.argB.toNat b hb⟩

/-- A request that changes nothing but registers before it is answered. -/
theorem answered_spec {t : State} {m : Msg} (h : Quiet s t) : let u := t.unitSend e m
    u.reqAt e = s.reqAt e ∧ (u.ni e).outQ = (s.ni e).outQ ++ [m] ∧ u.mem = s.mem ∧ ∀ a, u.presAt a = s.presAt a :=
  ⟨h.reqAt e, by rw [unitSend_outQ, h.ni], h.mem, fun a => h.presAt a⟩

theorem serveIread_full (hcheck : s.targetCheck e p.addr 8 true = none) (hfull : s.presAt (plainOf p.addr) = .full)
    (hecc : s.eccAt (plainOf p.addr) = .ok) (hremote : p.src ≠ e) (hnr : p.nr = false) :
    s.serveIread e p = (s.atTarget e p false).unitSend e (respMsg p 0 (some (p.rtag, mkWide 0 (s.word (plainOf p.addr)))) false) := by
  have hquiet := quiet_atTarget s e p false
  have hread := readWord_ok (s := s.atTarget e p false) (e := e) (a := plainOf p.addr) (by rw [hquiet.eccAt]; exact hecc)
  simp only [State.serveIread, hcheck, hquiet.presAt, hfull, hread, hquiet.word, answerValue_remote hremote hnr]

theorem serveIread_defers {v : Bool} (hcheck : s.targetCheck e p.addr 8 true = none)
    (hpres : s.presAt (plainOf p.addr) = .empty ∨ s.presAt (plainOf p.addr) = .deferred) (hlevel : s.deferLevel e = some v) (hremote : p.src ≠ e) :
    s.serveIread e p = ((s.atTarget e p false).recordDefer e (plainOf p.addr) p v).unitSend e (respMsg p 2 none false) := by
  have hquiet := quiet_atTarget s e p false
  rcases hpres with hpres | hpres <;>
    simp only [State.serveIread, hcheck, hquiet.presAt, hpres, hquiet.deferLevel, hlevel, answer_remote hremote] <;> rfl

theorem serveIwrite_empty (hcheck : s.targetCheck e p.addr 8 true = none) (hpres : s.presAt (plainOf p.addr) = .empty) (hremote : p.src ≠ e)
    (hnr : p.nr = false) :
    s.serveIwrite e p false = ((s.atTarget e p true).wrote p).unitSend e (respMsg p 0 (some (p.rtag, statusVal 0 0)) false) := by
  have hquiet := quiet_atTarget s e p true
  simp only [State.serveIwrite, hcheck, hquiet.presAt, hpres, collides, Bool.false_and, Bool.false_eq_true, if_false, answerStatus_remote hremote hnr]
  rfl

/-- The state in which an IWRITE has filled its word and list l of deferred replies is due. -/
def State.releasing (s : State) (e : Nat) (p : Packet) (l : List Defer) (n : Option Nat) : State :=
  { (s.wrote p).unitSend e (respMsg p 0 (some (p.rtag, statusVal 0 0)) false) with
    rels := Tbl.set [] s.rels e (Tbl.get [] s.rels e ++ [⟨plainOf p.addr, p.argB, p.dpsn, l, 0, n⟩]) }

theorem releasing_spec (s : State) (e : Nat) (p : Packet) (l : List Defer) (n : Option Nat) : let u := s.releasing e p l n
    u.presAt (plainOf p.addr) = .full ∧ u.word (plainOf p.addr) = p.argB ∧ u.defers = s.defers ∧
      Tbl.get [] u.rels e = Tbl.get [] s.rels e ++ [⟨plainOf p.addr, p.argB, p.dpsn, l, 0, n⟩] := by
  obtain ⟨hfull, hword, -⟩ := wrote_spec s p
  exact ⟨hfull, hword, rfl, Tbl.get_set_same ..⟩

theorem serveIwrite_deferred (hcheck : s.targetCheck e p.addr 8 true = none) (hpres : s.presAt (plainOf p.addr) = .deferred) (hremote : p.src ≠ e)
    (hnr : p.nr = false) : ∃ n,
    s.serveIwrite e p false = ((s.atTarget e p true).setDefers (plainOf p.addr) []).releasing e p (Tbl.get [] s.defers (plainOf p.addr)) n := by
  have hquiet := quiet_atTarget s e p true
  simp only [State.serveIwrite, hcheck, hquiet.presAt, hpres, collides, Bool.false_and, Bool.false_eq_true, if_false, answerStatus_remote hremote hnr,
    hquiet.defers]
  exact ⟨_, rfl⟩

theorem serveIclr_eq (hcheck : s.targetCheck e p.addr 8 true = none) (hremote : p.src ≠ e) (hnr : p.nr = false) :
    ∀ f ∈ ([(.full, 0, .empty), (.empty, 1, .empty), (.deferred, 2, .deferred)] : List (Presence × Nat × Presence)),
      s.presAt (plainOf p.addr) = f.1 → ∃ t : State, (t.reqs = s.reqs ∧ t.nis = s.nis ∧ t.mem = s.mem ∧ t.presAt (plainOf p.addr) = f.2.2) ∧
        s.serveIclr e p = t.unitSend e (respMsg p 0 (some (p.rtag, statusVal f.2.1 0)) false) := by
  have hquiet := quiet_atTarget s e p true
  intro f hf hpres
  simp only [List.mem_cons, List.not_mem_nil, or_false] at hf
  have hsame := fun a => hquiet.presAt a
  rcases hf with rfl | rfl | rfl
  · refine ⟨(s.atTarget e p true).setPres (plainOf p.addr) .empty, ⟨hquiet.reqs, hquiet.nis, hquiet.mem, setPres_presAt ..⟩, ?_⟩
    simp only [State.serveIclr, hcheck, hsame, hpres, answerStatus_remote hremote hnr]
    rfl
  · refine ⟨s.atTarget e p true, ⟨hquiet.reqs, hquiet.nis, hquiet.mem, (hsame _).trans hpres⟩, ?_⟩
    simp only [State.serveIclr, hcheck, hsame, hpres, answerStatus_remote hremote hnr]
    rfl
  · refine ⟨s.atTarget e p true, ⟨hquiet.reqs, hquiet.nis, hquiet.mem, (hsame _).trans hpres⟩, ?_⟩
    simp only [State.serveIclr, hcheck, hsame, hpres, answerStatus_remote hremote hnr]
    rfl

end

end Sys2Proof.Machine
end

/-! Requests through the I-view. -/

section

namespace Sys2Proof.Machine

section

variable {s : State} {e : Nat} {p q : Packet} {r : List Packet}

/-- The IREAD, IWRITE or ATOM that waits first is served in the state without it. -/
theorem targetIread_eq (h : Serves s e p r) (hopc : p.opc = .iread) : s.targetIread e false = (s.setReqs e r).serveIread e p := by
  simp only [State.targetIread, h.takeMem (f := fun p => p.opc == .iread) (by rw [hopc]; rfl) (by rw [hopc]; rfl), Bool.false_eq_true, false_and,
    if_false]
  split <;> rfl

theorem targetIwrite_eq (h : Serves s e p r) (hopc : p.opc = .iwrite) : s.targetIwrite e false = (s.setReqs e r).serveIwrite e p false := by
  simp only [State.targetIwrite, h.takeMem (f := fun p => p.opc == .iwrite) (by rw [hopc]; rfl) (by rw [hopc]; rfl)]

theorem targetIclr_eq (h : Serves s e p r) (hopc : p.opc = .atom) (hform : p.form = 10) :
    s.targetIclr e false = (s.setReqs e r).serveIclr e p := by
  simp only [State.targetIclr, h.takeMem (f := fun p => p.opc == .atom && p.form == 10) (by simp [hopc, hform]) (by rw [hopc]; rfl),
    Bool.false_eq_true, false_and, if_false]
  split <;> rfl

theorem setReqs_reqAt (s : State) (e : Nat) (r : List Packet) : (s.setReqs e r).reqAt e = r := by simp

theorem targetIread_full (h : Serves s e p r) (hopc : p.opc = .iread) (hcheck : s.targetCheck e p.addr 8 true = none)
    (hfull : s.presAt (plainOf p.addr) = .full) (hecc : s.eccAt (plainOf p.addr) = .ok) :
    Runs (.targetIread ⟨e, false⟩) s fun u => u.reqAt e = r ∧
      (u.ni e).outQ = (s.ni e).outQ ++ [respMsg p 0 (some (p.rtag, mkWide 0 (s.word (plainOf p.addr)))) false] ∧
      u.presAt (plainOf p.addr) = .full := by
  refine runs_unit (f := fun s => s.targetIread e false) h.unit rfl (fun _ _ h => h) ?_
  obtain ⟨hreq, hout, -, hpres⟩ := answered_spec (e := e) (m := respMsg p 0 (some (p.rtag, mkWide 0 (s.word (plainOf p.addr)))) false)
    (quiet_atTarget (s.setReqs e r) e p false)
  show _ ∧ _
  rw [targetIread_eq h hopc, serveIread_full (s := s.setReqs e r) hcheck hfull hecc h.remote h.replies]
  exact ⟨hreq.trans (setReqs_reqAt ..), hout, (hpres _).trans hfull⟩

/-! Deferral. -/

/-- The state in which entry k of a level holds the deferral of request p against the word at a. -/
def State.listed (s : State) (a : Nat) (p : Packet) (ovf : Bool) (k : Nat) : State :=
  ((s.draw.2.setDefers a (Tbl.get [] s.defers a ++ [⟨p.rtag, p.src, ovf, false, k, false⟩])).setPres a .deferred).putWord a (Config.listWord s.free)

theorem listed_spec (s : State) (a : Nat) (p : Packet) (ovf : Bool) (k : Nat) : (s.listed a p ovf k).presAt a = .deferred ∧
    Tbl.get [] (s.listed a p ovf k).defers a = Tbl.get [] s.defers a ++ [⟨p.rtag, p.src, ovf, false, k, false⟩] ∧
    (s.listed a p ovf k).reqs = s.reqs ∧ (s.listed a p ovf k).nis = s.nis :=
  ⟨setPres_presAt (s.draw.2.setDefers a (Tbl.get [] s.defers a ++ [⟨p.rtag, p.src, ovf, false, k, false⟩])) a .deferred, Tbl.get_set_same .., rfl, rfl⟩

/-- The pool of a scratch keeps the reply tag, the overflow and the I-region have no word for it. -/
theorem recordDefer_cases (s : State) (e a : Nat) (p : Packet) (ovf : Bool) : ∃ k,
    (Quiet (s.listed a p ovf k) (s.recordDefer e a p ovf) ∧ ¬ (e < 64 ∧ ovf = false)) ∨
      ∃ x, Quiet (s.listed a p ovf k) x ∧ s.recordDefer e a p ovf = x.putWord (poolAt e k) p.rtag := by
  refine ⟨firstFree (s.deferSlots e ovf), ?_⟩
  have hcounted : ∀ t : State, Quiet t ((t.bump (aScStat e ssDEFER)).bump (aScStat e ssDEFOVF) ovf.toNat) := fun _ =>
    (quiet_bump ..).trans (quiet_bump ..)
  have hput : ∀ (t : State) (x : Nat), t.microPut e x p.rtag = (t.microTouch e (x % 0x80000)).putWord x p.rtag := fun _ _ => rfl
  unfold State.recordDefer State.listed
  by_cases he : e < 64
  · simp only [if_pos he]
    cases ovf with
    | true =>
      rw [if_pos rfl]
      exact .inl ⟨hcounted _, by simp⟩
    | false =>
      simp only [Bool.false_eq_true, if_false, hput]
      exact .inr ⟨_, (hcounted _).trans (quiet_microTouch ..), rfl⟩
  · simp only [if_neg he]
    exact .inl ⟨.refl _, fun h => he h.1⟩

/-- A deferral takes an entry of its level, in which the pool of a scratch keeps the reply tag. -/
theorem recordDefer_spec (s : State) (e a : Nat) (p : Packet) (ovf : Bool) : let u := s.recordDefer e a p ovf
    u.presAt a = .deferred ∧ u.reqs = s.reqs ∧ u.nis = s.nis ∧ ∃ k, Tbl.get [] u.defers a = Tbl.get [] s.defers a ++ [⟨p.rtag, p.src, ovf, false, k, false⟩] ∧
      (e < 64 → ovf = false → u.word (poolAt e k) = p.rtag) := by
  intro u
  obtain ⟨k, hcases⟩ := recordDefer_cases s e a p ovf
  obtain ⟨hpres, hdefers, hreqs, hnis⟩ := listed_spec s a p ovf k
  generalize s.listed a p ovf k = t at *
  rcases hcases with ⟨hquiet, hnot⟩ | ⟨x, hquiet, hu⟩
  · exact ⟨(hquiet.presAt a).trans hpres, hquiet.reqs.trans hreqs, hquiet.nis.trans hnis, k, (congrArg (Tbl.get [] · a) hquiet.defers).trans hdefers,
      fun he hv => absurd ⟨he, hv⟩ hnot⟩
  · rw [show u = _ from hu]
    exact ⟨(hquiet.presAt a).trans hpres, hquiet.reqs.trans hreqs, hquiet.nis.trans hnis, k, (congrArg (Tbl.get [] · a) hquiet.defers).trans hdefers,
      fun _ _ => putWord_word ..⟩

theorem targetIread_defers {v : Bool} (h : Serves s e p r) (hopc : p.opc = .iread) (hcheck : s.targetCheck e p.addr 8 true = none)
    (hpres : s.presAt (plainOf p.addr) = .empty ∨ s.presAt (plainOf p.addr) = .deferred) (hlevel : s.deferLevel e = some v) :
    Runs (.targetIread ⟨e, false⟩) s fun u => u.reqAt e = r ∧ u.presAt (plainOf p.addr) = .deferred ∧
      (∃ k, Tbl.get [] u.defers (plainOf p.addr) = Tbl.get [] s.defers (plainOf p.addr) ++ [⟨p.rtag, p.src, v, false, k, false⟩] ∧
        (e < 64 → v = false → u.word (poolAt e k) = p.rtag)) ∧
      (u.ni e).outQ = (s.ni e).outQ ++ [respMsg p 2 none false] := by
  refine runs_unit (f := fun s => s.targetIread e false) h.unit rfl (fun _ _ h => h) ?_
  have hquiet := quiet_atTarget (s.setReqs e r) e p false
  obtain ⟨hpresAt, hreqs, hnis, k, hdefers, hword⟩ := recordDefer_spec ((s.setReqs e r).atTarget e p false) e (plainOf p.addr) p v
  have hread : s.targetIread e false = _ := (targetIread_eq h hopc).trans (serveIread_defers (s := s.setReqs e r) hcheck hpres hlevel h.remote)
  show _ ∧ _
  rw [hread]
  refine ⟨?_, hpresAt, ⟨k, hdefers.trans (by rw [hquiet.defers]; rfl), hword⟩, ?_⟩
  · exact (congrArg (Tbl.get [] · e) (hreqs.trans hquiet.reqs)).trans (setReqs_reqAt s e r)
  · rw [unitSend_outQ, State.ni, hnis, hquiet.nis]
    rfl

/-! IWRITE and ICLR. -/

theorem wrote_ni (s : State) (p : Packet) : (s.wrote p).nis = s.nis ∧ (s.wrote p).reqs = s.reqs := ⟨rfl, rfl⟩

theorem targetIwrite_empty (h : Serves s e p r) (hopc : p.opc = .iwrite) (hcheck : s.targetCheck e p.addr 8 true = none)
    (hpres : s.presAt (plainOf p.addr) = .empty) :
    Runs (.targetIwrite e false) s fun u => u.reqAt e = r ∧ (u.ni e).outQ = (s.ni e).outQ ++ [respMsg p 0 (some (p.rtag, statusVal 0 0)) false] ∧
      u.presAt (plainOf p.addr) = .full ∧ u.word (plainOf p.addr) = p.argB ∧
      ∀ b, b < plainOf p.addr ∨ plainOf p.addr + 8 ≤ b → u.byte b = s.byte b := by
  refine runs_unit h.unit rfl (fun _ _ h => h) ?_
  have hquiet := quiet_atTarget (s.setReqs e r) e p true
  obtain ⟨hfull, hword, hother⟩ := wrote_spec ((s.setReqs e r).atTarget e p true) p
  rw [targetIwrite_eq h hopc, serveIwrite_empty (s := s.setReqs e r) hcheck hpres h.remote h.replies]
  refine ⟨(hquiet.reqAt e).trans (setReqs_reqAt s e r), ?_, hfull, hword, fun b hb => (hother b hb).trans (hquiet.byte b)⟩
  rw [unitSend_outQ, State.ni, (wrote_ni _ p).1, hquiet.nis]
  rfl

theorem targetIwrite_deferred (h : Serves s e p r) (hopc : p.opc = .iwrite) (hcheck : s.targetCheck e p.addr 8 true = none)
    (hpres : s.presAt (plainOf p.addr) = .deferred) (hrels : Tbl.get [] s.rels e = []) :
    Runs (.targetIwrite e false) s fun u => u.presAt (plainOf p.addr) = .full ∧ u.word (plainOf p.addr) = p.argB ∧
      Tbl.get [] u.defers (plainOf p.addr) = [] ∧
      ∃ n, Tbl.get [] u.rels e = [⟨plainOf p.addr, p.argB, p.dpsn, Tbl.get [] s.defers (plainOf p.addr), 0, n⟩] := by
  refine runs_unit h.unit rfl (fun _ _ h => h) ?_
  have hquiet := quiet_atTarget (s.setReqs e r) e p true
  obtain ⟨n, heq⟩ := serveIwrite_deferred (s := s.setReqs e r) hcheck hpres h.remote h.replies
  obtain ⟨hfull, hword, hdefers, hrel⟩ := releasing_spec (((s.setReqs e r).atTarget e p true).setDefers (plainOf p.addr) []) e p
    (Tbl.get [] (s.setReqs e r).defers (plainOf p.addr)) n
  have hnone : Tbl.get [] (((s.setReqs e r).atTarget e p true).setDefers (plainOf p.addr) []).rels e = [] :=
    (congrArg (Tbl.get [] · e) hquiet.rels).trans hrels
  rw [hnone] at hrel
  rw [targetIwrite_eq h hopc, heq]
  refine ⟨hfull, hword, ?_, n, hrel⟩
  rw [hdefers]
  simp [State.setDefers]

/-- A request of the module that is refused is answered FAULTED, and the handler of its context is told. -/
theorem refuse_handled {fc : FaultCode} {detail : Nat} (hmodule : p.src < 256) (hremote : p.src ≠ e) (h : s.handled p.issuerKey) :
    ∃ m, s.refuse e p fc detail = (s.unitSend e (respMsg p 3 none false)).unitSend e m ∧ m.fault = true ∧
      m.dest = peEndpoint (s.ctx p.issuerKey).hpe := by
  obtain ⟨m, hm, hfault, -, hdest⟩ := deliverTo_handled (s := s.unitSend e (respMsg p 3 none false)) (k := p.issuerKey) (pe := e) (ftag := p.rtag)
    (unit := true) (fc := fc) (off := 0) (detail := detail) h
  refine ⟨m, ?_, hfault, hdest⟩
  rw [State.refuse, if_neg (Nat.not_le.mpr hmodule), answer_remote hremote]
  exact hm

theorem serveIwrite_full (hcheck : s.targetCheck e p.addr 8 true = none) (hfull : s.presAt (plainOf p.addr) = .full) :
    s.serveIwrite e p false = (s.atTarget e p true).refuse e p .iDoubleWrite p.addr := by
  have hquiet := quiet_atTarget s e p true
  simp only [State.serveIwrite, hcheck, hquiet.presAt, hfull, collides, Bool.false_and, Bool.false_eq_true, if_false, State.refuseTarget,
    reduceCtorEq, false_and]

theorem targetIwrite_twice (h : Serves s e p r) (hopc : p.opc = .iwrite) (hcheck : s.targetCheck e p.addr 8 true = none)
    (hpres : s.presAt (plainOf p.addr) = .full) (hhandled : s.handled p.issuerKey) :
    Runs (.targetIwrite e false) s fun u => u.mem = s.mem ∧ u.presAt (plainOf p.addr) = .full ∧
      ∃ m, (u.ni e).outQ = (s.ni e).outQ ++ [respMsg p 3 none false, m] ∧ m.fault = true ∧ m.dest = peEndpoint (s.ctx p.issuerKey).hpe := by
  refine runs_unit h.unit rfl (fun _ _ h => h) ?_
  have hquiet := quiet_atTarget (s.setReqs e r) e p true
  have hctx : ∀ k, ((s.setReqs e r).atTarget e p true).ctx k = s.ctx k := fun k => hquiet.ctx k
  obtain ⟨m, hm, hfault, hdest⟩ := refuse_handled (s := (s.setReqs e r).atTarget e p true) (fc := .iDoubleWrite) (detail := p.addr) h.module h.remote
    (by rw [State.handled, hctx]; exact hhandled)
  rw [targetIwrite_eq h hopc, serveIwrite_full (s := s.setReqs e r) hcheck hpres, hm]
  refine ⟨hquiet.mem, (hquiet.presAt _).trans hpres, m, ?_, hfault, by rw [hdest, hctx]⟩
  rw [unitSend_outQ, unitSend_outQ, hquiet.ni, List.append_assoc]
  rfl

theorem targetIclr_runs (h : Serves s e p r) (hopc : p.opc = .atom) (hform : p.form = 10) (hcheck : s.targetCheck e p.addr 8 true = none) :
    ∀ f ∈ ([(.full, 0, .empty), (.empty, 1, .empty), (.deferred, 2, .deferred)] : List (Presence × Nat × Presence)),
      s.presAt (plainOf p.addr) = f.1 → Runs (.targetIclr ⟨e, false⟩) s fun u => u.reqAt e = r ∧
        (u.ni e).outQ = (s.ni e).outQ ++ [respMsg p 0 (some (p.rtag, statusVal f.2.1 0)) false] ∧ u.presAt (plainOf p.addr) = f.2.2 ∧
        u.mem = s.mem := by
  intro f hf hpres
  refine runs_unit (f := fun s => s.targetIclr e false) h.unit rfl (fun _ _ h => h) ?_
  obtain ⟨t, ⟨hreqs, hnis, hmem, hafter⟩, heq⟩ := serveIclr_eq (s := s.setReqs e r) hcheck h.remote h.replies f hf hpres
  show _ ∧ _
  rw [targetIclr_eq h hopc hform, heq]
  refine ⟨(congrArg (Tbl.get [] · e) hreqs).trans (setReqs_reqAt s e r), ?_, hafter, hmem⟩
  rw [unitSend_outQ, State.ni, hnis]
  rfl

end

end Sys2Proof.Machine
end

/-! An IREAD and an IWRITE of one word in one cycle (R71). -/

section

namespace Sys2Proof.Machine

/-- The size of the overflow area is none of the registers that an access changes. -/
theorem offScratch_ovfSize : ∀ c < 64, OffScratch c (aOvfSize c) := by
  have hctl : ∀ c < 64, aOvfSize c ≠ aScCtl c ∧ aOvfSize c ≠ aScRet c ∧ (∀ i < 16, aOvfSize c ≠ aScStat c i) ∧
      ∀ m < 6, aOvfSize c ≠ aScConflict c m := by decide +kernel
  exact fun c hc => ⟨(hctl c hc).1, (hctl c hc).2.1, (hctl c hc).2.2.1, (hctl c hc).2.2.2⟩

theorem atTarget_ovfSize {e : Nat} (s : State) (p : Packet) (w : Bool) (he : e < 64) : (s.atTarget e p w).reg (aOvfSize e) = s.reg (aOvfSize e) := by
  have hoff := offScratch_ovfSize e he
  rw [State.atTarget, if_pos he, touchScratch_reg_off hoff he]
  exact keep_ite (P := fun u : State => u.reg (aOvfSize e) = s.reg (aOvfSize e)) rfl (serveBank_reg_off hoff he)

/-- An address above module memory has its class whatever the registers hold. -/
theorem classify_congr {s : State} (t : State) {a : Nat} (h : ¬ a < 28 * 2 ^ 30) : t.classify a = s.classify a := by
  simp only [State.classify, if_neg h]

theorem classify_low {s : State} {a : Nat} (h : a < 28 * 2 ^ 30) : s.classify a = .mem ∨ s.classify a = .barred := by
  simp only [State.classify, if_pos h]
  exact (Classical.em (a < s.deepBase)).imp (fun hb => if_pos hb) fun hb => if_neg hb

/-- A class of scratch is that of a cluster. -/
theorem classify_scrI {s : State} {a c : Nat} (h : s.classify a = .scrI c) : c < 64 := by
  unfold State.classify at h
  simp only at h
  split at h
  · split at h <;> cases h
  split at h
  · cases h
  split at h
  · split at h
    · cases h
    · cases h
      omega
  split at h
  · split at h <;> cases h
  split at h
  · split at h <;> cases h
  split at h
  · cases h
  split at h <;> cases h

/-- What passes the checks of the I-view does so in every state in which the overflow area is as large. -/
theorem targetCheck_congr {s t : State} {e a : Nat} (hsize : e < 64 → t.reg (aOvfSize e) = s.reg (aOvfSize e))
    (h : s.targetCheck e a 8 true = none) : t.targetCheck e a 8 true = none := by
  by_cases hlow : a < 28 * 2 ^ 30
  · rcases classify_low (s := s) hlow with hc | hc <;> simp [State.targetCheck, hc] at h
  · have hclass := classify_congr (s := s) t hlow
    unfold State.targetCheck at h ⊢
    rw [hclass]
    cases hc : s.classify a with
    | scrI c =>
      rw [hc] at h
      by_cases hown : c = e
      · have hreserved : t.reservedArea c (a % 0x80000) = s.reservedArea c (a % 0x80000) := by
          rw [State.reservedArea, State.reservedArea, State.rfld, State.rfld, hown, hsize (hown ▸ classify_scrI hc)]
        simp only [hreserved]
        exact h
      · simp [hown] at h
    | mem => rw [hc] at h; exact h
    | memI => rw [hc] at h; exact h
    | scr c => rw [hc] at h; simp at h
    | tbNow => rw [hc] at h; exact h
    | barred => rw [hc] at h; exact h
    | none => rw [hc] at h; exact h

section

variable {s : State} {e : Nat} {p q : Packet}

/-- The word is filled first, then read. -/
theorem serveIwrite_serveIread (hcheck : s.targetCheck e p.addr 8 true = none) (haddr : q.addr = p.addr) (hpres : s.presAt (plainOf p.addr) = .empty)
    (hremote : p.src ≠ e) (hnr : p.nr = false) (hremote' : q.src ≠ e) (hnr' : q.nr = false) (hclean : q.dpsn = false) :
    let u := (s.serveIwrite e q false).serveIread e p
    u.reqAt e = s.reqAt e ∧ u.presAt (plainOf p.addr) = .full ∧ u.word (plainOf p.addr) = q.argB ∧
      (u.ni e).outQ = (s.ni e).outQ ++ [respMsg q 0 (some (q.rtag, statusVal 0 0)) false, respMsg p 0 (some (p.rtag, mkWide 0 q.argB)) false] := by
  have hquiet := quiet_atTarget s e q true
  have hfilled : ∃ t : State, s.serveIwrite e q false = t ∧ t.targetCheck e p.addr 8 true = none ∧ t.presAt (plainOf p.addr) = .full ∧
      t.eccAt (plainOf p.addr) = .ok ∧ t.word (plainOf p.addr) = q.argB ∧ t.reqAt e = s.reqAt e ∧
      (t.ni e).outQ = (s.ni e).outQ ++ [respMsg q 0 (some (q.rtag, statusVal 0 0)) false] := by
    obtain ⟨hfull, hword, -⟩ := wrote_spec (s.atTarget e q true) q
    have hecc : ((s.atTarget e q true).wrote q).eccAt (plainOf q.addr) = .ok := by
      refine (setEcc_eccAt ..).trans ?_
      rw [hclean]; rfl
    rw [haddr] at hfull hword hecc
    refine ⟨_, serveIwrite_empty (by rw [haddr]; exact hcheck) (by rw [haddr]; exact hpres) hremote' hnr', ?_, hfull, hecc, hword, hquiet.reqAt e, ?_⟩
    · exact targetCheck_congr (fun he => atTarget_ovfSize s q true he) hcheck
    · rw [unitSend_outQ, State.ni, (wrote_ni _ q).1, hquiet.nis]
      rfl
  obtain ⟨t, ht, hcheck', hfull, hecc, hword, hreq, hout⟩ := hfilled
  have hread := quiet_atTarget t e p false
  intro u
  have hu : u = (t.atTarget e p false).unitSend e (respMsg p 0 (some (p.rtag, mkWide 0 q.argB)) false) := by
    rw [← hword, ← serveIread_full hcheck' hfull hecc hremote hnr, ← ht]
  rw [hu]
  refine ⟨(hread.reqAt e).trans hreq, (hread.presAt _).trans hfull, (hread.word _).trans hword, ?_⟩
  rw [unitSend_outQ, hread.ni, hout, List.append_assoc]
  rfl

theorem targetIread_meets (h : Serves s e p [q]) (hopc : p.opc = .iread) (hcheck : s.targetCheck e p.addr 8 true = none)
    (hpres : s.presAt (plainOf p.addr) = .empty) (hopc' : q.opc = .iwrite) (haddr : q.addr = p.addr) (hnr : q.nr = false) (hremote : q.src ≠ e)
    (hclean : q.dpsn = false) :
    Runs (.targetIread ⟨e, true⟩) s fun u => u.reqAt e = [] ∧ u.presAt (plainOf p.addr) = .full ∧ u.word (plainOf p.addr) = q.argB ∧
      (u.ni e).outQ = (s.ni e).outQ ++ [respMsg q 0 (some (q.rtag, statusVal 0 0)) false, respMsg p 0 (some (p.rtag, mkWide 0 q.argB)) false] := by
  refine runs_unit (f := fun s => s.targetIread e true) h.unit rfl (fun _ _ h => h) ?_
  have hmeets : (s.setReqs e [q]).meets e p (fun q => q.opc == .iwrite) = some q := by
    simp [State.meets, hopc', haddr]
  have hdrop : (s.setReqs e [q]).dropReq e q = (s.setReqs e [q]).setReqs e [] := by simp [State.dropReq]
  have heq : s.targetIread e true = (((s.setReqs e [q]).setReqs e []).serveIwrite e q false).serveIread e p := by
    simp only [State.targetIread, h.takeMem (f := fun p => p.opc == .iread) (by rw [hopc]; rfl) (by rw [hopc]; rfl), hmeets]
    rw [hdrop, if_pos ⟨trivial, hpres⟩]
  obtain ⟨hreq, hfull, hword, hout⟩ := serveIwrite_serveIread (s := (s.setReqs e [q]).setReqs e []) (q := q) hcheck haddr hpres h.remote h.replies
    hremote hnr hclean
  show _ ∧ _
  rw [heq]
  exact ⟨hreq.trans (setReqs_reqAt ..), hfull, hword, hout⟩

end

/-! Release of a deferred reply. -/

section

variable {s : State} {e : Nat} {q : Release} {d : Defer}

theorem sameStorm_microTouch (s : State) (he : e < 64) (o : Nat) : SameStorm s (s.microTouch e o) :=
  ((SameStorm.refl s).serveBank he).touchScratch he

theorem microRead_good {a : Nat} (he : e < 64) (h : s.eccAt a = .ok) :
    (s.microRead e a).1 = true ∧ Quiet s (s.microRead e a).2 ∧ s.stormIn (s.microRead e a).2 = false := by
  have hquiet := quiet_microTouch s e (a % 0x80000)
  have hecc : (s.microTouch e (a % 0x80000)).eccAt a = .ok := (hquiet.eccAt a).trans h
  simp only [State.microRead, hecc]
  exact ⟨trivial, hquiet, (sameStorm_microTouch s he _).stormIn⟩

/-- An entry that can be read is, and no error is counted. -/
theorem readDefer_good (hread : e < 64 → d.ovf = false → s.eccAt (poolAt e d.slot) = .ok) (hbad : d.bad = false) :
    (s.readDefer e d).1 = true ∧ Quiet s (s.readDefer e d).2 ∧ s.stormIn (s.readDefer e d).2 = false := by
  unfold State.readDefer
  by_cases hpool : e < 64 ∧ (!d.ovf) = true
  · obtain ⟨he, hovf⟩ := hpool
    rw [if_pos ⟨he, hovf⟩]
    exact microRead_good he (hread he (by simpa using hovf))
  · rw [if_neg hpool, if_neg (by simp [hbad])]
    exact ⟨rfl, .refl s, (SameStorm.refl s).stormIn⟩

theorem deferredReplyRelease_runs (he : e < 70) (hrels : Tbl.get [] s.rels e = [q]) (hpe : q.pe = none) (hlist : q.list = [d]) (hvoid : d.void = false)
    (hmodule : d.ep < 256) (hpoison : q.poison = false) (hread : e < 64 → d.ovf = false → s.eccAt (poolAt e d.slot) = .ok) (hbad : d.bad = false) :
    Runs (.deferredReplyRelease e) s fun u => Tbl.get [] u.rels e = [] ∧
      (u.ni e).outQ = (s.ni e).outQ ++ [tokenMsg (peEndpoint (tPe d.tag)) d.tag (mkWide 0 q.val) 0 .none] := by
  refine runs_unit he rfl (fun _ _ h => h) ?_
  obtain ⟨hgood, hquiet, hstorm⟩ := readDefer_good hread hbad
  have hlocal : ¬ 256 ≤ d.ep := Nat.not_le.mpr hmodule
  have hfind : [q].find? (fun r => true && !(r.pe.any fun n => (s.pe n).halt == .halted)) = some q := by simp [hpe]
  have hdrop : q.list.dropWhile (fun d => d.void) = d :: [] := by simp [hlist, hvoid]
  have heq : s.releaseOne e = { (s.readDefer e d).2 with rels := Tbl.set [] (s.readDefer e d).2.rels e [] }.unitSend e
      (tokenMsg (peEndpoint (tPe d.tag)) d.tag (mkWide 0 q.val) 0 .none) := by
    simp only [State.releaseOne, State.releaseNext, hrels, hfind, hdrop, hstorm, hgood, Bool.false_eq_true, if_false, if_true, State.sendDeferred, hpoison,
      if_neg hlocal]
    simp
  rw [heq]
  refine ⟨Tbl.get_set_same (α := List Release) [] (s.readDefer e d).2.rels e [], ?_⟩
  rw [unitSend_outQ, State.ni, hquiet.nis]
  rfl

end

/-- Settles O37: each clause is what the target does with the one request it takes, in the state without it. -/
theorem memoryTargets : Obligations.MemoryTargets := by
  unfold Obligations.MemoryTargets
  intro s e p r he htime hreq hnr hremote hmodule hturn
  have h : Serves s e p r := ⟨he, hreq, hnr, hremote, hmodule, hturn⟩
  refine ⟨fun hopc hcheck hecc hpres hwide halign => targetRead_runs h htime hopc hcheck hecc hpres hwide halign,
    fun hopc hcheck hecc hpres _ _ => targetWrite_runs h hopc hcheck hecc hpres, ?atom, fun hcheck => ⟨?full, ?defers, ?meets, ?empty, ?deferred, ?twice, ?iclr⟩, ?release⟩
  case atom =>
    intro hopc hform hcheck hecc hpres _ x b f hf hformf
    have hruns := targetAtom_runs h hopc hform hcheck hecc hpres
    rw [hformf, atomOf_spec _ _ _ f hf] at hruns
    exact hruns
  case full => exact fun hopc hfull hecc => targetIread_full h hopc hcheck hfull hecc
  case defers => exact fun v hopc hpres hlevel => targetIread_defers h hopc hcheck hpres hlevel
  case meets =>
    intro q hopc hpres hr hopc' haddr hnr' hremote' _ hclean
    subst hr
    exact targetIread_meets h hopc hcheck hpres hopc' haddr hnr' hremote' hclean
  case empty => exact fun hopc hpres => targetIwrite_empty h hopc hcheck hpres
  case deferred => exact fun hopc hpres hrels => targetIwrite_deferred h hopc hcheck hpres hrels
  case twice => exact fun hopc hpres hhandled => targetIwrite_twice h hopc hcheck hpres hhandled
  case iclr => exact fun hopc hform => targetIclr_runs h hopc hform hcheck
  case release =>
    exact fun q d hrels hpe hlist hvoid hep hpoison hread hbad => deferredReplyRelease_runs he hrels hpe hlist hvoid hep hpoison hread hbad

end Sys2Proof.Machine
end

/-! # O29: what a PE reset leaves -/

section

namespace Sys2Proof.Machine

/-! The registers that say where the save frames stand are not among those that a reset changes. -/

theorem bump_reg_other {s : State} {a k r : Nat} (hr : r ≠ a) (hctl : ∀ c, statCtlOf a = some c → r ≠ c) : (s.bump a k).reg r = s.reg r := by
  have hset : (s.setRfld a 47 0 (satAdd 48 (s.rfld a 47 0) k)).reg r = s.reg r := setRfld_reg_other hr
  refine keep_ite (P := fun t : State => t.reg r = s.reg r) hset ?_
  cases hc : statCtlOf a with
  | none => exact (noteFull_reg_of_noCtl hc r).trans hset
  | some c =>
    rw [noteFull_ctl _ a c hc]
    exact keep_ite (P := fun t : State => t.reg r = s.reg r) hset ((log_reg ..).trans ((setRfld_reg_other (hctl c hc)).trans hset))

/-- r is none of the registers that name the save frames of a PE. -/
def NoSaveBase (r : Nat) : Prop := ∀ m < 272, aPeSaveBase m ≠ r

theorem saveBase_place : ∀ m < 272, aPeSaveBase m % 0x100 = 8 ∧ aPeSaveBase m % 0x10000 < 0x1000 := by decide +kernel

theorem noSaveBase_of_low {r : Nat} (h : r % 0x100 ≠ 8) : NoSaveBase r := fun m hm hr => h (hr ▸ (saveBase_place m hm).1)
theorem noSaveBase_of_high {r : Nat} (h : 0x1000 ≤ r % 0x10000) : NoSaveBase r := fun m hm hr =>
  absurd (hr ▸ (saveBase_place m hm).2) (Nat.not_lt.mpr h)

theorem noSaveBase_pe : ∀ n < 272, NoSaveBase (aPeRqDepth n) ∧ NoSaveBase (aPeUcodeRev n) ∧ NoSaveBase (aPeUcodeSum n) := by
  have hlow : ∀ n < 272, aPeRqDepth n % 0x100 ≠ 8 ∧ aPeUcodeRev n % 0x100 ≠ 8 ∧ aPeUcodeSum n % 0x100 ≠ 8 := by decide +kernel
  exact fun n hn => ⟨noSaveBase_of_low (hlow n hn).1, noSaveBase_of_low (hlow n hn).2.1, noSaveBase_of_low (hlow n hn).2.2⟩

theorem noSaveBase_umatch : ∀ n < 272, ∀ k < 32, NoSaveBase (aPeUmatch n k) := by
  have hhigh : ∀ n < 272, ∀ k < 32, 0x1000 ≤ aPeUmatch n k % 0x10000 := by decide +kernel
  exact fun n hn k hk => noSaveBase_of_high (hhigh n hn k hk)

theorem noSaveBase_cancelled : ∀ n < 272, NoSaveBase (aPeStat n psCANCELLED) ∧ ∀ c, statCtlOf (aPeStat n psCANCELLED) = some c → NoSaveBase c := by
  have hplace : ∀ n < 272, 0x1000 ≤ aPeStat n psCANCELLED % 0x10000 ∧ statCtlOf (aPeStat n psCANCELLED) = some (aPeStatCtl n) ∧
      aPeStatCtl n % 0x100 ≠ 8 := by decide +kernel
  intro n hn
  obtain ⟨hhigh, hctl, hlow⟩ := hplace n hn
  refine ⟨noSaveBase_of_high hhigh, fun c hc => ?_⟩
  rw [hctl] at hc
  exact Option.some.inj hc ▸ noSaveBase_of_low hlow

theorem noSaveBase_lock : ∀ i < 7, NoSaveBase (aLkStat i) ∧ ∀ c, statCtlOf (aLkStat i) = some c → NoSaveBase c := by
  have hplace : ∀ i < 7, (∀ m < 272, aPeSaveBase m ≠ aLkStat i ∧ aPeSaveBase m ≠ aLkStatCtl) ∧ statCtlOf (aLkStat i) = some aLkStatCtl := by
    decide +kernel
  intro i hi
  obtain ⟨hne, hctl⟩ := hplace i hi
  refine ⟨fun m hm => (hne m hm).1, fun c hc => ?_⟩
  rw [hctl] at hc
  exact Option.some.inj hc ▸ fun m hm => (hne m hm).2

theorem noSaveBase_ucodeStatus : NoSaveBase aUcodeStatus := by unfold NoSaveBase; decide +kernel
theorem noSaveBase_press : NoSaveBase aPressStatus := by unfold NoSaveBase; decide +kernel

theorem saveBase_noGate {m : Nat} (hm : m < 272) : ¬ gateReg (aPeSaveBase m) := by
  have hdrop : NoSaveBase aHaltDrop := by unfold NoSaveBase; decide +kernel
  have hstat : ∀ e < 64, ∀ i < 8, 0x1000 ≤ aCmStat e i % 0x10000 := by decide +kernel
  rintro (h | h | ⟨e, he, i, hi, h⟩)
  · exact noSaveBase_press m hm h
  · exact hdrop m hm h
  · exact noSaveBase_of_high (hstat e he i hi) m hm h

/-! What a reset keeps. -/

/-- Nothing runs or waits in a PE, or is held there of its own. -/
structure Pe.Emptied (p : Pe) : Prop where
  lookups : p.lookups = []
  recs : p.recs = []
  fillBuf : p.fillBuf = []
  ready : p.ready = []
  backlog : p.backlog = []
  shadow : p.shadow = none
  act : p.act = none
  frames : p.frames = []
  outQ : p.outQ = []
  laccs : p.laccs = []
  laccSaved : p.laccSaved = []

/-- Nothing is left to clear in it. -/
theorem Pe.Emptied.cleared {p : Pe} (h : p.Emptied) :
    { p with ready := [], backlog := [], recs := [], lookups := [], fillBuf := [], laccSaved := [], frames := [], shadow := none } = p := by
  obtain ⟨hlookups, hrecs, hfill, hready, hback, hshadow, -, hframes, -, -, hsaved⟩ := h
  cases p
  simp_all

theorem emptied_discard (p : Pe) : p.discard.Emptied := ⟨rfl, rfl, rfl, rfl, rfl, rfl, rfl, rfl, rfl, rfl, rfl⟩

/-- PEs ns, and no others, may have been emptied between s and t: a PE is as before but for its micro-sequencer, or it is empty with its input and
its kill filter as before. Of memory only the words that say that frames of ns are in use change, gates and instruction memory stay, and no event
record is lost. -/
structure Resets (ns : List Nat) (s t : State) : Prop where
  pe : ∀ m, t.pe m = { s.pe m with useq := (t.pe m).useq } ∨
    ((t.pe m).Emptied ∧ (t.pe m).inbox = (s.pe m).inbox ∧ (t.pe m).killFilter = (s.pe m).killFilter)
  imem : t.imem = s.imem
  gate : ∀ e, (t.cm e).gate = (s.cm e).gate
  base : ∀ m < 272, t.reg (aPeSaveBase m) = s.reg (aPeSaveBase m)
  coll : ∀ k, ∀ x ∈ Tbl.get [] s.coll k, x ∈ Tbl.get [] t.coll k
  byte : ∀ a, (∀ n ∈ ns, ¬ s.KindWord n a) → t.byte a = s.byte a

namespace Resets

variable {ns ms : List Nat} {s t u : State}

theorem refl (s : State) : Resets [] s s := ⟨fun _ => .inl rfl, rfl, fun _ => rfl, fun _ _ => rfl, fun _ _ h => h, fun _ _ => rfl⟩

theorem frameAddr (h : Resets ns s t) {n : Nat} (hn : n < 272) (f : Nat) : t.frameAddr n f = s.frameAddr n f := by
  rw [State.frameAddr, State.frameAddr, State.rfld, State.rfld, pairPe_of_lt hn, h.base n hn]

/-- An emptied PE has no frame in use, another the frames it had. -/
theorem kindWord (h : Resets ns s t) {n a : Nat} (hn : n < 272) (hkind : t.KindWord n a) : s.KindWord n a := by
  obtain ⟨x, hx, hsome, hlow, hhigh⟩ := hkind
  rw [h.frameAddr hn] at hlow hhigh
  rcases h.pe n with hpe | ⟨hempty, -⟩
  · rw [hpe] at hx
    exact ⟨x, hx, hsome, hlow, hhigh⟩
  · rw [hempty.frames] at hx
    exact absurd hx List.not_mem_nil

theorem emptied (h : Resets ns s t) {m : Nat} (hempty : (s.pe m).Emptied) : (t.pe m).Emptied := by
  rcases h.pe m with hpe | ⟨hdone, -⟩
  · rw [hpe]
    exact { hempty with }
  · exact hdone

theorem trans (h : Resets ns s t) (g : Resets ms t u) (hms : ∀ n ∈ ms, n < 272) : Resets (ns ++ ms) s u where
  pe m := by
    rcases g.pe m with hpe | ⟨hempty, hinbox, hfilter⟩
    · rcases h.pe m with hpe' | ⟨hempty', hinbox', hfilter'⟩
      · exact .inl (by rw [hpe, hpe'])
      · exact .inr ⟨g.emptied hempty', by rw [hpe]; exact hinbox', by rw [hpe]; exact hfilter'⟩
    · have hkept : (t.pe m).inbox = (s.pe m).inbox ∧ (t.pe m).killFilter = (s.pe m).killFilter := by
        rcases h.pe m with hpe' | ⟨-, hsame⟩
        · rw [hpe']; exact ⟨rfl, rfl⟩
        · exact hsame
      exact .inr ⟨hempty, hinbox.trans hkept.1, hfilter.trans hkept.2⟩
  imem := g.imem.trans h.imem
  gate e := (g.gate e).trans (h.gate e)
  base m hm := (g.base m hm).trans (h.base m hm)
  coll k x hx := g.coll k x (h.coll k x hx)
  byte a ha := (g.byte a fun n hn hkind => ha n (List.mem_append_right ns hn) (h.kindWord (hms n hn) hkind)).trans
    (h.byte a fun n hn => ha n (List.mem_append_left ms hn))

/-- Steps that empty no PE follow each other. -/
theorem andThen (h : Resets ns s t) (g : Resets [] t u) : Resets ns s u := by
  have := h.trans g (by simp)
  rwa [List.append_nil] at this

/-- Emptied PEs were reset. -/
theorem wasReset (h : Resets ns s t) {n : Nat} (hempty : (t.pe n).Emptied) : PeWasReset s t n := by
  have hkept : (t.pe n).inbox = (s.pe n).inbox ∧ (t.pe n).killFilter = (s.pe n).killFilter := by
    rcases h.pe n with hpe | ⟨-, hsame⟩
    · rw [hpe]; exact ⟨rfl, rfl⟩
    · exact hsame
  exact ⟨hempty.act, hempty.recs, hempty.ready, hempty.backlog, hempty.frames, hempty.outQ, hempty.laccs, hkept.1, hkept.2, h.imem⟩

end Resets

theorem Quiet.resets {s t : State} (h : Quiet s t) (hbase : ∀ m < 272, t.reg (aPeSaveBase m) = s.reg (aPeSaveBase m)) : Resets [] s t where
  pe m := .inl (by rw [h.pe])
  imem := h.imem
  gate e := by rw [h.cm]
  base := hbase
  coll := h.coll
  byte a _ := h.byte a

section

variable {s : State}

theorem resets_setReg {r : Nat} (hr : NoSaveBase r) (v : Word) : Resets [] s (s.setReg r v) :=
  (quiet_setReg ..).resets fun m hm => by rw [State.reg_setReg, if_neg (hr m hm)]
theorem resets_setRfld {r hi lo v : Nat} (hr : NoSaveBase r) : Resets [] s (s.setRfld r hi lo v) := resets_setReg hr _
theorem resets_log (e : Nat) (ev : Ev) (sev : Sev) (d : Word) (pe ctx : Option Nat) (psn : Bool) : Resets [] s (s.log e ev sev d pe ctx psn) :=
  (quiet_log ..).resets fun _ _ => log_reg ..
theorem resets_logFree (e : Nat) (ev : Ev) (sev : Sev) (pe ctx : Option Nat) : Resets [] s (s.logFree e ev sev pe ctx) :=
  (quiet_logFree ..).resets fun _ _ => logFree_reg ..
theorem resets_bump {r k : Nat} (hr : NoSaveBase r) (hctl : ∀ c, statCtlOf r = some c → NoSaveBase c) : Resets [] s (s.bump r k) :=
  (quiet_bump ..).resets fun m hm => bump_reg_other (hr m hm) fun c hc => hctl c hc m hm
theorem resets_draw : Resets [] s s.draw.2 := { Resets.refl s with }

theorem resets_updUseq (n : Nat) (f : Useq → Useq) : Resets [] s (s.updUseq n f) := by
  refine { Resets.refl s with pe := fun m => .inl ?_ }
  by_cases h : pairPe m = pairPe n
  · have hm : s.pe m = s.pe n := by unfold State.pe; rw [h]
    simp [State.updUseq, State.updPe, h, hm]
  · simp [State.updUseq, State.updPe, h]

/-! Locks (R418). -/

theorem resets_setLock (n : Nat) (l : Lock) : Resets [] s (s.setLock n l) := { Resets.refl s with }
theorem resets_unitSend (e : Nat) (m : Msg) : Resets [] s (s.unitSend e m) := { Resets.refl s with }
theorem resets_bumpLk {i : Nat} (hi : i < 7) : Resets [] s (s.bumpLk i) := resets_bump (noSaveBase_lock i hi).1 (noSaveBase_lock i hi).2

theorem resets_sendBoost (n : Nat) (w : Waiter) (level : Option Nat) : Resets [] s (s.sendBoost n w level) :=
  keep_ite (keep_ite ((resets_unitSend ..).andThen (resets_bumpLk (by decide))) (resets_unitSend ..)) (.refl s)

theorem resets_boostUpdate (n : Nat) : Resets [] s (s.boostUpdate n) := by
  unfold State.boostUpdate
  simp only
  cases (s.lock n).holder with
  | none => exact .refl s
  | some h => exact keep_ite (.refl s) ((resets_setLock ..).andThen (resets_sendBoost ..))

theorem resets_nextHolder (n : Nat) : Resets [] s (s.nextHolder n) := by
  unfold State.nextHolder
  simp only
  cases firstWaiter (s.lock n).waiters with
  | none => exact .refl s
  | some w =>
    exact ((((resets_setLock ..).andThen (resets_setLock ..)).andThen (resets_bumpLk (by decide))).andThen (resets_unitSend ..)).andThen (resets_boostUpdate _)

theorem resets_endHold (n : Nat) (abandoned : Bool) : Resets [] s (s.endHold n abandoned) := by
  unfold State.endHold
  simp only
  cases (s.lock n).holder with
  | none => exact .refl s
  | some h => exact ((keep_ite (resets_sendBoost ..) (.refl s)).andThen (resets_setLock ..)).andThen (resets_nextHolder _)

theorem resets_abandon (n : Nat) (expired : Bool) : Resets [] s (s.abandon n expired) := by
  unfold State.abandon
  cases (s.lock n).holder with
  | none => exact .refl s
  | some h => exact ((keep_ite (resets_log ..) (resets_logFree ..)).andThen (resets_bumpLk (by decide))).andThen (resets_endHold ..)

theorem resets_dropHolders (holds waits : Waiter → Bool) : Resets [] s (s.dropHolders holds waits) :=
  List.foldlRecOn _ _ (.refl s) fun _ h _ _ => (h.andThen (resets_setLock ..)).andThen (keep_ite (resets_abandon ..) (resets_boostUpdate _))

/-! Patches (R449). -/

theorem resets_setUmatch {n : Nat} (hn : n < 272) (on : Bool) (l : List (Nat × Nat)) : Resets [] s (s.setUmatch n on l) := by
  refine List.foldlRecOn _ _ (.refl s) fun t h k hk => ?_
  have hreg := noSaveBase_umatch n hn k (List.mem_range.mp hk)
  split <;> exact h.andThen (resets_setReg hreg _)

theorem resets_loadPatch {n : Nat} (hn : n < 272) : Resets [] s (s.loadPatch n) := by
  obtain ⟨-, hrev, hsum⟩ := noSaveBase_pe n hn
  unfold State.loadPatch
  extract_lets rev ram
  have hram : ∀ t, Resets [] s (ram s t) := fun t => resets_updUseq n (fun u => { u with patch := t })
  split
  · exact ((hram _).andThen (resets_setUmatch hn ..)).andThen (resets_setReg hrev _)
  · extract_lets t d u
    have hu : Resets [] s u := (((hram _).andThen (resets_setUmatch hn ..)).andThen (resets_setReg hsum _)).andThen resets_draw
    refine keep_ite (((hu.andThen (resets_setReg hrev _)).andThen (resets_setRfld noSaveBase_ucodeStatus)).andThen (resets_logFree ..))
      ((hu.andThen (resets_setUmatch hn ..)).andThen (resets_setReg hrev _))

/-! Pressure and kills. -/

theorem resets_pressureCheck (hgate : ∀ e, (s.cm e).gate = []) : Resets [] s s.pressureCheck :=
  (quiet_pressureCheck (.inr hgate)).resets fun _ hm => (gateMoves_pressureCheck s).reg _ (saveBase_noGate hm)

theorem resets_updKill (k : Nat) (f : Kill → Kill) : Resets [] s (s.updKill k f) := by
  refine { Resets.refl s with gate := fun e => ?_ }
  by_cases h : e = ctxOwner k
  · subst h; simp [State.updKill, State.updCm]
  · simp [State.updKill, State.updCm, h]

/-! KILLs that were not served (R451). -/

theorem resets_setPe_same {n : Nat} {p : Pe} (hp : p = s.pe n) : Resets [] s (s.setPe n p) := by
  refine { Resets.refl s with pe := fun m => .inl ?_ }
  by_cases h : pairPe m = pairPe n
  · have hm : s.pe m = s.pe n := by unfold State.pe; rw [h]
    simp [h, hm, hp]
  · simp [h]

theorem resets_refillPe {n : Nat} (hn : n < 272) (hempty : (s.pe n).Emptied) : Resets [] s (s.refillPe n) := by
  have hsame : (s.pe n).refillTo (s.pe n).readyLim = s.pe n := by
    rw [Pe.refillTo, hempty.backlog, List.length_nil, refillReady, ← hempty.backlog]
  refine (resets_setPe_same hsame).andThen (resets_setRfld ?_)
  rw [pairPe_of_lt hn]
  exact (noSaveBase_pe n hn).1

/-- An empty PE has nothing that a KILL would cancel. -/
theorem resets_cancelPe {n k : Nat} (hn : n < 272) (hempty : (s.pe n).Emptied) : Resets [] s (s.cancelPe n k) := by
  have hact : s.act n = none := hempty.act
  have hcount : Resets [] s (s.bumpPe n psCANCELLED 0) := by
    obtain ⟨hstat, hctl⟩ := noSaveBase_cancelled n hn
    rw [State.bumpPe, pairPe_of_lt hn]
    exact resets_bump hstat hctl
  have hpe : (s.bumpPe n psCANCELLED 0).pe n = s.pe n := bumpPe_pe ..
  have hput := hcount.andThen (resets_setPe_same (n := n) hpe.symm)
  have hafter := hput.andThen (resets_refillPe hn (hput.emptied hempty))
  have hcancel : s.cancelPe n k = if peKind n = .a then (List.range 4).foldl (fun s i =>
        if (s.lacc n i).bound && ctxKey false (s.lacc n i).owner == k then s.unbindLacc n i else s)
          (((s.bumpPe n psCANCELLED 0).setPe n (s.pe n)).refillPe n)
      else ((s.bumpPe n psCANCELLED 0).setPe n (s.pe n)).refillPe n := by
    simp only [State.cancelPe, State.cancelOf, hact, hempty.frames, hempty.ready, hempty.backlog, hempty.recs, hempty.lookups, hempty.fillBuf, hempty.laccSaved,
      hempty.shadow, List.filter_nil, List.append_nil, List.length_nil, List.map_nil, List.foldl_nil, bestReady, Option.any_none, ite_self, Nat.add_zero]
    rw [hempty.cleared]
  rw [hcancel]
  refine keep_ite (List.foldlRecOn _ _ hafter fun t ht i _ => ?_) hafter
  have hfree : (t.lacc n i).bound = false := by rw [State.lacc, (ht.emptied hempty).laccs]; rfl
  rw [hfree, Bool.false_and, if_neg Bool.false_ne_true]
  exact ht

theorem resets_takeKill {n k : Nat} (hn : n < 272) (hempty : (s.pe n).Emptied) (hgate : ∀ e, (s.cm e).gate = []) :
    Resets [] s (s.takeKill n k) := by
  have hvoid : Resets [] s ((s.cancelPe n k).voidDefers (peEndpoint n) k) := (resets_cancelPe hn hempty).andThen { Resets.refl _ with }
  have hkilled : Resets [] s (if ((((s.cancelPe n k).voidDefers (peEndpoint n) k).pe n).killStage.contains k) then
      (s.cancelPe n k).voidDefers (peEndpoint n) k else ((s.cancelPe n k).voidDefers (peEndpoint n) k).updKill k (fun x => x.reached (.pe n))) := by
    refine keep_ite hvoid (hvoid.andThen (resets_updKill ..))
  exact hkilled.andThen (resets_pressureCheck fun e => (hkilled.gate e).trans (hgate e))

end

end Sys2Proof.Machine
end

/-! Save frames (R150, R508). -/

section

namespace Sys2Proof.Machine

section

variable {s t : State} {n f a : Nat}

theorem freeFrame_kind (s : State) (n f : Nat) : fld ((s.freeFrame n f).word (s.frameAddr n f + 0x140)) 63 62 = 0 := by
  have hword : (s.freeFrame n f).word (s.frameAddr n f + 0x140) = setFld (s.word (s.frameAddr n f + 0x140)) 63 62 0 := putWord_word s _ _
  rw [hword, fld_setFld_same _ _ (by decide) (by decide), Nat.zero_mod]

theorem freeFrame_byte_other (h : a < s.frameAddr n f + 0x140 ∨ s.frameAddr n f + 0x148 ≤ a) : (s.freeFrame n f).byte a = s.byte a :=
  putWord_byte_other (s := s) h

/-- A frame that was free stays so. -/
theorem freeFrame_keeps_kind {g : Nat} (h : fld (s.word (s.frameAddr n g + 0x140)) 63 62 = 0) :
    fld ((s.freeFrame n f).word (s.frameAddr n g + 0x140)) 63 62 = 0 := by
  by_cases hfg : f = g
  · rw [hfg]
    exact freeFrame_kind s n g
  · rw [word_congr fun x _ _ => freeFrame_byte_other (by unfold State.frameAddr at *; omega)]
    exact h

/-- Between s and t, frames of PE n became free, in module memory and in the PE. -/
structure FramesFreed (n : Nat) (s t : State) : Prop where
  rest : t = { s with mem := t.mem, ecc := t.ecc, pes := t.pes }
  others : ∀ m, pairPe m ≠ pairPe n → t.pe m = s.pe m
  own : ∃ l, t.pe n = { s.pe n with frames := l }
  byte : ∀ a, ¬ s.KindWord n a → t.byte a = s.byte a

theorem FramesFreed.frameAddr (h : FramesFreed n s t) (g : Nat) : t.frameAddr n g = s.frameAddr n g := by
  rw [State.frameAddr, State.frameAddr, State.rfld, State.rfld, State.reg, State.reg, h.rest]

theorem framesFreed_refl : FramesFreed n s s := ⟨rfl, fun _ _ => rfl, ⟨_, rfl⟩, fun _ _ => rfl⟩

theorem FramesFreed.freeFrame (h : FramesFreed n s t) {x : Nat × Option Frame} (hx : x ∈ (s.pe n).frames) (hsome : x.2.isSome = true) :
    FramesFreed n s (t.freeFrame n x.1) where
  rest := by
    have hrest := h.rest
    unfold State.freeFrame State.updPe State.setPe State.clearKind State.putWord State.store State.setEcc
    rw [hrest]
  others m hm := by
    rw [← h.others m hm]
    simp [State.freeFrame, State.updPe, hm, State.clearKind, State.putWord]
  own := by
    obtain ⟨l, hl⟩ := h.own
    refine ⟨Tbl.set none l x.1 none, ?_⟩
    have hpe : (t.clearKind n x.1).pe n = t.pe n := rfl
    rw [State.freeFrame, updPe_pe, hpe, hl]
    rfl
  byte b hb := by
    have hother : b < t.frameAddr n x.1 + 0x140 ∨ t.frameAddr n x.1 + 0x148 ≤ b := by
      rw [h.frameAddr]
      by_contra hin
      exact hb ⟨x, hx, hsome, by omega, by omega⟩
    exact (freeFrame_byte_other hother).trans (h.byte b hb)

/-- A fold over frames of the PE frees them. -/
theorem framesFreed_foldl (l : List (Nat × Option Frame)) (hl : ∀ x ∈ l, x ∈ (s.pe n).frames) (h : FramesFreed n s t) :
    FramesFreed n s (l.foldl (fun s x => if x.2.isSome then s.freeFrame n x.1 else s) t) := by
  refine List.foldlRecOn _ _ h fun u hu x hx => ?_
  by_cases hsome : x.2.isSome = true
  · rw [if_pos hsome]
    exact hu.freeFrame (hl x hx) hsome
  · rw [if_neg hsome]
    exact hu

theorem freeFrames_freed (s : State) (n : Nat) : FramesFreed n s (s.freeFrames n) := framesFreed_foldl _ (fun _ h => h) framesFreed_refl

theorem freeFrames_kind {x : Nat × Option Frame} (hx : x ∈ (s.pe n).frames) (hsome : x.2.isSome = true) :
    fld ((s.freeFrames n).word (s.frameAddr n x.1 + 0x140)) 63 62 = 0 := by
  obtain ⟨l, r, hlist⟩ := List.append_of_mem hx
  have hbefore := framesFreed_foldl (s := s) (t := s) (n := n) l (fun y hy => hlist ▸ List.mem_append_left _ hy) framesFreed_refl
  have hfreed : ∀ t, FramesFreed n s t → fld (t.word (s.frameAddr n x.1 + 0x140)) 63 62 = 0 →
      fld ((r.foldl (fun s x => if x.2.isSome then s.freeFrame n x.1 else s) t).word (s.frameAddr n x.1 + 0x140)) 63 62 = 0 := by
    intro t ht hkind
    refine (List.foldlRecOn (motive := fun u => FramesFreed n s u ∧ fld (u.word (s.frameAddr n x.1 + 0x140)) 63 62 = 0) r _ ⟨ht, hkind⟩
      fun u hu y hy => ?_).2
    by_cases hy' : y.2.isSome = true
    · rw [if_pos hy', ← hu.1.frameAddr]
      exact ⟨hu.1.freeFrame (hlist ▸ by simp [hy]) hy', freeFrame_keeps_kind (by rw [hu.1.frameAddr]; exact hu.2)⟩
    · rw [if_neg hy']
      exact hu
  rw [State.freeFrames, hlist, List.foldl_append, List.foldl_cons, if_pos hsome]
  refine hfreed _ (hbefore.freeFrame hx hsome) ?_
  rw [← hbefore.frameAddr]
  exact freeFrame_kind _ n x.1

end

/-! PE reset. -/

section

variable {s : State} {n : Nat}

/-- What a PE reset discards. -/
theorem resets_discard (s : State) (n : Nat) : Resets [n] s ((s.freeFrames n).updPe n Pe.discard) := by
  have h := freeFrames_freed s n
  obtain ⟨l, hl⟩ := h.own
  refine ⟨fun m => ?_, ?_, fun e => ?_, fun m _ => ?_, fun k x hx => ?_, fun a ha => ?_⟩
  · by_cases hm : pairPe m = pairPe n
    · have hown : s.pe m = s.pe n ∧ ((s.freeFrames n).updPe n Pe.discard).pe m = ((s.freeFrames n).pe n).discard := by
        refine ⟨by unfold State.pe; rw [hm], ?_⟩
        simp [State.updPe, hm]
      rw [hown.1, hown.2, hl]
      exact .inr ⟨emptied_discard _, rfl, rfl⟩
    · refine .inl ?_
      have hother : ((s.freeFrames n).updPe n Pe.discard).pe m = s.pe m := by
        rw [← h.others m hm]
        simp [State.updPe, hm]
      rw [hother]
  · show (s.freeFrames n).imem = s.imem
    rw [h.rest]
  · show ((s.freeFrames n).cm e).gate = (s.cm e).gate
    rw [State.cm, State.cm, h.rest]
  · show (s.freeFrames n).reg _ = _
    rw [State.reg, State.reg, h.rest]
  · show x ∈ Tbl.get [] (s.freeFrames n).coll k
    rw [h.rest]
    exact hx
  · exact h.byte a (ha n (by simp))

theorem resets_endKills (hn : n < 272) (l : List Nat) (hempty : (s.pe n).Emptied) (hgate : ∀ e, (s.cm e).gate = []) :
    Resets [] s (s.endKills n l) :=
  List.foldlRecOn _ _ (.refl s) fun _ h _ _ => h.andThen (resets_takeKill hn (h.emptied hempty) fun e => (h.gate e).trans (hgate e))

/-- What follows the discarding. -/
theorem peReset_after (hn : n < 272) (hgate : ∀ e, (s.cm e).gate = []) :
    Resets [] ((s.freeFrames n).updPe n Pe.discard) (s.peReset n) := by
  have hgone := resets_discard s n
  have hempty : (((s.freeFrames n).updPe n Pe.discard).pe n).Emptied := by rw [updPe_pe]; exact emptied_discard _
  have hlocks := resets_dropHolders (s := (s.freeFrames n).updPe n Pe.discard) (fun w => w.inModule && w.pe == pairPe n) fun _ => false
  have hpatch : Resets [] ((s.freeFrames n).updPe n Pe.discard) ((((s.freeFrames n).updPe n Pe.discard).lockPeReset n).loadPatches n) := by
    rw [State.loadPatches, if_pos hn]
    exact hlocks.andThen (resets_loadPatch hn)
  have hgates : ∀ t, Resets [] ((s.freeFrames n).updPe n Pe.discard) t → ∀ e, (t.cm e).gate = [] := fun t h e =>
    (h.gate e).trans ((hgone.gate e).trans (hgate e))
  have hkills := hpatch.andThen (resets_endKills hn (s.pe n).useq.kills (hpatch.emptied hempty) (hgates _ hpatch))
  exact hkills.andThen (resets_pressureCheck (hgates _ hkills))

theorem peReset_resets (hn : n < 272) (hgate : ∀ e, (s.cm e).gate = []) : Resets [n] s (s.peReset n) ∧ ((s.peReset n).pe n).Emptied := by
  have hafter := peReset_after hn hgate
  exact ⟨(resets_discard s n).andThen hafter, hafter.emptied (by rw [updPe_pe]; exact emptied_discard _)⟩

theorem peReset_kind (hn : n < 272) (hgate : ∀ e, (s.cm e).gate = []) {x : Nat × Option Frame} (hx : x ∈ (s.pe n).frames)
    (hsome : x.2.isSome = true) : fld ((s.peReset n).word (s.frameAddr n x.1 + 0x140)) 63 62 = 0 := by
  rw [word_congr fun a _ _ => (peReset_after hn hgate).byte a (by simp)]
  exact freeFrames_kind hx hsome

/-- CL_RESET with the bit of one slot resets its PE, in a cluster that is ACTIVE or IDLE. -/
theorem clReset_slot {c k : Nat} (hk : k < 5) (hape : k = 4 → hasApe c = true) (hstate : s.clState c < 2) :
    s.clReset c (BitVec.ofNat 64 (2 ^ k)) = s.peReset (slotPe c k) := by
  have hbits : ∀ k < 5, (bitAt (BitVec.ofNat 64 (2 ^ k)) 4 = true → k = 4) ∧ fld (BitVec.ofNat 64 (2 ^ k)) 5 0 ≠ 0 ∧
      bitAt (BitVec.ofNat 64 (2 ^ k)) 5 = false ∧ (List.range 5).filter (fun j => bitAt (BitVec.ofNat 64 (2 ^ k)) j) = [k] := by decide
  obtain ⟨hbit, hsome, hall, hone⟩ := hbits k hk
  have hnamed : ¬ ((bitAt (BitVec.ofNat 64 (2 ^ k)) 4 ∧ !hasApe c) ∨ fld (BitVec.ofNat 64 (2 ^ k)) 5 0 = 0) := by
    rintro (⟨h4, hnone⟩ | h0)
    · rw [hape (hbit h4)] at hnone
      exact absurd hnone (by decide)
    · exact hsome h0
  rw [State.clReset, if_neg hnamed, if_neg (Nat.not_le.mpr hstate), hall, if_neg Bool.false_ne_true, hone]
  rfl

/-- So does PE_RESET of an S-PE or an A-PE. -/
theorem clReset_pe (hn : n < 272) (hstate : s.clState (peCluster n) < 2) :
    (if n < 256 then s.clReset (n / 4) (BitVec.ofNat 64 (2 ^ (n % 4))) else if n < 272 then s.clReset (peCluster n) 0x10
      else s.resetPair (pairOf n)) = s.peReset n := by
  by_cases hs : n < 256
  · have hslot : n % 4 < 4 := Nat.mod_lt _ (by decide)
    rw [peCluster, if_pos hs] at hstate
    rw [if_pos hs, clReset_slot (by omega) (by omega) hstate, slotPe, if_pos hslot, Nat.div_add_mod]
  · have hape : ∀ k < 16, hasApe (peCluster (256 + k)) = true ∧ slotPe (peCluster (256 + k)) 4 = 256 + k := by decide +kernel
    obtain ⟨hhas, hslot⟩ := hape (n - 256) (by omega)
    rw [show 256 + (n - 256) = n by omega] at hhas hslot
    rw [if_neg hs, if_pos hn]
    exact (clReset_slot (k := 4) (by decide) (fun _ => hhas) hstate).trans (congrArg s.peReset hslot)

theorem peReset_runs (hn : n < 272) (hstate : s.clState (peCluster n) < 2) (hgate : ∀ e, (s.cm e).gate = []) :
    Runs (.peReset n) s fun u => PeWasReset s u n ∧ (∀ a, ¬ s.KindWord n a → u.byte a = s.byte a) ∧
      ∀ x ∈ (s.pe n).frames, x.2.isSome = true → fld (u.word (s.frameAddr n x.1 + 0x140)) 63 62 = 0 := by
  refine runs_unit (show n < 276 by omega) rfl (fun _ _ h => h) ?_
  rw [clReset_pe hn hstate]
  obtain ⟨hreset, hempty⟩ := peReset_resets hn hgate
  exact ⟨hreset.wasReset hempty, fun a ha => hreset.byte a (by simpa using ha), fun x hx hsome => peReset_kind hn hgate hx hsome⟩

/-! Cluster reset. -/

theorem peResets_resets (ns : List Nat) : ∀ {s : State}, (∀ n ∈ ns, n < 272) → (∀ e, (s.cm e).gate = []) →
    Resets ns s (ns.foldl (fun s n => s.peReset n) s) ∧ ∀ n ∈ ns, ((ns.foldl (fun s n => s.peReset n) s).pe n).Emptied := by
  induction ns with
  | nil => exact fun _ _ => ⟨.refl _, fun _ hn => absurd hn List.not_mem_nil⟩
  | cons n ns ih =>
    intro s hns hgate
    have hns' : ∀ m ∈ ns, m < 272 := fun m hm => hns m (List.mem_cons_of_mem n hm)
    obtain ⟨hfirst, hempty⟩ := peReset_resets (hns n List.mem_cons_self) hgate
    obtain ⟨hrest, hdone⟩ := ih (s := s.peReset n) hns' fun e => (hfirst.gate e).trans (hgate e)
    refine ⟨hfirst.trans hrest hns', fun m hm => ?_⟩
    rcases List.mem_cons.mp hm with rfl | hm
    · exact hrest.emptied hempty
    · exact hdone m hm

/-- Taking entries of other keys out of a table changes nothing at a key. -/
theorem Tbl.get_filter_in {α : Type} (d : α) (t : Tbl α) (f : Nat × α → Bool) (k : Nat) (h : ∀ v, f (k, v) = true) :
    Tbl.get d (t.filter f) k = Tbl.get d t k := by
  induction t with
  | nil => rfl
  | cons x r ih =>
    obtain ⟨j, v⟩ := x
    by_cases hk : k = j
    · subst hk
      rw [List.filter_cons_of_pos (h v), Tbl.get, Tbl.get, if_pos rfl, if_pos rfl]
    · rw [List.filter_cons]
      split
      · rw [Tbl.get, Tbl.get, if_neg hk, if_neg hk, ih]
      · rw [ih, Tbl.get, if_neg hk]

theorem clearScratch_byte_gone {c a : Nat} {keep : Nat → Bool} (hlow : scrBase c ≤ a) (hhigh : a < scrBase c + 0x100000)
    (hkeep : keep (a - scrBase c) = false) : (s.clearScratch c keep).byte a = 0 :=
  Tbl.get_filter_out _ _ _ _ fun _ => by simp [hlow, hhigh, hkeep]

theorem clearScratch_byte_kept {c a : Nat} {keep : Nat → Bool} (h : a < scrBase c ∨ scrBase c + 0x100000 ≤ a ∨ keep (a - scrBase c) = true) :
    (s.clearScratch c keep).byte a = s.byte a := by
  refine Tbl.get_filter_in _ _ _ _ fun _ => ?_
  rcases h with h | h | h
  · simp [Nat.not_le.mpr h]
  · simp [Nat.not_lt.mpr h]
  · simp [h]

theorem clusterPes_lt : ∀ c < 64, ∀ n ∈ clusterPes c, n < 272 := by decide +kernel

theorem clusterReset_runs {c : Nat} (hc : c < 64) (hstate : s.clState c < 2) (hgate : ∀ e, (s.cm e).gate = []) :
    Runs (.clusterReset c) s fun u => u.ae c = Ae.init ∧ (∀ n ∈ clusterPes c, PeWasReset s u n) ∧
      (∀ a, scrBase c ≤ a → a < scrBase c + 0x100000 → bounceArea (a - scrBase c) = false → u.byte a = 0) ∧
      (∀ a, a < scrBase c ∨ scrBase c + 0x100000 ≤ a ∨ bounceArea (a - scrBase c) = true → (∀ n ∈ clusterPes c, ¬ s.KindWord n a) →
        u.byte a = s.byte a) := by
  refine runs_unit hc rfl (fun _ _ h => h) ?_
  have heq : s.clReset c 0x20 = s.clusterReset c := by
    have hnamed : ¬ (bitAt (0x20 : Word) 4 = true ∨ fld (0x20 : Word) 5 0 = 0) := by decide
    rw [State.clReset, if_neg fun h => hnamed (h.imp_left And.left), if_neg (Nat.not_le.mpr hstate), if_pos (by decide)]
  obtain ⟨hreset, hempty⟩ := peResets_resets (clusterPes c) (clusterPes_lt c hc) hgate
  rw [heq, State.clusterReset]
  generalize (clusterPes c).foldl (fun s n => s.peReset n) s = t at *
  refine ⟨Tbl.get_set_same Ae.init t.aes c Ae.init, fun n hn => hreset.wasReset (hempty n hn), fun a hlow hhigh hkeep => ?_, fun a hout hkind => ?_⟩
  · exact clearScratch_byte_gone hlow hhigh hkeep
  · exact (clearScratch_byte_kept hout).trans (hreset.byte a hkind)

end

end Sys2Proof.Machine
end

/-! Micro-sequencers (R440 to R445). -/

section

namespace Sys2Proof.Machine

section

variable {s : State} {n a : Nat} {c : BitVec 32}

theorem updUseq_useq (s : State) (n : Nat) (f : Useq → Useq) : (s.updUseq n f).pe n = { s.pe n with useq := f (s.pe n).useq } := updPe_pe ..

/-- A field is below its size, so a patched address is one of the patch RAM. -/
theorem fetchAddr_lt (h : a < 0x2200) : s.fetchAddr n a < 2 ^ 14 := by
  unfold State.fetchAddr
  split
  · cases hk : s.patchWord n a with
    | none => exact h.trans (by decide)
    | some k =>
      obtain ⟨j, -, hj⟩ := Option.map_eq_some_iff.mp hk
      have hfield : s.rfld (aPeUmatch n j) 24 16 < 2 ^ 9 := fld_lt _ 24 16
      simp only [Option.map_some, Option.getD_some]
      omega
  · exact h.trans (by decide)

theorem microNext_continue (hseq : (s.microHere n).seq = 0) (hnext : (s.microHere n).next c = a) :
    s.microNext n c = if 0x2200 ≤ a then .fault a else .next (s.fetchAddr n a) := by
  simp only [State.microNext, hseq, hnext, if_true]

theorem microNext_done (hseq : (s.microHere n).seq = 1) : s.microNext n c = .done := by
  simp [State.microNext, hseq]

theorem microNext_reserved (hseq : 2 ≤ (s.microHere n).seq) : s.microNext n c = .fault (s.pe n).useq.mpc.toNat := by
  simp only [State.microNext]
  rw [if_neg (by omega), if_neg (by omega)]

/-! The end of a microword. -/

theorem microFetch_next {k : Nat} (hn : n < 272) (h : s.microNext n c = .next a) : s.microFetch n c k =
    if 2 ≤ k then s.ucodeFault n a
    else if k = 1 then (s.setMpc n a).log (peEndpoint n) .ucodeCe .corrected (BitVec.ofNat 64 a) (some n) else s.setMpc n a := by
  simp only [State.microFetch, pairPe_of_lt hn, h]

theorem microFetch_done {k : Nat} (hn : n < 272) (h : s.microNext n c = .done) : s.microFetch n c k = s.routineDone n := by
  simp only [State.microFetch, pairPe_of_lt hn, h]

theorem microFetch_fault {k : Nat} (hn : n < 272) (h : s.microNext n c = .fault a) : s.microFetch n c k = s.ucodeFault n a := by
  simp only [State.microFetch, pairPe_of_lt hn, h]

/-- The micro-PC stands at the address fetched. -/
theorem setMpc_spec (ha : a < 2 ^ 14) : ((s.setMpc n a).pe n).useq.mpc.toNat = a ∧ (s.setMpc n a).regs = s.regs ∧ (s.setMpc n a).mem = s.mem := by
  refine ⟨?_, rfl, rfl⟩
  rw [State.setMpc, updUseq_useq]
  exact (BitVec.toNat_ofNat a 14).trans (Nat.mod_eq_of_lt ha)

/-- A control-store fault is logged with its micro-address, and the PE is reset. -/
theorem ucodeFault_spec (hn : n < 272) (hgate : ∀ e, (s.cm e).gate = []) :
    PeWasReset s (s.ucodeFault n a) n ∧ Logged (s.ucodeFault n a) (peEndpoint n) .ucodeFault .deferred (BitVec.ofNat 64 a) := by
  have hlog := quiet_log s (peEndpoint n) .ucodeFault .deferred (BitVec.ofNat 64 a) (some (pairPe n)) none false
  have hreg := resets_log (s := s) (peEndpoint n) .ucodeFault .deferred (BitVec.ofNat 64 a) (some (pairPe n)) none false
  obtain ⟨hreset, hempty⟩ := peReset_resets (s := s.log (peEndpoint n) .ucodeFault .deferred (BitVec.ofNat 64 a) (some (pairPe n))) hn
    fun e => by rw [hlog.cm]; exact hgate e
  have heq : s.ucodeFault n a = (s.log (peEndpoint n) .ucodeFault .deferred (BitVec.ofNat 64 a) (some (pairPe n))).peReset n := by
    rw [State.ucodeFault, State.anyPeReset, if_pos hn]
  rw [heq]
  exact ⟨(hreg.trans hreset (by simpa using hn)).wasReset hempty, (logged_log ..).mono hreset.coll⟩

/-- Where the microword goes on: at the formed address, or in the patch RAM where a match register holds it. -/
theorem ucodeFault_next {k : Nat} (hn : n < 272) (ha : a < 0x2200) (hk : k < 2) (hseq : (s.microHere n).seq = 0)
    (hnext : (s.microHere n).next c = a) : Runs (.ucodeFault ⟨n, c⟩ k) s fun u => (u.pe n).useq.mpc.toNat = s.fetchAddr n a ∧
      (k = 0 → u.regs = s.regs ∧ u.mem = s.mem) ∧
      (k = 1 → Logged u (peEndpoint n) .ucodeCe .corrected (BitVec.ofNat 64 (s.fetchAddr n a))) := by
  refine runs_unit (f := fun s => s.microFetch n c k) (show n < 276 by omega) rfl (fun _ _ h => h) ?_
  have hgoes : s.microNext n c = .next (s.fetchAddr n a) := by rw [microNext_continue hseq hnext, if_neg (Nat.not_le.mpr ha)]
  obtain ⟨hmpc, hregs, hmem⟩ := setMpc_spec (s := s) (n := n) (fetchAddr_lt (s := s) (n := n) ha)
  show _ ∧ _
  rw [microFetch_next hn hgoes, if_neg (Nat.not_le.mpr hk)]
  by_cases h1 : k = 1
  · have hlog := quiet_log (s.setMpc n (s.fetchAddr n a)) (peEndpoint n) .ucodeCe .corrected (BitVec.ofNat 64 (s.fetchAddr n a)) (some n) none false
    rw [if_pos h1, hlog.pe]
    exact ⟨hmpc, by omega, fun _ => logged_log ..⟩
  · rw [if_neg h1]
    exact ⟨hmpc, fun _ => ⟨hregs, hmem⟩, fun h => absurd h h1⟩

theorem ucodeFault_faults {k : Nat} (hn : n < 272) (hseq : (s.microHere n).seq = 0) (hnext : (s.microHere n).next c = a) (hk : 0x2200 ≤ a ∨ 2 ≤ k)
    (hgate : ∀ e, (s.cm e).gate = []) : Runs (.ucodeFault ⟨n, c⟩ k) s fun u => PeWasReset s u n ∧
      Logged u (peEndpoint n) .ucodeFault .deferred (BitVec.ofNat 64 (if a < 0x2200 then s.fetchAddr n a else a)) := by
  refine runs_unit (f := fun s => s.microFetch n c k) (show n < 276 by omega) rfl (fun _ _ h => h) ?_
  have hgoes := microNext_continue (c := c) hseq hnext
  have heq : s.microFetch n c k = s.ucodeFault n (if a < 0x2200 then s.fetchAddr n a else a) := by
    by_cases ha : a < 0x2200
    · rw [if_neg (Nat.not_le.mpr ha)] at hgoes
      rw [microFetch_next hn hgoes, if_pos (hk.resolve_left (Nat.not_le.mpr ha)), if_pos ha]
    · rw [if_pos (Nat.not_lt.mp ha)] at hgoes
      rw [microFetch_fault hn hgoes, if_neg ha]
  show _ ∧ _
  rw [heq]
  exact ucodeFault_spec hn hgate

theorem ucodeFault_reserved {k : Nat} (hn : n < 272) (hseq : 2 ≤ (s.microHere n).seq) (hgate : ∀ e, (s.cm e).gate = []) :
    Runs (.ucodeFault ⟨n, c⟩ k) s fun u => PeWasReset s u n ∧
      Logged u (peEndpoint n) .ucodeFault .deferred (BitVec.ofNat 64 (s.pe n).useq.mpc.toNat) := by
  refine runs_unit (f := fun s => s.microFetch n c k) (show n < 276 by omega) rfl (fun _ _ h => h) ?_
  show _ ∧ _
  rw [microFetch_fault hn (microNext_reserved hseq)]
  exact ucodeFault_spec hn hgate

/-! Routines and traps. -/

/-- A service routine that is no sweep ends, and what it interrupted goes on from the newest save slot. -/
theorem ucodeFault_restores {k : Nat} {x : SaveSlot} {r : List SaveSlot} {y : Routine} (hn : n < 272) (hseq : (s.microHere n).seq = 1)
    (hslots : (s.pe n).useq.slots = x :: r) (hrun : (s.pe n).useq.running = some y) (hkind : y.kind = .halt ∨ y.kind = .fill ∨ y.kind = .release) :
    Runs (.ucodeFault ⟨n, c⟩ k) s fun u => (u.pe n).useq.mpc = x.mpc ∧ (u.pe n).useq.mr = x.mr ∧ (u.pe n).useq.running = x.routine ∧
      (u.pe n).useq.slots = r ∧ u.regs = s.regs ∧ u.mem = s.mem := by
  refine runs_unit (f := fun s => s.microFetch n c k) (show n < 276 by omega) rfl (fun _ _ h => h) ?_
  have hroutine : s.routine n = some y := by simp only [State.routine, hrun]
  have hheld : (s.pe n).useq.slots ≠ [] := by rw [hslots]; exact List.cons_ne_nil x r
  have heq : s.routineDone n = s.updUseq n Useq.restore := by
    unfold State.routineDone
    rcases hkind with h | h | h <;> simp only [hroutine, Option.map_some, h, if_pos hheld, ne_eq]
  have hrestore : (s.pe n).useq.restore = { (s.pe n).useq with mpc := x.mpc, mr := x.mr, running := x.routine, slots := r } := by
    simp only [Useq.restore, hslots]
  show _ ∧ _
  rw [microFetch_done hn (microNext_done hseq), heq, updUseq_useq, hrestore]
  exact ⟨rfl, rfl, rfl, rfl, rfl, rfl⟩

/-- The trap of a halt: the halt is served, the interrupted routine's micro-state goes to a save slot. -/
theorem microTrap_halt (hslots : (s.pe n).useq.slots = []) (hkill : (s.pe n).useq.killTrap = none) (hhalt : (s.pe n).useq.haltTrap = true)
    (hroutine : s.routine n = none) : ∃ mpc, (s.microTrap n).pe n = { s.pe n with
      halt := .halted,
      useq := { (s.pe n).useq with haltTrap := false, running := some ⟨.halt, 0, 0⟩, slots := [⟨(s.pe n).useq.mpc, (s.pe n).useq.mr, none⟩], mpc := mpc } } := by
  have hevent : ∃ l, s.microEvents n = 2 :: l := by
    simp [State.microEvents, hkill, hhalt]
  obtain ⟨l, hevents⟩ := hevent
  have hfree : s.busyWith n 2 = false := by simp [State.busyWith, hroutine, hslots]
  have hfind : (s.microEvents n).find? (fun e => !s.busyWith n e) = some 2 := by rw [hevents, List.find?_cons, hfree]; rfl
  have hroom : ¬ 4 ≤ (s.pe n).useq.slots.length := by rw [hslots]; decide
  rw [State.microTrap, hfind]
  simp only [hroom, if_false, hroutine]
  simp only [State.serve, if_false, if_true, OfNat.ofNat_ne_one]
  rw [updUseq_useq, updPe_pe, updUseq_useq, bumpPe_pe, updUseq_useq, hslots]
  exact ⟨_, rfl⟩

theorem microTrap_runs (hn : n < 276) (hnext : s.microNext (pairPe n) c = .next a) (htw : (s.microHere (pairPe n)).tw = true)
    (hroutine : s.routine (pairPe n) = none) (hslots : (s.pe n).useq.slots = []) (hkill : (s.pe n).useq.killTrap = none)
    (hhalt : (s.pe n).useq.haltTrap = true) :
    Runs (.microTrap ⟨n, c⟩) s fun u => (u.pe n).halt = .halted ∧ (u.pe n).useq.haltTrap = false ∧
      (u.pe n).act = (s.pe n).act ∧ (u.pe n).ready = (s.pe n).ready ∧ (u.pe n).useq.running = some ⟨.halt, 0, 0⟩ ∧
      (u.pe n).useq.slots = [⟨BitVec.ofNat 14 a, (s.pe n).useq.mr, none⟩] := by
  have hpair : ∀ t : State, t.pe n = t.pe (pairPe n) := fun t => by rw [State.pe, State.pe, pairPe_pairPe]
  rw [hpair] at hslots hkill hhalt
  have hmpc : (s.setMpc (pairPe n) a).pe (pairPe n) =
      { s.pe (pairPe n) with useq := { (s.pe (pairPe n)).useq with mpc := BitVec.ofNat 14 a } } := updUseq_useq ..
  have hidle : (s.setMpc (pairPe n) a).routine (pairPe n) = none := by
    simp only [State.routine, hmpc] at hroutine ⊢
    exact hroutine
  have hunit : (s.setMpc (pairPe n) a).routineUnit (pairPe n) = s.setMpc (pairPe n) a := by simp only [State.routineUnit, hidle]
  obtain ⟨mpc, htrap⟩ := microTrap_halt (s := s.setMpc (pairPe n) a) (n := pairPe n) (by rw [hmpc]; exact hslots) (by rw [hmpc]; exact hkill)
    (by rw [hmpc]; exact hhalt) hidle
  refine runs_unit hn rfl (fun _ _ h => h) ?_
  dsimp only
  rw [hnext]
  simp only [htw, if_true, hunit, hpair, htrap, hmpc]
  exact ⟨trivial, trivial, trivial, trivial, trivial, trivial⟩

end

end Sys2Proof.Machine
end

/-! The arithmetic engine (R165 to R167, R202, R220). -/

section

namespace Sys2Proof.Machine

section

variable {s : State} {n : Nat} {q : AeReq}

/-- With no request waiting, an engine goes on as it is. -/
theorem start_idle {a : Ae} (h : a.queue = []) : a.start = a := by
  obtain ⟨queue, unit0, unit1, pipe⟩ := a
  cases h
  cases unit0 <;> cases unit1 <;> simp [Ae.start]

/-- A request that finds none waiting goes to the multiplier, to a free recurrence unit, or waits. -/
theorem start_single {a : Ae} (h : a.queue = []) : ({ a with queue := [q] } : Ae).start =
    if q.op.isMul then { a with pipe := a.pipe ++ [q] }
    else if a.unit0 = none then { a with unit0 := some q }
    else if a.unit1 = none then { a with unit1 := some q } else { a with queue := [q] } := by
  obtain ⟨queue, unit0, unit1, pipe⟩ := a
  cases h
  cases hm : q.op.isMul
  · cases unit0 <;> cases unit1 <;> simp [Ae.start, hm]
  · cases unit0 <;> cases unit1 <;> simp [Ae.start, hm]

theorem nextOut_ae {m : Msg} {r : List Msg} (hback : (s.pe n).outBack = []) (hout : (s.pe n).outQ = m :: r) :
    ∃ x : Msg, x.ae = m.ae ∧ s.nextOut n = some (x, { s.pe n with outQ := r }) := by
  simp only [State.nextOut, hback, hout]
  refine ⟨_, ?_, rfl⟩
  split
  · rfl
  · split <;> rfl

theorem Quiet.ae {s t : State} (h : Quiet s t) (c : Nat) : t.ae c = s.ae c := by rw [h.rest]; rfl

theorem unitSend_ae (s : State) (e c : Nat) (m : Msg) : (s.unitSend e m).ae c = s.ae c := rfl

theorem setAe_ae (s : State) (c : Nat) (a : Ae) : (s.setAe c a).ae c = a := by simp [State.ae, State.setAe]

theorem aeRequestAccept_runs {m : Msg} {r : List Msg} (hn : n < 272) (hback : (s.pe n).outBack = []) (hout : (s.pe n).outQ = m :: r)
    (hae : m.ae = some q) (hidle : (s.ae (peEndpoint n)).queue = []) :
    Runs (.aeRequestAccept n) s fun u => (u.pe n).outQ = r ∧ (u.pe n).act = (s.pe n).act ∧ u.ae (peEndpoint n) =
      (if q.op.isMul then { s.ae (peEndpoint n) with pipe := (s.ae (peEndpoint n)).pipe ++ [q] }
       else if (s.ae (peEndpoint n)).unit0 = none then { s.ae (peEndpoint n) with unit0 := some q }
       else if (s.ae (peEndpoint n)).unit1 = none then { s.ae (peEndpoint n) with unit1 := some q }
       else { s.ae (peEndpoint n) with queue := [q] }) := by
  refine runs_unit (show n < 276 by omega) rfl (fun _ _ h => h) ?_
  obtain ⟨x, hx, hnext⟩ := nextOut_ae hback hout
  have heq : s.aeAccept n = (s.setPe n { s.pe n with outQ := r }).setAe (peEndpoint n) ({ s.ae (peEndpoint n) with queue := [q] } : Ae).start := by
    have hroom : (s.ae (peEndpoint n)).queue.length < 16 := by rw [hidle]; decide
    simp only [State.aeAccept, hnext, hx, hae, if_pos hroom]
    simp only [hidle, List.nil_append]
  have hpe : ∀ (t : State) (c : Nat) (a : Ae), (t.setAe c a).pe n = t.pe n := fun _ _ _ => rfl
  rw [heq, setAe_ae, start_single hidle, hpe]
  simp

theorem aeRequestAccept_full {m : Msg} {r : List Msg} (hn : n < 272) (hback : (s.pe n).outBack = []) (hout : (s.pe n).outQ = m :: r)
    (hae : m.ae = some q) (hfull : 16 ≤ (s.ae (peEndpoint n)).queue.length) : exec (.aeRequestAccept n) s = .next s := by
  obtain ⟨x, hx, hnext⟩ := nextOut_ae hback hout
  have hstands : s.aeAccept n = s := by
    simp only [State.aeAccept, hnext, hx, hae, Nat.not_lt.mpr hfull, if_false]
  exact (if_pos (show n < 276 by omega)).trans (onModule_same hstands)

/-! Replies. -/

section

variable {c k e : Nat} {tag : Word} {v : Wide}

theorem countTx_spec (t : State) (e : Nat) (p : Packet) : ((t.countTx e p).ni e).outQ = (t.ni e).outQ ∧ (t.countTx e p).vcs = t.vcs ∧
    (t.countTx e p).aes = t.aes := by
  have hquiet := (quiet_bumpNi t e (nsTXPKT p.vn) 1).trans (quiet_bumpNi _ e (nsTXBYTE p.vn) (16 * p.flits))
  refine ⟨?_, ?_, ?_⟩
  · rw [State.countTx, updNi_ni, hquiet.ni]
  · show ((t.bumpNi e (nsTXPKT p.vn)).bumpNi e (nsTXBYTE p.vn) (16 * p.flits)).vcs = t.vcs
    rw [hquiet.rest]
  · show ((t.bumpNi e (nsTXPKT p.vn)).bumpNi e (nsTXBYTE p.vn) (16 * p.flits)).aes = t.aes
    rw [hquiet.rest]

/-- A packet pushed onto a virtual channel that has space for it. -/
theorem launch_other {p : Packet} {out : Nat} (hvn : p.vn = 0)
    (hroom : p.flits ≤ if e < 64 then s.vcFree e 5 0 else s.vcFree 64 (crossIn e) 0) : ∃ t, s.launch e p false out = some t ∧
      (t.ni e).outQ = (s.ni e).outQ ∧ t.aes = s.aes ∧ ∃ h : Hop, h.pkt = p ∧
        (if e < 64 then t.vc e 5 0 else t.vc 64 (crossIn e) 0) = (if e < 64 then s.vc e 5 0 else s.vc 64 (crossIn e) 0) ++ [h] := by
  have hpushed : ∀ r i, (s.pushVc r i p (if e < 64 then 0 else out)).vc r i 0 = s.vc r i 0 ++ [⟨p, s.now, s.now, if e < 64 then 0 else out⟩] :=
    fun r i => by rw [State.pushVc, hvn]; simp [State.vc, State.setVc]
  by_cases he : e < 64
  · rw [if_pos he] at hroom
    obtain ⟨hout, hvcs, haes⟩ := countTx_spec (s.pushVc e 5 p 0) e p
    refine ⟨(s.pushVc e 5 p 0).countTx e p, ?_, hout, haes, ⟨p, s.now, s.now, 0⟩, rfl, ?_⟩
    · simp only [State.launch, Bool.false_eq_true, if_false, if_pos he, hvn, if_pos hroom]
    · have := hpushed e 5
      simp only [if_pos he] at this ⊢
      rw [State.vc, hvcs]
      exact this
  · rw [if_neg he] at hroom
    obtain ⟨hout, hvcs, haes⟩ := countTx_spec (s.pushVc 64 (crossIn e) p out) e p
    refine ⟨(s.pushVc 64 (crossIn e) p out).countTx e p, ?_, hout, haes, ⟨p, s.now, s.now, out⟩, rfl, ?_⟩
    · simp only [State.launch, Bool.false_eq_true, if_false, if_neg he, hvn, if_pos hroom]
    · have := hpushed 64 (crossIn e)
      simp only [if_neg he] at this ⊢
      rw [State.vc, hvcs]
      exact this

theorem tokenBody_length (tag : Word) (v : Wide) : (tokenBody (setFld (setBit tag 56 false) 57 57 0) v).length = (tokenBody tag v).length := by
  have hwide : tWide (setFld (setBit tag 56 false) 57 57 0) = tWide tag := by
    rw [tWide, bitAt_setFld _ _ _ (by decide) (by decide), if_neg (by decide), setBit, bitAt_setFld _ _ _ (by decide) (by decide), if_neg (by decide), tWide]
  simp only [tokenBody, hwide, List.length_cons]

/-- A reply token that nothing holds back leaves as a TOKEN packet. -/
theorem replyToken_sent (h : s.CanReply e tag v) : ReplySent s (s.replyToken e tag v false) e tag v false ∧
    (s.replyToken e tag v false).aes = s.aes := by
  obtain ⟨hother, hwait, hqueue, hon, hroute, hroom⟩ := h
  obtain ⟨⟨route, spoke⟩, hroute⟩ := Option.isSome_iff_exists.mp hroute
  have hsend : s.sendMsg e (tokenMsg (peEndpoint (tPe tag)) tag v 0 .none) =
      s.launch e (s.makePacket e (tokenMsg (peEndpoint (tPe tag)) tag v 0 .none) 0 route 0) false (crossOut (peEndpoint (tPe tag)) spoke) := by
    have hlocal : ¬ (True ∧ peEndpoint (tPe tag) = e ∧ (!s.redirect e e .token) = true) := fun h => hother h.2.1
    have hmem : ¬ (Opc.token.isMem = true ∧ peEndpoint (tPe tag) = e ∧ e < 64) := fun h => hother h.2.1
    have hvn : (tokenMsg (peEndpoint (tPe tag)) tag v 0 .none).vn = 0 := rfl
    have hown : (peEndpoint (tPe tag) == e) = false := by simpa using hother
    simp only [State.sendMsg, hvn]
    simp only [tokenMsg, Option.isSome_none, Bool.false_eq_true, if_false, if_neg hlocal, if_neg hmem, hon, if_neg hother, hroute, hown,
      reduceCtorEq]
  obtain ⟨t, ht, hout, haes, hop, hpkt, hat⟩ := launch_other (s := s) (e := e)
    (p := s.makePacket e (tokenMsg (peEndpoint (tPe tag)) tag v 0 .none) 0 route 0) (out := crossOut (peEndpoint (tPe tag)) spoke) rfl (by
      refine le_trans (le_of_eq ?_) hroom
      exact congrArg (· + 1) (tokenBody_length tag v))
  have heq : s.replyToken e tag v false = t := by
    have hbehind : (decide ((tokenMsg (peEndpoint (tPe tag)) tag v 0 .none).dest ≠ e) &&
        ((s.waitVns e).contains 0 || (s.ni e).outQ.any (fun m => m.vn == 0))) = false := by
      rw [hwait]
      have hnone : (s.ni e).outQ.any (fun m => m.vn == 0) = false := List.any_eq_false.mpr fun m hm => by simpa using hqueue m hm
      rw [hnone, Bool.or_self, Bool.and_false]
    simp only [State.replyToken, hbehind, Bool.false_eq_true, if_false, hsend, ht]
  rw [heq]
  exact ⟨⟨hout, hop, hat, by rw [hpkt]; rfl, by rw [hpkt]; rfl, by rw [hpkt]; rfl, by rw [hpkt]; rfl, by rw [hpkt]; rfl⟩, haes⟩

/-- What an engine whose queue is empty does at the end of a request. -/
structure EndsAt (s : State) (c k : Nat) (q : AeReq) : Prop where
  cluster : c < 64
  unit : k < 3
  idle : (s.ae c).queue = []
  ends : (s.ae c).atUnit k = some q
  unarmed : s.aeArmed c k = false

theorem putUnit_start {a : Ae} (h : a.queue = []) (k : Nat) (r : Option AeReq) : (a.putUnit k r).start = a.putUnit k r := by
  refine start_idle ?_
  unfold Ae.putUnit
  split <;> exact h

theorem aeReply_runs {b : Bool} {P : State → Prop} (h : EndsAt s c k q) (hP : ∀ (t : State) (l : List Instr), P t → P { t with pending := l })
    (hend : P (s.aeReply c k b)) : Runs (.aeReply c k b) s P := by
  refine runs_unit (f := fun s => if k < 3 then s.aeReply c k b else s) h.cluster rfl hP ?_
  rw [if_pos h.unit]
  exact hend

theorem aeReply_sent (h : EndsAt s c k q) (hcan : s.CanReply c q.reply q.value) :
    Runs (.aeReply c k false) s fun u => u.ae c = (s.ae c).putUnit k none ∧ ReplySent s u c q.reply q.value false := by
  refine aeReply_runs h (fun _ _ h => h) ?_
  obtain ⟨hsent, haes⟩ := replyToken_sent (s := s.setAe c ((s.ae c).putUnit k none)) (e := c) (tag := q.reply) (v := q.value) hcan
  have heq : s.aeReply c k false = (s.setAe c ((s.ae c).putUnit k none)).replyToken c q.reply q.value false := by
    simp only [State.aeReply, h.ends, h.unarmed, Bool.or_self, Bool.false_eq_true, if_false, putUnit_start h.idle]
  rw [heq]
  exact ⟨(congrArg (Tbl.get Ae.init · c) haes).trans (setAe_ae ..), hsent⟩

theorem aeReply_reruns (h : EndsAt s c k q) (hfirst : q.rerun = false) :
    Runs (.aeReply c k true) s fun u => u.ae c = (s.ae c).putUnit k (some { q with rerun := true }) ∧ u.nis = s.nis := by
  refine aeReply_runs h (fun _ _ h => h) ?_
  have hquiet := quiet_bump (s.setAe c ((s.ae c).putUnit k (some { q with rerun := true }))) (aAeStat c 0) 1
  have heq : s.aeReply c k true = (s.setAe c ((s.ae c).putUnit k (some { q with rerun := true }))).bump (aAeStat c 0) := by
    simp only [State.aeReply, h.ends, h.unarmed, hfirst, Bool.or_true, Bool.false_eq_true, if_false, if_true]
  rw [heq]
  exact ⟨(hquiet.ae c).trans (setAe_ae ..), hquiet.nis⟩

theorem aeReply_faults (h : EndsAt s c k q) (hsecond : q.rerun = true) (hhandled : s.handled (tCtx q.reply)) :
    Runs (.aeReply c k true) s fun u => u.ae c = (s.ae c).putUnit k none ∧ FaultSent s u c (tCtx q.reply) := by
  refine aeReply_runs h (fun _ _ h => h) ?_
  let t := ((s.setAe c ((s.ae c).putUnit k none)).bump (aAeStat c 1)).logFree c .arithCheck .deferred (some q.pe) (some (tCtx q.tag))
  have hquiet : Quiet (s.setAe c ((s.ae c).putUnit k none)) t := (quiet_bump ..).trans (quiet_logFree ..)
  have hctx : ∀ j, t.ctx j = s.ctx j := fun j => hquiet.ctx j
  have hissuer : issuerOf c q.reply = tCtx q.reply := by
    have hne : (c == 69) = false := by have := h.cluster; simp; omega
    rw [issuerOf, hne]; rfl
  obtain ⟨m, hm, hfault, hopc, hdest⟩ := deliverTo_handled (s := t) (k := tCtx q.reply) (pe := c) (ftag := q.reply) (unit := true) (fc := .arithCheck)
    (off := 0) (detail := 1) (by rw [State.handled, hctx]; exact hhandled)
  have heq : s.aeReply c k true = t.unitSend c m := by
    simp only [State.aeReply, h.ends, h.unarmed, hsecond, Bool.or_true, Bool.false_eq_true, if_false, if_true, putUnit_start h.idle, hissuer]
    exact hm
  rw [heq]
  refine ⟨?_, m, ?_, hfault, hopc, by rw [hdest, hctx]⟩
  · rw [unitSend_ae, hquiet.ae, setAe_ae]
  · rw [unitSend_outQ, hquiet.ni]
    rfl

end

end

/-- Settles O29: engines end their requests one by one, a microword ends by what its next address and the control store say, and what a reset does
besides discarding keeps memory, gates and the other PEs. -/
theorem enginesAndSequencers : Obligations.EnginesAndSequencers := by
  unfold Obligations.EnginesAndSequencers
  refine ⟨?accept, ?reply, ?trap, ?restore, ?next, ?reserved, ?pe, ?cluster⟩
  case accept =>
    exact fun s n m q r hn hback hout hae => ⟨fun hidle => aeRequestAccept_runs hn hback hout hae hidle,
      fun hfull => aeRequestAccept_full hn hback hout hae hfull⟩
  case reply =>
    intro s c k q hc hk hidle hends harmed
    have h : EndsAt s c k q := ⟨hc, hk, hidle, hends, harmed⟩
    exact ⟨fun hcan => aeReply_sent h hcan, fun hfirst => aeReply_reruns h hfirst, fun hsecond hhandled => aeReply_faults h hsecond hhandled⟩
  case trap => exact fun s n c a hn hnext htw hroutine hslots hkill hhalt => microTrap_runs hn hnext htw hroutine hslots hkill hhalt
  case restore => exact fun s n c x r y k hn hseq hslots hrun hkind => ucodeFault_restores hn hseq hslots hrun hkind
  case next =>
    intro s n c a hn hseq hnext
    have hgoes := fun (k : Nat) (ha : a < 0x2200) (hk : k < 2) => ucodeFault_next (k := k) hn ha hk hseq hnext
    refine ⟨fun ha hnone => ?_, fun k ha hpatch => ?_, fun hlow ha => ?_, fun ha => ?_, fun k hk hgate => ucodeFault_faults hn hseq hnext hk hgate⟩
    · have hfetch : s.fetchAddr n a = a := by simp [State.fetchAddr, hnone]
      obtain ⟨t, hexec, hmpc, hkeeps, -⟩ := hgoes 0 (by omega) (by omega)
      exact ⟨t, hexec, hmpc.trans hfetch, hkeeps rfl⟩
    · have hfetch : s.fetchAddr n a = 0x2000 + k := by simp [State.fetchAddr, ha, hpatch]
      obtain ⟨t, hexec, hmpc, -⟩ := hgoes 0 (by omega) (by omega)
      exact ⟨t, hexec, hmpc.trans hfetch⟩
    · have hfetch : s.fetchAddr n a = a := if_neg (Nat.not_lt.mpr hlow)
      obtain ⟨t, hexec, hmpc, -⟩ := hgoes 0 ha (by omega)
      exact ⟨t, hexec, hmpc.trans hfetch⟩
    · obtain ⟨t, hexec, hmpc, -, hlogged⟩ := hgoes 1 ha (by omega)
      exact ⟨t, hexec, hmpc, hlogged rfl⟩
  case reserved => exact fun s n c k hn hseq hgate => ucodeFault_reserved hn hseq hgate
  case pe => exact fun s n hn hstate hgate => peReset_runs hn hstate hgate
  case cluster => exact fun s c hc hstate hgate => clusterReset_runs hc hstate hgate

end Sys2Proof.Machine
end

/-! # O23: the order of dispatch -/

section

namespace Sys2Proof.Machine

/-- Entry r is dispatched no later than entry q (R99): a higher priority, or the same with a stamp no greater. -/
def ReadyE.NoLater (r q : ReadyE) : Prop := q.pri ≤ r.pri ∧ (q.pri = r.pri → r.stamp ≤ q.stamp)

theorem ReadyE.NoLater.refl (r : ReadyE) : r.NoLater r := ⟨Nat.le_refl _, fun _ => Nat.le_refl _⟩

theorem ReadyE.NoLater.trans {r q x : ReadyE} (h : r.NoLater q) (g : q.NoLater x) : r.NoLater x := by
  obtain ⟨hpri, hstamp⟩ := h
  obtain ⟨gpri, gstamp⟩ := g
  exact ⟨gpri.trans hpri, fun heq => (hstamp (by omega)).trans (gstamp (by omega))⟩

theorem bestReady_eq_none {l : List ReadyE} (h : bestReady l = none) : l = [] := by
  cases l with
  | nil => rfl
  | cons x l =>
    rw [bestReady] at h
    split at h
    · cases h
    · split at h <;> cases h

/-- No entry of the list goes before the one chosen. -/
theorem bestReady_noLater {l : List ReadyE} : ∀ {r : ReadyE}, bestReady l = some r → ∀ q ∈ l, r.NoLater q := by
  induction l with
  | nil => exact fun _ q hq => absurd hq List.not_mem_nil
  | cons x l ih =>
    intro r h
    rw [bestReady] at h
    cases hl : bestReady l with
    | none =>
      obtain rfl := bestReady_eq_none hl
      simp only [bestReady, Option.some.injEq] at h
      simpa [h] using ReadyE.NoLater.refl r
    | some b =>
      simp only [hl] at h
      rw [List.forall_mem_cons]
      split at h <;> obtain rfl := Option.some.inj h
      · next hbefore =>
        have hfirst : b.NoLater x := ⟨by omega, fun heq => by omega⟩
        exact ⟨hfirst, ih hl⟩
      · next hbefore =>
        have hfirst : x.NoLater b := ⟨by omega, fun heq => by omega⟩
        exact ⟨.refl x, fun q hq => hfirst.trans (ih hl q hq)⟩

/-- Settles O23: the order of R99 is transitive, and each step over the list keeps the entry that goes first. -/
theorem dispatchOrder : Obligations.DispatchOrder := by
  unfold Obligations.DispatchOrder
  exact fun l r h => ⟨bestReady_mem h, bestReady_noLater h⟩

end Sys2Proof.Machine
end

/-! # O24: the lower levels -/

section

namespace Sys2Proof.Machine

section

variable {s : State} {n : Nat} {t : Token} {p : Packet} {r : List Packet}

/-- The spill engine sends a search back to the PE that asked, on RSP. -/
theorem spillEngineRequest_runs (hreq : s.reqAt 66 = p :: r) (hopc : p.opc = .spill) (hvn : p.vn = 1) (hpressure : s.pressure = false) :
    Runs .spillEngineRequest s fun u => u.reqAt 66 = r ∧ ∃ m, (u.ni 66).outQ = (s.ni 66).outQ ++ [m] ∧ m.dest = p.src ∧ m.opc = .spill ∧
      m.spec = p.rslot ∧ m.body = p.body ∧ m.seq = some p.seq := by
  refine runs_module rfl (fun _ _ h => h) ?_
  have htake : s.takeReq 66 (fun p => p.opc == .spill && p.vn == 1) = some (p, s.setReqs 66 r) := takeReq_head hreq (by simp [hopc, hvn])
  let m : Msg := { dest := p.src, opc := .spill, pri := p.pri, spec := p.rslot, body := p.body, act := 0, cls := .none, ae := none, seq := some p.seq }
  have heq : s.spillEngine = ((s.setReqs 66 r).unitSend 66 m).pressureCheck := by simp only [State.spillEngine, htake, m]
  have hquiet := quiet_pressureCheck (s := (s.setReqs 66 r).unitSend 66 m) (.inl hpressure)
  rw [heq, hquiet.reqAt, hquiet.ni, unitSend_outQ]
  exact ⟨setReqs_reqAt .., m, rfl, rfl, rfl, rfl, rfl, rfl⟩

/-- A token whose set has been searched below goes through the matching stage: at a good header of several inputs it is placed. -/
theorem matchTok_searched {u : State} (hkilled : ∀ k, (u.pe n).killed k = false) (hword : (u.pe n).imemBad.contains (blockAddr n t.tag) = false)
    (hbase : blockAddr n t.tag < imemWords n) (hhead : opOf (u.imemAt n (blockAddr n t.tag)) = 0x10) (hfault : t.fault = false)
    (hport : tPort t.tag ≤ fld (u.imemAt n (blockAddr n t.tag)) 47 46) (hmany : 1 ≤ fld (u.imemAt n (blockAddr n t.tag)) 47 46) :
    u.matchTok n t true = u.placeTok n t (fld (u.imemAt n (blockAddr n t.tag)) 47 46 + 1) true := by
  simp only [State.matchTok, hkilled, hword, Bool.false_eq_true, if_false, if_true, hhead, ne_eq, not_true_eq_false, or_false, hfault, false_and,
    if_neg (Nat.not_le.mpr hbase), if_neg (show ¬ fld (u.imemAt n (blockAddr n t.tag)) 47 46 + 1 ≤ tPort t.tag by omega),
    if_neg (show ¬ fld (u.imemAt n (blockAddr n t.tag)) 47 46 + 1 = 1 by omega)]

/-- A key that no level holds makes a record in the matching store, when its set has room. -/
theorem placeTok_searched {u : State} {arity : Nat} (hrecs : ∀ q ∈ (u.pe n).recs, q.key ≠ matchKey t.tag ∧ q.keyBad = false)
    (hroom : (u.pe n).waysUsed (u.setOf n t.tag) + (if tWide t.tag then 2 else 1) ≤ 4) :
    u.placeTok n t arity true =
      some (u.updPe n fun p => { p with recs := p.recs ++ [firstRec t arity (fld u.tb 31 0) (u.setOf n t.tag)] }) := by
  have hvoid := voidBad_none (u := u) (n := n) (set := u.setOf n t.tag) (levels := [.store, .overflow, .deep, .fill]) fun q hq => (hrecs q hq).2
  have hfound : ∀ l : List Level, (u.pe n).recs.find? (fun r => r.key = matchKey t.tag ∧ l.contains r.level) = none := fun l =>
    List.find?_eq_none.mpr fun q hq => by simp [(hrecs q hq).1]
  have hfits : (u.pe n).waysUsed (u.setOf n t.tag) + (firstRec t arity (fld u.tb 31 0) (u.setOf n t.tag)).units ≤ 4 := by
    rw [firstRec_units]; exact hroom
  have hnew : u.newRec n t arity (u.setOf n t.tag) =
      some (u.updPe n fun p => { p with recs := p.recs ++ [firstRec t arity (fld u.tb 31 0) (u.setOf n t.tag)] }) := if_pos hfits
  simp only [State.placeTok, hvoid, Bool.not_true, Bool.false_and, Bool.false_eq_true, if_false, if_true, hfound, Option.filter_none, Option.or_none,
    hnew]

/-- The state in which PE n has taken the answer p to its search for token t, with r the requests left. -/
def State.searchAnswered (s : State) (n : Nat) (p : Packet) (r : List Packet) : State :=
  ((s.setReqs (peEndpoint n) r).endSlot (peEndpoint n) p.rslot).updPe n fun x => { x with lookups := [] }

/-- Taking the answer empties the lookup buffer of its one search; instruction memory, registers and time stay. -/
theorem searchAnswered_spec : let w := s.searchAnswered n p r
    w.pe n = { s.pe n with lookups := [] } ∧ w.reqAt (peEndpoint n) = r ∧ w.imem = s.imem ∧ w.regs = s.regs ∧ w.tb = s.tb :=
  ⟨updPe_pe .., setReqs_reqAt .., rfl, rfl, rfl⟩

/-- The answer to the one search under way gives its token to the matching stage. -/
theorem lookupReply_eq {x : Nat} {b : Bool} (hpair : s.pairRuns n = true) (hlook : (s.pe n).lookups = [⟨t, x, true, b⟩])
    (hreq : s.reqAt (peEndpoint n) = p :: r) (hopc : p.opc = .spill) (hvn : p.vn = 2) (hpe : p.spillPe = pairPe n) (htag : p.rtag = t.tag) :
    s.lookupReply n = s.fitOr n ((s.searchAnswered n p r).matchTok n t true) := by
  have htake : s.takeReq (peEndpoint n) (fun p => p.opc == .spill && p.vn == 2 && p.spillPe == pairPe n) = some (p, s.setReqs (peEndpoint n) r) :=
    takeReq_head hreq (by simp [hopc, hvn, hpe])
  have hpair' : ((s.setReqs (peEndpoint n) r).endSlot (peEndpoint n) p.rslot).pairRuns n = true := hpair
  have hlook' : (((s.setReqs (peEndpoint n) r).endSlot (peEndpoint n) p.rslot).pe n).lookups = [⟨t, x, true, b⟩] := hlook
  have hfind : [(⟨t, x, true, b⟩ : Lookup)].find? (fun l => l.asked && l.tok.tag == p.rtag) = some ⟨t, x, true, b⟩ := by simp [htag]
  have herase : ((s.setReqs (peEndpoint n) r).endSlot (peEndpoint n) p.rslot).updPe n
      (fun q => { q with lookups := q.lookups.erase ⟨t, x, true, b⟩ }) = s.searchAnswered n p r := by
    rw [State.searchAnswered, State.updPe, State.updPe, hlook', List.erase_cons_head]
  simp only [State.lookupReply, htake, hpair', Bool.not_true, Bool.false_eq_true, if_false, hlook', hfind, herase]

end

/-- A search that found nothing makes a record for its token. -/
theorem deepStoreLookupReply_runs {s : State} {n : Nat} {t : Token} {p : Packet} {r : List Packet} {b : Bool} (h : s.CanMatch n t)
    (hreq : s.reqAt (peEndpoint n) = p :: r) (hopc : p.opc = .spill) (hvn : p.vn = 2) (hpe : p.spillPe = pairPe n) (htag : p.rtag = t.tag)
    (hmany : 1 ≤ fld (s.imemAt n (blockAddr n t.tag)) 47 46) (hrecs : ∀ q ∈ (s.pe n).recs, q.key ≠ matchKey t.tag ∧ q.keyBad = false)
    (hroom : (s.pe n).waysUsed (s.setOf n t.tag) + (if tWide t.tag then 2 else 1) ≤ 4) :
    Runs (.deepStoreLookupReply n) (s.updPe n fun x => { x with lookups := [⟨t, s.setOf n t.tag, true, b⟩] }) fun u =>
      u.reqAt (peEndpoint n) = r ∧ (u.pe n).lookups = [] ∧
        (u.pe n).recs = (s.pe n).recs ++ [firstRec t (fld (s.imemAt n (blockAddr n t.tag)) 47 46 + 1) (fld s.tb 31 0) (s.setOf n t.tag)] := by
  refine runs_unit h.pe rfl (fun _ _ h => h) ?_
  let v := s.updPe n fun x => { x with lookups := [⟨t, s.setOf n t.tag, true, b⟩] }
  have hv : v.pe n = { s.pe n with lookups := [⟨t, s.setOf n t.tag, true, b⟩] } := updPe_pe ..
  obtain ⟨hw, hreqs, himem, hregs, htime⟩ := searchAnswered_spec (s := v) (n := n) (p := p) (r := r)
  have heq := lookupReply_eq (s := v) h.pair (by rw [hv]) hreq hopc hvn hpe htag
  rw [hv] at hw
  generalize v.searchAnswered n p r = w at hw hreqs himem hregs htime heq
  have hreg : ∀ x, w.reg x = s.reg x := fun x => by rw [State.reg, hregs]; rfl
  have htb : w.tb = s.tb := htime
  have hat : w.imemAt n (blockAddr n t.tag) = s.imemAt n (blockAddr n t.tag) := by rw [State.imemAt, himem]; rfl
  have hset : w.setOf n t.tag = s.setOf n t.tag := by rw [State.setOf, State.setOf, State.rfld, State.rfld, hreg]
  have hfault : t.fault = false := by
    cases hf : t.fault with
    | false => rfl
    | true => have := h.fault hf; omega
  have hmatch := matchTok_searched (u := w) (n := n) (t := t) (fun k => by rw [hw]; simp [Pe.killed, h.filter]) (by rw [hw]; exact h.word) h.base
    (by rw [hat]; exact h.head) hfault (by rw [hat]; exact h.port) (by rw [hat]; exact hmany)
  have hplace := placeTok_searched (u := w) (n := n) (t := t) (arity := fld (w.imemAt n (blockAddr n t.tag)) 47 46 + 1)
    (by rw [hw]; exact hrecs) (by rw [hw, hset]; exact hroom)
  rw [hmatch, hplace, fitOr_some (.inl (by rw [updPe_pe, hw, hv])), hat, hset, htb] at heq
  have hquiet := quiet_pressureCheck (s := w.updPe n fun x => { x with
    recs := x.recs ++ [firstRec t (fld (s.imemAt n (blockAddr n t.tag)) 47 46 + 1) (fld s.tb 31 0) (s.setOf n t.tag)] })
    (.inl ((congrArg (bitAt · 0) (hreg aPressStatus)).trans h.pressure))
  rw [show (s.updPe n _).lookupReply n = _ from heq, hquiet.reqAt, hquiet.pe, updPe_pe, hw]
  exact ⟨hreqs, rfl, rfl⟩

/-- The first READY record below the matching store that the fill buffer names comes to stand there. -/
theorem fillComplete_runs {s : State} {n : Nat} {q : MRec} (hn : n < 276) (hpressure : s.pressure = false)
    (hfind : (s.pe n).recs.find? (fun q => q.ready && (s.pe n).fillBuf.contains q.key && q.level != .fill) = some q) (hgood : q.keyBad = false) :
    Runs (.fillComplete n) s fun u => (u.pe n).recs = (s.pe n).recs.map (fun x => if x.key = q.key then { q with level := .fill } else x) := by
  refine runs_unit hn rfl (fun _ _ h => h) ?_
  obtain ⟨htouch, hkeep⟩ := touchOvf_spec s n q.key q.level
  let t := ((s.touchOvf n q.key q.level).setRecs n (replaceRec (s.pe n).recs { q with level := .fill })).bumpPe n psFILL
  have heq : s.fillComplete n = t.pressureCheck := by
    simp only [State.fillComplete, hfind, hgood, Bool.false_eq_true, if_false, t]
  have hcount := bumpPe_noLess hn (show psFILL < 16 by decide)
    ((s.touchOvf n q.key q.level).setRecs n (replaceRec (s.pe n).recs { q with level := .fill })) 1
  have hquiet := quiet_pressureCheck (s := t) (.inl ((congrArg (bitAt · 0) hcount.pressure).trans (hkeep.trans hpressure)))
  have hpe : t.pe n = { s.pe n with recs := replaceRec (s.pe n).recs { q with level := .fill } } := by
    rw [bumpPe_pe, State.setRecs, updPe_pe, htouch.pe]
  rw [heq, hquiet.pe, hpe]
  rfl

/-- The shadow bank takes the inputs of the entry that R99 chooses next. -/
theorem shadowCopyComplete_runs {s : State} {n : Nat} {r : ReadyE} (hn : n < 276) (hbest : bestReady (s.pe n).ready = some r) :
    Runs (.shadowCopyComplete n) s fun u => (u.pe n).shadow = some r.src ∧ (u.pe n).ready = (s.pe n).ready := by
  refine runs_unit hn rfl (fun _ _ h => h) ?_
  have heq : s.shadowCopy n = s.updPe n (fun p => { p with shadow := some r.src }) := by simp only [State.shadowCopy, hbest]
  rw [heq, updPe_pe]
  exact ⟨rfl, rfl⟩

/-- Settles O24: each unit does what its one request asks, and the pressure checks that follow release nothing. -/
theorem lowerLevels : Obligations.LowerLevels := by
  unfold Obligations.LowerLevels
  refine ⟨fun s p r => ?spill, fun s n t p r b => ?reply, fun s n q => ?fill, fun s n r => ?shadow⟩
  case spill => exact spillEngineRequest_runs
  case reply =>
    intro h hreq hopc hvn hpe htag hmany hrecs hroom
    obtain ⟨u, hexec, hreqs, hlook, hrec⟩ := deepStoreLookupReply_runs (b := b) h hreq hopc hvn hpe htag hmany hrecs hroom
    exact ⟨u, hexec, hreqs, hlook, _, hrec, rfl, rfl, rfl⟩
  case fill => exact fillComplete_runs
  case shadow => exact shadowCopyComplete_runs

end Sys2Proof.Machine
end

/-! # O25: suspension -/

section

namespace Sys2Proof.Machine

/-! Save frames. -/

/-- The micro-sequencer's words of a frame go to memory; they are free values. -/
theorem storeMicro_rest (k : Nat) : ∀ (s : State) (addr : Nat), let t := s.storeMicro addr k
    t = { s with mem := t.mem, ecc := t.ecc, free := t.free } := by
  induction k with
  | zero => exact fun _ _ => rfl
  | succ k ih => exact fun s addr => ih (s.draw.2.putWord addr (Config.frameMicro s.draw.1)) (addr + 8)

/-- The micro-sequencer's copy of a frame saved for activation a. -/
def savedFrame (preempt : Bool) (a : Act) (res : Word) (dst exc : Nat) : Frame :=
  ⟨preempt, a, frameStatus preempt a, res, dst, exc, tPri a.tag, false⟩

/-- Saving a frame writes it to memory and to the micro-sequencer's copies. -/
theorem saveFrame_rest (s : State) (n f : Nat) (preempt : Bool) (a : Act) (opa opb opc res : Word) (dst exc : Nat) :
    ∃ m e k, s.saveFrame n f preempt a opa opb opc res dst exc = { s with mem := m, ecc := e, free := k }.updPe n
      fun p => p.setFrame f (some (savedFrame preempt a res dst exc)) := by
  let words := frameWords a (frameStatus preempt a) opa opb opc res exc
  have hwords : s.storeWords (s.frameAddr n f) words = _ := memOnly_storeWords words s (s.frameAddr n f)
  have hmicro := storeMicro_rest 17 (s.storeWords (s.frameAddr n f) words) (s.frameAddr n f + 0x178)
  unfold State.saveFrame
  dsimp only [words] at hwords hmicro ⊢
  rw [hmicro, hwords]
  exact ⟨_, _, _, rfl⟩

/-- Saving a frame leaves contexts and the frame's address as they are. -/
theorem saveFrame_spec (s : State) (n f : Nat) (preempt : Bool) (a : Act) (opa opb opc res : Word) (dst exc : Nat) :
    let t := s.saveFrame n f preempt a opa opb opc res dst exc
    t.pe n = (s.pe n).setFrame f (some (savedFrame preempt a res dst exc)) ∧ (∀ k, t.ctx k = s.ctx k) ∧ t.frameAddr n f = s.frameAddr n f := by
  obtain ⟨m, e, k, hsaved⟩ := saveFrame_rest s n f preempt a opa opb opc res dst exc
  rw [hsaved]
  exact ⟨updPe_pe .., fun _ => rfl, rfl⟩

/-- A frame just saved, marked as standing in the ready list. -/
theorem frame_upd_inReady {p : Pe} {f clk : Nat} {y : Frame} :
    ({ p.setFrame f (some y) with
        clk := clk, frames := Tbl.upd none (p.setFrame f (some y)).frames f (fun x => x.map fun y => { y with inReady := true }) } : Pe).frame f =
      some { y with inReady := true } := by
  simp [Pe.frame, Pe.setFrame, Tbl.upd]

/-! Preemption (R104). -/

/-- PE n can preempt activation a into frame fr: it stands at an iteration boundary of the REP.I r with nothing in flight and no readout, and an
entry of priority 6 or 7 above its own waits (R104). -/
structure State.Preempts (s : State) (n : Nat) (a : Act) (r : Rep) (fr : Nat) : Prop where
  act : s.act n = some a
  flights : a.flights = []
  rep : a.rep = some r
  interruptible : r.interruptible = true
  begun : r.done ≠ 0
  lrd : a.lrd = none
  halt : (s.pe n).halt = .run
  urgent : ∃ x ∈ (s.pe n).ready, 6 ≤ x.pri ∧ actPri (s.pe n) a < x.pri
  room : (s.pe n).ready.length < 256
  frame : (s.pe n).freeFrame true = some fr

section

variable {s : State} {n fr : Nat} {a : Act}

/-- The state in which activation a has left PE n for preemption frame fr, 40 cycles later (R104). -/
def State.setAside (s : State) (n fr : Nat) (a : Act) : State :=
  let w (k : Nat) : Word := Config.frameMicro (s.free + k)
  let t := State.saveFrame { s.setAct n none with free := s.free + 6 } n fr true a (w 0) (w 1) (w 2) (w 3) 63 (w 4).toNat
  ((t.bumpPe n psCYCLES 40).bumpPe n psRQAREA (40 * (s.pe n).ready.length)).updPe n fun p =>
    { p with clk := p.clk + 40, frames := Tbl.upd none p.frames fr (fun x => x.map fun y => { y with inReady := true }) }

/-- Setting an activation aside leaves the ready list and its backlog. -/
theorem setAside_pe : let p := (s.setAside n fr a).pe n
    (p.act = none ∧ p.ready = (s.pe n).ready ∧ p.backlog = (s.pe n).backlog) ∧
      ∃ y, p.frame fr = some y ∧ y.preempt = true ∧ y.inReady = true ∧ y.act = a := by
  let w (k : Nat) : Word := Config.frameMicro (s.free + k)
  obtain ⟨hsaved, -⟩ := saveFrame_spec { s.setAct n none with free := s.free + 6 } n fr true a (w 0) (w 1) (w 2) (w 3) 63 (w 4).toNat
  have hleft : State.pe { s.setAct n none with free := s.free + 6 } n = { s.pe n with act := none } :=
    updPe_pe s n fun p => { p with act := none }
  rw [hleft] at hsaved
  rw [State.setAside, updPe_pe, bumpPe_pe, bumpPe_pe, hsaved]
  exact ⟨⟨rfl, rfl, rfl⟩, _, frame_upd_inReady, rfl, rfl, rfl⟩

/-- A preemption sets the activation aside and queues an entry for its frame. -/
theorem preempt_eq {r : Rep} (h : s.Preempts n a r fr) :
    ∃ e : ReadyE, (e.src = .frame fr ∧ e.key = a.tag ∧ e.stamp = a.stamp) ∧ s.preempt n = ((s.setAside n fr a).bumpPe n psPREEMPT).enqueue n e := by
  have hact : (s.pe n).act = some a := h.act
  have hurgent : (s.pe n).ready.any (fun x => decide (6 ≤ x.pri) && decide (actPri (s.pe n) a < x.pri)) = true := by
    obtain ⟨x, hx, hsix, hpri⟩ := h.urgent
    exact List.any_eq_true.mpr ⟨x, hx, by simp [hsix, hpri]⟩
  have hbegun : (r.done == 0) = false := by simpa using h.begun
  have hroom : decide (256 ≤ (s.pe n).ready.length) = false := decide_eq_false (Nat.not_le.mpr h.room)
  have hhalt : ((s.pe n).halt != .run) = false := by rw [h.halt]; rfl
  have hsame : { a with flights := [], rep := some r, lrd := none } = a := by rw [← h.flights, ← h.rep, ← h.lrd]
  simp only [State.preempt, hact, h.flights, List.filter_nil, firstFlight, h.rep, h.interruptible, hbegun, h.lrd, hhalt, hurgent, hroom, h.frame,
    Option.isSome_none, Bool.not_true, Bool.or_false, Bool.false_eq_true, if_false, leave_none, hsame]
  exact ⟨_, ⟨rfl, rfl, rfl⟩, rfl⟩

/-- With room in the ready list and no backlog, the entry for the frame of a preempted activation joins the list. -/
theorem preemption_runs {r : Rep} (hn : n < 276) (h : s.Preempts n a r fr) (hback : (s.pe n).backlog = []) :
    Runs (.preemption n) s fun u => u.act n = none ∧
      (∃ y, (u.pe n).frame fr = some y ∧ y.preempt = true ∧ y.inReady = true ∧ y.act = a) ∧
      ∃ e, (u.pe n).ready = (s.pe n).ready ++ [e] ∧ e.src = .frame fr ∧ e.key = a.tag ∧ e.stamp = a.stamp := by
  refine runs_unit hn rfl (fun _ _ h => h) ?_
  obtain ⟨e, ⟨hsrc, hkey, hstamp⟩, heq⟩ := preempt_eq h
  obtain ⟨⟨hact, hready, hbacklog⟩, hframe⟩ := setAside_pe (s := s) (n := n) (fr := fr) (a := a)
  have hpe := bumpPe_pe (s.setAside n fr a) n psPREEMPT 1 n
  generalize (s.setAside n fr a).pe n = p at hact hready hbacklog hframe hpe
  have hroom : p.ready.length < p.readyLim := by
    rw [Pe.readyLim, hact, hready]; exact h.room
  have hqueued := enqueue_room (s := (s.setAside n fr a).bumpPe n psPREEMPT) (n := n) (e := e) (by rw [hpe, hbacklog, hback])
    (by rw [hpe]; exact hroom)
  rw [heq, hqueued, State.act, (quiet_noteDepth ..).pe, State.pe_setPe, if_pos rfl, hpe]
  exact ⟨hact, hframe, e, by rw [hready], hsrc, hkey, hstamp⟩

end

/-! Precise traps (R135). -/

section

variable {s : State} {n fr : Nat} {a : Act}

/-- The fault of a handled context, raised from PE n, goes out as one FAULT token with the value of R145. -/
theorem deliver_faultToken {e : Nat} {ftag : Word} {fc : FaultCode} {off detail : Nat} {unit : Bool} (h : s.handled (tKey ftag)) :
    ∃ (m : Msg) (w : Word), (m.fault = true ∧ m.dest = peEndpoint (s.ctx (tKey ftag)).hpe ∧
        m.body = tokenBody w (faultValue ftag unit fc.code off detail)) ∧
      s.deliver e (some (pairPe n)) ftag unit fc off detail = s.updPe (pairPe n) (fun p => { p with outQ := p.outQ ++ [m] }) := by
  obtain ⟨hhandler, hused⟩ := h
  simp only [State.deliver, State.deliverTo, hhandler, hused, ne_eq, not_false_eq_true, and_self, if_true]
  exact ⟨_, _, ⟨rfl, rfl, rfl⟩, rfl⟩

/-- The one effect in flight lands when its slot has come. -/
theorem landTo_single {g : Flight} (hact : s.act n = some a) (hflights : a.flights = [g]) :
    s.landTo n g.land = (s.setAct n (some { a with flights := [] })).applyEff n { a with flights := [] } g := by
  have hfirst : firstFlight [g] = some g := rfl
  simp only [State.landTo, hact, hflights, List.length_singleton, State.landFuel, hfirst, Nat.le_refl, if_true, List.erase_cons_head]

/-- A trap with a frame free and a handler suspends the activation at the trapping instruction and sends the resumable FP_TRAP. -/
theorem takeTrap_saves {g : Flight} {dst exc : Nat} {opa opb opc res : Word} (hflights : a.flights = []) (hhandles : a.handles = none)
    (hframe : (s.pe n).freeFrame false = some fr) (hhandled : s.handled a.key) :
    let t := s.takeTrap n a g dst opa opb opc res exc
    let b := { a with off := g.offset, divUntil := 0, mulFree := 0, lrd := none }
    ∃ (m : Msg) (w : Word), (m.fault = true ∧ m.dest = peEndpoint (s.ctx a.key).hpe ∧
        m.body = tokenBody w (faultValue a.tag false 4 g.offset (s.frameAddr n fr / 512 * 512 + 2 * exc + 1))) ∧
      (t.pe n).act = none ∧ (t.pe n).frame fr = some (savedFrame false b res dst exc) ∧ (t.pe n).outQ = (s.pe n).outQ ++ [m] := by
  intro t b
  have hdivides : a.endDivides g.issue = a := by rw [Act.endDivides, hflights]; rfl
  have hb : { a with flights := [], off := g.offset, divUntil := 0, mulFree := 0, lrd := none, handles := none } = b := by
    rw [← hflights, ← hhandles]
  have hkey : b.key = a.key := rfl
  obtain ⟨hhv, hused⟩ := hhandled
  have hfree : ((s.setAct n none).pe n).freeFrame false = some fr := by rw [State.setAct, updPe_pe]; exact hframe
  let x := (s.setAct n none).saveFrame n fr false b opa opb opc res dst exc
  obtain ⟨hpe, hctx, haddr⟩ := saveFrame_spec (s.setAct n none) n fr false b opa opb opc res dst exc
  have ht : t = x.deliver (peEndpoint n) (some (pairPe n)) a.tag false .fpTrap g.offset (x.frameAddr n fr / 512 * 512 + 2 * exc + 1) := by
    simp only [t, x, State.takeTrap, hdivides, hb, hkey, hhv, hused, ne_eq, not_false_eq_true, and_self, if_true, hfree, hhandles]
  obtain ⟨m, w, hm, hsent⟩ := deliver_faultToken (s := x) (n := n) (e := peEndpoint n) (ftag := a.tag) (fc := .fpTrap) (unit := false)
    (off := g.offset) (detail := x.frameAddr n fr / 512 * 512 + 2 * exc + 1) (by rw [State.handled, hctx]; exact ⟨hhv, hused⟩)
  rw [hctx, haddr] at hm
  refine ⟨m, w, hm, ?_⟩
  rw [ht, hsent, updPe_pair, hpe, State.setAct, updPe_pe]
  exact ⟨rfl, by simp [Pe.frame, Pe.setFrame], rfl⟩

/-- A trap with a frame free and a handler suspends its activation as it stood when the instruction issued. -/
theorem preciseTrap_runs {g : Flight} {dst exc : Nat} {opa opb opc res : Word} (hn : n < 276) (hact : s.act n = some a) (hflights : a.flights = [g])
    (heff : g.eff = .trap dst opa opb opc res exc none none a.rc) (hframe : (s.pe n).freeFrame false = some fr) (hhandles : a.handles = none)
    (hhandled : s.handled a.key) :
    Runs (.preciseTrap n) s fun u => u.act n = none ∧
      (∃ y, (u.pe n).frame fr = some y ∧ y.preempt = false ∧ y.act.off = g.offset ∧ y.act.g = a.g ∧ y.act.fps = a.fps ∧ y.result = res ∧
        y.exc = exc) ∧
      ∃ m w, (u.pe n).outQ = (s.pe n).outQ ++ [m] ∧ m.fault = true ∧ m.dest = peEndpoint (s.ctx a.key).hpe ∧
        m.body = tokenBody w (faultValue a.tag false 4 g.offset (s.frameAddr n fr / 512 * 512 + 2 * exc + 1)) := by
  refine runs_unit hn rfl (fun _ _ h => h) ?_
  let b : Act := { a with flights := [], delay := none, rep := none }
  let t := s.setAct n (some { a with flights := [] })
  have ht : t.pe n = { s.pe n with act := some { a with flights := [] } } := updPe_pe ..
  have hlands : s.preciseTrap n = t.takeTrap n b g dst opa opb opc res exc := by
    simp only [State.preciseTrap, hact, hflights, List.filter_cons, heff, if_true, List.filter_nil, firstFlight]
    rw [landTo_single hact hflights, State.applyEff, heff]
  obtain ⟨m, w, ⟨hfault, hdest, hbody⟩, hnone, hsaved, hsent⟩ := takeTrap_saves (s := t) (n := n) (fr := fr) (a := b) (g := g) (dst := dst)
    (exc := exc) (opa := opa) (opb := opb) (opc := opc) (res := res) rfl hhandles (by rw [ht]; exact hframe) hhandled
  rw [hlands]
  exact ⟨hnone, ⟨_, hsaved, rfl, rfl, rfl, rfl, rfl, rfl⟩, m, w, by rw [hsent, ht], hfault, hdest, hbody⟩

end

/-- Settles O25: with nothing else in flight both suspensions save the activation as it stands, and what they queue or send names its frame. -/
theorem suspension : Obligations.Suspension := by
  unfold Obligations.Suspension
  refine ⟨?preemption, ?trap⟩
  case preemption =>
    intro s n a r x fr hn hact hflights hrep hinterruptible hbegun hlrd hhalt hx hsix hpri hroom hback hframe
    exact preemption_runs hn ⟨hact, hflights, hrep, hinterruptible, hbegun, hlrd, hhalt, ⟨x, hx, hsix, hpri⟩, hroom, hframe⟩ hback
  case trap =>
    intro s n a g dst opa opb opc res exc fr hn hact hflights _ heff hframe hhandles hhandler hused
    exact preciseTrap_runs hn hact hflights heff hframe hhandles ⟨hhandler, hused⟩

end Sys2Proof.Machine
end

/-! # O7: the multiplies

A multiply issues like any other instruction whose results land later, and also keeps the multiplier for its latency. What is left is
arithmetic: the latency, the halves of a product, and the value that the range check of R198 leaves. -/
section
namespace Sys2Proof.Machine

/-! ## Results of the fixed-point unit (R198) -/

/-- The range check gives the value and the flags of R198. -/
theorem fxRange_eq_inRange (w : Nat) (sat : Bool) (v : Int) : fxRange w sat v = ⟨BitVec.ofInt w (inRange w sat v).1, (inRange w sat v).2⟩ := by
  by_cases hlow : v < -(2 ^ (w - 1))
  · have hneg : v < 0 := hlow.trans_le (by simp)
    have hout : ¬ (-(2 ^ (w - 1)) ≤ v ∧ v < 2 ^ (w - 1)) := fun h => absurd h.1 (not_le.mpr hlow)
    cases sat <;> simp [fxRange, inRange, hlow, hout, hneg, -BitVec.toInt_ofInt]
  · have hge : -(2 ^ (w - 1)) ≤ v := not_lt.mp hlow
    by_cases hhigh : (2 : Int) ^ (w - 1) ≤ v
    · have hpos : ¬ v < 0 := not_lt.mpr ((by positivity : (0 : Int) ≤ 2 ^ (w - 1)).trans hhigh)
      have hout : ¬ (-(2 ^ (w - 1)) ≤ v ∧ v < 2 ^ (w - 1)) := fun h => absurd h.2 (not_lt.mpr hhigh)
      cases sat <;> simp [fxRange, inRange, hlow, hout, hhigh, hpos, -BitVec.toInt_ofInt]
    · simp [fxRange, inRange, hlow, hhigh, hge, not_le.mp hhigh]

/-- What the range check leaves of a value of 32 bits lies in the format. -/
theorem inRange_bounds32 (sat : Bool) (v : Int) : -(2 ^ 31) ≤ (inRange 32 sat v).1 ∧ (inRange 32 sat v).1 < 2 ^ 31 := by
  unfold inRange
  split
  · next h => exact h
  · cases sat with
    | false => exact ⟨BitVec.le_toInt (BitVec.ofInt 32 v), BitVec.toInt_lt (x := BitVec.ofInt 32 v)⟩
    | true => simp only [if_true]; split <;> decide

/-- A result of 32 bits is that value in 64 bits. -/
theorem fxSext32_fxRange (sat : Bool) (v : Int) :
    fxSext32 (fxRange 32 sat v) = ⟨BitVec.ofInt 64 (inRange 32 sat v).1, (inRange 32 sat v).2⟩ := by
  obtain ⟨hlow, hhigh⟩ := inRange_bounds32 sat v
  rw [fxRange_eq_inRange, fxSext32, BitVec.toInt_ofInt_eq_self (by decide) hlow hhigh]

/-- The Q1.31 operand is the low half of the register, read with its sign. -/
theorem q31_eq_toInt (x : Word) : q31 x = (x.setWidth 32).toInt := by
  rw [q31, sextNat, BitVec.toInt_eq_toNat_cond, BitVec.toNat_setWidth]
  split <;> split <;> omega

/-- A fixed-point result in flight, in the terms of the statements. -/
theorem fxResult_eq {d dist fxs unit busy : Nat} {v : Word} {p : Bool} :
    fxResult d dist (⟨v, fxs⟩ : FxRes 64) p unit busy = .ok (fixEffects d dist (v.setWidth 80) p fxs) .next false (some unit) busy := by
  simp only [fxResult, fixEffects, BitVec.ofNat_toNat]

theorem fixEffects_dist {d dist fxs : Nat} {v : BitVec 80} {p : Bool} : ∀ e ∈ fixEffects d dist v p fxs, e.dist = dist := by
  unfold fixEffects
  split <;> simp

/-! ## Products and latency (R143, R199, R200) -/

theorem lo64_mulSigned (x y : Word) : lo64 (mulSigned x y) = x * y := by
  have hlow : lo64 (mulSigned x y) = BitVec.ofInt 64 (x.toInt * y.toInt) := by
    apply BitVec.eq_of_toNat_eq
    simp only [lo64, mulSigned, BitVec.toNat_ofNat, BitVec.toNat_ofInt]
    omega
  rw [hlow, BitVec.ofInt_mul, BitVec.ofInt_toInt, BitVec.ofInt_toInt]

theorem hi64_mulSigned (x y : Word) : hi64 (mulSigned x y) = BitVec.ofInt 64 (x.toInt * y.toInt / 2 ^ 64) := by
  apply BitVec.eq_of_toNat_eq
  simp only [hi64, mulSigned, BitVec.toNat_ofNat, BitVec.toNat_ofInt, Nat.shiftRight_eq_div_pow]
  omega

theorem hi64_mulUnsigned (x y : Word) : hi64 (mulUnsigned x y) = BitVec.ofNat 64 (x.toNat * y.toNat / 2 ^ 64) := by
  apply BitVec.eq_of_toNat_eq
  simp only [hi64, mulUnsigned, BitVec.toNat_ofNat, Nat.shiftRight_eq_div_pow]
  omega

/-- The multiplier operand of MULQ32 is the low half of the register. -/
theorem toInt_sext64_low (x : Word) : (sext64 32 x.toNat).toInt = (x.setWidth 32).toInt := by
  have hlow := BitVec.le_toInt (x.setWidth 32)
  have hhigh := BitVec.toInt_lt (x := x.setWidth 32)
  have hsame : sext64 32 x.toNat = BitVec.ofInt 64 (x.setWidth 32).toInt := congrArg (BitVec.ofInt 64) (q31_eq_toInt x)
  rw [hsame, BitVec.toInt_ofInt_eq_self (by decide) (by omega) (by omega)]

theorem peKind_eq_a {n : Nat} : peKind n = .a ↔ 256 ≤ n ∧ n < 272 := by
  unfold peKind
  split
  · exact ⟨nofun, by omega⟩
  · split
    · exact ⟨by omega, fun _ => rfl⟩
    · exact ⟨nofun, by omega⟩

theorem mulLatency_signed (n : Nat) (cad : Bool) (b : Word) :
    mulLatency n cad true b = mulSlots n cad b.toInt (fun k => -(2 ^ (k - 1))) (fun k => 2 ^ (k - 1)) := by
  simp [mulLatency, mulSlots, peKind_eq_a, chunksSigned, and_assoc]

theorem mulLatency_unsigned (n : Nat) (cad : Bool) (b : Word) :
    mulLatency n cad false b = mulSlots n cad b.toNat (fun _ => 0) (fun k => 2 ^ k) := by
  simp [mulLatency, mulSlots, peKind_eq_a, chunksUnsigned, and_assoc]

theorem mulSlots_range (n : Nat) (cad : Bool) (v : Int) (lo hi : Nat → Int) : 1 ≤ mulSlots n cad v lo hi ∧ mulSlots n cad v lo hi ≤ 4 := by
  unfold mulSlots
  split_ifs <;> decide

/-! ## The instructions -/

section
variable {s : State} {n : Nat} {a : Act} {f : Fields} {c : Instr}

/-- An instruction on the multiplier whose effects land later, in the terms of the statements. -/
theorem issuesAct_mul {sem : State → Nat → Act → Fields → Issued} {effs : List Timed} {chk : Option Nat} {o : Op} {busy : Nat} (h : s.CanIssue n a)
    (hexec : exec c s = runOp n o f sem s) (hkind : o.kinds.contains (peKind n) = true) (huses : o.uses.ok f = true) (hmul : o.usesMul = true)
    (hdist : ∀ e ∈ effs, 0 < e.dist) (hdiv : effs.any (fun e => e.dist == 66) = false)
    (hsem : ∀ t, s.AtIssue n a t → sem t n { a with slot := a.slot + 1 } f = .ok effs .next false chk busy) :
    IssuesAct c s n (some { a.issued (packWord o.code f) effs false with mulFree := a.slot + 1 + busy }) := by
  obtain ⟨t, hrun, honly, hpe⟩ := runOp_next h o f sem effs false chk busy hkind huses hdist hsem
  refine ⟨t, hexec.trans hrun, honly, hpe.trans ?_⟩
  simp [Act.loaded, Act.issued, hmul, hdiv]

/-- A multiply of two sources: its result lands after the multiplier's latency, and the multiplier is busy until then. -/
theorem issuesAct_mulAB {code lat fxs : Nat} {signed q32 : Bool} {op : Act → Word → Word → FxRes 64} {v : Word} (h : s.CanIssue n a)
    (hdst : isDst f.d) (hsa : isSrc f.a) (hsb : isSrc f.b) (hsc : f.sc = 0) (himm : f.imm = 0)
    (hexec : exec c s = runOp n (opMul code) f (mulAB code signed q32 op) s)
    (hlat : mulLatency n a.cad signed (if q32 then sext64 32 (a.src f.b).toNat else a.src f.b) = lat) (hrange : 1 ≤ lat ∧ lat ≤ 4)
    (hop : op { a with slot := a.slot + 1 } (a.src f.a) (a.src f.b) = ⟨v, fxs⟩) :
    IssuesAct c s n (some { a.issued (packWord code f) (fixEffects f.d lat (v.setWidth 80) (a.poisoned f.a || a.poisoned f.b) fxs) false with
      mulFree := a.slot + 1 + lat }) := by
  have hdist := fixEffects_dist (d := f.d) (dist := lat) (fxs := fxs) (v := v.setWidth 80) (p := a.poisoned f.a || a.poisoned f.b)
  refine issuesAct_mul (o := opMul code) h hexec (allKinds_all n) (by simp [opMul, usesDAB, Uses.ok, hsc, himm]) rfl (chk := some uMul)
    (fun e he => by rw [hdist e he]; omega) (List.any_eq_false.mpr fun e he => by rw [hdist e he, beq_iff_eq]; omega) fun t _ => ?_
  rw [← fxResult_eq (unit := uMul) (busy := lat), ← hop, ← hlat]
  simp only [mulAB, hdst, hsa, hsb, Bool.and_self, if_true]
  rfl

end

/-- Settles O7: each multiply is `issuesAct_mulAB` with its latency and its value. -/
theorem multiplyResults : Obligations.MultiplyResults := by
  unfold Obligations.MultiplyResults
  intro s n a f h hdst hsa hsb hsc himm x y sg us s32 q63 q31v out
  have hsigned : mulLatency n a.cad true y = sg := mulLatency_signed n a.cad y
  have hunsigned : mulLatency n a.cad false y = us := mulLatency_unsigned n a.cad y
  have hlow : mulLatency n a.cad true (sext64 32 y.toNat) = s32 := by rw [mulLatency_signed, toInt_sext64_low]
  have hrange := mulSlots_range n a.cad
  have hq31 : fxMul32 a.fxrm a.sat x y = ⟨BitVec.ofInt 64 q31v.1, q31v.2⟩ := by rw [fxMul32, q31_eq_toInt, q31_eq_toInt, fxSext32_fxRange]
  refine ⟨?mull, ?mulhs, ?mulhu, ?mulq, ?mulq32⟩
  case mull => exact issuesAct_mulAB h hdst hsa hsb hsc himm rfl hsigned (hrange ..) (by rw [lo64_mulSigned])
  case mulhs => exact issuesAct_mulAB h hdst hsa hsb hsc himm rfl hsigned (hrange ..) (by rw [hi64_mulSigned])
  case mulhu => exact issuesAct_mulAB h hdst hsa hsb hsc himm rfl hunsigned (hrange ..) (by rw [hi64_mulUnsigned])
  case mulq => exact issuesAct_mulAB h hdst hsa hsb hsc himm rfl hsigned (hrange ..) (fxRange_eq_inRange ..)
  case mulq32 => exact issuesAct_mulAB h hdst hsa hsb hsc himm rfl hlow (hrange ..) hq31

end Sys2Proof.Machine
end

/-! # O10: an enabled exception of an FP instruction traps

With an enabled exception, the FP result of a block with AW is one effect, the trap. It carries the delay slot, the repeat and RC that issue left,
and on a PE with nothing in flight these are none, none and RC itself. -/
section
namespace Sys2Proof.Machine

section
variable {a : Act} {fl : Nat}

/-- An exception that is not an exact tiny result traps when CTL.TEN enables it (R214). -/
theorem trapExc_enabled (haw : a.aw = true) (henabled : fl &&& a.ten ≠ 0) : trapExc a fl false = some fl := by
  simp [trapExc, haw, henabled]

theorem fpResult_trap {d unit : Nat} {opa opb opc v : Word} {p : Bool} (haw : a.aw = true) (henabled : fl &&& a.ten ≠ 0) :
    fpResult a d opa opb opc v fl false p unit = .ok [⟨4, .trap d opa opb opc v fl a.delay a.rep a.rcDue⟩] .next false (some unit) 0 := by
  rw [fpResult, trapExc_enabled haw henabled]

/-- With no repeat and no write to RC in flight, a trap leaves RC as it stands. -/
theorem rcDue_idle (hrep : a.rep = none) (hflights : a.flights = []) : a.rcDue = a.rc := by
  simp [Act.rcDue, hrep, hflights]

end

section
variable {s : State} {n : Nat} {a : Act} {f : Fields} {c : Instr} {code unit : Nat} {m : Fmt} {op : Nat → FVal → FVal → FRes}

/-- A two-source FP instruction that raises an enabled exception puts its precise trap in flight, and nothing else. -/
theorem issuesAct_fpTrap (h : s.CanIssue n a) (hdst : isDst f.d) (hsa : isSrc f.a) (hsb : isSrc f.b) (hsc : f.sc = 0) (himm : f.imm = 0)
    (haw : a.aw = true) (hexec : exec c s = runOp n (opFp2 code) f (fpAB m code unit op) s) :
    let r := op a.rm (m.val (a.src f.a)) (m.val (a.src f.b))
    r.tiny = false → r.fl &&& a.ten ≠ 0 →
    IssuesAct c s n (some (a.issued (packWord code f)
      [⟨4, .trap f.d (a.src f.a) (a.src f.b) 0 (BitVec.ofNat 64 r.bits) r.fl none none a.rc⟩] false)) := by
  intro r htiny henabled
  have huses : (opFp2 code).uses.ok f = true := by simp [opFp2, opDAB, usesDAB, Uses.ok, hsc, himm]
  refine issuesAct_of h (opFp2 code) f _ _ false (some unit) 0 hexec (allKinds_all n) huses rfl (by simp) (by simp) fun t _ => ?_
  let b : Act := { a with slot := a.slot + 1 }
  have hdecode : fpAB m code unit op t n b f = fpResult b f.d (a.src f.a) (a.src f.b) 0 (BitVec.ofNat 64 r.bits) r.fl r.tiny
      (a.poisoned f.a || a.poisoned f.b) unit := by
    simp only [fpAB, semAB, hdst, hsa, hsb, Bool.and_self, if_true]
    rfl
  have hrc : b.rcDue = a.rc := rcDue_idle (a := b) h.rep h.flights
  have hdelay : b.delay = none := h.delay
  have hrep : b.rep = none := h.rep
  rw [hdecode, htiny, fpResult_trap (a := b) haw henabled, hrc, hdelay, hrep]

end

/-- Settles O10: each of the six instructions decodes to the trap of the exception it raises. -/
theorem fpEnabledExceptionTraps : Obligations.FpEnabledExceptionTraps := by
  unfold Obligations.FpEnabledExceptionTraps
  intro s n a f h hdst hsa hsb hsc himm haw
  have traps := fun c code m unit op => issuesAct_fpTrap (c := c) (code := code) (unit := unit) (m := m) (op := op) h hdst hsa hsb hsc himm haw
  simp only [List.forall_mem_cons, List.not_mem_nil, false_implies, implies_true, and_true]
  exact ⟨traps _ 0x80 fmtD uFadd fmtD.add rfl, traps _ 0x81 fmtD uFadd (fsubOp fmtD) rfl, traps _ 0x82 fmtD uFmul fmtD.mul rfl,
    traps _ 0x90 fmtS uFadd fmtS.add rfl, traps _ 0x91 fmtS uFadd (fsubOp fmtS) rfl, traps _ 0x92 fmtS uFmul fmtS.mul rfl⟩

end Sys2Proof.Machine
end

/-! # O13: MOVS and MOVTS -/
section
namespace Sys2Proof.Machine

section
variable {t : State} {n : Nat} {a : Act} {f : Fields}

/-! What the two decode to (R119, R121, R174, R235). -/

theorem semMovs_special (hdst : isDst f.d) (hsc : f.c = 0) (hreg : 24 ≤ f.a ∧ f.a < 32) (hkind : f.a < 29 ∨ peKind n = .a) :
    semMovs t n a f = regResult f.d 2 (a.special f.a) false uDup := by
  have hspecial : f.c = 0 ∧ 24 ≤ f.a ∧ f.a < 32 ∧ (f.a < 29 ∨ peKind n = .a) := ⟨hsc, hreg.1, hreg.2, hkind⟩
  simp only [semMovs, hdst, Bool.not_true, Bool.false_eq_true, if_false, if_pos hspecial]

theorem semMovs_input {k : Nat} {x : Token} (hdst : isDst f.d) (hsc : f.c = 1) (hreg : f.a = 16 + k) (hk : k < 4) (hin : a.ins[k]? = some x) :
    semMovs t n a f = regResult f.d 2 (hi64 x.val) (a.poisoned f.a) uDup := by
  have hspecial : ¬ (f.c = 0 ∧ 24 ≤ f.a ∧ f.a < 32 ∧ (f.a < 29 ∨ peKind n = .a)) := by omega
  have hinput : f.c = 1 ∧ 16 ≤ f.a ∧ f.a < 20 := by omega
  have hindex : f.a - 16 = k := by omega
  simp only [semMovs, hdst, Bool.not_true, Bool.false_eq_true, if_false, if_neg hspecial, if_pos hinput, hindex, hin, Option.map_some,
    Option.getD_some]

theorem semMovts_ok (hdst : 25 ≤ f.d ∧ f.d ≤ 28 ∨ f.d = 31 ∧ peKind n = .a) (hsa : isSrc f.a) (hclean : a.poisoned f.a = false)
    (hok : specialOk a f.d (a.src f.a)) (hcad : ¬ (f.d = 28 ∧ bitAt (a.src f.a) 3 ∧ !a.cad ∧ t.cadBarred)) :
    semMovts t n a f = .ok [⟨2, .special f.d (a.src f.a)⟩] .next (f.d == 31) none 0 := by
  have hform : (((25 ≤ f.d && f.d ≤ 28) || (f.d == 31 && peKind n == .a)) && isSrc f.a) = true := by simpa [hsa] using hdst
  simp only [semMovts, hform, hclean, hok, Bool.not_true, Bool.false_eq_true, if_false, if_neg hcad]

end

section
variable {s : State} {n : Nat} {a : Act} {f : Fields}

/-- The register of debug sessions is none of a PE's statistics. -/
theorem isPeStat_secStatus : ∀ n < 276, isPeStat n aSecStatus = false := by decide +kernel

theorem State.OnlyPe.cadBarred {t : State} (h : State.OnlyPe n s t) (hn : n < 276) : t.cadBarred = s.cadBarred := by
  rw [State.cadBarred, State.cadBarred, State.rfld, State.rfld, State.rfld, State.rfld, h.reg _ (isPeStat_secStatus n hn)]

/-- A MOVS that decodes to a result puts it in flight at distance 2. -/
theorem issuesAct_movs {v : Word} {p : Bool} (h : s.CanIssue n a) (hsb : f.sb = 0) (himm : f.imm = 0)
    (hsem : ∀ t, semMovs t n { a with slot := a.slot + 1 } f = regResult f.d 2 v p uDup) :
    IssuesAct (.movs n f) s n (some (a.issued (packWord 0xA2 f) [⟨2, .reg f.d (v.setWidth 80) p⟩] false)) :=
  issuesAct_of h ⟨0xA2, ⟨true, true, false, true, false⟩, fun f => [f.a], false, allKinds⟩ f semMovs _ false (some uDup) 0 rfl (allKinds_all n)
    (by simp [Uses.ok, hsb, himm]) rfl (by simp) (by simp) fun t _ => hsem t

theorem issuesAct_movs_special (h : s.CanIssue n a) (hsb : f.sb = 0) (himm : f.imm = 0) (hdst : isDst f.d) (hsc : f.sc = 0)
    (hreg : 24 ≤ f.a ∧ f.a < 32) (hkind : f.a < 29 ∨ peKind n = .a) :
    IssuesAct (.movs n f) s n (some (a.issued (packWord 0xA2 f) [⟨2, .reg f.d ((a.special f.a).setWidth 80) false⟩] false)) :=
  issuesAct_movs h hsb himm fun _ => semMovs_special hdst (by rw [Fields.c, hsc]; rfl) hreg hkind

end

/-- Settles O13: the value that MOVS reads and the write of MOVTS stand in what the two decode to. -/
theorem specialRegisterMoves : Obligations.SpecialRegisterMoves := by
  unfold Obligations.SpecialRegisterMoves
  intro s n a f h hsb himm
  refine ⟨fun hdst hsc => ?everyPe, fun hdst hsc hlow hhigh => ?ape, fun hdst hsc k x hreg hk hin => ?input,
    fun hsc hsa hclean hdst hok hcad => ?movts⟩
  case everyPe =>
    have hmoves := fun hreg hkind => issuesAct_movs_special h hsb himm hdst hsc hreg hkind
    simp only [List.forall_mem_cons, List.not_mem_nil, false_implies, implies_true, and_true]
    refine ⟨?_, ?_, ?_, ?_, ?_⟩ <;> intro hreg <;> simpa [hreg, Act.special] using hmoves (by omega) (by omega)
  case ape =>
    have hmoves := fun hreg => issuesAct_movs_special h hsb himm hdst hsc hreg (.inr (peKind_eq_a.mpr ⟨hlow, hhigh⟩))
    simp only [List.forall_mem_cons, List.not_mem_nil, false_implies, implies_true, and_true]
    refine ⟨?_, ?_, ?_⟩ <;> intro hreg <;> simpa [hreg, Act.special] using hmoves (by omega)
  case input => exact issuesAct_movs h hsb himm fun _ => semMovs_input hdst (by rw [Fields.c, hsc]; rfl) hreg hk hin
  case movts =>
    have hdst' : 25 ≤ f.d ∧ f.d ≤ 28 ∨ f.d = 31 ∧ peKind n = .a := hdst.imp_right fun ⟨hd, hape⟩ => ⟨hd, peKind_eq_a.mpr hape⟩
    refine issuesAct_of h ⟨0xA3, usesDA, fun f => [f.a], false, allKinds⟩ f semMovts _ (f.d == 31) none 0 rfl (allKinds_all n)
      (by simp [usesDA, Uses.ok, hsb, hsc, himm]) rfl (by simp) (by simp) fun t ht => ?_
    refine semMovts_ok (a := { a with slot := a.slot + 1 }) hdst' hsa hclean hok ?_
    rintro ⟨hctl, hbit, hnocad, hbarred⟩
    have hnot : a.cad = false := by rwa [Bool.not_eq_true'] at hnocad
    rw [ht.only.cadBarred h.pe, hcad hctl hbit hnot] at hbarred
    exact absurd hbarred (by decide)

end Sys2Proof.Machine
end

/-! # O17: the requests of the services

Each of these instructions decodes to one message, once its operands pass and a route leads to its destination. The route at issue is that of the
state before (`State.OnlyPe.noRoute`). -/
section
namespace Sys2Proof.Machine

/-! ## Routes and operands that pass -/

section
variable {s t : State} {n dest : Nat} {a : Act} {f : Fields}

/-! The slot of an activation has no part in its operands or in a reply tag. -/
@[simp] theorem Act.src_withSlot (a : Act) (k : Nat) : ({ a with slot := k } : Act).src = a.src := rfl
@[simp] theorem Act.poisoned_withSlot (a : Act) (k : Nat) : ({ a with slot := k } : Act).poisoned = a.poisoned := rfl
theorem outTag_withSlot (a : Act) (k : Nat) : outTag t n { a with slot := k } f = outTag s n a f := rfl
theorem replyTag_withSlot (a : Act) (k : Nat) : replyTag t n { a with slot := k } f = replyTag s n a f := rfl

theorem reservedEp_unit (h : dest < 70) : reservedEp dest = false := by
  simp only [reservedEp, decide_eq_false_iff_not, Bool.or_eq_false_iff]
  omega

/-- At issue nothing is missed about a destination that a route leads to, when the reply is to go to a PE that exists. -/
theorem State.AtIssue.routeMiss_none {p : Option Nat} (ht : s.AtIssue n a t) (hn : n < 276) (hdest : dest < 70) (hreply : ∀ q, p = some q → q ≤ 275)
    (hroute : s.noRoute (peEndpoint n) dest = false) : t.routeMiss n dest p = none := by
  have hfound : (reservedEp dest || t.noRoute (ownEp n) dest) = false := by
    rw [ownEp, ht.only.noRoute hn, hroute, reservedEp_unit hdest]
    rfl
  cases p with
  | none => simp only [State.routeMiss, hfound, Bool.false_eq_true, if_false]
  | some q => simp only [State.routeMiss, if_neg (Nat.not_lt.mpr (hreply q rfl)), hfound, Bool.false_eq_true, if_false]

theorem sendOr_routed {p : Option Nat} {m : Msg} (h : t.routeMiss n m.dest p = none) : sendOr t n p m = oneMsg m := by
  rw [sendOr_eq_getD, h]
  rfl

theorem poisonedAt_clean {r : Nat} (h : a.poisoned r = false) : poisonedAt a r = none := by
  rw [poisonedAt, h]
  rfl

/-! ## The context that FREECTX, FREECTX.I and KILLCTX name (R183) -/

theorem fld_eq_zero_of_lt {v : Word} {hi lo : Nat} (h : v.toNat < 2 ^ lo) : fld v hi lo = 0 := by
  rw [fld, Nat.shiftRight_eq_div_pow, Nat.div_eq_of_lt h, Nat.zero_mod]

theorem setBit_of_clear {v : Word} {i : Nat} (h : v.toNat < 2 ^ i) : setBit v i false = v := by
  have hclear : fld v i i = 0 := fld_eq_zero_of_lt h
  have hsame := setFld_fld v i i
  rwa [hclear] at hsame

/-- A context of a cluster that is not its root, or any where the root may be named, is found at its owner. -/
theorem ctxTarget_cluster {v : Word} {rootOk : Bool} {code : Nat} (hid : v.toNat < 2 ^ 20) (hroot : rootOk = true ∨ v.toNat % 16384 ≠ 0)
    (hmiss : t.routeMiss n (v.toNat / 16384) none = none) : ctxTarget t n v false rootOk code f = .inr (v.toNat / 16384, v) := by
  have hfield : fld v 63 20 = 0 := fld_eq_zero_of_lt hid
  have hbit : setBit v 63 false = v := setBit_of_clear (hid.trans (by decide))
  have hnotRoot : ¬ ((!rootOk) = true ∧ isRoot (ctxKey false v.toNat) = true) := by
    rintro ⟨hno, hisRoot⟩
    have hmod : v.toNat % 16384 = 0 := by
      have hsmall : ¬ 1048576 ≤ v.toNat := by omega
      simpa [isRoot, ctxKey, hsmall] using hisRoot
    rcases hroot with hyes | hne
    · rw [hyes] at hno; exact absurd hno (by decide)
    · exact hne hmod
  simp only [ctxTarget, hfield, hbit, ne_eq, not_true_eq_false, Bool.false_eq_true, false_and, or_self, if_false, if_neg hnotRoot, hmiss]

end

/-! ## The requests -/

section
variable {s : State} {n : Nat} {a : Act} {f : Fields}

/-- What every instruction of the statement needs: a PE that can issue, room for the message, and a first operand that can be read. -/
structure State.Sends (s : State) (n : Nat) (a : Act) (f : Fields) : Prop where
  ready : s.CanIssue n a
  room : (s.pe n).outQ.length < 64
  src : isSrc f.a = true
  clean : a.poisoned f.a = false
  noDst : f.dst = 0

theorem State.Sends.routeMiss_none {t : State} {dest : Nat} {p : Option Nat} (h : s.Sends n a f) (ht : s.AtIssue n a t) (hdest : dest < 70)
    (hreply : ∀ q, p = some q → q ≤ 275) (hroute : s.noRoute (peEndpoint n) dest = false) : t.routeMiss n dest p = none :=
  ht.routeMiss_none h.ready.pe hdest hreply hroute

theorem issuesMsg_newctx (h : s.Sends n a f) (hsrcB : isSrc f.b = true) (hcleanB : a.poisoned f.b = false) (hsc : f.sc = 0)
    (hdesc : descOk .reply f = true) (hpe : dPe f.i ≤ 275) (hspare : fld (a.src f.a) 32 20 = 0) (hwindow : fld (a.src f.a) 59 56 ≤ 12)
    (hspareB : fld (a.src f.b) 63 32 = 0) (htgt : fld (a.src f.b) 31 24 < 64) (hroute : s.noRoute (peEndpoint n) (fld (a.src f.b) 31 24) = false) :
    IssuesMsg (.newctx n f) s n a (packWord 0xC7 f) (serviceMsg (fld (a.src f.b) 31 24) 0 (tPri a.tag) false (replyTag s n a f false) (a.src f.a)
      (a.src f.b) true a.serial .none) := by
  refine issuesMsg_of h.ready (opMsg 0xC7 ⟨false, true, true, false, true⟩ fun f => [f.a, f.b]) f _ _ true rfl h.room (allKinds_all n)
    (by simp [opMsg, Uses.ok, h.noDst, hsc]) rfl fun t ht => ?_
  have hmiss := h.routeMiss_none ht (p := some (dPe f.i)) (by omega) (by rintro _ ⟨⟩; exact hpe) hroute
  have hcluster : ¬ 0x41 < fld (a.src f.b) 31 24 ∧ fld (a.src f.b) 31 24 ≠ 0x40 ∧ fld (a.src f.b) 31 24 ≠ 0x41 := by omega
  simp only [Act.src_withSlot, Act.poisoned_withSlot, replyTag_withSlot (s := s), poisonedAt, h.src, hsrcB, hdesc, h.clean, hcleanB, hspare, hspareB,
    hcluster, Nat.not_lt.mpr hwindow, Bool.and_self, Bool.not_true, Bool.false_eq_true, ne_eq, not_true_eq_false, false_and, or_self, if_false]
  exact sendOr_routed (m := serviceMsg ..) hmiss

/-- FREECTX and FREECTX.I, told apart by the low bit of SC. -/
theorem issuesMsg_freectx {c : Instr} {retire : Bool} (h : s.Sends n a f) (hc : f.c = retire.toNat) (himm : f.imm = 0)
    (hsrcB : if retire then isSrc f.b = true ∧ a.poisoned f.b = false ∧ fld (a.src f.b) 63 12 = 0 else f.b = 0)
    (hid : (a.src f.a).toNat < 2 ^ 20) (hroot : retire = true ∨ (a.src f.a).toNat % 16384 ≠ 0)
    (hroute : s.noRoute (peEndpoint n) ((a.src f.a).toNat / 16384) = false) (hexec : exec c s = runOp n opFreectx f semFreectx s) :
    IssuesMsg c s n a (packWord 0xC8 f) (serviceMsg ((a.src f.a).toNat / 16384) (if retire then 2 else 1) (tPri a.tag) false a.tag (a.src f.a)
      (if retire then a.src f.b else 0) retire a.serial .none) := by
  refine issuesMsg_of h.ready opFreectx f semFreectx _ true hexec h.room (allKinds_all n) (by simp [opFreectx, opMsg, Uses.ok, h.noDst, himm]) rfl
    fun t ht => ?_
  have hmiss := h.routeMiss_none ht (p := none) (by omega) (by simp) hroute
  have htarget := ctxTarget_cluster (f := f) (code := 0xC8) hid hroot hmiss
  cases retire with
  | false =>
    have hb : f.b = 0 := hsrcB
    simp [semFreectx, poisonedAt, h.src, h.clean, hc, hb, htarget]
  | true =>
    obtain ⟨hb, hcleanB, hspare⟩ := hsrcB
    simp [semFreectx, poisonedAt, h.src, h.clean, hc, hb, hcleanB, hspare, htarget]

theorem issuesMsg_killctx (h : s.Sends n a f) (hsb : f.sb = 0) (hc : f.c = 0) (hdesc : descOk .reply f = true) (hpe : dPe f.i ≤ 275)
    (hid : (a.src f.a).toNat < 2 ^ 20) (hroot : (a.src f.a).toNat % 16384 ≠ 0)
    (hroute : s.noRoute (peEndpoint n) ((a.src f.a).toNat / 16384) = false) :
    IssuesMsg (.killctx n f) s n a (packWord 0xC9 f) (serviceMsg ((a.src f.a).toNat / 16384) 3 (tPri a.tag) false (replyTag s n a f false) (a.src f.a)
      0 false a.serial .none) := by
  refine issuesMsg_of h.ready (opMsg 0xC9 ⟨false, true, false, true, true⟩ fun f => [f.a]) f _ _ true rfl h.room (allKinds_all n)
    (by simp [opMsg, Uses.ok, h.noDst, hsb]) rfl fun t ht => ?_
  have hmiss := fun p hreply => h.routeMiss_none ht (p := p) (by omega) hreply hroute
  have htarget := ctxTarget_cluster (f := f) (rootOk := false) (code := 0xC9) hid (.inr hroot) (hmiss none (by simp))
  simp only [Act.src_withSlot, Act.poisoned_withSlot, replyTag_withSlot (s := s), poisonedAt, h.src, h.clean, hdesc, hc, Nat.reduceBEq, htarget,
    Bool.or_false, Bool.and_self, Bool.not_true, Bool.false_eq_true, if_false]
  exact sendOr_routed (m := serviceMsg ..) (hmiss (some (dPe f.i)) (by rintro _ ⟨⟩; exact hpe))

theorem issuesMsg_resume (h : s.Sends n a f) (hsb : f.sb = 0) (hc : f.c ≤ 2) (himm : f.imm = 0) (hspare : fld (a.src f.a) 63 57 = 0)
    (hpe : fld (a.src f.a) 56 48 ≤ 275) (haligned : (a.src f.a).toNat % 512 = 0) :
    IssuesMsg (.resume n f) s n a (packWord 0x08 f) (serviceMsg (peEndpoint (fld (a.src f.a) 56 48)) 4 (tPri a.tag) false a.tag (a.src f.a)
      (BitVec.ofNat 64 f.c) true a.serial .a) := by
  refine issuesMsg_of h.ready ⟨0x08, ⟨false, true, false, true, false⟩, fun f => [f.a], false, allKinds⟩ f _ _ true rfl h.room (allKinds_all n)
    (by simp [Uses.ok, h.noDst, hsb, himm]) rfl fun t ht => ?_
  have hform : (!isSrc f.a || decide (2 < f.c)) = false := by simp [h.src, hc]
  simp only [Act.src_withSlot, Act.poisoned_withSlot, hform, h.clean, hspare, Nat.not_lt.mpr hpe, haligned, ne_eq, not_true_eq_false, decide_false,
    Bool.or_self, Bool.false_eq_true, if_false]
  rfl

theorem issuesMsg_event (h : s.Sends n a f) (hsb : f.sb = 0) (hsc : f.sc = 0) (hsev : f.i / 65536 = 0 ∨ f.i / 65536 = 2)
    (hroute : s.noRoute (peEndpoint n) 67 = false) :
    IssuesMsg (.event n f) s n a (packWord 0xCC f) (serviceMsg 67 5 (tPri a.tag) false a.tag (a.src f.a) (BitVec.ofNat 64 f.i) true a.serial .none) := by
  refine issuesMsg_of h.ready (opMsg 0xCC ⟨false, true, false, false, true⟩ fun f => [f.a]) f _ _ true rfl h.room (allKinds_all n)
    (by simp [opMsg, Uses.ok, h.noDst, hsb, hsc]) rfl fun t ht => ?_
  have hmiss := h.routeMiss_none ht (p := none) (by decide) (by simp) hroute
  have hsev' : (f.i / 65536 == 0 || f.i / 65536 == 2) = true := by simpa using hsev
  simp only [Act.src_withSlot, Act.poisoned_withSlot, h.src, h.clean, hsev', Bool.and_self, Bool.not_true, Bool.false_eq_true, if_false]
  exact sendOr_routed (m := serviceMsg ..) hmiss

/-- The LOCK request of ACQ, or with `rel` of REL (R184). -/
def lockMsg (s : State) (n : Nat) (a : Act) (f : Fields) (rel : Bool) : Msg :=
  { dest := 65, opc := .lock, pri := tPri a.tag, spec := put 7 7 (dNr f.i).toNat + put 9 9 rel.toNat + put 19 10 (a.src f.a).toNat,
    body := [mkWide (if dNr f.i then outTag s n a { f with sc := 0, imm := 0 } false false else replyTag s n a f false) 0],
    act := a.serial, cls := .a, ae := none }

theorem issuesMsg_lock {c : Instr} {code : Nat} {rel : Bool} (h : s.Sends n a f) (hsb : f.sb = 0) (hsc : f.sc = 0) (hlock : (a.src f.a).toNat < 1024)
    (hpe : dPe f.i ≤ 275) (hdesc : descOk (if rel then .replyNr else .reply) f = true) (hroute : s.noRoute (peEndpoint n) 65 = false)
    (hexec : exec c s = runOp n (opLock code) f (semLock code rel) s) : IssuesMsg c s n a (packWord code f) (lockMsg s n a f rel) := by
  refine issuesMsg_of h.ready (opLock code) f _ _ true hexec h.room (allKinds_all n) (by simp [opLock, opMsg, Uses.ok, h.noDst, hsb, hsc]) rfl
    fun t ht => ?_
  have hmiss := h.routeMiss_none ht (p := if dNr f.i then none else some (dPe f.i)) (by decide) (by split <;> rintro _ ⟨⟩; exact hpe) hroute
  have hlock' : ¬ 1023 < (a.src f.a).toNat := by omega
  simp only [semLock, Act.src_withSlot, Act.poisoned_withSlot, replyTag_withSlot (s := s), outTag_withSlot (s := s), poisonedAt, h.src, h.clean, hdesc,
    hlock', Bool.and_self, Bool.not_true, Bool.false_eq_true, if_false]
  exact sendOr_routed (m := lockMsg s n a f rel) hmiss

end

/-- Settles O17: each service decodes to its request, whose route at issue is that of the state before. -/
theorem serviceRequests : Obligations.ServiceRequests := by
  unfold Obligations.ServiceRequests
  intro s n a f hready _ hroom hsrc hclean hdst
  have h : s.Sends n a f := ⟨hready, hroom, hsrc, hclean, hdst⟩
  refine ⟨?newctx, ?freectx, ?retire, ?killctx, ?resume, ?event, ?lock⟩
  case newctx => exact fun hsrcB hcleanB hsc => issuesMsg_newctx h hsrcB hcleanB hsc
  case freectx =>
    intro hsb hc himm hid hroot hroute
    exact issuesMsg_freectx (retire := false) h hc himm (by simp [Fields.b, hsb]) hid (.inr hroot) hroute rfl
  case retire =>
    intro hsrcB hcleanB hc himm hid hspare hroute
    exact issuesMsg_freectx (retire := true) h hc himm ⟨hsrcB, hcleanB, hspare⟩ hid (.inl rfl) hroute rfl
  case killctx => exact fun hsb hc hdesc hpe hid hroot hroute => issuesMsg_killctx h hsb hc hdesc hpe hid hroot hroute
  case resume => exact fun hsb hc himm hspare hpe haligned => issuesMsg_resume h hsb hc himm hspare hpe haligned
  case event => exact fun hsb hsc hsev hroute => issuesMsg_event h hsb hsc hsev hroute
  case lock =>
    intro hsb hsc hlock hpe hroute
    exact ⟨fun hdesc => issuesMsg_lock (rel := false) h hsb hsc hlock hpe hdesc hroute rfl,
      fun hdesc => issuesMsg_lock (rel := true) h hsb hsc hlock hpe hdesc hroute rfl⟩

end Sys2Proof.Machine
end

/-! # O20: a store in flight to a word that cannot be corrected can end the power of its PE -/

section

namespace Sys2Proof.Machine

/-- An activation on PE 3 with nothing in flight. -/
def quietAct : Act := { dyingAct with flights := [] }

/-- A store of the byte 1 that lands in that activation's next slot. -/
def landingStore : Flight := ⟨9, 10, 1, 0, false, .store (lsBase 3) 1 1 false⟩

/-- In RUN, the byte stands in a word that cannot be corrected, and one such word within the window of UE_STORM brings the module to KICKSTAND. -/
def stormyStore : State := stormyKill.setAct 3 (some quietAct)

theorem canIssue_stormyStore : stormyStore.CanIssue 3 quietAct :=
  ⟨by decide, rfl, rfl, rfl, rfl, rfl, rfl, rfl, by decide, by decide, rfl, by decide +kernel⟩

/-- The byte at an address in the state a command leaves. -/
def byteAfter (addr : Nat) : Out → Nat
  | .next t => t.load addr 1
  | _ => 0

theorem byteAfter_stormyStore :
    byteAfter (lsBase 3) (exec (.nop 3 0) (stormyStore.setAct 3 (some { quietAct with flights := [landingStore] }))) = 0 := by decide +kernel

/-- Refutes O20: a store of one byte that lands in a word that cannot be corrected can reach the threshold of UE_STORM; the module enters
KICKSTAND (R283, R502), and the local store loses with its power what has just been stored (R503). -/
theorem not_resultsLand : ¬ Obligations.ResultsLand := by
  unfold Obligations.ResultsLand
  intro h
  obtain ⟨-, -, hstore⟩ := h stormyStore 3 quietAct landingStore canIssue_stormyStore rfl rfl
  obtain ⟨t, hexec, hload, -⟩ := hstore (lsBase 3) 1 1 false rfl
  have hlost : t.load (lsBase 3) 1 = 0 := by
    have hafter := byteAfter_stormyStore
    rwa [hexec] at hafter
  rw [hlost] at hload
  exact absurd hload (by decide)

end Sys2Proof.Machine
end

/-! # O28: RESUME at the PE that owns the frame

With the arguments checked, the request is taken and answered, which touches the interface alone. Then either the frame is freed, or the activation
that its words describe joins the ready list. -/
section
namespace Sys2Proof.Machine

section
variable {s : State} {e n f : Nat} {p : Packet} {r : List Packet} {x : Frame}

theorem frameAddr_eq (s : State) (n f : Nat) : s.frameAddr n f = s.frameAddr n 0 + 512 * f := by
  unfold State.frameAddr
  omega

/-- RESUME of frame f of PE n waits at the endpoint of PE n, from the activation that the frame holds (R151, R152). -/
structure State.Resumes (s : State) (e n f : Nat) (p : Packet) (r : List Packet) (x : Frame) : Prop where
  pe : n < 272
  owner : peEndpoint n = e
  head : s.reqAt e = p :: r
  service : p.opc = .service
  sub : p.svc = 4
  len : p.len = 2
  addr : p.argA = BitVec.ofNat 64 (s.frameAddr n f + 2 ^ 48 * n)
  frame : f < 8
  area : s.frameAddr n 7 < 2 ^ 48
  held : (s.pe n).frame f = some x
  trap : x.preempt = false
  waits : x.inReady = false
  tag : s.frameWord n f 0x100 = x.act.tag
  status : s.frameWord n f 0x140 = x.status
  ctx : tCtx x.act.tag = tCtx p.rtag
  iter : tIter x.act.tag = tIter p.rtag

/-- The parts of argument A: the frame's address, its PE, and nothing else. -/
theorem State.Resumes.arg (h : s.Resumes e n f p r x) :
    fld p.argA 47 0 = s.frameAddr n f ∧ fld p.argA 56 48 = n ∧ fld p.argA 63 57 = 0 := by
  have hlow : s.frameAddr n f < 2 ^ 48 := by
    have harea := h.area
    have hframe := h.frame
    rw [frameAddr_eq] at harea ⊢
    omega
  have hpe := h.pe
  have hnat : p.argA.toNat = s.frameAddr n f + 2 ^ 48 * n := by
    rw [h.addr, BitVec.toNat_ofNat]
    omega
  simp only [fld, hnat, Nat.shiftRight_eq_div_pow]
  omega

/-- The state in which the request has been taken and answered. -/
def State.resumeAnswered (s : State) (e : Nat) (p : Packet) (r : List Packet) : State := (s.setReqs e r).unitSend e (respMsg p stDONE none false)

/-- The activation that the words of frame f describe, past the trapping instruction with its RESULT for RESUME.S (mode 1, R151). -/
def State.resumedAct (s : State) (n f : Nat) (x : Frame) (mode : Nat) : Act :=
  let a := s.frameAct n f x.act
  if mode = 1 then (a.putResult x.dst (s.frameWord n f 0x168)).advance a.off else a

/-- The state in which frame f holds that activation and waits for dispatch. -/
def State.refilled (s : State) (n f : Nat) (x : Frame) (mode : Nat) : State :=
  (s.updPe n (fun p => p.setFrame f (some { x with act := s.resumedAct n f x mode, inReady := true }))).clearKind n f

/-- The entry of that activation for the ready list. -/
def State.resumeEntry (s : State) (n f : Nat) (x : Frame) (mode : Nat) : ReadyE :=
  let a := s.resumedAct n f x mode
  let p := (s.refilled n f x mode).pe n
  ⟨max x.pri (p.boostOf a.key), x.pri, a.stamp, p.clk, a.tag, .frame f⟩

/-- Taking a request touches no frame. -/
theorem frame_setReqs (s : State) (e : Nat) (r : List Packet) : let u := s.setReqs e r
    u.frameAddr = s.frameAddr ∧ u.frameWord = s.frameWord ∧ u.frameOk = s.frameOk := ⟨rfl, rfl, rfl⟩

/-- The checks of R152 pass: RESUME.D ends the frame, and the other modes reinsert its activation where that finds space. -/
theorem State.Resumes.resume_eq {mode : Nat} (h : s.Resumes e n f p r x) (hmode : fld p.argB 1 0 = mode) (hknown : mode ≠ 3)
    (hspareB : fld p.argB 63 2 = 0) (hok : (mode != 2 && !s.frameOk n f x.act) = false) : let u := s.resumeAnswered e p r
    let v := u.refilled n f x mode
    let t := v.enqueue n (u.resumeEntry n f x mode)
    s.resume e = if mode = 2 then u.freeFrame n f else if v.backlogFits t n then t else s := by
  obtain ⟨haddr, hpe, hspare⟩ := h.arg
  obtain ⟨hsaddr, hsword, hsok⟩ := frame_setReqs s e r
  have hpair : pairPe n = n := pairPe_of_lt h.pe
  have hlimit : ¬ 275 < n := by have := h.pe; omega
  have hindex : (s.frameAddr n f - s.frameAddr n 0) / 512 = f := by rw [frameAddr_eq]; omega
  have hinArea : ¬ (s.frameAddr n f < s.frameAddr n 0 ∨ s.frameAddr n 0 + 4096 ≤ s.frameAddr n f ∨ s.frameAddr n f % 512 ≠ 0) := by
    have hframe := h.frame
    have haligned : s.frameAddr n 0 % 512 = 0 := by unfold State.frameAddr; omega
    rw [frameAddr_eq s n f]
    omega
  have hanswer : (s.setReqs e r).answer e p stDONE none = s.resumeAnswered e p r := answer_service h.service
  have hmatches : (x.preempt || x.inReady || s.frameWord n f 0x100 != x.act.tag || s.frameWord n f 0x140 != x.status
      || tCtx x.act.tag != tCtx p.rtag || tIter x.act.tag != tIter p.rtag) = false := by
    simp [h.trap, h.waits, h.tag, h.status, h.ctx, h.iter]
  simp only [State.resume, takeSvc_head h.head h.service h.sub, haddr, hpe, hspare, hmode, hknown, hspareB, hlimit, hpair, h.len, h.owner, hsaddr, hsword,
    hindex, hinArea, h.held, State.pe_setReqs_of, hmatches, hanswer, hsok, hok, ne_eq, not_true_eq_false, or_self, if_false, Bool.or_self,
    Bool.false_eq_true]
  rfl

/-! What the answered state and the refilled frame show. -/

theorem resumeAnswered_rest (s : State) (e : Nat) (p : Packet) (r : List Packet) : let u := s.resumeAnswered e p r
    u.pe = s.pe ∧ u.reqAt e = r ∧ u.frameAct = s.frameAct := ⟨rfl, Tbl.get_set_same .., rfl⟩

theorem clearKind_pe (s : State) (n f : Nat) : (s.clearKind n f).pe = s.pe := rfl

theorem refilled_spec (s : State) (n f : Nat) (x : Frame) (mode : Nat) : let u := s.refilled n f x mode
    u.pe n = (s.pe n).setFrame f (some { x with act := s.resumedAct n f x mode, inReady := true }) ∧ u.reqAt = s.reqAt :=
  ⟨by rw [State.refilled, clearKind_pe, updPe_pe], rfl⟩

theorem frame_setFrame (p : Pe) (f : Nat) (y : Option Frame) : (p.setFrame f y).frame f = y := Tbl.get_set_same ..

theorem frameAct_spec (s : State) (n f : Nat) (a : Act) : (s.frameAct n f a).off = a.off ∧ (s.frameAct n f a).src 0 = s.frameWord n f 0 :=
  ⟨rfl, by simp [State.frameAct, Act.src]⟩

end

section
variable {s : State} {e n f : Nat} {p : Packet} {r : List Packet} {x : Frame}

theorem resume_drops (h : s.Resumes e n f p r x) (hmode : p.argB = 2) :
    Runs (.cmResumeRequest e) s fun u => (u.pe n).frame f = none ∧ u.reqAt e = r ∧ (u.pe n).ready = (s.pe n).ready := by
  have howner : e < 64 ∨ e = 69 := .inl (h.owner ▸ peEndpoint_lt_of_cluster h.pe)
  refine runs_owner howner rfl (fun _ _ hP => hP) ?_
  obtain ⟨hpe, hreq, -⟩ := resumeAnswered_rest s e p r
  have hfreed : ((s.resumeAnswered e p r).freeFrame n f).pe n = (s.pe n).setFrame f none := by
    rw [State.freeFrame, updPe_pe, clearKind_pe, hpe]
  have hresumed : s.resume e = (s.resumeAnswered e p r).freeFrame n f :=
    (h.resume_eq (mode := 2) (by rw [hmode]; decide) (by decide) (by rw [hmode]; decide) rfl).trans (if_pos rfl)
  rw [hresumed, hfreed]
  exact ⟨frame_setFrame .., hreq, rfl⟩

theorem resume_reinserts (h : s.Resumes e n f p r x) (hmode : p.argB = 0) (hok : s.frameOk n f x.act = true) (hback : (s.pe n).backlog = [])
    (hroom : (s.pe n).ready.length < (s.pe n).readyLim) : Runs (.cmResumeRequest e) s fun u =>
      u.reqAt e = r ∧ (∃ y, (u.pe n).frame f = some y ∧ y.inReady = true ∧ y.act.off = x.act.off ∧ y.act.src 0 = s.frameWord n f 0) ∧
      ∃ q, (u.pe n).ready = (s.pe n).ready ++ [q] ∧ q.src = .frame f := by
  have howner : e < 64 ∨ e = 69 := .inl (h.owner ▸ peEndpoint_lt_of_cluster h.pe)
  refine runs_owner howner rfl (fun _ _ hP => hP) ?_
  obtain ⟨hpe, hreq, hact⟩ := resumeAnswered_rest s e p r
  obtain ⟨hheld, hreqs⟩ := refilled_spec (s.resumeAnswered e p r) n f x 0
  have hsame : (s.resumeAnswered e p r).resumedAct n f x 0 = s.frameAct n f x.act := congrFun (congrFun (congrFun hact n) f) x.act
  rw [hpe, hsame] at hheld
  let u := (s.resumeAnswered e p r).refilled n f x 0
  let q := (s.resumeAnswered e p r).resumeEntry n f x 0
  have hqueued : u.enqueue n q = (u.setPe n { u.pe n with ready := (u.pe n).ready ++ [q] }).noteDepth n :=
    enqueue_room (by rw [hheld]; exact hback) (by rw [hheld]; exact hroom)
  have hafter : (u.enqueue n q).pe n = { u.pe n with ready := (u.pe n).ready ++ [q] } := by
    rw [hqueued, (quiet_noteDepth ..).pe]
    simp
  have hfits : u.backlogFits (u.enqueue n q) n = true := by simp [State.backlogFits, hafter]
  have hresumed : s.resume e = u.enqueue n q :=
    (h.resume_eq (mode := 0) (by rw [hmode]; decide) (by decide) (by rw [hmode]; decide) (by rw [hok]; rfl)).trans
      ((if_neg (by decide)).trans (if_pos hfits))
  have hframe : ((u.enqueue n q).pe n).frame f = some { x with act := s.frameAct n f x.act, inReady := true } := by
    rw [hafter]
    exact (congrArg (Pe.frame · f) hheld).trans (frame_setFrame ..)
  obtain ⟨hoff, hsrc⟩ := frameAct_spec s n f x.act
  rw [hresumed]
  refine ⟨?_, ⟨_, hframe, rfl, hoff, hsrc⟩, q, ?_, rfl⟩
  · rw [hqueued, (quiet_noteDepth ..).reqAt]
    exact (congrFun hreqs e).trans hreq
  · rw [hafter, hheld]
    rfl

end

/-- Settles O28: the request passes its checks (`State.Resumes.resume_eq`), and what is then done touches frame f and the ready list alone. -/
theorem resumeRequests : Obligations.ResumeRequests := by
  unfold Obligations.ResumeRequests
  intro s e n f p r x hpe howner hhead hservice hsub hlen _ haddr hframe harea hheld htrap hwaits htag hstatus hctx hiter
  have h : s.Resumes e n f p r x :=
    ⟨hpe, howner, hhead, hservice, hsub, hlen, haddr, hframe, harea, hheld, htrap, hwaits, htag, hstatus, hctx, hiter⟩
  exact ⟨resume_drops h, resume_reinserts h⟩

end Sys2Proof.Machine
end

/-! # Integer instructions (R161, R162)

A two-source, a one-source and an immediate instruction decode alike in every group, so one lemma for each shape serves the integer, the
fixed-point and the floating-point instructions: it is left to say what the instruction makes of the values it reads. -/
section
namespace Sys2Proof.Machine

/-! ## The shapes that instructions share -/

section
variable {s : State} {n : Nat} {a : Act} {f : Fields} {c : Instr} {code unit : Nat} {effs : List Timed} {chk : Option Nat}

/-- An instruction without the multiplier whose effects land at distances 2 and 4. -/
theorem issuesAct_soon {o : Op} {sem : State → Nat → Act → Fields → Issued} (h : s.CanIssue n a) (hexec : exec c s = runOp n o f sem s)
    (hkinds : o.kinds = allKinds) (huses : o.uses.ok f = true) (hmul : o.usesMul = false) (hdist : ∀ e ∈ effs, e.dist = 2 ∨ e.dist = 4)
    (hsem : ∀ t, sem t n { a with slot := a.slot + 1 } f = .ok effs .next false chk 0) :
    IssuesAct c s n (some (a.issued (packWord o.code f) effs false)) := by
  have hpos : ∀ e ∈ effs, 0 < e.dist := fun e he => by have := hdist e he; omega
  have hdiv : effs.any (fun e => e.dist == 66) = false := List.any_eq_false.mpr fun e he => by
    rw [beq_iff_eq]
    have := hdist e he
    omega
  exact issuesAct_of h o f sem effs false chk 0 hexec (hkinds ▸ allKinds_all n) huses hmul hpos hdiv fun t _ => hsem t

theorem issuesAct_semAB {k : Act → Word → Word → Bool → Nat → Issued} (h : s.CanIssue n a) (hdst : isDst f.d) (hsa : isSrc f.a) (hsb : isSrc f.b)
    (hsc : f.sc = 0) (himm : f.imm = 0) (hexec : exec c s = runOp n (opDAB code) f (semAB code k) s) (hdist : ∀ e ∈ effs, e.dist = 2 ∨ e.dist = 4)
    (hk : k { a with slot := a.slot + 1 } (a.src f.a) (a.src f.b) (a.poisoned f.a || a.poisoned f.b) f.d = .ok effs .next false chk 0) :
    IssuesAct c s n (some (a.issued (packWord code f) effs false)) := by
  refine issuesAct_soon (o := opDAB code) (chk := chk) h hexec rfl (by simp [opDAB, usesDAB, Uses.ok, hsc, himm]) rfl hdist fun _ => ?_
  simpa only [semAB, hdst, hsa, hsb, Bool.and_self, if_true, Act.src_withSlot, Act.poisoned_withSlot] using hk

theorem issuesAct_semA {k : Act → Word → Bool → Nat → Issued} (h : s.CanIssue n a) (hdst : isDst f.d) (hsa : isSrc f.a) (hsb : f.sb = 0)
    (hsc : f.sc = 0) (himm : f.imm = 0) (hexec : exec c s = runOp n (opDA code) f (semA code k) s) (hdist : ∀ e ∈ effs, e.dist = 2 ∨ e.dist = 4)
    (hk : k { a with slot := a.slot + 1 } (a.src f.a) (a.poisoned f.a) f.d = .ok effs .next false chk 0) :
    IssuesAct c s n (some (a.issued (packWord code f) effs false)) := by
  refine issuesAct_soon (o := opDA code) (chk := chk) h hexec rfl (by simp [opDA, usesDA, Uses.ok, hsb, hsc, himm]) rfl hdist fun _ => ?_
  simpa only [semA, hdst, hsa, Bool.and_self, if_true, Act.src_withSlot, Act.poisoned_withSlot] using hk

theorem issuesAct_semAI {ok : Nat → Bool} {k : Act → Word → Nat → Bool → Nat → Issued} (h : s.CanIssue n a) (hdst : isDst f.d) (hsa : isSrc f.a)
    (hsb : f.sb = 0) (hsc : f.sc = 0) (hok : ok f.i = true) (hexec : exec c s = runOp n (opDAI code) f (semAI code ok k) s)
    (hdist : ∀ e ∈ effs, e.dist = 2 ∨ e.dist = 4)
    (hk : k { a with slot := a.slot + 1 } (a.src f.a) f.i (a.poisoned f.a) f.d = .ok effs .next false chk 0) :
    IssuesAct c s n (some (a.issued (packWord code f) effs false)) := by
  refine issuesAct_soon (o := opDAI code) (chk := chk) h hexec rfl (by simp [opDAI, usesDAI, Uses.ok, hsb, hsc]) rfl hdist fun _ => ?_
  simpa only [semAI, hdst, hsa, hok, Bool.and_self, if_true, Act.src_withSlot, Act.poisoned_withSlot] using hk

/-- An immediate outside the range of the instruction is an ILLEGAL_FIELD (R116). -/
theorem faultsWith_semAI {ok : Nat → Bool} {k : Act → Word → Nat → Bool → Nat → Issued} (h : s.CanIssue n a) (hsb : f.sb = 0) (hsc : f.sc = 0)
    (hok : ok f.i = false) (hexec : exec c s = runOp n (opDAI code) f (semAI code ok k) s) :
    FaultsWith c s n a .illegalField (wordDetail (packWord code f)) := by
  refine faultsWith_of h (opDAI code) f _ _ _ hexec (allKinds_all n) (by simp [opDAI, usesDAI, Uses.ok, hsb, hsc]) (by decide) (by decide)
    fun _ _ => ?_
  simp [semAI, hok, badWord]

/-! A plain integer result, whose value is `v`. -/

variable {v : Word}

theorem issuesAct_intAB {op : Word → Word → Word} (h : s.CanIssue n a) (hdst : isDst f.d) (hsa : isSrc f.a) (hsb : isSrc f.b)
    (hsc : f.sc = 0) (himm : f.imm = 0) (hexec : exec c s = runOp n (opDAB code) f (intAB code unit op) s)
    (hv : op (a.src f.a) (a.src f.b) = v) :
    IssuesAct c s n (some (a.issued (packWord code f) [⟨2, .reg f.d (v.setWidth 80) (a.poisoned f.a || a.poisoned f.b)⟩] false)) :=
  issuesAct_semAB h hdst hsa hsb hsc himm hexec (by simp) (by rw [← hv]; rfl)

theorem issuesAct_intA {op : Word → Word} (h : s.CanIssue n a) (hdst : isDst f.d) (hsa : isSrc f.a) (hsb : f.sb = 0)
    (hsc : f.sc = 0) (himm : f.imm = 0) (hexec : exec c s = runOp n (opDA code) f (intA code unit op) s) (hv : op (a.src f.a) = v) :
    IssuesAct c s n (some (a.issued (packWord code f) [⟨2, .reg f.d (v.setWidth 80) (a.poisoned f.a)⟩] false)) :=
  issuesAct_semA h hdst hsa hsb hsc himm hexec (by simp) (by rw [← hv]; rfl)

theorem issuesAct_intAI {ok : Nat → Bool} {op : Word → Nat → Word} (h : s.CanIssue n a) (hdst : isDst f.d) (hsa : isSrc f.a) (hsb : f.sb = 0)
    (hsc : f.sc = 0) (hok : ok f.i = true) (hexec : exec c s = runOp n (opDAI code) f (intAI code unit ok op) s) (hv : op (a.src f.a) f.i = v) :
    IssuesAct c s n (some (a.issued (packWord code f) [⟨2, .reg f.d (v.setWidth 80) (a.poisoned f.a)⟩] false)) :=
  issuesAct_semAI h hdst hsa hsb hsc hok hexec (by simp) (by rw [← hv]; rfl)

end

/-! ## Values (R161) -/

theorem word_shl (x : Word) (k : Nat) : x <<< k = BitVec.ofNat 64 (x.toNat * 2 ^ k) := by
  apply BitVec.eq_of_toNat_eq
  rw [BitVec.toNat_shiftLeft, BitVec.toNat_ofNat, Nat.shiftLeft_eq]

theorem word_shr (x : Word) (k : Nat) : x >>> k = BitVec.ofNat 64 (x.toNat / 2 ^ k) := by
  apply BitVec.eq_of_toNat_eq
  rw [BitVec.toNat_ushiftRight, BitVec.toNat_ofNat, Nat.shiftRight_eq_div_pow, Nat.mod_eq_of_lt ((Nat.div_le_self ..).trans_lt x.isLt)]

theorem word_sar (x : Word) (k : Nat) : x.sshiftRight k = BitVec.ofInt 64 (x.toInt / 2 ^ k) := by
  rw [BitVec.sshiftRight, Int.shiftRight_eq_div_pow]
  norm_cast

/-- Which of two equal values is taken makes no difference. -/
theorem ite_le_eq_ite_lt {α β : Type} [LinearOrder β] {p q : β} {u v : α} (h : p = q → u = v) :
    (if p ≤ q then u else v) = if p < q then u else v := by
  rcases lt_trichotomy p q with hlt | heq | hgt
  · rw [if_pos hlt.le, if_pos hlt]
  · rw [if_pos heq.le, if_neg heq.not_lt, h heq]
  · rw [if_neg hgt.not_ge, if_neg hgt.not_gt]

theorem boolWord_decide (p : Prop) [Decidable p] : boolWord (decide p) = if p then 1 else 0 := by simp [boolWord]

/-- Settles O2: each of the fifteen is `issuesAct_intAB` with the value of R161. -/
theorem intTwoSourceResults : Obligations.IntTwoSourceResults := by
  unfold Obligations.IntTwoSourceResults
  intro s n a f h hdst hsa hsb hsc himm
  have issues {c code unit op v} := issuesAct_intAB (c := c) (code := code) (unit := unit) (op := op) (v := v) h hdst hsa hsb hsc himm
  have hmin : aluMin (a.src f.a) (a.src f.b) = _ := ite_le_eq_ite_lt BitVec.eq_of_toInt_eq
  have hmax : aluMax (a.src f.a) (a.src f.b) = _ := ite_le_eq_ite_lt fun heq => (BitVec.eq_of_toInt_eq heq).symm
  have hminu : aluMinu (a.src f.a) (a.src f.b) = _ := ite_le_eq_ite_lt BitVec.eq_of_toNat_eq
  have hmaxu : aluMaxu (a.src f.a) (a.src f.b) = _ := ite_le_eq_ite_lt fun heq => (BitVec.eq_of_toNat_eq heq).symm
  simp only [List.forall_mem_cons, List.not_mem_nil, false_implies, implies_true, and_true]
  refine ⟨issues rfl rfl, issues rfl rfl, issues rfl rfl, issues rfl rfl, issues rfl rfl, ?shl, ?shr, ?sar, ?cmpeq, ?cmplt, ?cmpltu,
    issues rfl hmin, issues rfl hmax, issues rfl hminu, issues rfl hmaxu⟩
  case shl => exact issues rfl (word_shl ..)
  case shr => exact issues rfl (word_shr ..)
  case sar => exact issues rfl (word_sar ..)
  case cmpeq => exact issues rfl (boolWord_decide (_ = _))
  case cmplt => exact issues rfl (boolWord_decide _)
  case cmpltu => exact issues rfl (boolWord_decide _)

theorem sextNat_imm (i : BitVec 32) : sextNat 32 i.toNat = i.toInt := by
  rw [sextNat, BitVec.toInt_eq_toNat_cond]
  have := i.isLt
  split <;> split <;> omega

theorem sext64_imm (i : BitVec 32) : sext64 32 i.toNat = BitVec.signExtend 64 i := congrArg (BitVec.ofInt 64) (sextNat_imm i)

theorem aluMovhi_eq (x : Word) (i : BitVec 32) : aluMovhi x i = i ++ BitVec.truncate 32 x := by
  apply BitVec.eq_of_toNat_eq
  have hlow : x.toNat % 2 ^ 32 < 2 ^ 32 := Nat.mod_lt _ (by decide)
  have hi := i.isLt
  rw [aluMovhi, BitVec.toNat_append, BitVec.toNat_setWidth, ← Nat.shiftLeft_add_eq_or_of_lt hlow, Nat.shiftLeft_eq, BitVec.toNat_ofNat]
  omega

theorem bitLen_eq_size (v : Nat) : bitLen v = Nat.size v := by
  by_cases hv : v = 0
  · simp [bitLen, hv]
  · rw [bitLen, if_neg hv]
    refine le_antisymm ?_ (Nat.size_le.mpr Nat.lt_log2_self)
    exact Nat.lt_size.mpr (Nat.log2_self_le hv)

/-- A bit count is the number of positions that hold a 1. -/
theorem popc_eq_length (k : Nat) : ∀ v, popc k v = ((List.range k).filter (fun i => v.testBit i)).length := by
  induction k with
  | zero => exact fun _ => rfl
  | succ k ih =>
    intro v
    have hhigh : ((List.range k).map Nat.succ).filter (fun i => v.testBit i) = ((List.range k).filter (fun i => (v / 2).testBit i)).map Nat.succ := by
      rw [List.filter_map]
      simp only [Function.comp_def, Nat.succ_eq_add_one, Nat.testBit_add_one]
    rw [popc, ih, List.range_succ_eq_map, List.filter_cons, hhigh, Nat.testBit_zero]
    rcases Nat.mod_two_eq_zero_or_one v with h | h <;> simp [h, Nat.add_comm]

/-- Settles O3: the value of an immediate and the count of bits are those of R161. -/
theorem intOneSourceResults : Obligations.IntOneSourceResults := by
  unfold Obligations.IntOneSourceResults
  intro s n a f h hdst
  refine ⟨fun hsa hsb hsc => ⟨?immediate, fun himm => ?count⟩, fun hsa hsb hsc => ?movi⟩
  case immediate =>
    have issues {c code unit op v} := issuesAct_intAI (c := c) (code := code) (unit := unit) (ok := anyImm) (op := op) (v := v) h hdst hsa hsb hsc rfl
    have hzero : BitVec.ofNat 64 f.i = BitVec.zeroExtend 64 f.imm := BitVec.ofNat_toNat ..
    simp only [List.forall_mem_cons, List.not_mem_nil, false_implies, implies_true, and_true]
    refine ⟨?addi, ?andi, ?ori, ?xori, ?movhi⟩
    case addi => exact issues rfl (by rw [Fields.i, sext64_imm])
    case andi => exact issues rfl (by rw [hzero])
    case ori => exact issues rfl (by rw [hzero])
    case xori => exact issues rfl (by rw [hzero])
    case movhi => exact issues rfl (by rw [aluMovhi_eq, Fields.i, BitVec.ofNat_toNat, BitVec.setWidth_eq])
  case count =>
    have issues {c code unit op v} := issuesAct_intA (c := c) (code := code) (unit := unit) (op := op) (v := v) h hdst hsa hsb hsc himm
    simp only [List.forall_mem_cons, List.not_mem_nil, false_implies, implies_true, and_true]
    refine ⟨?clz, ?popc⟩
    case clz => exact issues rfl (by rw [aluClz, bitLen_eq_size])
    case popc => exact issues rfl (by rw [aluPopc, popc_eq_length])
  case movi =>
    refine issuesAct_soon (o := ⟨0x38, usesDI, fun _ => [], false, allKinds⟩) (chk := some uDup) h rfl rfl
      (by simp [usesDI, Uses.ok, hsa, hsb, hsc]) rfl (by simp) fun _ => ?_
    rw [if_pos hdst, Fields.i, sext64_imm]
    rfl

/-- Settles O4: a register count is taken modulo 64, and an immediate outside its range is refused by `faultsWith_semAI`. -/
theorem shiftAndExtractRules : Obligations.ShiftAndExtractRules := by
  unfold Obligations.ShiftAndExtractRules
  refine ⟨?sel, fun s n a f h hdst hsa hsc => ⟨?register, fun hsb => ?immediate, fun hsb sh w hi hsh => ?extu⟩⟩
  case sel =>
    intro s n a f h hdst hsa hsb hsc himm
    refine issuesAct_soon (o := ⟨0x37, usesDABC, fun f => [f.a, f.b, f.c], false, allKinds⟩) (chk := some uDup) h rfl rfl
      (by simp [usesDABC, Uses.ok, himm]) rfl (by simp) fun _ => ?_
    simp only [hdst, hsa, hsb, hsc, Bool.and_self, if_true, ite_not]
    rfl
  case register =>
    intro e he hsb himm hi lo hcount hlo
    have hmod : (a.src f.b).toNat % 64 = lo := by omega
    have issues {c code unit op v} := issuesAct_intAB (c := c) (code := code) (unit := unit) (op := op) (v := v) h hdst hsa hsb hsc himm
    revert e
    simp only [List.forall_mem_cons, List.not_mem_nil, false_implies, implies_true, and_true]
    refine ⟨?shl, ?shr, ?sar⟩
    case shl => exact issues rfl (by rw [aluShl, hmod, word_shl])
    case shr => exact issues rfl (by rw [aluShr, hmod, word_shr])
    case sar => exact issues rfl (by rw [aluSar, hmod, word_sar])
  case immediate =>
    by_cases hi : f.i < 64
    · have hcount : (BitVec.ofNat 64 f.i).toNat % 64 = f.i := by rw [BitVec.toNat_ofNat]; omega
      have issues {c code unit op v} := issuesAct_intAI (c := c) (code := code) (unit := unit) (op := op) (v := v) h hdst hsa hsb hsc
        (ok := shiftImm) (by simpa [shiftImm] using hi)
      simp only [List.forall_mem_cons, List.not_mem_nil, false_implies, implies_true, and_true, if_pos hi]
      refine ⟨?shli, ?shri, ?sari⟩
      case shli => exact issues rfl (by rw [aluShl, hcount, word_shl])
      case shri => exact issues rfl (by rw [aluShr, hcount, word_shr])
      case sari => exact issues rfl (by rw [aluSar, hcount, word_sar])
    · have faults {c code k} := faultsWith_semAI (c := c) (code := code) (k := k) h hsb hsc (ok := shiftImm) (by simpa [shiftImm] using hi)
      simp only [List.forall_mem_cons, List.not_mem_nil, false_implies, implies_true, and_true, if_neg hi]
      exact ⟨faults rfl, faults rfl, faults rfl⟩
  case extu =>
    have hwidth : f.i / 64 = w := by omega
    have hshift : f.i % 64 = sh := by omega
    split
    · next hw =>
      have hok : extuImm f.i = true := by simp [extuImm, hwidth, hw]; omega
      exact issuesAct_intAI h hdst hsa hsb hsc hok rfl (by rw [aluExtu, hwidth, hshift, Nat.shiftRight_eq_div_pow])
    · next hw =>
      have hbad : extuImm f.i = false := by simp [extuImm, hwidth]; omega
      exact faultsWith_semAI h hsb hsc hbad rfl

end Sys2Proof.Machine
end

/-! # Fixed point and the guarded accumulators (R163, R164, R196 to R198)

An exact value becomes a result and its flags by `fxRange_eq_inRange`, in 32 bits by `fxSext32_fxRange`. -/
section
namespace Sys2Proof.Machine

section
variable {s : State} {n : Nat} {a : Act} {f : Fields} {c : Instr} {code fxs : Nat}

theorem fixEffects_soon {d dist fxs : Nat} {v : BitVec 80} {p : Bool} (h : dist = 2 ∨ dist = 4) :
    ∀ e ∈ fixEffects d dist v p fxs, e.dist = 2 ∨ e.dist = 4 := fun e he => by rwa [fixEffects_dist e he]

/-! ## G registers -/

section
variable {v : Word}

theorem issuesAct_fixAB {op : Act → Word → Word → FxRes 64} (h : s.CanIssue n a) (hdst : isDst f.d) (hsa : isSrc f.a) (hsb : isSrc f.b)
    (hsc : f.sc = 0) (himm : f.imm = 0) (hexec : exec c s = runOp n (opDAB code) f (fixAB code op) s)
    (hop : op { a with slot := a.slot + 1 } (a.src f.a) (a.src f.b) = ⟨v, fxs⟩) :
    IssuesAct c s n (some (a.issued (packWord code f) (fixEffects f.d 2 (v.setWidth 80) (a.poisoned f.a || a.poisoned f.b) fxs) false)) :=
  issuesAct_semAB h hdst hsa hsb hsc himm hexec (fixEffects_soon (.inl rfl)) ((congrArg (fxResult f.d 2 · _ uFix 0) hop).trans fxResult_eq)

theorem issuesAct_fixA {op : Act → Word → FxRes 64} (h : s.CanIssue n a) (hdst : isDst f.d) (hsa : isSrc f.a) (hsb : f.sb = 0)
    (hsc : f.sc = 0) (himm : f.imm = 0) (hexec : exec c s = runOp n (opDA code) f (fixA code op) s)
    (hop : op { a with slot := a.slot + 1 } (a.src f.a) = ⟨v, fxs⟩) :
    IssuesAct c s n (some (a.issued (packWord code f) (fixEffects f.d 2 (v.setWidth 80) (a.poisoned f.a) fxs) false)) :=
  issuesAct_semA h hdst hsa hsb hsc himm hexec (fixEffects_soon (.inl rfl)) ((congrArg (fxResult f.d 2 · _ uFix 0) hop).trans fxResult_eq)

theorem issuesAct_fixAI {op : Act → Word → Nat → FxRes 64} (h : s.CanIssue n a) (hdst : isDst f.d) (hsa : isSrc f.a) (hsb : f.sb = 0)
    (hsc : f.sc = 0) (himm : f.i < 64) (hexec : exec c s = runOp n (opDAI code) f (fixAI code op) s)
    (hop : op { a with slot := a.slot + 1 } (a.src f.a) f.i = ⟨v, fxs⟩) :
    IssuesAct c s n (some (a.issued (packWord code f) (fixEffects f.d 2 (v.setWidth 80) (a.poisoned f.a) fxs) false)) :=
  issuesAct_semAI h hdst hsa hsb hsc (decide_eq_true himm) hexec (fixEffects_soon (.inl rfl))
    ((congrArg (fxResult f.d 2 · _ uFix 0) hop).trans fxResult_eq)

end

/-! ## Guarded accumulators -/

/-- With nothing in flight, a chained read is a plain one (R125). -/
theorem chained_idle (h : a.flights = []) (r : Nat) : a.chained r = (a.gaAt r, a.poisoned r) := by
  rw [Act.chained, h]
  rfl

/-- A result of the fixed-point unit lands with its flags at distance 4. -/
theorem issuesAct_fix4 {o : Op} {sem : State → Nat → Act → Fields → Issued} {w : Nat} {u : BitVec w} {v : BitVec 80} {p : Bool} (h : s.CanIssue n a)
    (hexec : exec c s = runOp n o f sem s) (hkinds : o.kinds = allKinds) (huses : o.uses.ok f = true) (hmul : o.usesMul = false)
    (hcode : o.code = code) (hv : u.setWidth 80 = v)
    (hsem : ∀ t, sem t n { a with slot := a.slot + 1 } f = fxResult f.d 4 ⟨u, fxs⟩ p uFix 0) :
    IssuesAct c s n (some (a.issued (packWord code f) (fixEffects f.d 4 v p fxs) false)) := by
  rw [← hcode, ← hv]
  exact issuesAct_soon (chk := some uFix) h hexec hkinds huses hmul (fixEffects_soon (.inr rfl)) fun t =>
    (hsem t).trans (by simp only [fxResult, fixEffects, BitVec.ofNat_toNat])

/-- ACCQ, ACCQN and ACCQ32 add to an accumulator that nothing in flight writes. -/
theorem issuesAct_accGa {op : Act → BitVec 80 → Word → Word → FxRes 80} {v : BitVec 80} (h : s.CanIssue n a) (hdst : isGa f.d) (hsa : isSrc f.a)
    (hsb : isSrc f.b) (hsc : f.sc = 0) (himm : f.imm = 0) (hexec : exec c s = runOp n (opDAB code) f (accGa code op) s)
    (hop : op { a with slot := a.slot + 1 } (a.gaAt f.d) (a.src f.a) (a.src f.b) = ⟨v, fxs⟩) :
    IssuesAct c s n (some (a.issued (packWord code f)
      (fixEffects f.d 4 v (a.poisoned f.d || a.poisoned f.a || a.poisoned f.b) fxs) false)) := by
  have hsem : ∀ t, accGa code op t n { a with slot := a.slot + 1 } f =
      fxResult f.d 4 ⟨v, fxs⟩ (a.poisoned f.d || a.poisoned f.a || a.poisoned f.b) uFix 0 := fun _ => by
    simp only [accGa, hdst, hsa, hsb, Bool.and_self, if_true, Act.src_withSlot, Act.poisoned_withSlot,
      chained_idle (a := { a with slot := a.slot + 1 }) h.flights]
    exact congrArg (fxResult f.d 4 · _ uFix 0) hop
  exact issuesAct_fix4 h hexec rfl (by simp [opDAB, usesDAB, Uses.ok, hsc, himm]) rfl rfl (BitVec.setWidth_eq v) hsem

end

/-- Settles O5: each value is exact, and `fxRange_eq_inRange` gives what its range check leaves. -/
theorem fixedPointResults : Obligations.FixedPointResults := by
  unfold Obligations.FixedPointResults
  intro s n a f h hdst hsa hsc x y x32 y32 pa pab out
  refine ⟨fun hsb himm => ?two, fun hsb himm => ?one, fun hsb himm => ?shifts⟩
  case two =>
    have issues {c code op v fxs} := issuesAct_fixAB (c := c) (code := code) (op := op) (v := v) (fxs := fxs) h hdst hsa hsb hsc himm
    refine ⟨issues rfl (fxRange_eq_inRange ..), issues rfl (fxRange_eq_inRange ..), issues rfl ?addq32, issues rfl ?subq32⟩
    case addq32 => rw [fxAdd32, q31_eq_toInt, q31_eq_toInt, fxSext32_fxRange]; rfl
    case subq32 => rw [fxSub32, q31_eq_toInt, q31_eq_toInt, fxSext32_fxRange]; rfl
  case one =>
    have issues {c code op v fxs} := issuesAct_fixA (c := c) (code := code) (op := op) (v := v) (fxs := fxs) h hdst hsa hsb hsc himm
    exact ⟨issues rfl (fxRange_eq_inRange ..), issues rfl (by rw [fxAbs, Int.natCast_natAbs, fxRange_eq_inRange]; rfl)⟩
  case shifts =>
    have issues {c code op v fxs} := issuesAct_fixAI (c := c) (code := code) (op := op) (v := v) (fxs := fxs) h hdst hsa hsb hsc himm
    exact ⟨issues rfl (fxRange_eq_inRange ..), issues (fxs := 0) rfl rfl⟩

/-- Settles O6: accumulations go through `issuesAct_accGa`, the other five decode to one result of the fixed-point unit. -/
theorem guardedAccumulatorResults : Obligations.GuardedAccumulatorResults := by
  unfold Obligations.GuardedAccumulatorResults
  intro s n a f h hsc x y g p to80 to64
  refine ⟨fun hdst hsa hsb himm => ?accumulate, fun hdst hga hgb himm => ?gaadd, fun hdst hga hsb himm => ?narrow,
    fun hdst hsa hsb himm => ?widen, fun hdst hga hsb himm => ?gashr⟩
  case accumulate =>
    have issues {c code op v fxs} := issuesAct_accGa (c := c) (code := code) (op := op) (v := v) (fxs := fxs) h hdst hsa hsb hsc himm
    refine ⟨issues rfl (fxRange_eq_inRange ..), issues rfl (fxRange_eq_inRange ..), issues rfl ?_⟩
    rw [gaAcc32, q31_eq_toInt, q31_eq_toInt, fxRange_eq_inRange]
    rfl
  case gaadd =>
    have hsum := fxRange_eq_inRange 80 a.sat (g f.a + g f.b)
    exact issuesAct_fix4 (o := opDAB 0x4B) h rfl rfl (by simp [opDAB, usesDAB, Uses.ok, hsc, himm]) rfl rfl (BitVec.setWidth_eq _) fun _ => by
      rw [hdst, hga, hgb]
      exact congrArg (fxResult f.d 4 · _ uFix 0) hsum
  case narrow =>
    have huses : ∀ code, (opDA code).uses.ok f = true := fun _ => by simp [opDA, usesDA, Uses.ok, hsb, hsc, himm]
    have hq63 := fxRange_eq_inRange 64 a.sat (g f.a)
    have hq31 := fxSext32_fxRange a.sat (fxRound a.fxrm 32 (g f.a))
    constructor
    · exact issuesAct_fix4 (o := opDA 0x4C) h rfl rfl (huses 0x4C) rfl rfl rfl fun _ => by
        rw [hdst, hga]
        exact congrArg (fxResult f.d 4 · _ uFix 0) hq63
    · exact issuesAct_fix4 (o := opDA 0x4D) h rfl rfl (huses 0x4D) rfl rfl rfl fun _ => by
        rw [hdst, hga]
        exact congrArg (fxResult f.d 4 · _ uFix 0) hq31
  case widen =>
    exact issuesAct_fix4 (o := opDA 0x4E) (fxs := 0) h rfl rfl (by simp [opDA, usesDA, Uses.ok, hsb, hsc, himm]) rfl rfl (BitVec.setWidth_eq _)
      fun _ => by rw [hdst, hsa]; rfl
  case gashr =>
    exact issuesAct_fix4 (o := opDAI 0x4F) (fxs := 0) h rfl rfl (by simp [opDAI, usesDAI, Uses.ok, hsb, hsc]) rfl rfl (BitVec.setWidth_eq _)
      fun _ => by rw [hdst, hga, decide_eq_true himm]; rfl

end Sys2Proof.Machine
end

/-! # Floating point without an enabled exception (R168 to R171, R205 to R213)

In a block that traps no exception, an FP instruction is its result and its sticky flags (`fpResult_sticky`), and each obligation names the
operation of the format that gives them. -/
section
namespace Sys2Proof.Machine

section
variable {a : Act} {d fl unit : Nat} {opa opb opc v : Word} {tiny p : Bool}

/-- No exception traps outside an AW block, nor with none enabled (R135, R214). -/
theorem trapExc_none (hten : a.aw = false ∨ a.ten = 0) : trapExc a fl tiny = none := by
  rcases hten with haw | hzero
  · simp [trapExc, haw]
  · simp [trapExc, hzero]

theorem fpResult_sticky (hten : a.aw = false ∨ a.ten = 0) :
    fpResult a d opa opb opc v fl tiny p unit = .ok (fpEffects d v p fl) .next false (some unit) 0 := by
  rw [fpResult, trapExc_none hten]
  rfl

theorem fpEffects_soon : ∀ e ∈ fpEffects d v p fl, e.dist = 2 ∨ e.dist = 4 := by
  unfold fpEffects
  split <;> simp

end

section
variable {s : State} {n : Nat} {a : Act} {f : Fields} {c : Instr} {code unit : Nat} {m : Fmt}

/-! ## Arithmetic -/

theorem issuesAct_fpAB {op : Nat → FVal → FVal → FRes} (h : s.CanIssue n a) (hdst : isDst f.d) (hsa : isSrc f.a) (hsb : isSrc f.b)
    (hsc : f.sc = 0) (himm : f.imm = 0) (hten : a.aw = false ∨ a.ten = 0) (hexec : exec c s = runOp n (opFp2 code) f (fpAB m code unit op) s) :
    let r := op a.rm (m.val (a.src f.a)) (m.val (a.src f.b))
    IssuesAct c s n (some (a.issued (packWord code f)
      (fpEffects f.d (BitVec.ofNat 64 r.bits) (a.poisoned f.a || a.poisoned f.b) r.fl) false)) :=
  issuesAct_semAB h hdst hsa hsb hsc himm hexec fpEffects_soon (fpResult_sticky hten)

theorem issuesAct_fpABC {op : Nat → FVal → FVal → FVal → FRes} (h : s.CanIssue n a) (hdst : isDst f.d) (hsa : isSrc f.a) (hsb : isSrc f.b)
    (hsc : isSrc f.c) (himm : f.imm = 0) (hten : a.aw = false ∨ a.ten = 0) (hexec : exec c s = runOp n (opFp3 code) f (fpABC m code op) s) :
    let r := op a.rm (m.val (a.src f.a)) (m.val (a.src f.b)) (m.val (a.src f.c))
    IssuesAct c s n (some (a.issued (packWord code f)
      (fpEffects f.d (BitVec.ofNat 64 r.bits) (a.poisoned f.a || a.poisoned f.b || a.poisoned f.c) r.fl) false)) := by
  refine issuesAct_soon (o := opFp3 code) (chk := some uFmul) h hexec rfl (by simp [opFp3, usesDABC, Uses.ok, himm]) rfl fpEffects_soon fun _ => ?_
  simp only [fpABC, hdst, hsa, hsb, hsc, Bool.and_self, if_true]
  exact fpResult_sticky hten

/-! ## Comparison, minimum, sign, class and conversion -/

theorem issuesAct_fpMinMax {mx : Bool} (h : s.CanIssue n a) (hdst : isDst f.d) (hsa : isSrc f.a) (hsb : isSrc f.b) (hsc : f.sc = 0)
    (himm : f.imm = 0) (hten : a.aw = false ∨ a.ten = 0) (hexec : exec c s = runOp n (opFp2 code) f (fpMinMax m code mx) s) :
    let r := m.minmax mx (m.val (a.src f.a)) (m.val (a.src f.b)) (m.arg (a.src f.a)) (m.arg (a.src f.b))
    IssuesAct c s n (some (a.issued (packWord code f)
      (fpEffects f.d (BitVec.ofNat 64 r.bits) (a.poisoned f.a || a.poisoned f.b) r.fl) false)) :=
  issuesAct_semAB h hdst hsa hsb hsc himm hexec fpEffects_soon (fpResult_sticky hten)

theorem issuesAct_fpCmp {v fl : Nat} (h : s.CanIssue n a) (hdst : isDst f.d) (hsa : isSrc f.a) (hsb : isSrc f.b) (hc : f.c < 4)
    (himm : f.imm = 0) (hten : a.aw = false ∨ a.ten = 0) (hexec : exec c s = runOp n (opFpM code) f (fpCmp m code) s)
    (hrel : fcmpRel f.c (m.val (a.src f.a)) (m.val (a.src f.b)) = ⟨BitVec.ofNat 64 v, fl⟩) :
    IssuesAct c s n (some (a.issued (packWord code f)
      (fpEffects f.d (BitVec.ofNat 64 v) (a.poisoned f.a || a.poisoned f.b) fl) false)) := by
  refine issuesAct_soon (o := opFpM code) (chk := some uDup) h hexec rfl (by simp [opFpM, usesDABC, Uses.ok, himm]) rfl fpEffects_soon fun _ => ?_
  simp only [fpCmp, hdst, hsa, hsb, hc, decide_true, Bool.and_self, if_true, Act.src_withSlot, Act.poisoned_withSlot, hrel]
  exact fpResult_sticky hten

theorem issuesAct_fpSgn {v : Nat} (h : s.CanIssue n a) (hdst : isDst f.d) (hsa : isSrc f.a) (hc : f.c < 4)
    (hsb : if 2 ≤ f.c then isSrc f.b = true else f.sb = 0) (himm : f.imm = 0) (hten : a.aw = false ∨ a.ten = 0)
    (hexec : exec c s = runOp n (opFsgn code) f (fpSgn m code) s) (hv : m.fsgn f.c (m.arg (a.src f.a)) (m.arg (a.src f.b)) = v) :
    IssuesAct c s n (some (a.issued (packWord code f)
      (fpEffects f.d (BitVec.ofNat 64 v) (a.poisoned f.a || (decide (2 ≤ f.c) && a.poisoned f.b)) 0) false)) := by
  refine issuesAct_soon (o := opFsgn code) (chk := some uDup) h hexec rfl (by simp [opFsgn, usesDABC, Uses.ok, himm]) rfl fpEffects_soon fun _ => ?_
  have hread : isSrc f.b = true ∧ (decide (2 ≤ f.c) || f.b == 0) = true := by
    by_cases hmod : 2 ≤ f.c
    · rw [if_pos hmod] at hsb
      exact ⟨hsb, by simp [hmod]⟩
    · rw [if_neg hmod] at hsb
      have hb : f.b = 0 := by rw [Fields.b, hsb]; rfl
      exact ⟨by rw [hb]; rfl, by rw [hb]; simp⟩
  simp only [fpSgn, hdst, hsa, hread, hc, decide_true, Bool.and_self, if_true, Act.src_withSlot, Act.poisoned_withSlot, hv]
  exact fpResult_sticky hten

theorem issuesAct_fclass (h : s.CanIssue n a) (hdst : isDst f.d) (hsa : isSrc f.a) (hsb : f.sb = 0) (himm : f.imm = 0)
    (hten : a.aw = false ∨ a.ten = 0) (hc : f.c < 2) (hfmt : (if f.c = 0 then fmtD else fmtS) = m) :
    IssuesAct (.fclass n f) s n (some (a.issued (packWord 0x99 f)
      (fpEffects f.d (BitVec.ofNat 64 (m.classify (m.val (a.src f.a)))) (a.poisoned f.a) 0) false)) := by
  refine issuesAct_soon (o := ⟨0x99, ⟨true, true, false, true, false⟩, fun f => [f.a], false, allKinds⟩) (chk := some uDup) h rfl rfl
    (by simp [Uses.ok, hsb, himm]) rfl fpEffects_soon fun _ => ?_
  simp only [hdst, hsa, hc, decide_true, Bool.and_self, if_true, hfmt]
  exact fpResult_sticky hten

theorem issuesAct_fpCvt {op : Nat → Word → Flagged × Bool} {v : Word} {fl : Nat} (h : s.CanIssue n a) (hdst : isDst f.d) (hsa : isSrc f.a)
    (hsb : f.sb = 0) (hsc : f.sc = 0) (himm : f.imm = 0) (hten : a.aw = false ∨ a.ten = 0)
    (hexec : exec c s = runOp n (opDA code) f (fpCvt code op) s) (hop : (op a.rm (a.src f.a)).1 = ⟨v, fl⟩) :
    IssuesAct c s n (some (a.issued (packWord code f) (fpEffects f.d v (a.poisoned f.a) fl) false)) := by
  obtain rfl : (op a.rm (a.src f.a)).1.val = v := congrArg Flagged.val hop
  obtain rfl : (op a.rm (a.src f.a)).1.fl = fl := congrArg Flagged.fl hop
  exact issuesAct_semA h hdst hsa hsb hsc himm hexec fpEffects_soon (fpResult_sticky hten)

end

/-! ## The values of FCMP and FSGN (R169, R170) -/

theorem FVal.isNan_of_isSig {x : FVal} (h : x.isSig = true) : x.isNan = true := by
  cases x with
  | nan neg quiet payload => rfl
  | inf neg => exact absurd h (by simp [FVal.isSig])
  | fin neg m e => exact absurd h (by simp [FVal.isSig])

theorem boolWord_eq_toNat (b : Bool) : boolWord b = BitVec.ofNat 64 b.toNat := by cases b <;> rfl

/-- EQ, LT, LE and UN, with IV for a signalling NaN, and in LT and LE for any NaN. -/
theorem fcmpRel_eq {k : Nat} (hk : k < 4) (x y : FVal) :
    let un := x.isNan || y.isNan
    let sig := x.isSig || y.isSig
    let v : Bool := if k = 0 then !un && fcmp x y == 0 else if k = 1 then !un && decide (fcmp x y < 0)
      else if k = 2 then !un && decide (fcmp x y ≤ 0) else un
    fcmpRel k x y = ⟨BitVec.ofNat 64 v.toNat, if (k = 1 ∨ k = 2) ∧ un ∨ sig then 16 else 0⟩ := by
  intro un sig v
  have hsig : sig = true → un = true := by
    simp only [sig, un, Bool.or_eq_true]
    exact Or.imp FVal.isNan_of_isSig FVal.isNan_of_isSig
  have hquiet : (un = true ∨ sig = true) ↔ un = true := or_iff_left_of_imp hsig
  rw [← boolWord_eq_toNat]
  obtain rfl | rfl | rfl | rfl : k = 0 ∨ k = 1 ∨ k = 2 ∨ k = 3 := by omega
  case inl => simp [fcmpRel, v, un, sig, flIV]
  case inr.inl => simp only [true_or, true_and, hquiet]; rfl
  case inr.inr.inl => simp only [or_true, true_and, hquiet]; rfl
  case inr.inr.inr => simp [fcmpRel, v, un, sig, flIV]

/-- The sign that FSGN gives, above the magnitude of its first operand. -/
theorem fsgn_eq {m : Fmt} (hw : 0 < m.width) {k : Nat} (hk : k < 4) (x y : Word) :
    let sx := x.toNat.testBit (m.width - 1)
    let sy := y.toNat.testBit (m.width - 1)
    let sg : Bool := if k = 0 then false else if k = 1 then !sx else if k = 2 then sy else !sy
    m.fsgn k (m.arg x) (m.arg y) = (if sg then 2 ^ (m.width - 1) else 0) + x.toNat % 2 ^ (m.width - 1) := by
  intro sx sy sg
  have hsign : ∀ z : Word, (m.arg z).testBit (m.width - 1) = z.toNat.testBit (m.width - 1) := fun z => by
    rw [Fmt.arg, Nat.testBit_mod_two_pow, decide_eq_true (by omega), Bool.true_and]
  have hmag : m.arg x % 2 ^ (m.width - 1) = x.toNat % 2 ^ (m.width - 1) :=
    Nat.mod_mod_of_dvd _ (Nat.pow_dvd_pow 2 (Nat.sub_le ..))
  simp only [Fmt.fsgn, Fmt.sgn, hsign, hmag]
  obtain rfl | rfl | rfl | rfl : k = 0 ∨ k = 1 ∨ k = 2 ∨ k = 3 := by omega
  all_goals rfl

/-- Settles O8: each instruction is one operation of its format, with the rounding mode that FPS holds at issue. -/
theorem fpArithmeticResults : Obligations.FpArithmeticResults := by
  unfold Obligations.FpArithmeticResults
  intro s n a f h hdst hsa hsb himm hten
  refine ⟨fun hsc => ?two, fun hsc => ?fused⟩
  case two =>
    have issues {c} := fun code m unit op => issuesAct_fpAB (c := c) (code := code) (unit := unit) (m := m) (op := op) h hdst hsa hsb hsc himm hten
    simp only [List.forall_mem_cons, List.not_mem_nil, false_implies, implies_true, and_true]
    exact ⟨issues 0x80 fmtD uFadd fmtD.add rfl, issues 0x81 fmtD uFadd (fsubOp fmtD) rfl, issues 0x82 fmtD uFmul fmtD.mul rfl,
      issues 0x90 fmtS uFadd fmtS.add rfl, issues 0x91 fmtS uFadd (fsubOp fmtS) rfl, issues 0x92 fmtS uFmul fmtS.mul rfl⟩
  case fused =>
    have issues {c} := fun code m op => issuesAct_fpABC (c := c) (code := code) (m := m) (op := op) h hdst hsa hsb hsc himm hten
    simp only [List.forall_mem_cons, List.not_mem_nil, false_implies, implies_true, and_true]
    exact ⟨issues 0x83 fmtD fmtD.fma rfl, issues 0x84 fmtD (fmsOp fmtD) rfl, issues 0x85 fmtD (fnmaOp fmtD) rfl,
      issues 0x93 fmtS fmtS.fma rfl, issues 0x94 fmtS (fmsOp fmtS) rfl, issues 0x95 fmtS (fnmaOp fmtS) rfl⟩

/-- A statement about each of the two formats. -/
theorem ite_fmt {m : Fmt} {P Q : Prop} (hm : m = fmtD ∨ m = fmtS) (hD : m = fmtD → P) (hS : m = fmtS → Q) : if m = fmtD then P else Q := by
  split
  · next h => exact hD h
  · next h => exact hS (hm.resolve_left h)

/-- Settles O9: FCMP and FSGN by `fcmpRel_eq` and `fsgn_eq`, the others are one operation of a format. -/
theorem fpCompareAndConvert : Obligations.FpCompareAndConvert := by
  unfold Obligations.FpCompareAndConvert
  refine ⟨?perFormat, ?convert⟩
  case perFormat =>
    intro s n a f h hdst hsa himm hten m hm x y out pab
    refine ⟨fun hsb hsc => ⟨?min, ?max⟩, fun hsb hc => ?cmp, fun hc hsb => ?sgn, fun hsb hc => ?fclass⟩
    case min =>
      have issues {c code} := issuesAct_fpMinMax (c := c) (code := code) (m := m) (mx := false) h hdst hsa hsb hsc himm hten
      exact ite_fmt hm (fun hf => issues (hf ▸ rfl)) (fun hf => issues (hf ▸ rfl))
    case max =>
      have issues {c code} := issuesAct_fpMinMax (c := c) (code := code) (m := m) (mx := true) h hdst hsa hsb hsc himm hten
      exact ite_fmt hm (fun hf => issues (hf ▸ rfl)) (fun hf => issues (hf ▸ rfl))
    case cmp =>
      have issues {c code} hexec := issuesAct_fpCmp (c := c) (code := code) (m := m) h hdst hsa hsb hc himm hten hexec (fcmpRel_eq hc x y)
      exact ite_fmt hm (fun hf => issues (hf ▸ rfl)) (fun hf => issues (hf ▸ rfl))
    case sgn =>
      have hw : 0 < m.width := by rcases hm with hf | hf <;> rw [hf] <;> decide
      have issues {c code} hexec := issuesAct_fpSgn (c := c) (code := code) (m := m) h hdst hsa hc hsb himm hten hexec (fsgn_eq hw hc ..)
      exact ite_fmt hm (fun hf => issues (hf ▸ rfl)) (fun hf => issues (hf ▸ rfl))
    case fclass =>
      rcases hm with rfl | rfl
      · exact issuesAct_fclass h hdst hsa hsb himm hten (by rw [hc]; decide) (by rw [hc]; rfl)
      · exact issuesAct_fclass h hdst hsa hsb himm hten (by rw [hc]; decide) (by rw [hc]; rfl)
  case convert =>
    intro s n a f h hdst hsa hsb hsc himm hten x out outF outI
    have issues {c code op v fl} := issuesAct_fpCvt (c := c) (code := code) (op := op) (v := v) (fl := fl) h hdst hsa hsb hsc himm hten
    exact ⟨issues rfl rfl, issues rfl rfl, issues rfl rfl, issues rfl rfl, issues rfl rfl, issues rfl rfl, issues rfl rfl, issues rfl rfl⟩

end Sys2Proof.Machine
end

/-! # Requests to the arithmetic engine and to memory (R165, R166, R175 to R181) -/
section
namespace Sys2Proof.Machine

/-! ## The arithmetic engine -/

section
variable {s : State} {n : Nat} {a : Act} {f : Fields} {c : Instr} {code : Nat}

/-- The message that carries a request of PE n to its cluster's engine. -/
def aeMsg (s : State) (n : Nat) (a : Act) (f : Fields) (op : AeOp) (y : Word) (p : Bool) : Msg :=
  { dest := peEndpoint n, opc := .control, pri := tPri a.tag, spec := 0, body := [], act := a.serial, cls := .a,
    ae := some { op := op, a := a.src f.a, b := y, poison := p, rm := a.rm, fxrm := a.fxrm, sat := a.sat, ten := a.ten, cad := a.cad,
                 tag := a.tag, reply := setFld (replyTag s n a f true) 59 59 p.toNat, pe := n, rerun := false } }

/-- The clusters' PEs have the engine's instructions. -/
theorem engineKinds_cluster (hn : n < 272) : ([.s, .a] : List PeKind).contains (peKind n) = true := by
  unfold peKind
  by_cases hs : n < 256
  · rw [if_pos hs]; rfl
  · rw [if_neg hs, if_pos hn]; rfl

theorem issuesMsg_ae {op : AeOp} {two : Bool} {y : Word} {p : Bool} (h : s.CanIssue n a) (hn : n < 272) (hroom : (s.pe n).outQ.length < 64)
    (hsa : isSrc f.a) (hsb : if two then isSrc f.b = true else f.sb = 0) (hdst : f.dst = 0) (hsc : f.sc = 0) (hdesc : descOk .reply f)
    (hpe : dPe f.i ≤ 275) (hexec : exec c s = runOp n (opAe code two) f (semAe code op two) s) (hy : (if two then a.src f.b else 0) = y)
    (hp : (a.poisoned f.a || (two && a.poisoned f.b)) = p) :
    IssuesMsg c s n a (packWord code f) (aeMsg s n a f op y p) false := by
  have huses : (opAe code two).uses.ok f = true := by
    cases two with
    | false => simp only [Bool.false_eq_true, if_false] at hsb; simp [opAe, Uses.ok, hdst, hsc, hsb]
    | true => simp [opAe, Uses.ok, hdst, hsc]
  have hsrc : (!two || isSrc f.b) = true := by
    cases two with
    | false => rfl
    | true => exact hsb
  refine issuesMsg_of h (opAe code two) f _ _ false hexec hroom (engineKinds_cluster hn) huses rfl fun t _ => ?_
  simp only [semAe, hsa, hsrc, hdesc, Bool.and_self, Bool.not_true, Bool.false_eq_true, if_false, if_neg (Nat.not_lt.mpr hpe), Act.src_withSlot,
    Act.poisoned_withSlot, replyTag_withSlot (s := s), hy, hp, pairPe_of_lt hn]
  rfl

end

/-- Settles O11: every engine instruction decodes to its request. -/
theorem engineRequests : Obligations.EngineRequests := by
  unfold Obligations.EngineRequests
  intro s n a f h hn hroom hsa hdst hsc hdesc hpe req
  constructor
  · intro hsb
    have issues {c y p} := fun code op =>
      issuesMsg_ae (c := c) (code := code) (op := op) (y := y) (p := p) (two := true) h hn hroom hsa hsb hdst hsc hdesc hpe
    simp only [List.forall_mem_cons, List.not_mem_nil, false_implies, implies_true, and_true]
    exact ⟨issues 0x68 .divS rfl rfl rfl, issues 0x69 .divU rfl rfl rfl, issues 0x6A .remS rfl rfl rfl, issues 0x6B .remU rfl rfl rfl,
      issues 0x6C .mul128S rfl rfl rfl, issues 0x6D .mul128U rfl rfl rfl, issues 0x6E .divq rfl rfl rfl, issues 0x6F .fdivD rfl rfl rfl,
      issues 0x70 .fdivS rfl rfl rfl⟩
  · intro hsb
    have issues {c} := fun code op hexec =>
      issuesMsg_ae (c := c) (code := code) (op := op) (two := false) h hn hroom hsa hsb hdst hsc hdesc hpe hexec rfl (Bool.or_false _)
    simp only [List.forall_mem_cons, List.not_mem_nil, false_implies, implies_true, and_true]
    exact ⟨issues 0x71 .fsqrtD rfl, issues 0x72 .fsqrtS rfl, issues 0x73 .isqrt rfl⟩

/-! ## The owner of an address (R177)

An address names a unit by its class, and the one register that a class depends on is not among a PE's statistics. -/

section
variable {s t : State} {n : Nat} {a : Act} {f : Fields}

theorem isPeStat_quota : ∀ n < 276, isPeStat n aQuota = false := by decide +kernel

theorem State.OnlyPe.classify (h : State.OnlyPe n s t) (hn : n < 276) : t.classify = s.classify := by
  have hquota : t.deepBase = s.deepBase := by
    rw [State.deepBase, State.deepBase, State.rfld, State.rfld, h.reg _ (isPeStat_quota n hn)]
  funext x
  rw [State.classify, State.classify, hquota]

theorem State.OnlyPe.target (h : State.OnlyPe n s t) (hn : n < 276) : t.target = s.target := by
  funext iview read8 v size
  rw [State.target, State.target, h.classify hn]

/-- There are 64 scratches. -/
theorem classify_scratch_lt {x c : Nat} (h : s.classify x = .scr c ∨ s.classify x = .scrI c) : c < 64 := by
  unfold State.classify at h
  split_ifs at h <;> simp at h
  all_goals omega

theorem target_lt {iview read8 : Bool} {v : Word} {size d : Nat} (h : s.target iview read8 v size = .inr d) : d < 70 := by
  by_cases hrange : v.toNat < 281474976710656
  · cases hclass : s.classify v.toNat with
    | scr c | scrI c =>
      have hc : c < 64 := classify_scratch_lt (s := s) (x := v.toNat) (by simp [hclass])
      simp only [State.target, Nat.reducePow, hrange, if_true, hclass] at h
      split at h <;> simp at h
      omega
    | barred => simp [State.target, hrange, hclass] at h
    | none => simp [State.target, hrange, hclass] at h
    | mem | memI | tbNow =>
      simp only [State.target, Nat.reducePow, hrange, if_true, hclass] at h
      split at h <;> simp at h
      omega
  · simp [State.target, hrange] at h

/-! ## READ, WRITE, IREAD, IWRITE and ATOM -/

/-- The request of an instruction to unit `dest`, which owns address v. -/
def requestMsg (s : State) (n : Nat) (a : Act) (f : Fields) (v : Word) (dest : Nat) (opc : Opc) (spec : Nat) (wide : Bool) (more : List Wide)
    (cls : FenceClass) : Msg :=
  { dest := dest, opc := opc, pri := tPri a.tag, spec := spec + put 7 7 (dNr f.i).toNat,
    body := mkWide (if dNr f.i then outTag s n a { f with sc := 0, imm := 0 } false false else replyTag s n a f wide)
      (BitVec.ofNat 64 (fld v 47 0)) :: more,
    act := a.serial, cls := cls, ae := none }

/-- An address whose owner a route leads to, when the reply is to go to a PE that exists. -/
structure State.Reaches (s : State) (n : Nat) (f : Fields) (iview read8 : Bool) (v : Word) (size dest : Nat) : Prop where
  pe : n < 276
  reply : dPe f.i ≤ 275
  owner : s.target iview read8 v size = .inr dest
  route : s.noRoute (peEndpoint n) dest = false

theorem requestTo_sent {iview read8 wide : Bool} {v : Word} {size dest spec : Nat} {opc : Opc} {more : List Wide} {cls : FenceClass}
    (h : s.Reaches n f iview read8 v size dest) (ht : s.AtIssue n a t) :
    requestTo t n { a with slot := a.slot + 1 } f iview read8 v size opc spec wide more cls =
      oneMsg (requestMsg s n a f v dest opc spec wide more cls) := by
  have hmiss := ht.routeMiss_none (p := if dNr f.i then none else some (dPe f.i)) h.pe (target_lt h.owner)
    (by split <;> rintro _ ⟨⟩; exact h.reply) h.route
  rw [requestTo, ht.only.target h.pe, h.owner]
  exact sendOr_routed (m := requestMsg s n a f v dest opc spec wide more cls) hmiss

/-- What each instruction of the statement needs: a PE that can issue, room for the message, and an address that can be read. -/
structure State.Asks (s : State) (n : Nat) (a : Act) (f : Fields) : Prop where
  ready : s.CanIssue n a
  room : (s.pe n).outQ.length < 64
  src : isSrc f.a = true
  clean : a.poisoned f.a = false

variable {dest : Nat}

theorem issuesMsg_read (h : s.Asks n a f) (hdst : f.dst = 0) (hsb : f.sb = 0) (hc : f.c ≤ 4) (hdesc : descOk .reply f)
    (hto : s.Reaches n f false (f.c == 0) (a.src f.a) (sizeOf f.c) dest) :
    IssuesMsg (.read n f) s n a (packWord 0xC2 f) (requestMsg s n a f (a.src f.a) dest .read (put 11 9 f.c) (f.c == 4) [] .a) := by
  refine issuesMsg_of h.ready (opMsg 0xC2 ⟨false, true, false, true, true⟩ fun f => [f.a]) f _ _ true rfl h.room (allKinds_all n)
    (by simp [opMsg, Uses.ok, hdst, hsb]) rfl fun t ht => ?_
  simp only [poisonedAt, Act.src_withSlot, Act.poisoned_withSlot, h.src, h.clean, hc, hdesc, decide_true, Bool.and_self, Bool.not_true,
    Bool.false_eq_true, if_false, requestTo_sent hto ht]

theorem issuesMsg_write (h : s.Asks n a f) (hdst : f.dst = 0) (hsb : isSrc f.b) (hc : f.c ≤ 3) (hdesc : descOk .replyNr f)
    (hto : s.Reaches n f false false (a.src f.a) (sizeOf f.c) dest) :
    IssuesMsg (.write n f) s n a (packWord 0xC3 f) (requestMsg s n a f (a.src f.a) dest .write
      (put 11 9 f.c + put 8 8 (a.poisoned f.b).toNat) false [mkWide 0 (a.src f.b)] .w) := by
  refine issuesMsg_of h.ready (opMsg 0xC3 ⟨false, true, true, true, true⟩ fun f => [f.a, f.b]) f _ _ true rfl h.room (allKinds_all n)
    (by simp [opMsg, Uses.ok, hdst]) rfl fun t ht => ?_
  simp only [poisonedAt, Act.src_withSlot, Act.poisoned_withSlot, h.src, hsb, h.clean, hc, hdesc, decide_true, Bool.and_self, Bool.not_true,
    Bool.false_eq_true, if_false, requestTo_sent hto ht]

theorem issuesMsg_iread (h : s.Asks n a f) (hdst : f.dst = 0) (hsb : f.sb = 0) (hsc : f.sc = 0) (hdesc : descOk .reply f)
    (hto : s.Reaches n f true false (a.src f.a) 8 dest) :
    IssuesMsg (.iread n f) s n a (packWord 0xC4 f) (requestMsg s n a f (a.src f.a) dest .iread 0 false [] .a) := by
  refine issuesMsg_of h.ready (opMsg 0xC4 ⟨false, true, false, false, true⟩ fun f => [f.a]) f _ _ true rfl h.room (allKinds_all n)
    (by simp [opMsg, Uses.ok, hdst, hsb, hsc]) rfl fun t ht => ?_
  simp only [poisonedAt, Act.src_withSlot, Act.poisoned_withSlot, h.src, h.clean, hdesc, Bool.and_self, Bool.not_true,
    Bool.false_eq_true, if_false, requestTo_sent hto ht]

theorem issuesMsg_iwrite (h : s.Asks n a f) (hdst : f.dst = 0) (hsb : isSrc f.b) (hsc : f.sc = 0) (hdesc : descOk .replyNr f)
    (hto : s.Reaches n f true false (a.src f.a) 8 dest) :
    IssuesMsg (.iwrite n f) s n a (packWord 0xC5 f) (requestMsg s n a f (a.src f.a) dest .iwrite
      (put 8 8 (a.poisoned f.b).toNat) false [mkWide 0 (a.src f.b)] .w) := by
  refine issuesMsg_of h.ready (opMsg 0xC5 ⟨false, true, true, false, true⟩ fun f => [f.a, f.b]) f _ _ true rfl h.room (allKinds_all n)
    (by simp [opMsg, Uses.ok, hdst, hsc]) rfl fun t ht => ?_
  simp only [poisonedAt, Act.src_withSlot, Act.poisoned_withSlot, h.src, hsb, h.clean, hdesc, Bool.and_self, Bool.not_true,
    Bool.false_eq_true, if_false, requestTo_sent hto ht]

/-- ATOM (R181): CAS reads its comparand in DST; ICLR goes through the I-view and reads no SB. -/
theorem issuesMsg_atom {spec : Nat} {more : Wide} (h : s.Asks n a f) (hc : f.c ≤ 10) (hdesc : descOk .reply f)
    (hcas : if f.c = 1 then isSrc f.d = true ∧ a.poisoned f.d = false else f.d = 0) (hiclr : if f.c = 10 then f.b = 0 else isSrc f.b = true)
    (hto : s.Reaches n f (f.c == 10) false (a.src f.a) 8 dest) (hspec : put 12 9 f.c + put 8 8 (!(f.c == 10) && a.poisoned f.b).toNat = spec)
    (hmore : mkWide (if f.c == 1 then a.src f.d else 0) (if f.c == 10 then 0 else a.src f.b) = more) :
    IssuesMsg (.atom n f) s n a (packWord 0xC6 f) (requestMsg s n a f (a.src f.a) dest .atom spec false [more] .w) := by
  refine issuesMsg_of h.ready
    (opMsg 0xC6 ⟨true, true, true, true, true⟩ fun f => [f.a] ++ (if f.c = 1 then [f.d] else []) ++ (if f.c = 10 then [] else [f.b])) f _ _ true rfl
    h.room (allKinds_all n) rfl rfl fun t ht => ?_
  have hcomparand : (if f.c == 1 then isSrc f.d else f.d == 0) = true ∧ (if f.c == 1 then poisonedAt a f.d else none) = none := by
    by_cases hone : f.c = 1
    · rw [if_pos hone] at hcas
      simp [hone, hcas.1, poisonedAt_clean hcas.2]
    · rw [if_neg hone] at hcas
      simp [hone, hcas]
  have hoperand : (if f.c == 10 then f.b == 0 else isSrc f.b) = true := by
    by_cases hten : f.c = 10
    · rw [if_pos hten] at hiclr
      simp [hten, hiclr]
    · rw [if_neg hten] at hiclr
      simp [hten, hiclr]
  have hclean : poisonedAt { a with slot := a.slot + 1 } f.a = none := poisonedAt_clean h.clean
  have hcmp : (if f.c == 1 then poisonedAt { a with slot := a.slot + 1 } f.d else none) = none := hcomparand.2
  simp only [h.src, hc, hdesc, hcomparand.1, hoperand, hclean, hcmp, decide_true, Bool.and_self, Bool.not_true, Bool.false_eq_true, if_false,
    Act.src_withSlot, Act.poisoned_withSlot, hspec, hmore, requestTo_sent hto ht]

/-- A READ of 8 bytes from an address of a class that no message reaches faults with the code of that class (R177). -/
theorem faultsWith_read {fc : FaultCode} (h : s.CanIssue n a) (hsa : isSrc f.a) (hclean : a.poisoned f.a = false) (hdst : f.dst = 0) (hsb : f.sb = 0)
    (hsc : f.sc = 0) (hdesc : descOk .reply f) (hrange : (a.src f.a).toNat < 2 ^ 48) (htarget : s.target false true (a.src f.a) 8 = .inl fc)
    (hfc : fc ≠ .lsUncorrectable ∧ fc ≠ .imemUncorrectable) : FaultsWith (.read n f) s n a fc (a.src f.a).toNat := by
  refine faultsWith_of h (opMsg 0xC2 ⟨false, true, false, true, true⟩ fun f => [f.a]) f _ _ _ rfl (allKinds_all n)
    (by simp [opMsg, Uses.ok, hdst, hsb]) hfc.1 hfc.2 fun t ht => ?_
  have hc : f.c = 0 := by rw [Fields.c, hsc]; rfl
  have hdetail : fld (a.src f.a) 47 0 = (a.src f.a).toNat := Nat.mod_eq_of_lt hrange
  have hbad : t.target false true (a.src f.a) 8 = .inl fc := by rw [ht.only.target h.pe, htarget]
  simp [poisonedAt, hsa, hclean, hdesc, hc, requestTo, sizeOf, hbad, hdetail]

end

/-- Settles O16: each instruction decodes to its request, once the owner and its route are those of the state before. -/
theorem memoryRequestOps : Obligations.MemoryRequestOps := by
  unfold Obligations.MemoryRequestOps
  constructor
  · intro s n a f hissue hroom hsa hclean hpe v nr tag msg goes
    have h : s.Asks n a f := ⟨hissue, hroom, hsa, hclean⟩
    have reaches {iview r8 size d} (hgoes : goes iview r8 size d) : s.Reaches n f iview r8 v size d := ⟨hissue.pe, hpe, hgoes.1, hgoes.2⟩
    refine ⟨?read, ?write, ?iread, ?iwrite, ?atom, ?iclr⟩
    case read => exact fun hdst hsb hc hdesc d hgoes => issuesMsg_read h hdst hsb hc hdesc (reaches hgoes)
    case write => exact fun hdst hsb hc hdesc d hgoes => issuesMsg_write h hdst hsb hc hdesc (reaches hgoes)
    case iread => exact fun hdst hsb hsc hdesc d hgoes => issuesMsg_iread h hdst hsb hsc hdesc (reaches hgoes)
    case iwrite => exact fun hdst hsb hsc hdesc d hgoes => issuesMsg_iwrite h hdst hsb hsc hdesc (reaches hgoes)
    case atom =>
      intro hsb hc hdesc hcas d hgoes
      have hten : f.c ≠ 10 := by omega
      have hcas' : if f.c = 1 then isSrc f.d = true ∧ a.poisoned f.d = false else f.d = 0 := by
        split at hcas
        · next hone => rwa [if_pos hone]
        · next hone => rw [if_neg hone, Fields.d, hcas]; rfl
      have hiclr : if f.c = 10 then f.b = 0 else isSrc f.b = true := by rwa [if_neg hten]
      have hto : s.Reaches n f (f.c == 10) false v 8 d := by rw [beq_false_of_ne hten]; exact reaches hgoes
      exact issuesMsg_atom h (by omega) hdesc hcas' hiclr hto (by rw [beq_false_of_ne hten]; rfl) (by simp [hten])
    case iclr =>
      intro hdst hsb hc hdesc d hgoes
      have hd : f.d = 0 := by rw [Fields.d, hdst]; rfl
      have hb : f.b = 0 := by rw [Fields.b, hsb]; rfl
      have hto : s.Reaches n f (f.c == 10) false v 8 d := by rw [hc]; exact reaches hgoes
      exact issuesMsg_atom h (by omega) hdesc (by simp [hc, hd]) (by simp [hc, hb]) hto (by rw [hc]; rfl) (by simp [hc, mkWide])
  · intro s n a f h hsa hclean hdst hsb hsc hdesc hrange
    have faults {fc} := faultsWith_read (fc := fc) h hsa hclean hdst hsb hsc hdesc hrange
    exact ⟨fun hclass => faults (by rw [State.target, if_pos hrange, hclass]) (by decide),
      fun hclass => faults (by rw [State.target, if_pos hrange, hclass]) (by decide)⟩

end Sys2Proof.Machine
end

/-! # The outbound queue (R186)

A pressure check can release tokens at the gates, and what a gate makes of a token goes to an inbox or leaves by a network interface: no outbound
queue of a PE changes. -/
section
namespace Sys2Proof.Machine

section
variable {s : State} {n m e : Nat} {q : List Msg}

/-- A fault that no PE raised leaves by the unit's own interface. -/
theorem deliverTo_unit_pe (s : State) (k e : Nat) (ftag : Word) (unit : Bool) (fc : FaultCode) (off detail : Nat) (handles : Option Nat) (m : Nat) :
    (s.deliverTo k e none ftag unit fc off detail handles).pe m = s.pe m := by
  unfold State.deliverTo
  cases handles with
  | some old => rw [startKill_pe, log_pe]
  | none =>
    simp only
    split
    · rfl
    · rw [startKill_pe, log_pe]

theorem orphanFree_pe (s : State) (e : Nat) (t : Token) (m : Nat) : (s.orphanFree e t).pe m = s.pe m := by
  unfold State.orphanFree
  simp only
  split <;> rfl

theorem quiet_bumpCm (s : State) (e i : Nat) : Quiet s (s.bumpCm e i) := by
  unfold State.bumpCm
  split
  · exact quiet_bump ..
  · exact .refl s

theorem admitToken_outQ (s : State) (t : Token) (m : Nat) : ((s.admitToken t).pe m).outQ = (s.pe m).outQ := by
  unfold State.admitToken
  split
  · rw [State.updPe, State.pe_setPe]
    split
    · next hpair => rw [State.pe, State.pe, hpair]
    · rfl
  · rw [(quiet_bump ..).pe]

theorem gateDrop_outQ (s : State) (e : Nat) (t : Token) (d : GateDec) (m : Nat) : ((s.gateDrop e t d).pe m).outQ = (s.pe m).outQ := by
  cases d with
  | free => rw [State.gateDrop, orphanFree_pe, (quiet_logFree ..).pe, (quiet_bumpCm ..).pe]
  | dead => rw [State.gateDrop, orphanFree_pe, (quiet_bumpCm ..).pe]
  | stale b => rw [State.gateDrop, State.deliver, deliverTo_unit_pe, (quiet_bumpCm ..).pe]
  | accept => exact admitToken_outQ s t m
  | hold => rfl
  | ask => rfl

theorem gateRelease_outQ {k : Nat} (h : (s.pe m).outQ = q) : ((s.gateRelease e k).pe m).outQ = q :=
  keep_foldl (P := fun u => (u.pe m).outQ = q) (fun u x hu => (gateDrop_outQ u e x.tok _ m).trans hu) h

theorem releaseAll_outQ (h : (s.pe m).outQ = q) : (s.releaseAll.pe m).outQ = q :=
  keep_foldl (P := fun u => (u.pe m).outQ = q)
    (fun _ _ hu => keep_foldl (P := fun u => (u.pe m).outQ = q) (fun _ _ hv => gateRelease_outQ hv) hu) h

theorem pressureCheck_outQ (s : State) (m : Nat) : (s.pressureCheck.pe m).outQ = (s.pe m).outQ := by
  have hset : ∀ v ev sev, (((s.setRfld aPressStatus 0 0 v).logFree 66 ev sev).pe m).outQ = (s.pe m).outQ := fun v ev sev => by
    rw [(quiet_logFree ..).pe, (quiet_setRfld ..).pe]
  unfold State.pressureCheck
  simp only
  split
  · split
    · exact releaseAll_outQ (hset ..)
    · rfl
  · split
    · exact hset ..
    · rfl

end

/-- Settles O18: the 32 oldest messages go to the backlog, and the pressure check that follows moves no message. -/
theorem outboundBacklog : Obligations.OutboundBacklog := by
  unfold Obligations.OutboundBacklog
  intro s n m hfull
  let u := s.setPe n { s.pe n with outQ := (s.pe n).outQ.drop 32 ++ [m], outBack := (s.pe n).outBack ++ (s.pe n).outQ.take 32 }
  have hpush : s.pushOut n m = (u.bumpNi (peEndpoint n) nsOUTBACKLOG 32).pressureCheck := by
    rw [State.pushOut, if_neg (by omega)]
  have hpe : (u.bumpNi (peEndpoint n) nsOUTBACKLOG 32).pe n = u.pe n := (quiet_bumpNi ..).pe n
  have hmoves := (gateMoves_pressureCheck (u.bumpNi (peEndpoint n) nsOUTBACKLOG 32)).pe n
  have hu : u.pe n = { s.pe n with outQ := (s.pe n).outQ.drop 32 ++ [m], outBack := (s.pe n).outBack ++ (s.pe n).outQ.take 32 } := by simp [u]
  constructor
  · rw [hpush, pressureCheck_outQ, hpe, hu]
  · rw [hpush, hmoves, hpe, hu]

end Sys2Proof.Machine
end

/-! # The extensions of the K-PEs (R129, R189, R190, R194, R250 to R252) -/
section
namespace Sys2Proof.Machine

section
variable {s : State} {n : Nat} {a : Act} {f : Fields} {c : Instr} {o : Op} {sem : State → Nat → Act → Fields → Issued} {e : Effect} {code : Nat}

/-- An instruction that leaves the waiting commands alone runs to what issue makes of it. -/
theorem runOp_eq_next {u : State} (hn : n < 276) (hissue : s.issue n o f sem = u) (hpending : u.pending = s.pending) :
    runOp n o f sem s = .next u := by
  rw [runOp, onPe, onUnit, if_pos hn, onModule, hissue, ← hpending]

/-! ## Effects without a distance

KZERO and SAFEW take effect in the slot they issue in, and in an AW block 4 slots later (R133). -/

/-- Instruction c of PE n, with code `code`, decodes to the effect e in the slot that activation a issues it in. -/
def DecodesTo (c : Instr) (s : State) (n : Nat) (a : Act) (f : Fields) (code : Nat) (e : Effect) : Prop :=
  ∃ o sem, o.code = code ∧ exec c s = runOp n o f sem s ∧ o.kinds.contains (peKind n) = true ∧ o.uses.ok f = true ∧ o.usesMul = false ∧
    ∀ t, s.AtIssue n a t → sem t n { a with slot := a.slot + 1 } f = .ok [⟨0, e⟩] .next true none 0

/-- In an AW block such an effect is in flight. -/
theorem issuesAct_late (h : s.CanIssue n a) (haw : a.aw = true) (hsend : e.isSend = false) (hdec : DecodesTo c s n a f code e) :
    IssuesAct c s n (some (a.issued (packWord code f) [⟨0, e⟩] true)) := by
  obtain ⟨o, sem, rfl, hexec, hkind, huses, hmul, hsem⟩ := hdec
  obtain ⟨t, honly, hpe, hissue⟩ := issue_ready h o f sem [⟨0, e⟩] .next true none 0 hkind huses hsem (.inl (by simp [hsend]))
  have hact : t.act n = some (a.loaded o f [⟨0, e⟩] true 0) := by simp [State.act, hpe]
  have hlater : ∀ g ∈ (a.loaded o f [⟨0, e⟩] true 0).flights, (a.loaded o f [⟨0, e⟩] true 0).slot < g.land := by
    simp [Act.loaded, Act.inFlight, haw]
  rw [landFlow_next t n _ _ _ hact hlater h.delay h.rep h.off] at hissue
  have hpending : t.pending = s.pending := by rw [honly.rest]
  refine ⟨_, hexec.trans (runOp_eq_next h.pe hissue hpending), honly.trans (OnlyPe_updPe n _ _), ?_⟩
  rw [State.setAct, updPe_pe, hpe, loaded_issued a o f [⟨0, e⟩] true 0 hmul (by simp)]

/-- In any other block it lands at once, on a state that differs from s in PE n and its statistics alone. -/
theorem lands_now {land : State → State} (h : s.CanIssue n a) (haw : a.aw = false) (hsend : e.isSend = false) (hdec : DecodesTo c s n a f code e)
    (hland : ∀ u x g, State.OnlyPe n s u → g.eff = e → u.applyEff n x g = land u)
    (hrest : ∀ u, (land u).pe n = u.pe n ∧ (land u).pending = u.pending) :
    ∃ u, State.OnlyPe n s u ∧ exec c s = .next ((land u).setAct n (some (a.issued (packWord code f) [] true))) := by
  obtain ⟨o, sem, rfl, hexec, hkind, huses, hmul, hsem⟩ := hdec
  obtain ⟨t, honly, hpe, hissue⟩ := issue_ready h o f sem [⟨0, e⟩] .next true none 0 hkind huses hsem (.inl (by simp [hsend]))
  let g : Flight := ⟨a.slot + 1, a.slot + 1, a.off, packWord o.code f, false, e⟩
  let x : Act := { a.loaded o f [] true 0 with flights := [] }
  have hact : t.act n = some (a.loaded o f [⟨0, e⟩] true 0) := by simp [State.act, hpe]
  have hflights : (a.loaded o f [⟨0, e⟩] true 0).flights = [g] := by simp [Act.loaded, Act.inFlight, haw, g]
  have hbefore : State.OnlyPe n s (t.setAct n (some x)) := honly.trans (OnlyPe_updPe n _ _)
  have hlanded : t.landTo n (a.slot + 1) = land (t.setAct n (some x)) := by
    rw [← hland (t.setAct n (some x)) x g hbefore rfl]
    unfold State.landTo
    rw [hact]
    simp only [hflights, List.length_singleton, State.landFuel, hact, firstFlight]
    rw [if_pos (by exact Nat.le_refl _)]
    simp only [List.erase_cons_head]
    rfl
  obtain ⟨hsamePe, hsamePending⟩ := hrest (t.setAct n (some x))
  have hactx : (land (t.setAct n (some x))).act n = some x := by
    rw [State.act, hsamePe]
    simp [State.setAct, updPe_pe]
  have hfinal : s.issue n o f sem = (land (t.setAct n (some x))).setAct n (some { x with off := a.off + 1 }) := by
    rw [hissue]
    unfold State.landFlow
    rw [show (a.loaded o f [⟨0, e⟩] true 0).slot = a.slot + 1 from rfl, hlanded, hactx]
    have hsame : (land (t.setAct n (some x))).sameAct n (a.loaded o f [⟨0, e⟩] true 0) = true := by
      rw [State.sameAct, hactx]
      simp [x, Act.loaded]
    simp only [hsame, if_true, State.flowOn]
    rw [Act.advance_plain x a.off h.delay h.rep]
    exact checkEnd_short _ n _ _ { x with off := a.off + 1 } (by simp [State.act, State.setAct, updPe_pe]) h.off
  have hissued : ({ x with off := a.off + 1 } : Act) = a.issued (packWord o.code f) [] true := by
    rw [← loaded_issued a o f [] true 0 hmul (by simp)]
    simp [x, Act.loaded, Act.inFlight]
  have hpending : (land (t.setAct n (some x))).pending = s.pending := by
    rw [hsamePending, hbefore.rest]
  exact ⟨_, hbefore, hexec.trans (runOp_eq_next h.pe (hissued ▸ hfinal) hpending)⟩

end

/-! ## KZERO -/

/-- What KZERO makes of k words from address addr: they read zero, and what is kept of their check states is good. -/
def State.zeroWords (s : State) (addr k : Nat) : State :=
  (List.range k).foldl (fun s i => (s.store (addr + 8 * i) 8 0).setEcc (addr + 8 * i) .ok) s

section
variable {s : State} {addr : Nat}

theorem zeroWords_succ (s : State) (addr k : Nat) :
    s.zeroWords addr (k + 1) = ((s.zeroWords addr k).store (addr + 8 * k) 8 0).setEcc (addr + 8 * k) .ok := by
  rw [State.zeroWords, List.range_succ, List.foldl_append]
  rfl

theorem zeroWords_rest (n k : Nat) : (s.zeroWords addr k).pe n = s.pe n ∧ (s.zeroWords addr k).pending = s.pending := by
  induction k with
  | zero => exact ⟨rfl, rfl⟩
  | succ k ih => rw [zeroWords_succ]; exact ih

theorem store_zero_byte {a b : Nat} (hlow : a ≤ b) (hhigh : b < a + 8) : (s.store a 8 0).byte b = 0 := by
  obtain ⟨i, rfl⟩ := Nat.exists_eq_add_of_le hlow
  have hi : i < 8 := by omega
  have hbytes : ∀ i (h : i < (leBytes 8 0).length), (leBytes 8 0)[i] = 0 := by decide
  exact (memWrite_same s.mem a i (leBytes 8 0) hi).trans (hbytes i hi)

theorem zeroWords_byte (s : State) (addr k b : Nat) :
    (s.zeroWords addr k).byte b = if addr ≤ b ∧ b < addr + 8 * k then 0 else s.byte b := by
  induction k with
  | zero => rw [if_neg (by omega)]; rfl
  | succ k ih =>
    rw [zeroWords_succ, State.byte_setEcc_of]
    by_cases hword : addr + 8 * k ≤ b ∧ b < addr + 8 * k + 8
    · rw [store_zero_byte hword.1 hword.2, if_pos (by omega)]
    · have hrange : (addr ≤ b ∧ b < addr + 8 * k) ↔ (addr ≤ b ∧ b < addr + 8 * (k + 1)) := by omega
      rw [store_byte_other _ _ _ _ _ (by omega), ih]
      simp only [hrange]

end

/-! ## SAFEW (R250) -/

section
variable (p : Nat → Prop) [DecidablePred p]

theorem foldl_bits_succ (k : Nat) : (List.range (k + 1)).foldl (fun r i => r + (if p i then 2 ^ i else 0)) 0 =
    (List.range k).foldl (fun r i => r + (if p i then 2 ^ i else 0)) 0 + (if p k then 2 ^ k else 0) := by
  rw [List.range_succ, List.foldl_append]
  rfl

theorem foldl_bits_lt (k : Nat) : (List.range k).foldl (fun r i => r + (if p i then 2 ^ i else 0)) 0 < 2 ^ k := by
  induction k with
  | zero => simp
  | succ k ih => rw [foldl_bits_succ, pow_succ]; split <;> omega

/-- A number that is the sum of its bits has just these. -/
theorem testBit_foldl_bits {k i : Nat} (hi : i < k) :
    ((List.range k).foldl (fun r i => r + (if p i then 2 ^ i else 0)) 0).testBit i = decide (p i) := by
  induction k with
  | zero => exact absurd hi (Nat.not_lt_zero i)
  | succ k ih =>
    have hlt := foldl_bits_lt p k
    have hsum : ∀ v, v + (if p k then 2 ^ k else 0) = 2 ^ k * (if p k then 1 else 0) + v := fun v => by split <;> omega
    rw [foldl_bits_succ, hsum, Nat.testBit_two_pow_mul_add _ hlt]
    by_cases hk : i < k
    · rw [if_pos hk, ih hk]
    · obtain rfl : i = k := by omega
      rw [if_neg hk, Nat.sub_self]
      by_cases hp : p i <;> simp [hp]

end

section
variable {s u : State} {n p imm : Nat}

theorem isPeStat_safe : ∀ n < 276, isPeStat n aSafeCfg = false ∧ isPeStat n aSafeOut = false := by decide +kernel

theorem State.OnlyPe.safeUnowned (h : State.OnlyPe n s u) (hn : n < 276) : u.safeUnowned p imm = s.safeUnowned p imm := by
  simp only [State.safeUnowned, State.owns, h.reg _ (isPeStat_safe n hn).1]

theorem State.OnlyPe.safeReq (h : State.OnlyPe n s u) (hn : n < 276) : u.safeReq p = s.safeReq p := by
  rw [State.safeReq, State.safeReq, State.rfld, State.rfld, h.reg _ (isPeStat_safe n hn).2]

/-- Driving the lands changes no request. -/
theorem driveLands_safeReq (hp : p < 2) : s.driveLands.safeReq p = s.safeReq p := by
  unfold State.driveLands
  split
  · rfl
  · exact rfld_setRfld_other (by decide) (.inl (by omega))

theorem setSafeReq_safeReq (hp : p < 2) (v : Nat) : (s.setSafeReq p v).safeReq p = v % 256 := by
  have hwidth : 8 * p + 7 + 1 - 8 * p = 8 := by omega
  rw [State.setSafeReq, driveLands_safeReq hp, State.safeReq, rfld_setRfld_same (by omega) (by omega), hwidth]
  rfl

/-- Each request whose mask bit is 1 becomes its bit of IMM[7:0], and the others stay. -/
theorem safeWrite_safeReq (hp : p < 2) {k : Nat} (hk : k < 8) : ((s.safeWrite p imm).safeReq p).testBit k =
    if (imm / 256).testBit k then imm.testBit k else (s.safeReq p).testBit k := by
  have hmod : ∀ x : Nat, (x % 256).testBit k = x.testBit k := fun x => by
    rw [show 256 = 2 ^ 8 from rfl, Nat.testBit_mod_two_pow, decide_eq_true hk, Bool.true_and]
  rw [State.safeWrite, setSafeReq_safeReq hp, hmod, testBit_foldl_bits _ hk, hmod, hmod, Bool.decide_eq_true]

theorem quiet_setSafeReq (s : State) (p v : Nat) : Quiet s (s.setSafeReq p v) :=
  (quiet_setRfld ..).trans (keep_ite (.refl _) (quiet_setRfld ..))

/-- SAFEW changes neither a PE nor what waits to be run. -/
theorem safeWrite_rest (s : State) (p imm m : Nat) : (s.safeWrite p imm).pe m = s.pe m ∧ (s.safeWrite p imm).pending = s.pending := by
  have hquiet : Quiet (s.updPair p fun x => { x with wdogOut := false, wrote := true }) (s.safeWrite p imm) := quiet_setSafeReq ..
  exact ⟨hquiet.pe m, by rw [hquiet.rest]; rfl⟩

end

/-! ## The instructions -/

section
variable {s : State} {n : Nat} {a : Act} {f : Fields} {c : Instr} {code : Nat}

theorem keeperKinds (hn : 272 ≤ n) : ([.k] : List PeKind).contains (peKind n) = true := by
  rw [peKind, if_neg (by omega), if_neg (by omega)]
  rfl

theorem pairOf_lt (hn : n < 276) : pairOf n < 2 := by
  unfold pairOf pairPe
  split_ifs <;> omega

/-- A bit-serial divide lands 66 slots later and takes the divider until then (R129, R194). -/
theorem issuesAct_divk {op : Word → Word → Flagged} {v : Word} (h : s.CanIssue n a) (hn : 272 ≤ n) (hdst : isDst f.d) (hsa : isSrc f.a)
    (hsb : isSrc f.b) (hsc : f.sc = 0) (himm : f.imm = 0) (hfree : a.divUntil ≤ a.slot + 1)
    (hexec : exec c s = runOp n (opKpe code) f (semDivk code op) s)
    (hop : (op (a.src f.a) (a.src f.b)).val = v) :
    IssuesAct c s n (some { a.issued (packWord code f) [⟨66, .reg f.d (v.setWidth 80) (a.poisoned f.a || a.poisoned f.b)⟩] false with
      divUntil := a.slot + 67 }) := by
  have hsem : ∀ t, s.AtIssue n a t → semDivk code op t n { a with slot := a.slot + 1 } f =
      .ok [⟨66, .reg f.d (v.setWidth 80) (a.poisoned f.a || a.poisoned f.b)⟩] .next false none 0 := fun _ _ => by
    simp only [semDivk, hdst, hsa, hsb, Bool.and_self, Bool.not_true, Bool.false_eq_true, if_false, if_neg (Nat.not_lt.mpr hfree), Act.src_withSlot,
      Act.poisoned_withSlot, hop]
  obtain ⟨t, hrun, honly, hpe⟩ := runOp_next h (opKpe code) f _ _ false none 0 (keeperKinds hn) (by simp [opKpe, usesDAB, Uses.ok, hsc, himm])
    (by simp) hsem
  exact ⟨t, hexec.trans hrun, honly, hpe.trans (by simp [Act.loaded, Act.issued, opKpe])⟩

/-- The quotient of the least value and -1 wraps to the least value, as the edge of R193 has it. -/
theorem divSigned_val (x y : Word) : (divSigned x y).val =
    if y = 0 then (if x.toInt < 0 then 0x8000000000000000 else 0x7FFFFFFFFFFFFFFF) else BitVec.ofInt 64 (x.toInt.tdiv y.toInt) := by
  unfold divSigned
  by_cases hzero : y = 0
  · rw [if_pos hzero, if_pos hzero]
  · rw [if_neg hzero, if_neg hzero]
    split
    · next hedge => rw [hedge.1, hedge.2]; decide
    · rfl

/-- Whole words below the end of a K-PE's local store can be zeroed (R190). -/
theorem kzero_decodes (hn : 272 ≤ n) (hsa : isSrc f.a) (hclean : a.poisoned f.a = false) (hdst : f.dst = 0) (hsb : f.sb = 0) (hsc : f.sc = 0)
    (haligned : (a.src f.a).toNat % 8 = 0) (hwhole : f.i % 8 = 0) (hsome : 8 ≤ f.i) (hend : (a.src f.a).toNat + f.i ≤ 32768) :
    DecodesTo (.kzero n f) s n a f 0xF4 (.zero (lsBase (pairPe n) + (a.src f.a).toNat) f.i) := by
  refine ⟨⟨0xF4, ⟨false, true, false, false, true⟩, fun f => [f.a], false, [.k]⟩, _, rfl, rfl, keeperKinds hn,
    by simp [Uses.ok, hdst, hsb, hsc], rfl, fun t _ => ?_⟩
  have hbytes : lsBytes n = 32768 := by
    rw [lsBytes, if_neg]
    rw [peKind_eq_a]
    omega
  dsimp only [Act.src_withSlot, Act.poisoned_withSlot]
  simp only [hsa, hclean, hbytes, decide_eq_false (Nat.not_lt.mpr hend), Bool.not_true, Bool.false_eq_true, if_false]
  refine if_neg ?_
  simp only [Bool.or_eq_true, decide_eq_true_eq]
  omega

theorem kzero_now (h : s.CanIssue n a) (haw : a.aw = false) {addr : Nat} (hwhole : f.i % 8 = 0)
    (hdec : DecodesTo (.kzero n f) s n a f 0xF4 (.zero addr f.i)) :
    ∃ t, exec (.kzero n f) s = .next t ∧ t.act n = some (a.issued (packWord 0xF4 f) [] true) ∧
      (∀ b, addr ≤ b → b < addr + f.i → t.byte b = 0) ∧ ∀ b, b < addr ∨ addr + f.i ≤ b → t.byte b = s.byte b := by
  obtain ⟨u, honly, hexec⟩ := lands_now (land := fun u => u.zeroWords addr (f.i / 8)) h haw rfl hdec
    (fun u x g _ hg => by rw [State.applyEff, hg]; rfl) fun u => zeroWords_rest n _
  have hsize : 8 * (f.i / 8) = f.i := by omega
  have hbyte : ∀ b, ((u.zeroWords addr (f.i / 8)).setAct n (some (a.issued (packWord 0xF4 f) [] true))).byte b =
      if addr ≤ b ∧ b < addr + f.i then 0 else s.byte b := fun b => by
    have hmem : u.byte b = s.byte b := by rw [honly.rest]; rfl
    have hzero := zeroWords_byte u addr (f.i / 8) b
    rwa [hsize, hmem] at hzero
  refine ⟨_, hexec, by simp [State.act, State.setAct, updPe_pe], fun b hlow hhigh => ?_, fun b hout => ?_⟩
  · rw [hbyte, if_pos ⟨hlow, hhigh⟩]
  · rw [hbyte, if_neg (by omega)]

theorem safew_decodes (h : s.CanIssue n a) (hn : 272 ≤ n) (hdst : f.dst = 0) (hsa : f.sa = 0) (hsb : f.sb = 0) (hsc : f.sc = 0) (himm : f.i < 65536)
    (howned : s.safeUnowned (pairOf n) f.i = false) : DecodesTo (.safew n f) s n a f 0xF5 (.safew f.i) := by
  refine ⟨⟨0xF5, ⟨false, false, false, false, true⟩, fun _ => [], false, [.k]⟩, _, rfl, rfl, keeperKinds hn,
    by simp [Uses.ok, hdst, hsa, hsb, hsc], rfl, fun t ht => ?_⟩
  have howned' : t.safeUnowned (pairOf n) f.i = false := by rw [ht.only.safeUnowned h.pe, howned]
  simp only [howned', Nat.reducePow, decide_eq_false (Nat.not_le.mpr himm), Bool.and_false, Bool.false_eq_true, if_false]

theorem safew_now (h : s.CanIssue n a) (haw : a.aw = false) (howned : s.safeUnowned (pairOf n) f.i = false)
    (hdec : DecodesTo (.safew n f) s n a f 0xF5 (.safew f.i)) :
    ∃ t, exec (.safew n f) s = .next t ∧ t.act n = some (a.issued (packWord 0xF5 f) [] true) ∧
      ∀ k, k < 8 → (t.safeReq (pairOf n)).testBit k = if (f.i / 256).testBit k then f.i.testBit k else (s.safeReq (pairOf n)).testBit k := by
  obtain ⟨u, honly, hexec⟩ := lands_now (land := fun u => u.safeWrite (pairOf n) f.i) h haw rfl hdec
    (fun u x g hu hg => by rw [State.applyEff, hg]; simp only [hu.safeUnowned h.pe, howned, Bool.false_eq_true, if_false])
    fun u => safeWrite_rest u _ _ n
  refine ⟨_, hexec, by simp [State.act, State.setAct, updPe_pe], fun k hk => ?_⟩
  rw [← honly.safeReq h.pe]
  exact safeWrite_safeReq (pairOf_lt h.pe) hk

end

/-- Settles O19: the divides are one effect at distance 66; KZERO and SAFEW one effect without a distance, in flight in an AW block and landed in
any other. -/
theorem keeperExtensions : Obligations.KeeperExtensions := by
  unfold Obligations.KeeperExtensions
  intro s n a f h hn x y v div
  refine ⟨fun hdst hsa hsb hsc himm hfree => ?divides, fun hsa hclean hdst hsb hsc haligned hwhole hsome hend => ?kzero,
    fun hdst hsa hsb hsc himm howned => ?safew⟩
  case divides =>
    have issues {c code op v} := issuesAct_divk (c := c) (code := code) (op := op) (v := v) h hn hdst hsa hsb hsc himm hfree
    exact ⟨issues rfl (divSigned_val ..), issues rfl (apply_ite Flagged.val ..), issues rfl (apply_ite Flagged.val ..),
      issues rfl (apply_ite Flagged.val ..)⟩
  case kzero =>
    have hdec := kzero_decodes (s := s) hn hsa hclean hdst hsb hsc haligned hwhole hsome hend
    split
    · next haw => exact issuesAct_late h haw rfl hdec
    · next haw => exact kzero_now h (Bool.eq_false_of_not_eq_true haw) hwhole hdec
  case safew =>
    have hdec := safew_decodes h hn hdst hsa hsb hsc himm howned
    split
    · next haw => exact issuesAct_late h haw rfl hdec
    · next haw => exact safew_now h (Bool.eq_false_of_not_eq_true haw) howned hdec

end Sys2Proof.Machine
end

/-! # Keeper pairs (R245 to R249, R251, R255)

What a pair halts to is stated once of the state before the halt is told (`stopPair`): telling it, by an event or by FAULT_N, changes neither a
register nor the pair (`PairHalted.told`). -/
section
namespace Sys2Proof.Machine

/-! ## The safe-state lands (R249) -/
section
variable {s : State} {p k r : Nat}

theorem keeperRegs_apart : ∀ p < 2, aSafeCfg ≠ aPairStatus p ∧ aPairStatus p ≠ aSafeOut ∧ aPairStatus p ≠ aMcEvt ∧ aPairCtl p < 2 ^ 48 := by
  decide

/-- Driving the lands changes SAFE_OUT alone among the registers. -/
theorem driveLands_reg (hr : r ≠ aSafeOut) : s.driveLands.reg r = s.reg r := by
  unfold State.driveLands
  split
  · rfl
  · exact setRfld_reg_other hr

theorem quiet_driveLands (s : State) : Quiet s s.driveLands := keep_ite (.refl _) (quiet_setRfld ..)

/-- Each land shows its level, unless EXTEST drives the lands. -/
theorem driveLands_land (htap : s.mc.tap ≠ 3) (hk : k < 8) : bitAt (s.driveLands.reg aSafeOut) (16 + k) = s.landLevel k := by
  rw [State.driveLands, if_neg htap, State.setRfld, State.reg_setReg, if_pos rfl, bitAt_setFld _ _ _ (by decide) (by decide), if_pos (by omega),
    Nat.add_sub_cancel_left, testBit_foldl_bits _ hk, Bool.decide_eq_true]

/-- The lands of a pair that does not run stand at their safe levels. -/
theorem landLevel_safe (hp : p < 2) (howns : s.owns p k = true) (hstopped : s.pairState p ≠ 1) : s.landLevel k = bitAt (s.reg aSafeCfg) k := by
  have hrun : (s.rfld (aPairStatus p) 63 62 == 1) = false := beq_false_of_ne hstopped
  unfold State.landLevel
  obtain rfl | rfl : p = 0 ∨ p = 1 := by omega
  · simp [howns, hrun]
  · simp [howns, hrun]

/-! ## The state of a pair -/

theorem setPairState_rfld (hp : p < 2) {v hi lo : Nat} :
    (s.setPairState p v).rfld (aPairStatus p) hi lo = (s.setRfld (aPairStatus p) 63 62 v).rfld (aPairStatus p) hi lo := by
  obtain ⟨-, hout, -⟩ := keeperRegs_apart p hp
  rw [State.setPairState, State.rfld, driveLands_reg hout, ← State.rfld]

/-- The state of a pair stands apart from the cause and the point of its halt. -/
theorem setPairState_rfld_low (hp : p < 2) {v hi lo : Nat} (hhi : hi < 62) :
    (s.setPairState p v).rfld (aPairStatus p) hi lo = s.rfld (aPairStatus p) hi lo :=
  (setPairState_rfld hp).trans (rfld_setRfld_other (by decide) (.inl hhi))

theorem Quiet.pairSt {t : State} (h : Quiet s t) (p : Nat) : t.pairSt p = s.pairSt p := by rw [h.rest]; rfl

theorem updPair_pairSt (s : State) (p : Nat) (f : KPair → KPair) : (s.updPair p f).pairSt p = f (s.pairSt p) := Tbl.get_set_same ..
theorem updPair_pairState (s : State) (p : Nat) (f : KPair → KPair) : (s.updPair p f).pairState p = s.pairState p := rfl
theorem updPair_byte (s : State) (p : Nat) (f : KPair → KPair) (a : Nat) : (s.updPair p f).byte a = s.byte a := rfl

theorem quiet_setPairState (s : State) (p v : Nat) : Quiet s (s.setPairState p v) := (quiet_setRfld ..).trans (quiet_driveLands _)

theorem setPairState_pairState (hp : p < 2) {v : Nat} (hv : v < 4) : (s.setPairState p v).pairState p = v := by
  rw [State.pairState, setPairState_rfld hp, rfld_setRfld_same (by decide) (by decide)]
  exact Nat.mod_eq_of_lt hv

/-- A pair that leaves RUNNING takes its lands to their safe levels. -/
theorem setPairState_lands (hp : p < 2) {v : Nat} (hv : v < 4) (hstop : v ≠ 1) (htap : s.mc.tap ≠ 3) (hk : k < 8) (howns : s.owns p k = true) :
    bitAt ((s.setPairState p v).reg aSafeOut) (16 + k) = bitAt (s.reg aSafeCfg) k := by
  let w := s.setRfld (aPairStatus p) 63 62 v
  have hcfg : w.reg aSafeCfg = s.reg aSafeCfg := setRfld_reg_other (keeperRegs_apart p hp).1
  have hstate : w.pairState p = v := (rfld_setRfld_same (by decide) (by decide)).trans (Nat.mod_eq_of_lt hv)
  calc bitAt (w.driveLands.reg aSafeOut) (16 + k) = w.landLevel k := driveLands_land htap hk
    _ = bitAt (w.reg aSafeCfg) k := landLevel_safe hp (by rw [State.owns, hcfg]; exact howns) (by omega)
    _ = bitAt (s.reg aSafeCfg) k := by rw [hcfg]

/-- What a pair requests does not move its state. -/
theorem setSafeReq_pairState (hp : p < 2) (v : Nat) : (s.setSafeReq p v).pairState p = s.pairState p := by
  obtain ⟨-, hout, -⟩ := keeperRegs_apart p hp
  rw [State.pairState, State.rfld, State.setSafeReq, driveLands_reg hout, setRfld_reg_other hout]
  rfl

end

/-! ## A halt (R246, R247) -/
section
variable {s t u : State} {p cause point : Nat}

/-- The status of a pair that halts: the cause, the comparison point, and a mismatch counted. -/
def State.haltStatus (s : State) (p cause point : Nat) : State :=
  let a := aPairStatus p
  let s := (s.setRfld a 61 58 cause).setRfld a 57 54 point
  if cause = 1 then s.setRfld a 15 0 (satInc 16 (s.rfld a 15 0)) else s

/-- A pair is halted, before that is told. -/
def State.stopPair (s : State) (p cause point : Nat) : State :=
  (((s.haltStatus p cause point).updPe (pairNo p) fun x => { x with act := none }).setPairState p 2).updPair p fun x => { x with zero := true }

theorem haltPair_eq : s.haltPair p cause point =
    if cause = 1 then (s.stopPair p cause point).log 69 .keeperMismatch .fatalModule (BitVec.ofNat 64 (p + 256 * point))
    else ((s.stopPair p cause point).logFree 69 .keeperHalted .deferred).setMc fun m => { m with faultN := true } := rfl

/-- What a halt of pair p makes of s. -/
structure PairHalted (s u : State) (p cause point : Nat) : Prop where
  state : u.pairState p = 2
  act : (u.pe (pairNo p)).act = none
  cause : u.rfld (aPairStatus p) 61 58 = cause
  point : u.rfld (aPairStatus p) 57 54 = point
  zero : (u.pairSt p).zero = true
  lands : s.mc.tap ≠ 3 → ∀ k, k < 8 → s.owns p k = true → bitAt (u.reg aSafeOut) (16 + k) = bitAt (s.reg aSafeCfg) k

theorem PairHalted.told (h : PairHalted s t p cause point) (hquiet : Quiet t u) (hreg : ∀ r, u.reg r = t.reg r) : PairHalted s u p cause point := by
  have hrfld : ∀ a hi lo, u.rfld a hi lo = t.rfld a hi lo := fun a hi lo => by rw [State.rfld, hreg, ← State.rfld]
  obtain ⟨hstate, hact, hcause, hpoint, hzero, hlands⟩ := h
  exact ⟨(hrfld ..).trans hstate, by rw [hquiet.pe, hact], (hrfld ..).trans hcause, (hrfld ..).trans hpoint, by rw [hquiet.pairSt, hzero],
    fun htap k hk howns => by rw [hreg, hlands htap k hk howns]⟩

theorem haltStatus_reg {r : Nat} (hr : r ≠ aPairStatus p) : (s.haltStatus p cause point).reg r = s.reg r := by
  simp only [State.haltStatus]
  split <;> simp only [setRfld_reg_other hr]

theorem haltStatus_fields : (s.haltStatus p cause point).rfld (aPairStatus p) 61 58 = cause % 16 ∧
    (s.haltStatus p cause point).rfld (aPairStatus p) 57 54 = point % 16 := by
  have hcause : ((s.setRfld (aPairStatus p) 61 58 cause).setRfld (aPairStatus p) 57 54 point).rfld (aPairStatus p) 61 58 = cause % 16 :=
    (rfld_setRfld_other (by decide) (by decide)).trans (rfld_setRfld_same (by decide) (by decide))
  have hpoint : ((s.setRfld (aPairStatus p) 61 58 cause).setRfld (aPairStatus p) 57 54 point).rfld (aPairStatus p) 57 54 = point % 16 :=
    rfld_setRfld_same (by decide) (by decide)
  simp only [State.haltStatus]
  split
  · exact ⟨(rfld_setRfld_other (by decide) (by decide)).trans hcause, (rfld_setRfld_other (by decide) (by decide)).trans hpoint⟩
  · exact ⟨hcause, hpoint⟩

theorem haltStatus_mc : (s.haltStatus p cause point).mc = s.mc := by
  simp only [State.haltStatus]
  split <;> simp only [State.setRfld, State.setReg_mc]

theorem stopPair_halted (hp : p < 2) (hcause : cause < 16) (hpoint : point < 16) : PairHalted s (s.stopPair p cause point) p cause point := by
  have hcfg := haltStatus_reg (s := s) (cause := cause) (point := point) (keeperRegs_apart p hp).1
  have hmc := haltStatus_mc (s := s) (p := p) (cause := cause) (point := point)
  obtain ⟨hshowCause, hshowPoint⟩ := haltStatus_fields (s := s) (p := p) (cause := cause) (point := point)
  unfold State.stopPair
  generalize s.haltStatus p cause point = t at *
  let v := t.updPe (pairNo p) fun x => { x with act := none }
  have hsafe : v.reg aSafeCfg = s.reg aSafeCfg := hcfg
  have hact : (v.setPairState p 2).act (pairNo p) = none := by
    rw [(quiet_setPairState ..).act]
    simp [v, State.act, updPe_pe]
  refine ⟨setPairState_pairState hp (by decide), hact, ?_, ?_, by rw [updPair_pairSt], fun htap k hk howns => ?_⟩
  · exact (setPairState_rfld_low hp (by decide)).trans (hshowCause.trans (Nat.mod_eq_of_lt hcause))
  · exact (setPairState_rfld_low hp (by decide)).trans (hshowPoint.trans (Nat.mod_eq_of_lt hpoint))
  · have htap' : v.mc.tap ≠ 3 := by rwa [← hmc] at htap
    have howns' : v.owns p k = true := by rw [State.owns, hsafe]; exact howns
    exact (setPairState_lands hp (by decide) (by decide) htap' hk howns').trans (by rw [hsafe])

theorem log_fatalModule_faultN (s : State) (e : Nat) (ev : Ev) (d : Word) : (s.log e ev .fatalModule d).mc.faultN = true := by
  simp [State.log]

/-- A pair halts by a mismatch (cause 1), which is logged, or by a HALT (cause 2); FAULT_N tells either. -/
theorem haltPair_halted (hp : p < 2) (hcause : cause = 1 ∨ cause = 2) (hpoint : point < 16) :
    PairHalted s (s.haltPair p cause point) p cause point ∧ (s.haltPair p cause point).mc.faultN = true ∧
      (cause = 1 → Logged (s.haltPair p cause point) 69 .keeperMismatch .fatalModule (BitVec.ofNat 64 (p + 256 * point))) := by
  have hstop := stopPair_halted (s := s) hp (show cause < 16 by omega) hpoint
  rcases hcause with rfl | rfl
  · rw [haltPair_eq, if_pos rfl]
    exact ⟨hstop.told (quiet_log ..) fun r => log_reg .., log_fatalModule_faultN .., fun _ => logged_log ..⟩
  · rw [haltPair_eq, if_neg (by decide)]
    exact ⟨hstop.told ((quiet_logFree ..).trans ⟨rfl, fun _ _ h => h⟩) fun r => logFree_reg (s.stopPair p 2 point) 69 .keeperHalted .deferred none none r, rfl, fun h => absurd h (by decide)⟩

end

/-! ## Zeroising (R247, R255) -/
section
variable {s : State}

theorem zeroLs_byte (s : State) (n lo hi a : Nat) :
    (s.zeroLs n lo hi).byte a = if lsBase n + lo ≤ a ∧ a < lsBase n + hi then 0 else s.byte a := by
  by_cases hin : lsBase n + lo ≤ a ∧ a < lsBase n + hi
  · rw [if_pos hin]
    exact Tbl.get_filter_out _ _ _ _ fun _ => by simp [hin]
  · rw [if_neg hin]
    exact Tbl.get_filter_in _ _ _ _ fun _ => by simp only [hin, decide_false, Bool.not_false]

theorem zeroSecret_pairState (s : State) (p : Nat) : (s.zeroSecret p).pairState p = s.pairState p := rfl

/-- Address a lies in the secret region of the local store of PE n, of pair p. -/
abbrev State.Secret (s : State) (p n a : Nat) : Prop :=
  lsBase n + s.secretBase p ≤ a ∧ a < lsBase n + min 32768 (s.secretBase p + s.secretSize p)

/-- The secret regions of both copies become zero, and no other byte changes. -/
theorem zeroSecret_byte (s : State) (p a : Nat) : (s.Secret p (pairNo p) a ∨ s.Secret p (pairNo p + 1) a → (s.zeroSecret p).byte a = 0) ∧
    (¬ s.Secret p (pairNo p) a → ¬ s.Secret p (pairNo p + 1) a → (s.zeroSecret p).byte a = s.byte a) := by
  let hi := min 32768 (s.secretBase p + s.secretSize p)
  have htwice : (s.zeroSecret p).byte a = if s.Secret p (pairNo p + 1) a then 0 else if s.Secret p (pairNo p) a then 0 else s.byte a :=
    (zeroLs_byte (s.zeroLs (pairNo p) (s.secretBase p) hi) (pairNo p + 1) (s.secretBase p) hi a).trans (by rw [zeroLs_byte])
  rw [htwice]
  refine ⟨fun h => ?_, fun hfirst hsecond => by rw [if_neg hsecond, if_neg hfirst]⟩
  rcases h with hfirst | hsecond
  · rw [if_pos hfirst, ite_self]
  · rw [if_pos hsecond]

end

/-! ## The commands of a pair -/
section
variable {s : State} {p : Nat}

theorem runs_haltPair {c : Instr} {f : State → State} {cause point : Nat} (hp : p < 2) (hcause : cause = 1 ∨ cause = 2) (hpoint : point < 16)
    (hexec : exec c s = onPair p s f) (hf : f s = s.haltPair p cause point) :
    Runs c s fun u => PairHalted s u p cause point ∧ u.mc.faultN = true ∧
      (cause = 1 → Logged u 69 .keeperMismatch .fatalModule (BitVec.ofNat 64 (p + 256 * point))) := by
  refine runs_unit hp hexec (fun t q ⟨hhalted, htold⟩ => ⟨?_, htold⟩) (hf ▸ haltPair_halted hp hcause hpoint)
  obtain ⟨hstate, hact, hshowCause, hshowPoint, hzero, hlands⟩ := hhalted
  exact ⟨hstate, hact, hshowCause, hshowPoint, hzero, hlands⟩

/-- A HALT of a pair that does not run is ignored, and MC_EVT names PAIR_CTL. -/
theorem kpPairHalt_rejected (hp : p < 2) (hstate : s.pairState p ≠ 1) : Runs (.kpPairHalt p) s fun u =>
    u.pairState p = s.pairState p ∧ bitAt (u.reg aMcEvt) 63 = true ∧ u.rfld aMcEvt 47 0 = aPairCtl p := by
  obtain ⟨-, -, hevt, haddr⟩ := keeperRegs_apart p hp
  refine runs_unit hp rfl (fun _ _ h => h) ?_
  rw [State.haltCmd, if_neg hstate]
  obtain ⟨hkeep, -⟩ := (OnlyReg.refl s aMcEvt).cfgReject (a := aPairCtl p)
  exact ⟨by rw [State.pairState, State.rfld, hkeep _ hevt]; rfl, rejected_cfgReject haddr⟩

/-- A restart waits while the secret region is zeroised (R248). -/
theorem kpPairRestart_waits (hp : p < 2) (hstate : s.pairState p = 2) (hzero : (s.pairSt p).zero = true) : Runs (.kpPairRestart p) s fun u =>
    u.pairState p = 2 ∧ (u.pairSt p).again = true := by
  refine runs_unit hp rfl (fun _ _ h => h) ?_
  have hwait : s.restartPair p = s.updPair p fun x => { x with again := true } := by
    rw [State.restartPair, if_neg (by omega), if_neg (by simp [State.restartBad, hstate]), if_pos hzero]
  rw [hwait]
  exact ⟨hstate, by rw [updPair_pairSt]⟩

theorem keeperZeroiseDone_runs (hp : p < 2) (hzero : (s.pairSt p).zero = true) (hagain : (s.pairSt p).again = false) :
    Runs (.keeperZeroiseDone p) s fun u => (u.pairSt p).zero = false ∧ u.pairState p = s.pairState p ∧
      ∀ a, (s.Secret p (pairNo p) a ∨ s.Secret p (pairNo p + 1) a → u.byte a = 0) ∧
        (¬ s.Secret p (pairNo p) a → ¬ s.Secret p (pairNo p + 1) a → u.byte a = s.byte a) := by
  refine runs_unit hp rfl (fun _ _ h => h) ?_
  simp only [hzero, if_true, hagain, Bool.false_eq_true, if_false]
  refine ⟨by rw [updPair_pairSt], by rw [updPair_pairState, zeroSecret_pairState], fun a => ?_⟩
  rw [updPair_byte]
  exact zeroSecret_byte s p a

/-- A watchdog that runs out asks for the safe level of each land that its pair owns (R251). -/
theorem keeperWdog_runs (hp : p < 2) (hstate : s.pairState p = 1) (hlimit : s.rfld (aPairCtl p) 63 32 ≠ 0) (hout : (s.pairSt p).wdogOut = false) :
    Runs (.keeperWdog p) s fun u => (u.pairSt p).wdogOut = true ∧ u.pairState p = 1 ∧
      ∀ k, k < 8 → (u.safeReq p).testBit k = if s.owns p k then bitAt (s.reg aSafeCfg) k else (s.safeReq p).testBit k := by
  refine runs_unit hp rfl (fun _ _ h => h) ?_
  simp only [hstate, hout, ne_eq, hlimit, not_false_eq_true, Bool.not_false, and_self, if_true]
  generalize hreq : (List.range 8).foldl _ 0 = r
  have hquiet := (quiet_setSafeReq (s.updPair p fun x => { x with wdogOut := true }) p r).trans (quiet_logFree _ 69 .keeperWdog .deferred none none)
  refine ⟨?_, ?_, fun k hk => ?_⟩
  · rw [hquiet.pairSt, updPair_pairSt]
  · rw [State.pairState, State.rfld, logFree_reg]
    exact (setSafeReq_pairState hp r).trans hstate
  · rw [State.safeReq, State.rfld, logFree_reg]
    have hset := setSafeReq_safeReq (s := s.updPair p fun x => { x with wdogOut := true }) hp r
    rw [State.safeReq, State.rfld] at hset
    rw [hset, show 256 = 2 ^ 8 from rfl, Nat.testBit_mod_two_pow, decide_eq_true hk, Bool.true_and, ← hreq, testBit_foldl_bits _ hk,
      Bool.decide_eq_true]

end

/-- Settles O30: a halt stops the pair and takes its lands to their safe levels before it is told; the rest is one lemma for each command. The DETAIL
of KEEPER_MISMATCH, pair + 256 × point, is the model's choice (log 53). -/
theorem keeperPairs : Obligations.KeeperPairs := by
  unfold Obligations.KeeperPairs
  intro s p hp st
  refine ⟨fun hrun e he => ?halts, kpPairHalt_rejected hp, kpPairRestart_waits hp, keeperZeroiseDone_runs hp, keeperWdog_runs hp⟩
  have hruns : Runs e.2.2 s fun u => PairHalted s u p e.1 e.2.1 ∧ u.mc.faultN = true ∧
      (e.1 = 1 → Logged u 69 .keeperMismatch .fatalModule (BitVec.ofNat 64 (p + 256 * e.2.1))) := by
    simp only [List.singleton_append, List.mem_cons, List.mem_map, List.mem_range] at he
    obtain rfl | ⟨k, hk, rfl⟩ := he
    · exact runs_haltPair hp (.inr rfl) (Nat.zero_lt_succ 15) rfl (if_pos hrun)
    · exact runs_haltPair hp (.inl rfl) (show k + 1 < 16 by omega) rfl (if_pos hrun)
  obtain ⟨u, hexec, hhalted, hfault, hlogged⟩ := hruns
  exact ⟨u, hexec, hhalted.state, hhalted.act, hhalted.cause, hhalted.point, hhalted.zero, hfault, hlogged, hhalted.lands⟩

end Sys2Proof.Machine
end

/-! # Commands that the controller lets in, and UPDATE (R256, R474 to R477) -/
section
namespace Sys2Proof.Machine

/-! ## A frame that is let in, and its answer

Whatever right, tag and shutdown test a frame passes, its effect runs on a state that differs from s in the CMDSEQ of the latest tagged frame
alone; this serves every class of commands. -/
section
variable {s : State} {op cls : Nat} {r : McReq} {d : List Byte} {c : Instr} {f : State → McAsk → List Byte → State} {P : State → Prop}

/-- The CMDSEQ of the latest tagged frame is n. -/
def State.withEthSeq (s : State) (n : Nat) : State := s.setMc fun m => { m with ethSeq := n }

theorem mcFrame_channel {x : Nat × List Byte × List Byte} (h : s.mcFrame op r = some x) : r.ch ≠ 0 := by
  intro hch
  simp [State.mcFrame, hch] at h

theorem mcLet_clear {q : McAsk} (hclear : s.mc.causes = [] ∧ s.rfld aPwState 61 61 = 0) : s.mcLet cls q d f = f s q d := by
  obtain ⟨hcauses, hshutdown⟩ := hclear
  simp [State.mcLet, hcauses, hshutdown]

theorem State.LetIn.mcRun_eq (h : s.LetIn op cls r d) (f : State → McAsk → List Byte → State) :
    ∃ n q, q.ch ≠ 0 ∧ s.mcRun op cls r f = f (s.withEthSeq n) q d := by
  obtain ⟨hup, ⟨seq, z, hframe, hzero, htag⟩, hlen, hright, hclear⟩ := h
  have hpass (n : Nat) (q : McAsk) : (s.withEthSeq n).mcLet cls q d f = f (s.withEthSeq n) q d := mcLet_clear hclear
  have hch := mcFrame_channel hframe
  simp only [State.mcRun, hframe, hup, Bool.not_true, Bool.false_eq_true, false_and, if_false, Nat.not_lt.mpr hlen, hzero, or_self, hright]
  by_cases hneeded : s.tagNeeded r.ch cls = true
  · rw [if_pos hneeded, if_pos (htag hneeded)]
    exact ⟨seq, _, hch, hpass ..⟩
  · rw [if_neg hneeded]
    exact ⟨s.mc.ethSeq, _, hch, hpass s.mc.ethSeq _⟩

/-- The controller has answered x; `dest` is whom it answered, w the windows of the mailbox, and l waits to be run. -/
def State.answered (s : State) (x : Nat × List Byte) (dest : Nat × Nat × Nat) (w : List MbWin) (l : List Instr) : State :=
  { s with pending := l, mc := { s.mc with resp := x, respTo := dest, windows := w } }

theorem respond_answered {q : McAsk} (hch : q.ch ≠ 0) (st : Nat) (pl : List Byte) : ∃ dest w, s.respond q st pl = s.answered (st, pl) dest w s.pending := by
  rw [State.respond, if_neg hch]
  exact ⟨_, _, rfl⟩

/-- A command that is let in and answers from a state t leaves t but for the answer, so that a property of what t holds beside it is one of what
the command leaves. -/
theorem answers_of_letIn (h : s.LetIn op cls r d) {st : Nat} {pl : List Byte} {t : Nat → State}
    (hexec : exec c s = onModule s fun s => s.mcRun op cls r f) (hf : ∀ n q, f (s.withEthSeq n) q d = (t n).respond q st pl)
    (hP : ∀ n dest w l, P ((t n).answered (st, pl) dest w l)) : Answers c s st pl P := by
  obtain ⟨n, q, hch, hrun⟩ := h.mcRun_eq f
  obtain ⟨dest, w, hanswer⟩ := respond_answered (s := t n) hch st pl
  have hnext : exec c s = .next ((t n).answered (st, pl) dest w s.pending) := by
    simp only [hexec, onModule, hrun, hf, hanswer]
    rfl
  exact ⟨_, hnext, rfl, hP n dest w s.pending⟩

end

/-! ## Fields of a payload -/
section
variable {l r : List Byte} {j k v : Nat}

theorem bytesLe_field (hl : l.length = j) (hv : v < 256 ^ k) : bytesLe (l ++ leBytes k v ++ r) j k = v := by
  rw [bytesLe, List.append_assoc, List.drop_left' hl, List.take_left' (leBytes_length k v), leNat_leBytes, Nat.mod_eq_of_lt hv]

theorem allZero_leBytes (k : Nat) : allZero (leBytes k 0) = true := by
  induction k with
  | zero => rfl
  | succ k ih => exact ih

theorem allZero_field {i : Nat} (hl : l.length = j) (hi : j + k = i) : allZero (((l ++ leBytes k 0 ++ r).take i).drop j) = true := by
  rw [List.take_left' (by rw [List.length_append, hl, leBytes_length, hi]), List.drop_left' hl, allZero_leBytes]

end

/-! ## Flash (R474) -/
section
variable {s : State}

theorem flashAt_congr {t : State} (h : s.mc.flash = t.mc.flash) (a : Nat) : s.flashAt a = t.flashAt a := by
  rw [State.flashAt, State.flashAt, h]

theorem flashErase_flashAt (s : State) (a n b : Nat) : (s.flashErase a n).flashAt b = if a ≤ b ∧ b < a + n then 0xFF else s.flashAt b := by
  by_cases hin : a ≤ b ∧ b < a + n
  · rw [if_pos hin]
    exact Tbl.get_filter_out _ _ _ _ fun _ => by simp [hin]
  · rw [if_neg hin]
    exact Tbl.get_filter_in _ _ _ _ fun _ => by simp only [hin, decide_false, Bool.not_false]

theorem flashSet_other {t : Tbl Byte} {a x : Nat} {l : List Byte} (h : x < a ∨ a + l.length ≤ x) :
    Tbl.get 0xFF (flashSet t a l) x = Tbl.get 0xFF t x := by
  induction l generalizing t a with
  | nil => rfl
  | cons b l ih =>
    rw [List.length_cons] at h
    rw [flashSet, ih (by omega), Tbl.get_set_other _ _ _ _ (by omega)]

theorem flashSet_same {t : Tbl Byte} {a i : Nat} {l : List Byte} (h : i < l.length) : Tbl.get 0xFF (flashSet t a l) (a + i) = l[i] := by
  induction l generalizing t a i with
  | nil => exact absurd h (Nat.not_lt_zero i)
  | cons b l ih =>
    cases i with
    | zero => rw [flashSet, flashSet_other (by omega)]; exact Tbl.get_set_same ..
    | succ i => rw [flashSet, show a + (i + 1) = a + 1 + i by omega, ih (Nat.lt_of_succ_lt_succ h)]; rfl

theorem flashWrite_flashBytes (s : State) (a : Nat) (l : List Byte) : (s.flashWrite a l).flashBytes a l.length = l := by
  refine List.ext_getElem (by simp [State.flashBytes]) fun i _ hi => ?_
  simp only [State.flashBytes, List.getElem_map, List.getElem_range]
  exact flashSet_same hi

theorem flashWrite_flashAt {a b : Nat} {l : List Byte} (h : b < a ∨ a + l.length ≤ b) : (s.flashWrite a l).flashAt b = s.flashAt b :=
  flashSet_other h

theorem imgRegion_lt (t : Nat) : imgRegion t < 256 ^ 4 := by
  unfold imgRegion
  split_ifs <;> decide

/-! The check of a copy does not ask who commanded. -/

theorem gSecs_withEthSeq (s : State) (n stop a k : Nat) : (s.withEthSeq n).gSecs stop a k = s.gSecs stop a k := by
  induction k generalizing a with
  | zero => rfl
  | succ k ih => rw [State.gSecs, State.gSecs, ih]; rfl

theorem graphOk_withEthSeq (s : State) (n c : Nat) : (s.withEthSeq n).graphOk c = s.graphOk c := by
  have hsecs : (s.withEthSeq n).graphSecs c = s.graphSecs c := by
    rw [State.graphSecs, State.graphSecs, gSecs_withEthSeq]
    rfl
  rw [State.graphOk, State.graphOk, hsecs]
  rfl

theorem imgCheck_withEthSeq (s : State) (n t c life : Nat) : (s.withEthSeq n).imgCheck t c life = s.imgCheck t c life := by
  have hfields : (s.withEthSeq n).imgFields t c = s.imgFields t c := rfl
  have hdigest : (s.withEthSeq n).imgDigest t c = s.imgDigest t c := rfl
  have hsigned : (s.withEthSeq n).imgSigned t c life = s.imgSigned t c life := rfl
  have hbundle : (s.withEthSeq n).bundle c = s.bundle c := rfl
  have hsvn : (s.withEthSeq n).imgSvn t c = s.imgSvn t c := rfl
  have hminver : (s.withEthSeq n).minVer t = s.minVer t := rfl
  have hkp : (s.withEthSeq n).kpOk c = s.kpOk c := rfl
  rw [State.imgCheck, State.imgCheck, hfields, hdigest, hsigned, hbundle, hsvn, hminver, hkp, graphOk_withEthSeq]

end

/-! ## The commands -/
section
variable {s : State} {q : McAsk} {x : Update}

/-- IMG_BEGIN of a type with a length that fits its region (R474). -/
theorem imgBegin_eq {t n : Nat} (hup : s.mc.up = true) (hlow : 1 ≤ t) (hhigh : t ≤ 6) (hn : n ≤ imgRegion t) :
    s.imgBegin q (leBytes 1 t ++ leBytes 3 0 ++ leBytes 4 n) =
      if s.openUpdate.isSome then s.respond q 1 []
      else ((s.flashErase (imgBase t (s.targetCopy t)) (imgRegion t)).setMc fun m =>
        { m with update := some ⟨t, s.targetCopy t, n, [], false⟩ }).respond q 0 (leBytes 8 (s.targetCopy t)) := by
  have hregion := imgRegion_lt t
  have htype : bytesLe (leBytes 1 t ++ leBytes 3 0 ++ leBytes 4 n) 0 1 = t := by
    rw [List.append_assoc]
    exact bytesLe_field (l := []) rfl (by omega)
  have htotal : bytesLe (leBytes 1 t ++ leBytes 3 0 ++ leBytes 4 n) 4 4 = n := by
    simpa only [List.append_nil] using bytesLe_field (l := leBytes 1 t ++ leBytes 3 0) (r := []) (j := 4) rfl (by omega : n < 256 ^ 4)
  have hzero : allZero (((leBytes 1 t ++ leBytes 3 0 ++ leBytes 4 n).take 4).drop 1) = true := allZero_field (leBytes_length 1 t) rfl
  have hlen : (leBytes 1 t ++ leBytes 3 0 ++ leBytes 4 n).length = 8 := rfl
  simp only [State.imgBegin, htype, htotal]
  refine if_neg ?_
  simp only [hlen, hzero, hup, Bool.not_true, Bool.false_eq_true, false_and, or_false, ne_eq, not_true_eq_false, false_or]
  omega

section
variable {o : Nat} {b : List Byte}

/-- The fields of IMG_DATA: offset and data. -/
theorem imgData_fields (ho : o < 2 ^ 32) :
    let d := leBytes 4 o ++ leBytes 4 0 ++ b
    bytesLe d 0 4 = o ∧ d.length = 8 + b.length ∧ allZero ((d.take 8).drop 4) = true ∧ d.drop 8 = b := by
  refine ⟨?_, List.length_append, allZero_field (leBytes_length 4 o) rfl, List.drop_left' rfl⟩
  rw [List.append_assoc]
  exact bytesLe_field (l := []) rfl ho

/-- IMG_DATA within the update and beside what it has had (R475). -/
theorem imgData_writes (hopen : s.openUpdate = some x) (ho : o < 2 ^ 32) (hlen : b.length ≤ 2024) (hoff : o % 8 = 0) (hwhole : b.length % 8 = 0)
    (hsome : 8 ≤ b.length) (hend : o + b.length ≤ x.total) (hnew : ∀ q ∈ x.ranges, q.2 ≤ o ∨ o + b.length ≤ q.1) :
    s.imgData q (leBytes 4 o ++ leBytes 4 0 ++ b) = ((s.flashWrite (imgBase x.type x.copy + o) b).setMc fun m =>
      { m with update := some { x with ranges := x.ranges ++ [(o, o + b.length)] } }).respond q 0 [] := by
  obtain ⟨hat, hsize, hzero, hdata⟩ := imgData_fields (b := b) ho
  have hfresh : x.ranges.any (fun r => decide (r.1 < o + b.length ∧ o < r.2)) = false := by
    rw [List.any_eq_false]
    intro y hy
    have := hnew y hy
    simp only [decide_eq_true_eq]
    omega
  simp only [State.imgData, hopen, hat, hsize, hdata, Nat.add_sub_cancel_left]
  refine if_neg ?_
  simp only [hzero, hfresh, Bool.not_true, Bool.false_eq_true, or_false, false_or]
  omega

theorem imgData_beyond (hopen : s.openUpdate = some x) (ho : o < 2 ^ 32) (hend : x.total < o + b.length) :
    s.imgData q (leBytes 4 o ++ leBytes 4 0 ++ b) = s.respond q 2 [] := by
  obtain ⟨hat, hsize, -, -⟩ := imgData_fields (b := b) ho
  simp only [State.imgData, hopen, hat, hsize, Nat.add_sub_cancel_left, hend, true_or, or_true, if_true]

end

/-- The copy that an update wrote fails its check, or is not newer than the copy in use (R476). -/
abbrev State.imgFails (s : State) (x : Update) : Prop :=
  s.imgCheck x.type x.copy s.mc.life ≠ 0 ∨ (s.inUse x.type ≠ 0 ∧ s.copySeq x.type x.copy ≤ s.copySeq x.type (s.inUse x.type))

theorem copySeq_setUpdate (s : State) (x : Option Update) (t c : Nat) :
    (s.setMc fun m => { m with update := x }).copySeq t c = s.copySeq t c := rfl

theorem imgEnd_none (hopen : s.openUpdate = none) (d : List Byte) : s.imgEnd q d = s.respond q 7 [] := by
  simp only [State.imgEnd, hopen]

theorem imgEnd_fails {k : Nat} (hopen : s.openUpdate = some x) (hcheck : s.imgCheck x.type x.copy s.mc.life = k) (hfails : s.imgFails x) :
    s.imgEnd q [] = (((s.setMc fun m => { m with update := some { x with done := true } }).flashErase (imgBase x.type x.copy) 512).setMc fun m =>
      { m with update := none }).respond q (if k = 5 then 6 else 5) [] := by
  subst hcheck
  simp only [State.imgEnd, hopen, copySeq_setUpdate, ne_eq, not_true_eq_false, if_false]
  exact if_pos hfails

theorem imgEnd_passes (hup : s.mc.up = true) (hopen : s.openUpdate = some x) (hpasses : ¬ s.imgFails x) :
    s.imgEnd q [] = (s.setMc fun m => { m with update := some { x with done := true } }).respond q 0 [] := by
  simp only [State.imgEnd, hopen, copySeq_setUpdate, ne_eq, not_true_eq_false, if_false]
  exact (if_neg hpasses).trans (if_pos hup)

theorem imgFails_withEthSeq (n : Nat) : (s.withEthSeq n).imgFails x ↔ s.imgFails x := by
  rw [State.imgFails, imgCheck_withEthSeq]
  rfl

theorem imgAbort_none (hnone : s.mc.update = none) : s.imgAbort q [] = s.respond q 7 [] := by
  simp only [State.imgAbort, hnone]
  rfl

theorem imgAbort_some (hsome : s.mc.update = some x) : s.imgAbort q [] =
    if x.done then s.respond q 17 [] else (s.setMc fun m => { m with update := none }).respond q 16 [] := by
  simp only [State.imgAbort, hsome]
  rfl

section
variable {t : Nat}

/-- The type that MINVER_RAISE names, of no open update (R477). -/
theorem minverRaise_eq (hlow : 1 ≤ t) (hhigh : t ≤ 5) (hopen : s.openUpdate = none) : s.minverRaise q (leBytes 1 t ++ leBytes 7 0) =
    if s.inUse t = 0 ∨ !s.mc.clean ∨ s.now < 350 * msec ∨ s.imgSvn t (s.inUse t) ≤ s.minVer t then s.respond q 7 []
    else (s.setMc fun m => { m with minver := m.minver.set (t - 1) (s.imgSvn t (s.inUse t)) }).done q := by
  have htype : bytesLe (leBytes 1 t ++ leBytes 7 0) 0 1 = t := bytesLe_field (l := []) rfl (by omega)
  have hlen : (leBytes 1 t ++ leBytes 7 0).length = 8 := rfl
  have hzero : allZero ((leBytes 1 t ++ leBytes 7 0).drop 1) = true := allZero_leBytes 7
  simp only [State.minverRaise, htype]
  rw [if_neg, hopen, Option.any_none, if_neg Bool.false_ne_true]
  simp only [hlen, hzero, Bool.not_true, Bool.false_eq_true, or_false, ne_eq, not_true_eq_false, false_or]
  omega

theorem minVer_set {v : Nat} (hlow : 1 ≤ t) (hsize : t ≤ s.mc.minver.length) :
    let u := s.setMc fun m => { m with minver := m.minver.set (t - 1) v }
    u.minVer t = v ∧ ∀ k, 1 ≤ k → k ≠ t → u.minVer k = s.minVer k := by
  refine ⟨?_, fun k hk hne => ?_⟩
  · simp only [State.minVer, State.setMc]
    rw [List.getElem?_set_self (by omega), Option.getD_some]
  · simp only [State.minVer, State.setMc]
    rw [List.getElem?_set_ne (by omega)]

end

/-! KSECRET_LOAD (R256). -/
section
variable {p k ip : Nat} {b : List Byte}

/-- The bytes before the public key: pair, context and block. -/
def secretHead (p k ip : Nat) : List Byte := leBytes 1 p ++ leBytes 3 0 ++ leBytes 4 k ++ leBytes 2 ip ++ leBytes 6 0

/-- The plaintext of a secret: a key by ECDH with the public key that comes with it, and the head as additional data. -/
def secretText (p k ip : Nat) (b : List Byte) : Option (List Byte) :=
  let key := (Config.sha384 (beBytes 48 (Config.ecdhKey (beNat (b.take 96))) ++ deviceId)).toNat / 2 ^ 128
  Config.decrypt (key + 1) ((secretHead p k ip ++ b).take 16) ((b.drop 96).take 12) ((b.drop 108).take 16) (b.drop 124)

/-- The wide tokens that carry a plaintext to pair p, word by word. -/
def secretTokens (p k ip : Nat) (t : List Byte) : List Msg :=
  (List.range (t.length / 8)).map fun i =>
    tokenMsg 69 (mkTag 0 true false true k 0 (272 + 2 * p) ip 0) (mkWide (BitVec.ofNat 64 i) (BitVec.ofNat 64 (leNat ((t.drop (8 * i)).take 8)))) 0 .none

theorem secretHead_fields (hp : p < 2) (hk : k < 256) (hip : ip < 2 ^ 13) :
    let d := secretHead p k ip ++ b
    bytesLe d 0 1 = p ∧ bytesLe d 4 4 = k ∧ bytesLe d 8 2 = ip ∧ allZero ((d.take 4).drop 1) = true ∧ allZero ((d.take 16).drop 10) = true := by
  have hpair := bytesLe_field (l := []) (k := 1) (r := leBytes 3 0 ++ leBytes 4 k ++ leBytes 2 ip ++ leBytes 6 0 ++ b) rfl (by omega : p < 256 ^ 1)
  have hctx := bytesLe_field (l := leBytes 1 p ++ leBytes 3 0) (r := leBytes 2 ip ++ leBytes 6 0 ++ b) rfl (by omega : k < 256 ^ 4)
  have hblock := bytesLe_field (l := leBytes 1 p ++ leBytes 3 0 ++ leBytes 4 k) (r := leBytes 6 0 ++ b) rfl (by omega : ip < 256 ^ 2)
  have hzero := allZero_field (k := 3) (r := leBytes 4 k ++ leBytes 2 ip ++ leBytes 6 0 ++ b) (leBytes_length 1 p) rfl
  simp only [secretHead, List.append_assoc, List.nil_append] at *
  refine ⟨hpair, hctx, hblock, hzero, ?_⟩
  simpa only [List.append_assoc] using
    allZero_field (l := leBytes 1 p ++ leBytes 3 0 ++ leBytes 4 k ++ leBytes 2 ip) (j := 10) (k := 6) (r := b) rfl rfl

/-- KSECRET_LOAD of a payload of the form and size that R256 gives. -/
theorem ksecretLoad_eq (hp : p < 2) (hk : k < 256) (hip : ip < 2 ^ 13) (hleast : 132 ≤ b.length) (hmost : b.length ≤ 2012)
    (hwhole : b.length % 8 = 4) : s.ksecretLoad q (secretHead p k ip ++ b) =
      if s.pairState p ≠ 1 then s.respond q 7 []
      else match secretText p k ip b with
        | none => s.respond q 4 []
        | some t => ((secretTokens p k ip t).foldl (fun s m => s.unitSend 67 m) s).done q := by
  obtain ⟨hpair, hctx, hblock, hzero, hspare⟩ := secretHead_fields (b := b) hp hk hip
  have hlen : (secretHead p k ip ++ b).length = 16 + b.length := by rw [List.length_append]; rfl
  have hdrop : ∀ j, (secretHead p k ip ++ b).drop (16 + j) = b.drop j := fun j => List.drop_length_add_append (l₁ := secretHead p k ip) j
  simp only [State.ksecretLoad, hpair, hctx, hblock]
  rw [if_neg, hdrop 0, hdrop 96, hdrop 108, hdrop 124, List.drop_zero]
  · simp only [secretText, secretTokens, List.foldl_map, bytesLe, pairNo]
    rfl
  · simp only [hlen, hzero, hspare, Bool.not_true, Bool.false_eq_true, or_false]
    omega

/-- Messages of a unit queue at its interface in their order. -/
theorem foldl_unitSend (s : State) (e : Nat) (l : List Msg) : ((l.foldl (fun s m => s.unitSend e m) s).ni e).outQ = (s.ni e).outQ ++ l := by
  induction l generalizing s with
  | nil => simp
  | cons m l ih => rw [List.foldl_cons, ih, unitSend_outQ, List.append_assoc, List.singleton_append]

end
end

/-! ## What the controller answers -/
section
variable {s : State} {r : McReq} {x : Update}

/-- An update erases the copy that it will write (R474). -/
theorem imgBegin_opens {t n : Nat} (h : s.LetIn 0x20 2 r (leBytes 1 t ++ leBytes 3 0 ++ leBytes 4 n)) (hlow : 1 ≤ t) (hhigh : t ≤ 6)
    (hn : n ≤ imgRegion t) (hopen : s.openUpdate = none) : Answers (.imgBegin r) s 0 (leBytes 8 (s.targetCopy t)) fun u =>
      u.mc.update = some ⟨t, s.targetCopy t, n, [], false⟩ ∧
      ∀ a, u.flashAt a = if imgBase t (s.targetCopy t) ≤ a ∧ a < imgBase t (s.targetCopy t) + imgRegion t then 0xFF else s.flashAt a := by
  have hnone : ¬ s.openUpdate.isSome = true := by simp [hopen]
  exact answers_of_letIn h rfl (fun m _ => (imgBegin_eq (s := s.withEthSeq m) h.up hlow hhigh hn).trans (if_neg hnone)) fun _ _ _ _ =>
    ⟨rfl, fun a => (flashAt_congr (t := s.flashErase (imgBase t (s.targetCopy t)) (imgRegion t)) rfl a).trans (flashErase_flashAt ..)⟩

theorem imgBegin_busy {t n : Nat} (h : s.LetIn 0x20 2 r (leBytes 1 t ++ leBytes 3 0 ++ leBytes 4 n)) (hlow : 1 ≤ t) (hhigh : t ≤ 6)
    (hn : n ≤ imgRegion t) (hopen : s.openUpdate.isSome = true) :
    Answers (.imgBegin r) s 1 [] fun u => u.mc.flash = s.mc.flash ∧ u.mc.update = s.mc.update :=
  answers_of_letIn h rfl (fun m _ => (imgBegin_eq (s := s.withEthSeq m) h.up hlow hhigh hn).trans (if_pos hopen)) fun _ _ _ _ => ⟨rfl, rfl⟩

/-- An update ends with the check of its copy, whose header is erased when it fails (R476). -/
theorem imgEnd_runs (h : s.LetIn 0x22 2 r []) (hopen : s.openUpdate = some x) : Runs (.imgEnd r) s fun u =>
    if s.imgFails x then u.mc.resp = (if s.imgCheck x.type x.copy s.mc.life = 5 then 6 else 5, []) ∧ u.mc.update = none ∧
      ∀ i, i < 512 → u.flashAt (imgBase x.type x.copy + i) = 0xFF
    else u.mc.resp = (0, []) ∧ u.mc.update = some { x with done := true } ∧ u.mc.flash = s.mc.flash := by
  by_cases hfails : s.imgFails x
  · simp only [if_pos hfails]
    exact answers_of_letIn h rfl
      (fun m _ => imgEnd_fails (s := s.withEthSeq m) hopen (imgCheck_withEthSeq ..) ((imgFails_withEthSeq m).mpr hfails)) fun _ _ _ _ =>
        ⟨rfl, fun i hi => (flashAt_congr (t := s.flashErase (imgBase x.type x.copy) 512) rfl _).trans
          ((flashErase_flashAt ..).trans (if_pos (by omega)))⟩
  · simp only [if_neg hfails]
    exact answers_of_letIn h rfl (fun m _ => imgEnd_passes (s := s.withEthSeq m) h.up hopen (mt (imgFails_withEthSeq m).mp hfails))
      fun _ _ _ _ => ⟨rfl, rfl⟩

/-- An abort comes too late once the check has passed (R476). -/
theorem imgAbort_answers (h : s.LetIn 0x23 2 r []) (hsome : s.mc.update = some x) :
    Answers (.imgAbort r) s (if x.done then 17 else 16) [] fun u => u.mc.update = if x.done then some x else none := by
  have habort (m : Nat) (q : McAsk) := imgAbort_some (s := s.withEthSeq m) (q := q) hsome
  by_cases hdone : x.done = true
  · simp only [if_pos hdone] at habort ⊢
    exact answers_of_letIn h rfl habort fun _ _ _ _ => hsome
  · simp only [if_neg hdone] at habort ⊢
    exact answers_of_letIn h rfl habort fun _ _ _ _ => rfl

section
variable {t : Nat} (h : s.LetIn 0x24 2 r (leBytes 1 t ++ leBytes 7 0)) (hlow : 1 ≤ t) (hhigh : t ≤ 5) (hopen : s.openUpdate = none)
include h hlow hhigh hopen

/-- A minimum version rises to the SVN of the copy in use, and no other one changes (R477). -/
theorem minverRaise_raises (hsize : s.mc.minver.length = 5) (huse : s.inUse t ≠ 0) (hclean : s.mc.clean = true) (htime : 350000000 ≤ s.now)
    (hless : s.minVer t < s.imgSvn t (s.inUse t)) : Answers (.minverRaise r) s 0 [] fun u =>
      u.minVer t = s.imgSvn t (s.inUse t) ∧ ∀ k, 1 ≤ k → k ≠ t → u.minVer k = s.minVer k := by
  have hallowed : ¬ (s.inUse t = 0 ∨ !s.mc.clean ∨ s.now < 350 * msec ∨ s.imgSvn t (s.inUse t) ≤ s.minVer t) := by
    simp only [huse, hclean, msec, Bool.not_true, Bool.false_eq_true, false_or]
    omega
  exact answers_of_letIn h rfl (fun m _ => (minverRaise_eq (s := s.withEthSeq m) hlow hhigh hopen).trans (if_neg hallowed)) fun _ _ _ _ =>
    minVer_set hlow (hhigh.trans hsize.ge)

theorem minverRaise_keeps (hkeep : s.imgSvn t (s.inUse t) ≤ s.minVer t ∨ s.mc.clean = false) :
    Answers (.minverRaise r) s 7 [] fun u => u.mc.minver = s.mc.minver := by
  have hbarred : s.inUse t = 0 ∨ !s.mc.clean ∨ s.now < 350 * msec ∨ s.imgSvn t (s.inUse t) ≤ s.minVer t := by
    rcases hkeep with hkeep | hkeep
    · exact .inr (.inr (.inr hkeep))
    · exact .inr (.inl (by rw [hkeep]; rfl))
  exact answers_of_letIn h rfl (fun m _ => (minverRaise_eq (s := s.withEthSeq m) hlow hhigh hopen).trans (if_pos hbarred)) fun _ _ _ _ => rfl

end

section
variable {p k ip : Nat} {b : List Byte} (h : s.LetIn 0x25 2 r (secretHead p k ip ++ b)) (hp : p < 2) (hk : k < 256) (hip : ip < 2 ^ 13)
  (hleast : 132 ≤ b.length) (hmost : b.length ≤ 2012) (hwhole : b.length % 8 = 4)
include h hp hk hip hleast hmost hwhole

theorem ksecretLoad_stopped (hstate : s.pairState p ≠ 1) : Answers (.ksecretLoad r) s 7 [] fun u => u.nis = s.nis :=
  answers_of_letIn h rfl (fun m _ => (ksecretLoad_eq (s := s.withEthSeq m) hp hk hip hleast hmost hwhole).trans (if_pos hstate)) fun _ _ _ _ => rfl

/-- A secret reaches a running pair as the tokens that its plaintext gives, if its tag holds (R256). -/
theorem ksecretLoad_runs (hstate : s.pairState p = 1) : Runs (.ksecretLoad r) s fun u => match secretText p k ip b with
    | none => u.mc.resp = (4, []) ∧ u.nis = s.nis
    | some t => u.mc.resp = (0, []) ∧ (u.ni 67).outQ = (s.ni 67).outQ ++ secretTokens p k ip t := by
  have hload (m : Nat) (q : McAsk) :=
    (ksecretLoad_eq (s := s.withEthSeq m) (q := q) hp hk hip hleast hmost hwhole).trans (if_neg (not_not.mpr hstate))
  cases htext : secretText p k ip b with
  | none =>
    simp only [htext] at hload
    exact answers_of_letIn h rfl hload fun _ _ _ _ => rfl
  | some t =>
    simp only [htext] at hload
    exact answers_of_letIn h rfl hload fun m _ _ _ => foldl_unitSend (s.withEthSeq m) 67 (secretTokens p k ip t)

end

section
variable {o : Nat} {b : List Byte} (h : s.LetIn 0x21 2 r (leBytes 4 o ++ leBytes 4 0 ++ b)) (hopen : s.openUpdate = some x) (ho : o < 2 ^ 32)
include h hopen ho

/-- Data of an update is programmed once, and no other byte of flash changes (R475). -/
theorem imgData_programs (hoff : o % 8 = 0) (hwhole : b.length % 8 = 0) (hsome : 8 ≤ b.length) (hend : o + b.length ≤ x.total)
    (hnew : ∀ q ∈ x.ranges, q.2 ≤ o ∨ o + b.length ≤ q.1) : Answers (.imgData r) s 0 [] fun u =>
      u.flashBytes (imgBase x.type x.copy + o) b.length = b ∧ u.mc.update = some { x with ranges := x.ranges ++ [(o, o + b.length)] } ∧
      ∀ a, a < imgBase x.type x.copy + o ∨ imgBase x.type x.copy + o + b.length ≤ a → u.flashAt a = s.flashAt a := by
  have hmost : b.length ≤ 2024 := by
    have hlen := h.len
    have hsize : (leBytes 4 o ++ leBytes 4 0 ++ b).length = 8 + b.length := List.length_append
    split at hlen <;> omega
  exact answers_of_letIn h rfl (fun m _ => imgData_writes (s := s.withEthSeq m) hopen ho hmost hoff hwhole hsome hend hnew) fun _ _ _ _ =>
    ⟨flashWrite_flashBytes s _ b, rfl, fun a ha => (flashAt_congr (t := s.flashWrite (imgBase x.type x.copy + o) b) rfl a).trans (flashWrite_flashAt ha)⟩

theorem imgData_refused (hend : x.total < o + b.length) :
    Answers (.imgData r) s 2 [] fun u => u.mc.flash = s.mc.flash ∧ u.mc.update = s.mc.update :=
  answers_of_letIn h rfl (fun m _ => imgData_beyond (s := s.withEthSeq m) hopen ho hend) fun _ _ _ _ => ⟨rfl, rfl⟩

end
end

/-- Settles O47: one lemma for each answer of a command, whose effect is read off the fields of its payload. BUSY for a second IMG_BEGIN, and STATE
for IMG_END and IMG_ABORT without an update, are the model's reading (log 40). -/
theorem updateCommands : Obligations.UpdateCommands := by
  unfold Obligations.UpdateCommands
  intro s r d
  refine ⟨?imgBegin, ?imgData, ?imgEnd, ?imgAbort, ?minverRaise, ?ksecretLoad⟩
  case imgBegin =>
    rintro h t n hlow hhigh hn rfl
    exact ⟨imgBegin_opens h hlow hhigh hn, imgBegin_busy h hlow hhigh hn⟩
  case imgData =>
    rintro h x o b hopen rfl ho
    exact ⟨imgData_programs h hopen ho, imgData_refused h hopen ho⟩
  case imgEnd =>
    rintro h rfl
    exact ⟨fun hnone => answers_of_letIn h rfl (fun m _ => imgEnd_none (s := s.withEthSeq m) hnone []) fun _ _ _ _ => rfl,
      fun x hopen => imgEnd_runs h hopen⟩
  case imgAbort =>
    rintro h rfl
    exact ⟨fun hnone => answers_of_letIn h rfl (fun m _ => imgAbort_none (s := s.withEthSeq m) hnone) fun _ _ _ _ => hnone,
      fun x hsome => imgAbort_answers h hsome⟩
  case minverRaise =>
    rintro h t hlow hhigh rfl hopen hsize huse
    exact ⟨minverRaise_raises h hlow hhigh hopen hsize huse, minverRaise_keeps h hlow hhigh hopen⟩
  case ksecretLoad =>
    rintro h p k ip b hp hk hip hleast hmost hwhole rfl
    exact ⟨ksecretLoad_stopped h hp hk hip hleast hmost hwhole, ksecretLoad_runs h hp hk hip hleast hmost hwhole⟩

end Sys2Proof.Machine
end
